-- ==== Sys2Proof/Word.lean ====
section
/-! DEFINITION. The machine's words: bytes, 32-bit register values, 64-bit values and 32-lane masks (R68, R69, R70). -/

namespace Sys2Proof

/-- One byte. -/
abbrev Byte := BitVec 8

/-- One 32-bit register value. -/
abbrev Word := BitVec 32

/-- One 64-bit value. -/
abbrev DWord := BitVec 64

/-- One bit per lane of a group, lane l in bit l (R111). -/
abbrev Mask := BitVec 32

/-- The 32 lanes of one vector register, lane 0 first (R68). -/
abbrev Lanes := List (BitVec 32)

end Sys2Proof
end

