-- ==== Sys2Proof/Syntax.lean ====
section
/-! DEFINITION. The syntax of the block's commands: their operands, and Instr, one constructor per row of
spec/opcode_table.json. -/

namespace Sys2Proof

/-- A group of a block: the model's number of the block and the group's index in it (R66). -/
structure GroupRef where
  block : Nat
  group : Fin 32
deriving DecidableEq, Repr

/-- The fields of an instruction word but its class and opcode, which the constructor gives (Table 3-6); `long` is the
second word of a 128-bit instruction. -/
structure Ins where
  long : Option DWord
  guard : BitVec 3
  gneg : Bool
  dst : BitVec 8
  a : BitVec 8
  b : BitVec 8
  c : BitVec 8
  mod : BitVec 16
deriving DecidableEq, Repr

/-- The outcome of the residue and parity checks of an MXU step: they pass, they fail and pass on recomputation, they fail
twice, or the accumulator storage check fails (R169 to R171). -/
inductive Residue where
  | pass | replay | fail | storage
deriving DecidableEq, Repr


/-- A mailbox request: the function and the slot that hold it (R511). -/
structure Req where
  fn : Fin 64
  slot : Fin 8
deriving DecidableEq, Repr


/-- What a start-up step's own checks found when its wait ends (Table 16-8): whether they pass, at step 1 and 6 which of two
reasons they fail for, and the units that fail without failing the start: compute dies that fail bond training at step 6,
channels at step 8, cores at step 10, ports left unconnected at step 11. -/
structure StageReport where
  ok : Bool
  second : Bool
  failing : List Nat
deriving DecidableEq, Repr


/-- What a debug session reads or writes of a group (R566): a vector register's lane, a uniform register, a predicate, a 32-bit
word of its block's local memory, or a word of an accumulator unit. -/
inductive DbgTarget where
  | vreg (n : Fin 256) (lane : Fin 32)
  | ureg (n : Fin 48)
  | pred (n : Fin 8)
  | lmem (addr : BitVec 19)
  | acc (unit : Fin 8) (word : Fin 256)
deriving DecidableEq, Repr

/-- A request that arrives from a peer device over LBX (R501): the sender, its tag, and the export and offset that it names; without
an export, trunk traffic of a twin that names an address of a paired partition (R501). -/
structure PeerMsg where
  d : Fin 8
  tag : Nat
  exp : Option (Fin 256)
  part : Fin 16
  off : Nat
deriving DecidableEq, Repr

/-- A read that arrives at its home: a request of this device, by number, or a peer's, with the sectors it needs. -/
inductive ReadMsg where
  | held (id : Nat)
  | peer (m : PeerMsg) (need : BitVec 4)
deriving DecidableEq, Repr

/-- A read that no engine makes (R269, R280): one that arrived before, by number, one of the Hithen controller's cache, or a peer's. -/
inductive OuterMsg where
  | held (id : Nat)
  | hithen (line tag : Nat)
  | peer (m : PeerMsg) (need : BitVec 4)
deriving DecidableEq, Repr

/-- A line write that arrives at its home: a request, by number, a line of a tile of a TST, or a peer's, with its bytes and mask. -/
inductive WriteMsg where
  | held (id : Nat)
  | tst (op : Nat) (tile line : Fin 16)
  | peer (m : PeerMsg) (data : BitVec 1024) (mask : BitVec 128)
deriving DecidableEq, Repr

/-- An atomic that arrives at its home: a request, by number, or a peer's for one lane, its operation numbered in the order of Table
3-11's rows, with its size in bytes, operand, new value and RET. -/
inductive AtomMsg where
  | held (id : Nat)
  | peer (m : PeerMsg) (op : Fin 11) (size : Fin 17) (arg new : BitVec 128) (ret : Bool)
deriving DecidableEq, Repr

/-- A spent hint that arrives at its home. -/
inductive SpentMsg where
  | held (id : Nat)
  | peer (m : PeerMsg)
deriving DecidableEq, Repr

/-- A peer's read of a whole tile: one that arrived before, by number, or a new one. -/
inductive TileMsg where
  | held (id : Nat)
  | peer (m : PeerMsg)
deriving DecidableEq, Repr

/-- A semaphore operation that arrives at its home, with the amount. -/
inductive SemMsg where
  | held (id : Nat)
  | peer (m : PeerMsg) (n : Word)
deriving DecidableEq, Repr

/-- What a peer's answer to a read carries: a line and its poison and spent indications (R303, R316). -/
structure PeerData where
  data : BitVec 1024
  poison : Bool
  spent : Bool
deriving DecidableEq, Repr

/-- An entry of an MXU's queue, with whether a readout of it fails the storage check (R169, R171). -/
structure MxuEntry where
  id : Nat
  storage : Bool
deriving DecidableEq, Repr

/-- The group that waits for a footprint, and the group whose footprint fails the storage check as it is evicted for it, if one does (R146,
R171). -/
structure Eviction where
  group : GroupRef
  bad : Option GroupRef
deriving DecidableEq, Repr

/-- What a completion tells: its request, and whether a SEM.REL saturated at the home that answers (R130, R504). -/
structure CmpMsg where
  id : Nat
  sat : Bool
deriving DecidableEq, Repr

/-- What comes with the data of a memory read: an uncorrectable TSS line (R305), and the count of on-die ECC reports (R301). -/
structure ReadReport where
  tssBad : Bool
  onDie : Nat
deriving DecidableEq, Repr

/-- The twin's copy of a tile: its CRC and its lines (R323). -/
structure TwinTile where
  crc : Word
  data : List (BitVec 1024)
deriving DecidableEq, Repr

/-- What a restoring core finds in a block's save tiles (Table 13-6): sound, a CRC that does not match, or poison. -/
inductive SaveCheck where
  | sound | corrupt | poisoned
deriving DecidableEq, Repr

/-- The commands of the block: one constructor per row of spec/opcode_table.json. -/
inductive Instr where
  /-- IADD (R108). Vector integer add modulo 2^32 in each selected lane. -/
  | iadd (g : GroupRef) (i : Ins)
  /-- ISUB (R108). Vector integer subtract modulo 2^32 in each selected lane. -/
  | isub (g : GroupRef) (i : Ins)
  /-- IMUL (R108). Low 32 bits of the vector integer product. -/
  | imul (g : GroupRef) (i : Ins)
  /-- IMULHI_S (R108). High 32 bits of the signed 64-bit product. -/
  | imulhiS (g : GroupRef) (i : Ins)
  /-- IMULHI_U (R108). High 32 bits of the unsigned 64-bit product. -/
  | imulhiU (g : GroupRef) (i : Ins)
  /-- IMAD (R108). Low 32 bits of A times B plus C. -/
  | imad (g : GroupRef) (i : Ins)
  /-- IMIN_S (R108). Signed vector integer minimum. -/
  | iminS (g : GroupRef) (i : Ins)
  /-- IMIN_U (R108). Unsigned vector integer minimum. -/
  | iminU (g : GroupRef) (i : Ins)
  /-- IMAX_S (R108). Signed vector integer maximum. -/
  | imaxS (g : GroupRef) (i : Ins)
  /-- IMAX_U (R108). Unsigned vector integer maximum. -/
  | imaxU (g : GroupRef) (i : Ins)
  /-- IABS (R108). Signed magnitude of A, with 0x8000_0000 unchanged. -/
  | iabs (g : GroupRef) (i : Ins)
  /-- IADD64 (R108). Register-pair add modulo 2^64. -/
  | iadd64 (g : GroupRef) (i : Ins)
  /-- ISUB64 (R108). Register-pair subtract modulo 2^64. -/
  | isub64 (g : GroupRef) (i : Ins)
  /-- IMADW_U (R108). Unsigned widening multiply-add into a register pair. -/
  | imadwU (g : GroupRef) (i : Ins)
  /-- IMADW_S (R108). Signed widening multiply-add into a register pair. -/
  | imadwS (g : GroupRef) (i : Ins)
  /-- FADD (R207). FP32 add, rounded to nearest even. -/
  | fadd (g : GroupRef) (i : Ins)
  /-- FSUB (R207). FP32 subtract, rounded to nearest even. -/
  | fsub (g : GroupRef) (i : Ins)
  /-- FMUL (R207). FP32 multiply, rounded to nearest even. -/
  | fmul (g : GroupRef) (i : Ins)
  /-- FFMA (R207). FP32 fused multiply-add, rounded once. -/
  | ffma (g : GroupRef) (i : Ins)
  /-- FMIN (R108). FP32 minimum with the stated NaN and signed-zero rules. -/
  | fmin (g : GroupRef) (i : Ins)
  /-- FMAX (R108). FP32 maximum with the stated NaN and signed-zero rules. -/
  | fmax (g : GroupRef) (i : Ins)
  /-- FABS (R108). Clears the sign bit; a NaN gives the canonical NaN. -/
  | fabs (g : GroupRef) (i : Ins)
  /-- FNEG (R108). Inverts the sign bit; a NaN gives the canonical NaN. -/
  | fneg (g : GroupRef) (i : Ins)
  /-- FRINT (R108). Nearest integral value, ties to even. -/
  | frint (g : GroupRef) (i : Ins)
  /-- FTRUNC (R108). Integral value toward zero. -/
  | ftrunc (g : GroupRef) (i : Ins)
  /-- FFLOOR (R108). Integral value toward minus infinity. -/
  | ffloor (g : GroupRef) (i : Ins)
  /-- FCEIL (R108). Integral value toward plus infinity. -/
  | fceil (g : GroupRef) (i : Ins)
  /-- HADD2 (R208). Paired FP16 or BF16 add. -/
  | hadd2 (g : GroupRef) (i : Ins)
  /-- HSUB2 (R208). Paired FP16 or BF16 subtract. -/
  | hsub2 (g : GroupRef) (i : Ins)
  /-- HMUL2 (R208). Paired FP16 or BF16 multiply. -/
  | hmul2 (g : GroupRef) (i : Ins)
  /-- HFMA2 (R208). Paired FP16 or BF16 fused multiply-add. -/
  | hfma2 (g : GroupRef) (i : Ins)
  /-- HMIN2 (R208). Paired 16-bit floating-point minimum. -/
  | hmin2 (g : GroupRef) (i : Ins)
  /-- HMAX2 (R208). Paired 16-bit floating-point maximum. -/
  | hmax2 (g : GroupRef) (i : Ins)
  /-- ISETP (R108). Sets a predicate from a 32-bit integer comparison. -/
  | isetp (g : GroupRef) (i : Ins)
  /-- ISETP64 (R108). Sets a predicate from a 64-bit integer comparison. -/
  | isetp64 (g : GroupRef) (i : Ins)
  /-- FSETP (R108). Sets a predicate from an FP32 comparison. -/
  | fsetp (g : GroupRef) (i : Ins)
  /-- SEL (R108). Selects A or B per lane by the PSRC predicate. -/
  | sel (g : GroupRef) (i : Ins)
  /-- PLOP (R108). Sets a predicate to a logic function of two predicates. -/
  | plop (g : GroupRef) (i : Ins)
  /-- P2V (R108). Writes 1 or 0 per lane from a predicate. -/
  | p2v (g : GroupRef) (i : Ins)
  /-- V2P (R108). Sets a predicate where A is non-zero. -/
  | v2p (g : GroupRef) (i : Ins)
  /-- AND (R108). Vector bitwise AND. -/
  | and (g : GroupRef) (i : Ins)
  /-- OR (R108). Vector bitwise OR. -/
  | or (g : GroupRef) (i : Ins)
  /-- XOR (R108). Vector bitwise XOR. -/
  | xor (g : GroupRef) (i : Ins)
  /-- NOT (R108). Vector bitwise NOT. -/
  | not (g : GroupRef) (i : Ins)
  /-- SHL (R108). Vector shift left by B mod 32. -/
  | shl (g : GroupRef) (i : Ins)
  /-- SHR_U (R108). Vector logical shift right by B mod 32. -/
  | shrU (g : GroupRef) (i : Ins)
  /-- SHR_S (R108). Vector arithmetic shift right by B mod 32. -/
  | shrS (g : GroupRef) (i : Ins)
  /-- BFE_U (R108). Zero-extended bit-field extract. -/
  | bfeU (g : GroupRef) (i : Ins)
  /-- BFE_S (R108). Sign-extended bit-field extract. -/
  | bfeS (g : GroupRef) (i : Ins)
  /-- BFI (R108). Bit-field insert of A into C. -/
  | bfi (g : GroupRef) (i : Ins)
  /-- POPC (R108). Population count of A. -/
  | popc (g : GroupRef) (i : Ins)
  /-- CLZ (R108). Leading-zero count of A. -/
  | clz (g : GroupRef) (i : Ins)
  /-- BREV (R108). Bit-order reversal of A. -/
  | brev (g : GroupRef) (i : Ins)
  /-- MOV (R108). Vector register move. -/
  | mov (g : GroupRef) (i : Ins)
  /-- MOV64 (R108). Vector register-pair move. -/
  | mov64 (g : GroupRef) (i : Ins)
  /-- S2V (R108). Reads a special register into a vector register. -/
  | s2v (g : GroupRef) (i : Ins)
  /-- CVT (R108). Converts between formats under RTZ, SAT and R200. -/
  | cvt (g : GroupRef) (i : Ins)
  /-- CVT2 (R108). Converts two FP32 values into a packed 16-bit pair. -/
  | cvt2 (g : GroupRef) (i : Ins)
  /-- RCP (R209). Reciprocal to within 2 ulp. -/
  | rcp (g : GroupRef) (i : Ins)
  /-- RSQ (R209). Reciprocal square root to within 2 ulp. -/
  | rsq (g : GroupRef) (i : Ins)
  /-- SQRT (R209). Square root to within 2 ulp. -/
  | sqrt (g : GroupRef) (i : Ins)
  /-- EX2 (R209). Base-2 exponential to within 2 ulp. -/
  | ex2 (g : GroupRef) (i : Ins)
  /-- LG2 (R209). Base-2 logarithm to within 2 ulp. -/
  | lg2 (g : GroupRef) (i : Ins)
  /-- SIN (R209). Sine in radians to within 2 ulp. -/
  | sin (g : GroupRef) (i : Ins)
  /-- COS (R209). Cosine in radians to within 2 ulp. -/
  | cos (g : GroupRef) (i : Ins)
  /-- SHFL_IDX (R108). Cross-lane shuffle from an indexed lane. -/
  | shflIdx (g : GroupRef) (i : Ins)
  /-- SHFL_UP (R108). Cross-lane shuffle from lane l minus B. -/
  | shflUp (g : GroupRef) (i : Ins)
  /-- SHFL_DOWN (R108). Cross-lane shuffle from lane l plus B. -/
  | shflDown (g : GroupRef) (i : Ins)
  /-- SHFL_XOR (R108). Cross-lane shuffle from lane l XOR B. -/
  | shflXor (g : GroupRef) (i : Ins)
  /-- VOTE_ALL (R108). Predicate true when PSRC holds in every selected lane. -/
  | voteAll (g : GroupRef) (i : Ins)
  /-- VOTE_ANY (R108). Predicate true when PSRC holds in any selected lane. -/
  | voteAny (g : GroupRef) (i : Ins)
  /-- VOTE_BALLOT (R108). Writes the mask of selected lanes in which PSRC holds. -/
  | voteBallot (g : GroupRef) (i : Ins)
  /-- UADD (R109). Uniform add modulo 2^32. -/
  | uadd (g : GroupRef) (i : Ins)
  /-- USUB (R109). Uniform subtract modulo 2^32. -/
  | usub (g : GroupRef) (i : Ins)
  /-- UMUL (R109). Low 32 bits of the uniform product. -/
  | umul (g : GroupRef) (i : Ins)
  /-- UMIN_S (R109). Signed uniform minimum. -/
  | uminS (g : GroupRef) (i : Ins)
  /-- UMIN_U (R109). Unsigned uniform minimum. -/
  | uminU (g : GroupRef) (i : Ins)
  /-- UMAX_S (R109). Signed uniform maximum. -/
  | umaxS (g : GroupRef) (i : Ins)
  /-- UMAX_U (R109). Unsigned uniform maximum. -/
  | umaxU (g : GroupRef) (i : Ins)
  /-- UAND (R109). Uniform bitwise AND. -/
  | uand (g : GroupRef) (i : Ins)
  /-- UOR (R109). Uniform bitwise OR. -/
  | uor (g : GroupRef) (i : Ins)
  /-- UXOR (R109). Uniform bitwise XOR. -/
  | uxor (g : GroupRef) (i : Ins)
  /-- USHL (R109). Uniform shift left. -/
  | ushl (g : GroupRef) (i : Ins)
  /-- USHR_U (R109). Uniform logical shift right. -/
  | ushrU (g : GroupRef) (i : Ins)
  /-- USHR_S (R109). Uniform arithmetic shift right. -/
  | ushrS (g : GroupRef) (i : Ins)
  /-- UMOV (R109). Uniform register move. -/
  | umov (g : GroupRef) (i : Ins)
  /-- UADD64 (R109). Uniform pair add modulo 2^64. -/
  | uadd64 (g : GroupRef) (i : Ins)
  /-- UMOV64 (R109). Uniform pair move. -/
  | umov64 (g : GroupRef) (i : Ins)
  /-- USETP (R109). Sets a predicate in every lane from a uniform comparison. -/
  | usetp (g : GroupRef) (i : Ins)
  /-- USEL (R109). Selects A or B by PSRC in the lowest selected lane. -/
  | usel (g : GroupRef) (i : Ins)
  /-- S2U (R109). Reads a special register into a uniform register. -/
  | s2u (g : GroupRef) (i : Ins)
  /-- LANE_TO_UNIFORM (R109). Copies a vector register of the lowest selected lane into a uniform register. -/
  | laneToUniform (g : GroupRef) (i : Ins)
  /-- LDP (R109). Loads uniform registers from the parameter block. -/
  | ldp (g : GroupRef) (i : Ins)
  /-- LD (R91). Global load per lane, with hint, L1 policy and tile-state outcome. -/
  | ld (g : GroupRef) (i : Ins)
  /-- ST (R87). Global store per lane, optionally a conversion store. -/
  | st (g : GroupRef) (i : Ins)
  /-- PREFETCH (R87). Fills the LLC without writing a register; unmapped lanes do nothing. -/
  | prefetch (g : GroupRef) (i : Ins)
  /-- LDS (R110). Local-memory load per lane. -/
  | lds (g : GroupRef) (i : Ins)
  /-- STS (R110). Local-memory store per lane. -/
  | sts (g : GroupRef) (i : Ins)
  /-- ATOMS_ADD (R110). Local-memory 32-bit atomic add. -/
  | atomsAdd (g : GroupRef) (i : Ins)
  /-- ATOMS_MIN (R110). Local-memory 32-bit atomic minimum. -/
  | atomsMin (g : GroupRef) (i : Ins)
  /-- ATOMS_MAX (R110). Local-memory 32-bit atomic maximum. -/
  | atomsMax (g : GroupRef) (i : Ins)
  /-- ATOMS_EXCH (R110). Local-memory 32-bit atomic exchange. -/
  | atomsExch (g : GroupRef) (i : Ins)
  /-- ATOMS_CAS (R110). Local-memory 32-bit compare-and-swap. -/
  | atomsCas (g : GroupRef) (i : Ins)
  /-- TLD (R94). Issues an asynchronous tile load into local memory on a token slot. -/
  | tld (g : GroupRef) (i : Ins)
  /-- TST (R97). Issues an asynchronous full-tile store from local memory on a token slot. -/
  | tst (g : GroupRef) (i : Ins)
  /-- TLD_TOKEN_COMPLETE (R94). All tiles of a TLD are written and checked, or a tile ends the task. -/
  | tldTokenComplete (op : Nat)
  /-- TST_TOKEN_COMPLETE (R97). Home slices have accepted every line and updated every tile state of a TST. -/
  | tstTokenComplete (op : Nat)
  /-- MXI_MMA (R154). Queues an FP32 matrix multiply-accumulate from local-memory descriptors. -/
  | mxiMma (g : GroupRef) (i : Ins)
  /-- MXI_MMA_R (R162). Queues a reproducible FX128 matrix multiply-accumulate. -/
  | mxiMmaR (g : GroupRef) (i : Ins)
  /-- MXI_ACLR (R142). Queues a clear of accumulators to a given kind. -/
  | mxiAclr (g : GroupRef) (i : Ins)
  /-- MXI_ARD (R198). Queues a converted readout of accumulators to local memory. -/
  | mxiArd (g : GroupRef) (i : Ins)
  /-- MXI_ARD128 (R161). Queues a 128-bit readout of FX128 accumulators. -/
  | mxiArd128 (g : GroupRef) (i : Ins)
  /-- MXI_ALD (R161). Queues a load of accumulators from local memory. -/
  | mxiAld (g : GroupRef) (i : Ins)
  /-- MXU_INSTRUCTION_START (R149). A queued MXU instruction starts once earlier instructions on its units are done. -/
  | mxuInstructionStart (mxu : Fin 640) (entry : MxuEntry)
  /-- MXU_STEP (R141). One step of the MXU datapath completes and is checked and committed. -/
  | mxuStep (mxu : Fin 640) (check : Residue)
  /-- MXI_TOKEN_COMPLETE (R152). An MXI instruction reaches its token completion point. -/
  | mxiTokenComplete (mxu : Fin 640) (entry : MxuEntry)
  /-- ACC_FOOTPRINT_ACQUIRE (R144). A waiting group acquires its accumulator footprint, restoring it if evicted. -/
  | accFootprintAcquire (g : GroupRef)
  /-- ACC_FOOTPRINT_EVICT (R146). The MXU evicts held groups' footprints to the save area to fit a waiting footprint. -/
  | accFootprintEvict (g : Eviction)
  /-- MXF_MMA (R137). Fragment multiply-accumulate from the registers of all 32 lanes. -/
  | mxfMma (g : GroupRef) (i : Ins)
  /-- MXF_MMA_R (R137). Reproducible fragment multiply-accumulate. -/
  | mxfMmaR (g : GroupRef) (i : Ins)
  /-- MXF_MMA_MASKED (R137). Fragment multiply-accumulate with unselected lanes taken as zero. -/
  | mxfMmaMasked (g : GroupRef) (i : Ins)
  /-- MXF_MMA_R_MASKED (R137). Reproducible masked fragment multiply-accumulate. -/
  | mxfMmaRMasked (g : GroupRef) (i : Ins)
  /-- MXF_ARD (R167). Reads one accumulator out to a register tuple. -/
  | mxfArd (g : GroupRef) (i : Ins)
  /-- BAR_SYNC (R123). Arrives at a block barrier and holds the group until the phase completes. -/
  | barSync (g : GroupRef) (i : Ins)
  /-- BAR_ARRIVE (R123). Arrives at a block barrier without waiting. -/
  | barArrive (g : GroupRef) (i : Ins)
  /-- SEM_ACQ (R129). Waits at the home until the semaphore is at least N, then subtracts N. -/
  | semAcq (g : GroupRef) (i : Ins)
  /-- SEM_REL (R130). Adds N to a semaphore word with release ordering. -/
  | semRel (g : GroupRef) (i : Ins)
  /-- FENCE_ACQ (R220). Acquire at a scope, invalidating the L1 unless NOINV. -/
  | fenceAcq (g : GroupRef) (i : Ins)
  /-- FENCE_REL (R219). Release at a scope, holding later writes. -/
  | fenceRel (g : GroupRef) (i : Ins)
  /-- FENCE_AR (R221). Acquire and release, also holding later reads until earlier writes reach their point. -/
  | fenceAr (g : GroupRef) (i : Ins)
  /-- LBX_FENCE (R222). Holds later accesses until remote writes of the group are acknowledged. -/
  | lbxFence (g : GroupRef) (i : Ins)
  /-- ATOM_ADD_U32 (R100). Atomic 32-bit add at the home. -/
  | atomAddU32 (g : GroupRef) (i : Ins)
  /-- ATOM_ADD_U64 (R100). Atomic 64-bit add at the home. -/
  | atomAddU64 (g : GroupRef) (i : Ins)
  /-- ATOM_MIN_S32 (R100). Atomic signed 32-bit minimum. -/
  | atomMinS32 (g : GroupRef) (i : Ins)
  /-- ATOM_MIN_U32 (R100). Atomic unsigned 32-bit minimum. -/
  | atomMinU32 (g : GroupRef) (i : Ins)
  /-- ATOM_MAX_S32 (R100). Atomic signed 32-bit maximum. -/
  | atomMaxS32 (g : GroupRef) (i : Ins)
  /-- ATOM_MAX_U32 (R100). Atomic unsigned 32-bit maximum. -/
  | atomMaxU32 (g : GroupRef) (i : Ins)
  /-- ATOM_MIN_S64 (R100). Atomic signed 64-bit minimum. -/
  | atomMinS64 (g : GroupRef) (i : Ins)
  /-- ATOM_MIN_U64 (R100). Atomic unsigned 64-bit minimum. -/
  | atomMinU64 (g : GroupRef) (i : Ins)
  /-- ATOM_MAX_S64 (R100). Atomic signed 64-bit maximum. -/
  | atomMaxS64 (g : GroupRef) (i : Ins)
  /-- ATOM_MAX_U64 (R100). Atomic unsigned 64-bit maximum. -/
  | atomMaxU64 (g : GroupRef) (i : Ins)
  /-- ATOM_AND_B32 (R100). Atomic 32-bit AND. -/
  | atomAndB32 (g : GroupRef) (i : Ins)
  /-- ATOM_OR_B32 (R100). Atomic 32-bit OR. -/
  | atomOrB32 (g : GroupRef) (i : Ins)
  /-- ATOM_XOR_B32 (R100). Atomic 32-bit XOR. -/
  | atomXorB32 (g : GroupRef) (i : Ins)
  /-- ATOM_AND_B64 (R100). Atomic 64-bit AND. -/
  | atomAndB64 (g : GroupRef) (i : Ins)
  /-- ATOM_OR_B64 (R100). Atomic 64-bit OR. -/
  | atomOrB64 (g : GroupRef) (i : Ins)
  /-- ATOM_XOR_B64 (R100). Atomic 64-bit XOR. -/
  | atomXorB64 (g : GroupRef) (i : Ins)
  /-- ATOM_EXCH_B32 (R100). Atomic 32-bit exchange. -/
  | atomExchB32 (g : GroupRef) (i : Ins)
  /-- ATOM_EXCH_B64 (R100). Atomic 64-bit exchange. -/
  | atomExchB64 (g : GroupRef) (i : Ins)
  /-- ATOM_CAS_B32 (R100). Atomic 32-bit compare-and-swap. -/
  | atomCasB32 (g : GroupRef) (i : Ins)
  /-- ATOM_CAS_B64 (R100). Atomic 64-bit compare-and-swap. -/
  | atomCasB64 (g : GroupRef) (i : Ins)
  /-- ATOM_CAS_B128 (R100). Atomic 128-bit compare-and-swap, as used by ledger changes. -/
  | atomCasB128 (g : GroupRef) (i : Ins)
  /-- ATOM_ADD_F32 (R103). Atomic FP32 add in order of arrival. -/
  | atomAddF32 (g : GroupRef) (i : Ins)
  /-- FXADD128 (R103). Atomic 128-bit fixed-point add modulo 2^128. -/
  | fxadd128 (g : GroupRef) (i : Ins)
  /-- POUR (R44). Releases at SYSTEM scope and appends a poured task to the pour queue. -/
  | pour (g : GroupRef) (i : Ins)
  /-- NOP (R107). No operation. -/
  | nop (g : GroupRef) (i : Ins)
  /-- BRA (R116). Guarded relative branch, pushing or merging a DIV entry on divergence. -/
  | bra (g : GroupRef) (i : Ins)
  /-- BRX (R116). Branch to an address in a uniform pair. -/
  | brx (g : GroupRef) (i : Ins)
  /-- CALL (R116). Pushes a CALL entry and branches. -/
  | call (g : GroupRef) (i : Ins)
  /-- RET (R116). Pops a DIV or CALL entry and continues there. -/
  | ret (g : GroupRef) (i : Ins)
  /-- JOIN_PUSH (R116). Pushes a JOIN reconvergence entry. -/
  | joinPush (g : GroupRef) (i : Ins)
  /-- JOIN (R116). Reconverges or switches to a pending path. -/
  | join (g : GroupRef) (i : Ins)
  /-- EXIT (R116). Removes selected lanes from the live mask, unwinding when none stays active. -/
  | exit (g : GroupRef) (i : Ins)
  /-- WAIT (R93). Blocks the group until a token slot count is zero. -/
  | wait (g : GroupRef) (i : Ins)
  /-- SEM_WAKE (R129). Sync message granting a SEM.ACQ releases the waiting group. -/
  | semWake (id : Nat)
  /-- BLOCK_END (R41). Sync message of a block's end; ends tasks and readies successors. -/
  | blockEnd (b : Nat)
  /-- BLOCK_STUCK (R134). Sync message of a fully barrier-blocked block; the task ends BARRIER_DEADLOCK. -/
  | blockStuck (b : Nat)
  /-- DRAIN (R429). Sync message stopping new groups of a command on a core. -/
  | drain (cmd : Nat) (core : Fin 160)
  /-- TASK_KILL (R429). Sync message killing a task's resident blocks and releasing their resources. -/
  | taskKill (task : Nat)
  /-- CMD_NOP (R409). Queue command that does nothing and completes. -/
  | cmdNop (id : Nat)
  /-- LAUNCH (R410). Starts a batch step of a stored graph version over a batch descriptor. -/
  | launch (id : Nat)
  /-- COPY (R417). Copies a range of partition memory. -/
  | copy (id : Nat)
  /-- FILL (R417). Fills a range with an 8-byte pattern. -/
  | fill (id : Nat)
  /-- SEM_WAIT (R418). Queue command performing SEM.ACQ at SYSTEM scope. -/
  | semWait (id : Nat)
  /-- GRAPH_LOAD (R415). Creates a new graph version from node images. -/
  | graphLoad (id : Nat)
  /-- GRAPH_PATCH (R415). Creates a new graph version with nodes replaced or appended. -/
  | graphPatch (id : Nat)
  /-- GRAPH_FREE (R415). Removes a graph index. -/
  | graphFree (id : Nat)
  /-- COMMAND_FETCH (R404). The front end fetches the next command when the queue has room. -/
  | commandFetch (q : Fin 1024) (host : Option (List Byte))
  /-- TASK_READY (R37). A task's predecessors are done and visible; it reads its parameters and becomes ready. -/
  | taskReady (task : Nat)
  /-- BLOCK_PLACE (R441). The step scheduler places a ready or switched-out block on a core. -/
  | blockPlace (fe : Fin 2) (part : Fin 16) (save : SaveCheck)
  /-- COPY_ENGINE_TILE (R440). A copy engine moves one 2 KiB tile in its partition turn. -/
  | copyEngineTile (half : Fin 2)
  /-- COMPLETION_WRITE (R420). The front end writes a completion record once the command's writes are visible. -/
  | completionWrite (id : Nat) (rejected : Bool)
  /-- SIGNAL_SEND (R425). The front end sends a command's signal after its record. -/
  | signalSend (id : Nat) (rejected : Bool)
  /-- COMMAND_TIMEOUT (R429). A command's timer expires and drain and kill begin. -/
  | commandTimeout (cmd : Nat)
  /-- DRAIN_BOUND_EXPIRY (R429). The 50 us drain bound expires and remaining blocks are killed. -/
  | drainBoundExpiry (cmd : Nat)
  /-- QUANTUM_EXPIRY (R445). The owner quantum expires and ownership moves to the next context. -/
  | quantumExpiry (part : Fin 16)
  /-- SWITCH_OUT (R451). A core stops and saves a block's live state. -/
  | switchOut (b : Nat) (bad : Option (Fin 32))
  /-- SAVED (R451). A core reports a block's switch-out complete. -/
  | saved (b : Nat)
  /-- QUEUE_ENABLE (R406). QCTL.ENABLE written 1 makes a DISABLED queue IDLE. -/
  | queueEnable (fn : Fin 64) (rid : Option Nat) (q : Fin 1024)
  /-- QUEUE_DISABLE (R406). QCTL.ENABLE written 0 sends the queue to DRAINING or sets DRAIN_PEND. -/
  | queueDisable (fn : Fin 64) (rid : Option Nat) (q : Fin 1024)
  /-- ABORT (R431). QCTL.ABORT drains and kills every fetched command with KILLED. -/
  | abort (fn : Fin 64) (rid : Option Nat) (q : Fin 1024)
  /-- DOORBELL (R406). Write of QSQ_DB.TAIL, checked by the tumbler, makes commands available. -/
  | doorbell (fn : Fin 64) (rid : Option Nat) (q : Fin 1024) (tail : BitVec 16)
  /-- CQ_HEAD_WRITE (R421). Write of QCQ_DB.HEAD frees consumed completion slots. -/
  | cqHeadWrite (fn : Fin 64) (rid : Option Nat) (q : Fin 1024) (head : BitVec 16)
  /-- MB_SUBMIT (R518). Submits mailbox slots, admitting or answering MB_BUSY. -/
  | mbSubmit (fn : Fin 64) (rid : Option Nat) (slots : BitVec 8)
  /-- MB_ACK (R512). Frees DONE mailbox slots. -/
  | mbAck (fn : Fin 64) (rid : Option Nat) (slots : BitVec 8)
  /-- REGISTER_WRITE (R14). Write to a register with no row of its own, by its access code. -/
  | registerWrite (fn : Fin 64) (rid : Option Nat) (off : BitVec 26) (data : List Byte)
  /-- TUMBLER_READ_REJECT (R469). An inbound BAR read from an unaccepted requester completes Unsupported Request. -/
  | tumblerReadReject (fn : Fin 64) (rid : BitVec 16)
  /-- MAILBOX_DISPATCH (R519). The firmware takes the next pending mailbox request and checks it. -/
  | mailboxDispatch
  /-- DEV_STATUS (R526). Returns the status mirror rows readable by the function. -/
  | devStatus (r : Req)
  /-- FW_STATUS (R526). Returns running and flash image versions and SVNs. -/
  | fwStatus (r : Req)
  /-- LOG_READ (R526). Copies event-log records to host memory. -/
  | logRead (r : Req)
  /-- FW_UPDATE (R541). Verifies an image and writes it to flash. -/
  | fwUpdate (r : Req) (image : List Byte)
  /-- FW_LOAD (R537). In minimal mode, verifies and writes an image and starts the device. -/
  | fwLoad (r : Req) (image : List Byte)
  /-- DEV_RESTART (R532). Starts the device afresh, normally or into minimal mode. -/
  | devRestart (r : Req)
  /-- MB_SET_LIMIT (R518). Sets a VF's mailbox admission limit. -/
  | mbSetLimit (r : Req)
  /-- PAGE_MAP (R64). Maps pages of a partition with backing and access. -/
  | pageMap (r : Req)
  /-- PAGE_UNMAP (R527). Unmaps pages and zeroes freed frames. -/
  | pageUnmap (r : Req)
  /-- PAGE_QUERY (R526). Returns a page entry. -/
  | pageQuery (r : Req)
  /-- SHARED_CREATE (R318). Creates the shared read-only region. -/
  | sharedCreate (r : Req)
  /-- SHARED_DESTROY (R526). Removes the shared read-only region. -/
  | sharedDestroy (r : Req)
  /-- QUAD_SET_L1 (R73). Sets the core-memory split of quads. -/
  | quadSetL1 (r : Req)
  /-- SLICE_DEFINE (R367). Writes a slice record. -/
  | sliceDefine (r : Req)
  /-- PART_CREATE (R369). Creates a BUILT partition with its attributes. -/
  | partCreate (r : Req)
  /-- PART_ADD_SLICE (R370). Adds a slice to a BUILT partition. -/
  | partAddSlice (r : Req)
  /-- PART_REMOVE_SLICE (R370). Removes a slice from a BUILT partition. -/
  | partRemoveSlice (r : Req)
  /-- PART_ACTIVATE (R372). Forms interleave sets, raises the key generation and activates the partition. -/
  | partActivate (r : Req)
  /-- PART_QUIESCE (R371). Stops fetching for the partition's queues. -/
  | partQuiesce (r : Req)
  /-- PART_RESUME (R371). Returns a QUIESCED partition's queues to IDLE. -/
  | partResume (r : Req)
  /-- PART_DESTROY (R370). Frees a partition, its queues and channels. -/
  | partDestroy (r : Req)
  /-- PART_RECONFIGURE (R383). Changes attributes and slices of a QUIESCED partition. -/
  | partReconfigure (r : Req)
  /-- PART_REBIND_QUADS (R374). Adds or withdraws quads at a batch-step boundary. -/
  | partRebindQuads (r : Req)
  /-- PART_REBIND_CHANNELS (R378). Adds or removes channels by migration. -/
  | partRebindChannels (r : Req)
  /-- PART_STATUS (R525). Returns the partition status image. -/
  | partStatus (r : Req)
  /-- DEV_SET_MIG_RATE (R379). Sets the shared migration rate. -/
  | devSetMigRate (r : Req)
  /-- Q_CREATE (R402). Creates a DISABLED queue and assigns its front end. -/
  | qCreate (r : Req)
  /-- Q_DESTROY (R407). Frees a DISABLED queue. -/
  | qDestroy (r : Req)
  /-- Q_SHADOW_READ (R433). Returns a held completion record without removing it. -/
  | qShadowRead (r : Req)
  /-- Q_STALL_ACK (R434). Retries or discards the shadow and ends the stall. -/
  | qStallAck (r : Req) (rejected : List Nat) (sigRejected : List Nat)
  /-- SCHED_SET (R444). Sets quantum, weights and pre-emption mode. -/
  | schedSet (r : Req)
  /-- SCHED_STATUS (R450). Returns scheduling state of a partition. -/
  | schedStatus (r : Req)
  /-- LLC_SET_KEEP_QUOTA (R277). Sets a partition's KEEP quota. -/
  | llcSetKeepQuota (r : Req)
  /-- LLC_KEEP_RELEASE (R262). Unpins lines of a range or partition. -/
  | llcKeepRelease (r : Req)
  /-- LLC_FLUSH (R278). Writes back, invalidates and unpins a range. -/
  | llcFlush (r : Req)
  /-- MEM_SET_SPENT_POLICY (R315). Sets a partition's spent-read policy. -/
  | memSetSpentPolicy (r : Req)
  /-- MEM_TILE_STATE (R306). Returns a tile's TSS entry. -/
  | memTileState (r : Req)
  /-- MEM_CHANNEL_STATUS (R525). Returns a channel's status image. -/
  | memChannelStatus (r : Req)
  /-- MEM_CHANNEL_MAP_OUT (R327). Starts mapping out a channel. -/
  | memChannelMapOut (r : Req)
  /-- MEM_CHANNEL_ADMIT (R326). Admits a MAPPED_OUT channel as UNBOUND. -/
  | memChannelAdmit (r : Req)
  /-- SHARED_LOAD (R319). Writes full tiles to every copy of the shared region. -/
  | sharedLoad (r : Req) (host : List Byte)
  /-- MEM_SET_MODE (R324). Sets the memory mode for the next start. -/
  | memSetMode (r : Req)
  /-- HBM_PPR_SOFT (R333). Applies soft post-package repair to a row. -/
  | hbmPprSoft (r : Req)
  /-- HBM_PPR_HARD (R333). Applies hard post-package repair to a row. -/
  | hbmPprHard (r : Req)
  /-- HBM_LANE_MAP_READ (R333). Returns a stack's lane repair map. -/
  | hbmLaneMapRead (r : Req)
  /-- HBM_LANE_MAP_WRITE (R333). Writes a stack's lane repair map. -/
  | hbmLaneMapWrite (r : Req)
  /-- HBM_ROW_TEST (R536). Writes and reads back a pattern over a row. -/
  | hbmRowTest (r : Req)
  /-- HINGE_STATUS (R525). Returns a leaf's status image. -/
  | hingeStatus (r : Req)
  /-- HINGE_RETRAIN (R359). Retrains a leaf from the half 0 end. -/
  | hingeRetrain (r : Req)
  /-- POOL_CREATE (R385). Forms a state pool. -/
  | poolCreate (r : Req)
  /-- POOL_MAP (R386). Maps pool pages by tier. -/
  | poolMap (r : Req) (twinFree : Nat)
  /-- POOL_UNMAP (R393). Unmaps pool pages. -/
  | poolUnmap (r : Req)
  /-- POOL_RECALL (R387). Moves spilled pages back into the pool. -/
  | poolRecall (r : Req)
  /-- POOL_LEDGER (R388). Registers a ledger region. -/
  | poolLedger (r : Req)
  /-- POOL_STATUS (R400). Returns a pool's state. -/
  | poolStatus (r : Req)
  /-- LEDGER_SCAN (R392). Scans ledger regions for failed pools. -/
  | ledgerScan (r : Req)
  /-- TWIN_PAIR (R394). Pairs partitions with a twin. -/
  | twinPair (r : Req)
  /-- TWIN_DETACH (R396). Detaches partitions to the twin. -/
  | twinDetach (r : Req) (lacks : Bool)
  /-- TWIN_ATTACH (R396). Attaches a returning device. -/
  | twinAttach (r : Req)
  /-- ATTACH_CHUNK (R323). A 2 MiB chunk of a mirrored region is marked stale and resynchronised. -/
  | attachChunk
  /-- TWIN_FORCE_SOLO (R397). Forces failover from SEVERED. -/
  | twinForceSolo (r : Req) (reserved : BitVec 64)
  /-- TWIN_STATUS (R396). Returns pair state. -/
  | twinStatus (r : Req)
  /-- VF_BIND (R461). Binds a VF to a context. -/
  | vfBind (r : Req)
  /-- VF_UNBIND (R463). Unbinds a VF, scrubbing a CONFIDENTIAL partition. -/
  | vfUnbind (r : Req)
  /-- VF_STATUS (R489). Returns a VF's binding and logging state. -/
  | vfStatus (r : Req)
  /-- TUMBLER_ALLOW (R470). Grants a routing ID doorbell writes to a function. -/
  | tumblerAllow (r : Req)
  /-- TUMBLER_REVOKE (R470). Revokes a tumbler grant. -/
  | tumblerRevoke (r : Req)
  /-- HOST_WINDOW_MAP (R466). Maps window frames onto partition pages. -/
  | hostWindowMap (r : Req)
  /-- HOST_WINDOW_UNMAP (R468). Unmaps window frames after back-invalidation. -/
  | hostWindowUnmap (r : Req)
  /-- DIRTY_LOG_START (R472). Starts dirty-page logging for a VF. -/
  | dirtyLogStart (r : Req)
  /-- DIRTY_LOG_SWAP (R474). Swaps dirty-log buffers. -/
  | dirtyLogSwap (r : Req)
  /-- DIRTY_LOG_STOP (R474). Final swap and stop of logging. -/
  | dirtyLogStop (r : Req)
  /-- LBX_SET_ID (R495). Sets board device number and link mode for the next start. -/
  | lbxSetId (r : Req)
  /-- LBX_STATUS (R509). Returns a port's status. -/
  | lbxStatus (r : Req)
  /-- LBX_RETRAIN (R500). Sends a port to TRAINING. -/
  | lbxRetrain (r : Req)
  /-- LBX_EXPORT (R501). Defines an export. -/
  | lbxExport (r : Req)
  /-- LBX_UNEXPORT (R502). Removes an export after admitted requests complete. -/
  | lbxUnexport (r : Req)
  /-- LBX_IMPORT (R502). Maps pages onto a peer export. -/
  | lbxImport (r : Req)
  /-- SEC_STATUS (R572). Returns security state. -/
  | secStatus (r : Req)
  /-- SEC_PART_EVICT (R553). Kills a partition's work, scrubs if CONFIDENTIAL, and quiesces it. -/
  | secPartEvict (r : Req)
  /-- SEC_PART_REPORT (R564). Writes a signed partition report. -/
  | secPartReport (r : Req)
  /-- SEC_PAGE_QUERY (R572). Returns a page entry for security checks. -/
  | secPageQuery (r : Req)
  /-- DBG_AUTHORIZE (R566). Arms a debug session token. -/
  | dbgAuthorize (r : Req)
  /-- DBG_REVOKE (R567). Ends the session and any unused token. -/
  | dbgRevoke (r : Req)
  /-- DBG_TRACE_START (R569). Starts trace into a host buffer. -/
  | dbgTraceStart (r : Req)
  /-- DBG_TRACE_STOP (R569). Stops trace. -/
  | dbgTraceStop (r : Req)
  /-- PWR_SET_CAP (R577). Writes cap controller settings. -/
  | pwrSetCap (r : Req)
  /-- PWR_STATUS (R595). Returns the power status image. -/
  | pwrStatus (r : Req)
  /-- PWR_SET_STATE (R588). Requests ACTIVE or RETAIN. -/
  | pwrSetState (r : Req)
  /-- ERR_COUNTS (R593). Returns error counts of an event group. -/
  | errCounts (r : Req)
  /-- ERR_INJECT (R595). Injects a hardware error of a given kind. -/
  | errInject (r : Req)
  /-- MB_LIMIT_ADJUST (R521). Every 10 ms, halves or restores VF admission limits under load. -/
  | mbLimitAdjust
  /-- FW_HEARTBEAT_TICK (R522). The firmware advances FW_HEARTBEAT every 1 ms. -/
  | fwHeartbeatTick
  /-- FW_WATCHDOG_EXPIRY (R522). Heartbeat unchanged for 1 s sets FW_HUNG. -/
  | fwWatchdogExpiry
  /-- RDS (R282). Cacheable shared read arrives at the home. -/
  | rds (q : OuterMsg)
  /-- RDO (R282). Cacheable owning read arrives at the home. -/
  | rdo (q : OuterMsg)
  /-- RDNA (R269). Non-allocating read arrives at the home. -/
  | rdna (q : OuterMsg)
  /-- RD (R258). Engine read arrives at the home and is served under its hint. -/
  | rd (q : ReadMsg)
  /-- WR (R309). Line write arrives at the home, updating tile state and CRC. -/
  | wr (q : WriteMsg)
  /-- WRP (R309). Partial write with byte mask arrives at the home. -/
  | wrp (q : WriteMsg)
  /-- ATOM (R237). Atomic request executes at the home. -/
  | atom (q : AtomMsg)
  /-- SPENT (R264). Spent hint acts at the tile's home. -/
  | spent (q : SpentMsg)
  /-- SEM_ACQ_REQUEST (R131). Semaphore wait is queued at the word's home. -/
  | semAcqRequest (q : SemMsg)
  /-- SEM_REL_REQUEST (R131). Semaphore add at the home re-evaluates waiters. -/
  | semRelRequest (q : SemMsg)
  /-- SNP_INV (R282). Invalidating snoop received by a caching agent. -/
  | snpInv (peer : Option (Fin 8)) (line : Nat)
  /-- SNP_DATA (R282). Data snoop received by a caching agent. -/
  | snpData (peer : Option (Fin 8)) (line : Nat)
  /-- H2D_SNOOP (R286). Host snoop of a host-memory line answered by the LLC slice. -/
  | h2dSnoop (line : Nat) (inv : Bool)
  /-- RSP_I (R282). Snoop response, line invalid, at the home. -/
  | rspI (agent : Fin 10) (line : Nat)
  /-- RSP_S (R282). Snoop response, line shared, at the home. -/
  | rspS (agent : Fin 10) (line : Nat)
  /-- RSP_NP (R283). Snoop response, line not present, treated as RspI. -/
  | rspNp (agent : Fin 10) (line : Nat) (crossing : Bool)
  /-- RSP_FWD (R284). Snoop response forwarding dirty data. -/
  | rspFwd (agent : Fin 10) (line : Nat) (data : BitVec 1024)
  /-- WB_DATA (R285). Write-back data from an agent merged at the home. -/
  | wbData (agent : Fin 10) (line : Nat) (data : BitVec 1024)
  /-- BIRSP (R282). Host answer to a back-invalidate snoop. -/
  | birsp (line : Nat) (shared : Bool)
  /-- CMP (R504). Completion acknowledging a remote or mirrored write. -/
  | cmp (m : CmpMsg)
  /-- DATA (R503). Read data returns to the requester. -/
  | data (id : Nat) (rep : Option PeerData)
  /-- RD_TILE (R503). Peer whole-tile read arrives at the home. -/
  | rdTile (q : TileMsg)
  /-- DATA_TILE (R503). Tile data with state and CRC verdict returns from a peer. -/
  | dataTile (id : Nat) (state : Fin 6) (crcOk : Bool) (data : List (BitVec 1024))
  /-- WR_TILE (R503). Peer full-tile write arrives at the home. -/
  | wrTile (m : PeerMsg) (data : List (BitVec 1024))
  /-- ATOM_RSP (R503). Atomic response returns from a peer home. -/
  | atomRsp (id : Nat) (data : BitVec 1024)
  /-- SEM_GRANT (R503). Semaphore grant returns from a peer home. -/
  | semGrant (id : Nat)
  /-- SIG (R503). Signal write or add arrives at a peer home. -/
  | sig (m : PeerMsg) (value : DWord) (add : Bool)
  /-- RSP_ERR (R501). Export refusal ends the requesting task with ACCESS_FAULT. -/
  | rspErr (id : Nat)
  /-- MC_ISSUE (R271). The memory controller takes the next request from its queues. -/
  | mcIssue (pc : Fin 512)
  /-- MEM_READ_COMPLETE (R302). A memory read returns, corrected or marked poisoned. -/
  | memReadComplete (pc : Fin 512) (entry : Nat) (corrected : BitVec 4) (bad : BitVec 4) (also : ReadReport)
  /-- HALF_REPLICA_REPAIR (R320). The other copy returns a tile and the poisoned copy is rewritten. -/
  | halfReplicaRepair (line : Nat)
  /-- MIRROR_RESYNC (R323). The firmware rewrites a MIRRORED_STALE tile from the twin. -/
  | mirrorResync (line : Nat) (twin : TwinTile)
  /-- SCRUB_PASS (R304). Scrubbing reads and repairs rows on its 24-hour cycle. -/
  | scrubPass
  /-- STACK_TEMP_READ (R330). Every 1 ms a controller reads its stack temperature and sets its level. -/
  | stackTempRead (stack : Fin 16) (temp : Int)
  /-- CHANNEL_TRIGGER (R325). A channel trigger sends it to FAILING in NATIVE mode. -/
  | channelTrigger (ch : Fin 256) (trigger : Fin 5)
  /-- TILE_MOVE (R380). A migration moves one tile to its destination. -/
  | tileMove (tile : Nat) (data : List (BitVec 1024))
  /-- TILE_MOVE_COMMIT (R380). The destination acknowledges and the tile's moved mark is set. -/
  | tileMoveCommit (tile : Nat)
  /-- BONDED_WORD (R345). A bonded channel receives a word and checks parity, resending once. -/
  | bondedWord (die : Fin 10) (chan : Fin 16) (parityOk : Bool)
  /-- BRIDGE_FLIT (R343). A hinge flit is received and CRC-checked: its SEQ, its ACK, and the bits above them. -/
  | bridgeFlit (leaf : Fin 4) (toEnd1 : Bool) (seq ack : BitVec 12) (rest : BitVec 2024)
  /-- BRIDGE_NAK (R343). A NAK makes the sender resend flits after a SEQ. -/
  | bridgeNak (leaf : Fin 4) (toEnd1 : Bool) (seq : BitVec 12)
  /-- WIDTH_OFFER (R354). A leaf end's width offer arrives on the sideband. -/
  | widthOffer (leaf : Fin 4) (end1 : Bool) (mask : BitVec 4)
  /-- WIDTH_CONFIRM (R354). A leaf end's width confirmation arrives and the test pattern starts. -/
  | widthConfirm (leaf : Fin 4) (end1 : Bool) (width : Nat) (groups : BitVec 4)
  /-- LEAF_TEST_DONE (R353). The 4,096-flit test pattern ends, setting the leaf ACTIVE, DEGRADED or retraining. -/
  | leafTestDone (leaf : Fin 4) (clean : Bool)
  /-- RESET_SEEN (R355). RESET_SEEN arrives and the far end enters TRAIN. -/
  | resetSeen (leaf : Fin 4) (end1 : Bool)
  /-- SIDEBAND_SILENCE (R354). The training sideband is silent for 100 us. -/
  | sidebandSilence (leaf : Fin 4)
  /-- LEAF_REPLAY_STORM (R358). Over 1,000 replays in 1 ms trigger a leaf retrain. -/
  | leafReplayStorm (leaf : Fin 4)
  /-- HALF_RESET (R355). Firmware resets the bridge PHYs of one base die. -/
  | halfReset (half1 : Bool)
  /-- BUCKET_RESTEER (R291). Steering buckets change once in-flight transactions complete. -/
  | bucketResteer
  /-- CAPABILITY_WORD (R346). A die's capability word arrives for negotiation. -/
  | capabilityWord (die : Fin 10) (word : DWord)
  /-- REFERENCE_LOST (R361). A reference is declared lost, with R26 outcome. -/
  | referenceLost (host : Bool)
  /-- FORWARDED_PAIR_LOST (R24). One forwarded reference pair is lost, a correctable error. -/
  | forwardedPairLost (pair : Fin 2)
  /-- PLL_LOCK_LOST (R362). A PLL loses lock and its domain suspends for relock. -/
  | pllLockLost (site : Fin 32)
  /-- PLL_RELOCK_END (R362). A relock succeeds with PHY retrain, or fails with its outcome. -/
  | pllRelockEnd (site : Fin 32) (ok : Bool)
  /-- DROOP_CROSSING (R363). A quad's supply crosses a droop threshold and stretch rises. -/
  | droopCrossing (quad : Fin 40) (level : Fin 4)
  /-- DROOP_LEVEL_EXIT (R363). Supply stays above a level's threshold 200 ns; stretch drops a level. -/
  | droopLevelExit (quad : Fin 40)
  /-- DROOP_ALLOWANCE_EXPIRY (R579). The 10 ms droop allowance interval expires. -/
  | droopAllowanceExpiry (die : Fin 8)
  /-- POWER_ESTIMATE (R575). A die sends its 4 us power estimate. -/
  | powerEstimate (die : Fin 10) (watts : Nat)
  /-- CAP_PERIOD (R578). Every 4 us the cap allowance moves against CAP. -/
  | capPeriod
  /-- VOLTAGE_PERIOD (R578). Every 100 us the VDD_CORE target moves by 5 mV. -/
  | voltagePeriod
  /-- DIE_TEMP_READ (R584). Every 100 us die temperatures set thermal allowances. -/
  | dieTempRead (die : Fin 10) (temp : Int)
  /-- THERMTRIP (R585). Comparators drive THERMTRIP# low: device-fatal. -/
  | thermtrip
  /-- SUPPLY_FAULT (R616). A rail stays out of range; start fails or device-fatal. -/
  | supplyFault
  /-- SENSOR_UPDATE (R586). PLDM sensors update every 10 ms. -/
  | sensorUpdate
  /-- IDLE_ENTRY (R587). IDLE_DELAY without work enters IDLE. -/
  | idleEntry
  /-- RETAIN_ENTRY (R588). Pending activities end and the device enters RETAIN. -/
  | retainEntry
  /-- SELF_REFRESH_REENTRY (R589). In RETAIN, controllers re-enter self-refresh after 100 us idle. -/
  | selfRefreshReentry
  /-- PF_D3HOT (R587). PF D3hot requests RETAIN. -/
  | pfD3hot
  /-- PF_D0 (R590). PF D0 leaves RETAIN and restores compute dies. -/
  | pfD0
  /-- TWIN_ALIVE_IN_LOW (R396). TWIN_ALIVE in falls and the 10 us count starts. -/
  | twinAliveInLow
  /-- TWIN_ALIVE_TIMEOUT (R396). TWIN_ALIVE in low for 10 us starts failover. -/
  | twinAliveTimeout (reserved : BitVec 64)
  /-- TRUNK_SEVERED (R397). All trunk ports down for 1 ms with TWIN_ALIVE high: SEVERED. -/
  | trunkSevered
  /-- LBX_FLIT (R493). A peer-link flit is received and CRC-checked: its SEQ, its ACK, and the bits above them. -/
  | lbxFlit (port : Fin 12) (seq ack : BitVec 12) (rest : BitVec 2024)
  /-- LBX_NAK (R493). A NAK makes the port resend after a SEQ. -/
  | lbxNak (port : Fin 12) (seq : BitVec 12)
  /-- LBX_CTRL_FLIT (R499). A CTRL flit carrying identity is checked at training. -/
  | lbxCtrlFlit (port : Fin 12) (d : Fin 8) (peerPort : Fin 12) (twin : Bool) (versionOk : Bool) (lastSeq : BitVec 12)
  /-- LBX_CODEWORD (R491). An RS codeword is decoded, corrected or discarded. -/
  | lbxCodeword (port : Fin 12) (corrected : Bool) (discarded : Bool)
  /-- LBX_IDLE_TIMER (R493). A port sends IDLE when 1 us passes without a flit. -/
  | lbxIdleTimer (port : Fin 12)
  /-- LBX_TRAINING_DONE (R499). A port completes training and enters ACTIVE or HALF. -/
  | lbxTrainingDone (port : Fin 12) (half : Bool)
  /-- LBX_TRAINING_TIMEOUT (R500). A training attempt fails or 1 ms passes. -/
  | lbxTrainingTimeout (port : Fin 12)
  /-- LBX_PORT_SILENCE (R500). No CRC-valid flit for 10 us sends the port to TRAINING. -/
  | lbxPortSilence (port : Fin 12)
  /-- LBX_REPLAY_STORM (R500). Over 1,000 replays in 1 ms retrain the port. -/
  | lbxReplayStorm (port : Fin 12)
  /-- PEER_LOST (R507). A peer unreachable for 1 ms is lost and its work ends. -/
  | peerLost (dest : Fin 8)
  /-- CXL_MEM_READ (R279). Host CXL.mem read served at the home. -/
  | cxlMemRead (hpa : Nat) (tag : Nat) (meta_ : Fin 3)
  /-- CXL_MEM_WRITE (R279). Host CXL.mem write ordered at the home. -/
  | cxlMemWrite (hpa : Nat) (tag : Nat) (data : BitVec 512) (mask : BitVec 64)
  /-- HOST_CACHE_RESPONSE (R212). Host returns a CXL.cache line or ownership to the LLC slice. -/
  | hostCacheResponse (line : Nat) (own : Bool) (data : BitVec 1024)
  /-- HDM_DECODER_COMMIT (R466). Host programs the HDM decoder and the window mapping is rebuilt. -/
  | hdmDecoderCommit (base : Nat) (size : Nat)
  /-- VF_ENABLE_WRITE (R464). Write of VF Enable gates requests of VF-bound contexts. -/
  | vfEnableWrite (on : Bool)
  /-- FLR (R476). FLR of a VF drains or squashes its context's transfers. -/
  | flr (fn : Fin 64)
  /-- FLR_COMPLETE (R476). The FLR's waits end; queues reset and Transactions Pending clears. -/
  | flrComplete (fn : Fin 64)
  /-- PF_FLR (R479). FLR of the PF resets every VF and context and clears VF Enable. -/
  | pfFlr
  /-- HOST_LINK_DOWN (R481). Host link-down acts as an FLR of the PF and squashes host transfers. -/
  | hostLinkDown
  /-- IDE_INSECURE (R556). An IDE stream leaves the secure state; treated as link-down. -/
  | ideInsecure (stream : Fin 2)
  /-- IDE_SECURE (R556). Both IDE streams secure; CONFIDENTIAL queues may fetch. -/
  | ideSecure
  /-- PWRGD_RISE (R618). PWRGD high allows a start. -/
  | pwrgdRise
  /-- PWRGD_FALL (R618). PWRGD low resets all but always-on registers. -/
  | pwrgdFall
  /-- PERST_ASSERT (R621). Fundamental reset asserted. -/
  | perstAssert
  /-- PERST_RELEASE (R622). Fundamental reset released, beginning a start. -/
  | perstRelease
  /-- COLD_RST_ASSERT (R621). Device cold reset asserted. -/
  | coldRstAssert
  /-- COLD_RST_RELEASE (R622). Device cold reset released, beginning a start. -/
  | coldRstRelease
  /-- START (R529). A start begins at step 1 of the start-up sequence. -/
  | start
  /-- START_STAGE_ADVANCE (R529). A start-up step's wait ends and the next step runs. -/
  | startStageAdvance (rep : StageReport)
  /-- START_WATCHDOG (R530). A start not ready within 30 s fails with WATCHDOG. -/
  | startWatchdog
  /-- FLASH_WRITE_COMPLETE (R541). A flash write ends and its command answers. -/
  | flashWriteComplete
  /-- BYPASS (R565). JTAG BYPASS instruction. -/
  | bypass
  /-- IDCODE (R628). JTAG IDCODE instruction. -/
  | idcode
  /-- SAMPLE_PRELOAD (R565). JTAG SAMPLE/PRELOAD instruction. -/
  | samplePreload
  /-- EXTEST (R565). JTAG EXTEST, served only in minimal mode. -/
  | extest
  /-- UNLOCK (R566). Debug UNLOCK opens a session with a valid token. -/
  | unlock (token : BitVec 128)
  /-- DEBUG_HALT (R566). Session halts cores of listed OPERATOR partitions. -/
  | debugHalt (core : Fin 160) (halt : Bool)
  /-- DEBUG_STATE_ACCESS (R566). Session reads or writes registers, local memory or accumulators. -/
  | debugStateAccess (g : GroupRef) (target : DbgTarget) (write : Option Word)
  /-- DEBUG_MEMORY_ACCESS (R566). Session reads or writes memory through the partition's translation. -/
  | debugMemoryAccess (part : Fin 16) (va : BitVec 48) (write : Option Byte)
  /-- DEBUG_WINDOW_EXPIRY (R566). An unused debug token's window expires. -/
  | debugWindowExpiry
  /-- GET_MEASUREMENTS (R561). SPDM measurement request with dual signatures. -/
  | getMeasurements (index : BitVec 8)
  /-- CHALLENGE (R562). SPDM challenge answered with CHALLENGE_AUTH. -/
  | challenge (nonce : List Byte)
  /-- GET_CERTIFICATE (R560). SPDM certificate request for slot 0 or 1. -/
  | getCertificate (slot : BitVec 3)
  /-- KEY_EXCHANGE (R558). SPDM key exchange opening a session. -/
  | keyExchange
  /-- IDE_KM (R560). Secured IDE_KM message programming IDE keys. -/
  | ideKm (session : Nat) (stream : Fin 2)
  /-- ENTDAA (R626). I3C dynamic address assignment. -/
  | entdaa (addr : BitVec 7)
  /-- MCTP_CONTROL (R626). MCTP control message on the management port. -/
  | mctpControl
  /-- PLDM_SENSOR_READ (R586). PLDM type 2 sensor read. -/
  | pldmSensorRead (sensor : Fin 25)
  /-- QUERY_DEVICE_IDENTIFIERS (R626). PLDM type 5 inventory query. -/
  | queryDeviceIdentifiers
  /-- GET_FIRMWARE_PARAMETERS (R627). PLDM type 5 firmware parameters query. -/
  | getFirmwareParameters
  /-- PLDM_UNSUPPORTED (R626). Other PLDM type 5 command answered ERROR_UNSUPPORTED_PLDM_CMD. -/
  | pldmUnsupported
  /-- HOST_LINK_UP (R481). The host link retrains after a link-down; host-memory accesses stop faulting and the host enumerates the device afresh. -/
  | hostLinkUp
  /-- TWIN_ALIVE_IN_HIGH (R624). TWIN_ALIVE in rises, cancelling a pending 10 us failover count and satisfying the pairing condition of R394. -/
  | twinAliveInHigh
  /-- POWER_REMOVED (R510). VDD_IO is removed; the always-on registers lose their contents and a latched THERMTRIP# is released. -/
  | powerRemoved
  /-- CLOCK_UNIT_FAULT (R592). A fault of the clock unit's control block is a device-fatal error with cause CLOCK_UNIT. -/
  | clockUnitFault
  /-- RESERVED_OPCODE (R83). A group issues an instruction word with a reserved class or opcode and its task ends with ACCESS_FAULT. -/
  | reservedOpcode (g : GroupRef)
  /-- INSTRUCTION_FETCH_FAULT (R86). A group's instruction fetch from an unmapped or misaligned address ends the task with ACCESS_FAULT at that address. -/
  | instructionFetchFault (g : GroupRef)
deriving DecidableEq, Repr

end Sys2Proof
end

