-- ==== Sys2Proof/Decode.lean ====
section
/-! DEFINITION. The words of the command table: no row of spec/opcode_table.json gives bits, so that no word spells a command. Beside them the
instruction words that a group runs: their fields (Table 3-6) and their opcodes (R83, R107 to R110, Tables 3-11, 3-13, 3-15, 3-17, 3-18). -/

namespace Sys2Proof

/-- The command that a word of the table spells: none, for the table gives no row any bits (log 1). -/
def decodeTableWord (_nbits _w : Nat) : Option Instr := none

/-! ## Instruction words (R83) -/

/-- The fields of a first word but its class and opcode (Table 3-6), with the second word that follows where LONG is 1. -/
def Ins.ofWord (w second : DWord) : Ins where
  long := if w.getLsbD 11 then some second else none
  guard := w.extractLsb' 12 3
  gneg := w.getLsbD 15
  dst := w.extractLsb' 16 8
  a := w.extractLsb' 24 8
  b := w.extractLsb' 32 8
  c := w.extractLsb' 40 8
  mod := w.extractLsb' 48 16

/-- CLASS of a first word. -/
def insClass (w : DWord) : Nat := (w.extractLsb' 0 4).toNat

/-- OP of a first word. -/
def insOp (w : DWord) : Nat := (w.extractLsb' 4 7).toNat

/-- An instruction by its opcode. -/
abbrev OpRow := Nat × (GroupRef → Ins → Instr)

/-- The VALU integer, floating-point and paired families (Table 3-15). -/
def valuArith : List OpRow :=
  [(0x00, .iadd), (0x01, .isub), (0x02, .imul), (0x03, .imulhiS), (0x04, .imulhiU), (0x05, .imad), (0x06, .iminS), (0x07, .iminU),
   (0x08, .imaxS), (0x09, .imaxU), (0x0A, .iabs), (0x0B, .iadd64), (0x0C, .isub64), (0x0D, .imadwU), (0x0E, .imadwS),
   (0x10, .fadd), (0x11, .fsub), (0x12, .fmul), (0x13, .ffma), (0x14, .fmin), (0x15, .fmax), (0x16, .fabs), (0x17, .fneg),
   (0x18, .frint), (0x19, .ftrunc), (0x1A, .ffloor), (0x1B, .fceil),
   (0x20, .hadd2), (0x21, .hsub2), (0x22, .hmul2), (0x23, .hfma2), (0x24, .hmin2), (0x25, .hmax2)]

/-- The other VALU families (Table 3-15). -/
def valuOther : List OpRow :=
  [(0x30, .isetp), (0x31, .isetp64), (0x32, .fsetp), (0x33, .sel), (0x34, .plop), (0x35, .p2v), (0x36, .v2p),
   (0x40, .and), (0x41, .or), (0x42, .xor), (0x43, .not), (0x44, .shl), (0x45, .shrU), (0x46, .shrS), (0x47, .bfeU), (0x48, .bfeS),
   (0x49, .bfi), (0x4A, .popc), (0x4B, .clz), (0x4C, .brev), (0x4D, .mov), (0x4E, .mov64), (0x4F, .s2v), (0x50, .cvt), (0x51, .cvt2),
   (0x60, .rcp), (0x61, .rsq), (0x62, .sqrt), (0x63, .ex2), (0x64, .lg2), (0x65, .sin), (0x66, .cos),
   (0x70, .shflIdx), (0x71, .shflUp), (0x72, .shflDown), (0x73, .shflXor), (0x74, .voteAll), (0x75, .voteAny), (0x76, .voteBallot)]

/-- The SALU class (Table 3-17). -/
def saluOps : List OpRow :=
  [(0x00, .uadd), (0x01, .usub), (0x02, .umul), (0x03, .uminS), (0x04, .uminU), (0x05, .umaxS), (0x06, .umaxU), (0x07, .uand),
   (0x08, .uor), (0x09, .uxor), (0x0A, .ushl), (0x0B, .ushrU), (0x0C, .ushrS), (0x0D, .umov), (0x0E, .uadd64), (0x0F, .umov64),
   (0x10, .usetp), (0x11, .usel), (0x12, .s2u), (0x13, .laneToUniform), (0x14, .ldp)]

/-- The GMEM, LMEM and TILE classes (R87, R92, Table 3-18). -/
def memOps : Nat → List OpRow
  | 2 => [(0x00, .ld), (0x01, .st), (0x02, .prefetch)]
  | 3 => [(0x00, .lds), (0x01, .sts), (0x02, .atomsAdd), (0x03, .atomsMin), (0x04, .atomsMax), (0x05, .atomsExch), (0x06, .atomsCas)]
  | _ => [(0x00, .tld), (0x01, .tst)]

/-- The MXI, MXF, SYNC and CTRL classes (Table 3-13). -/
def otherOps : Nat → List OpRow
  | 5 => [(0x00, .mxiMma), (0x01, .mxiMmaR), (0x02, .mxiAclr), (0x03, .mxiArd), (0x04, .mxiArd128), (0x05, .mxiAld)]
  | 6 => [(0x00, .mxfMma), (0x01, .mxfMmaR), (0x02, .mxfMmaMasked), (0x03, .mxfMmaRMasked), (0x04, .mxfArd)]
  | 7 => [(0x00, .barSync), (0x01, .barArrive), (0x04, .semAcq), (0x05, .semRel), (0x08, .fenceAcq), (0x09, .fenceRel), (0x0A, .fenceAr),
      (0x0C, .lbxFence)]
  | _ => [(0x00, .nop), (0x01, .bra), (0x02, .brx), (0x03, .call), (0x04, .ret), (0x05, .joinPush), (0x06, .join), (0x08, .exit),
      (0x09, .wait)]

/-- The ATOM class (Table 3-11). -/
def atomOps : List OpRow :=
  [(0x00, .atomAddU32), (0x01, .atomAddU64), (0x02, .atomMinS32), (0x03, .atomMinU32), (0x04, .atomMaxS32), (0x05, .atomMaxU32),
   (0x06, .atomMinS64), (0x07, .atomMinU64), (0x08, .atomMaxS64), (0x09, .atomMaxU64), (0x0A, .atomAndB32), (0x0B, .atomOrB32),
   (0x0C, .atomXorB32), (0x0D, .atomAndB64), (0x0E, .atomOrB64), (0x0F, .atomXorB64), (0x10, .atomExchB32), (0x11, .atomExchB64),
   (0x12, .atomCasB32), (0x13, .atomCasB64), (0x14, .atomCasB128), (0x18, .atomAddF32), (0x20, .fxadd128)]

/-- The opcodes of a class (Table 3-7); none of a reserved class. -/
def classOps : Nat → List OpRow
  | 0 => valuArith ++ valuOther
  | 1 => saluOps
  | 2 => memOps 2
  | 3 => memOps 3
  | 4 => memOps 4
  | 5 => otherOps 5
  | 6 => otherOps 6
  | 7 => otherOps 7
  | 8 => atomOps
  | 9 => [(0x00, .pour)]
  | 10 => otherOps 10
  | _ => []

/-- The instruction of a group that a word and the word after it spell; none for a reserved class or opcode, which is the fault of Table 3-6
(RESERVED_OPCODE). -/
def Instr.ofWords (g : GroupRef) (w second : DWord) : Option Instr :=
  ((classOps (insClass w)).find? (fun r => r.1 == insOp w)).map (fun r => r.2 g (Ins.ofWord w second))

end Sys2Proof
end

