-- ==== Sys2Proof/Config.lean ====
section
/-! DEFINITION. What the spec leaves open, as constants with no body: nothing can evaluate them or prove a value of them
(log 4), and the functions whose inner working the spec does not give. -/

namespace Sys2Proof.Config

/-- A free 64-bit value, by the number of the free value. -/
opaque free : Nat → DWord

/-- A free line of unspecified bytes, by the number of the free value and a position. -/
opaque freeLine : Nat → Nat → BitVec 1024

/-- A line of a SPENT tile as a read may find it: one of the sources of R317, all of the owning partition. It follows from the owner, the
line and the number of the free value alone, so from no other partition's bytes. -/
opaque spentLine : Nat → Nat → Nat → BitVec 1024

/-- What decrypting AES-256-XTS under one key and data unit gives of a sector encrypted under another (R300): key and unit of each, and the
sector's bytes in their place of a line. -/
opaque decipher : List Byte → Nat → List Byte → Nat → BitVec 1024 → BitVec 1024

/-- The device root secret of the fuses (R557). -/
opaque rootSecret : BitVec 256

/-- What the key engine's true random source gives, by the number of the draw (R558). -/
opaque trueRandom : Nat → BitVec 256

/-- The device's public value of a Diffie-Hellman exchange over secp384r1, from its secret (Table 17-6). -/
opaque dhePublic : Nat → List Byte

/-- Whether a 64-bit lane repair map names no more lanes than its stack has spares (Table 9-6). -/
opaque laneMapFits : Nat → Bool

/-- Whether a stack's stored lane repair map lets a channel train whose data lanes fail without one; in LANE_SPARE mode (true) with every
spare lane that it can use switched in as well (Table 9-4). -/
opaque laneCure : Nat → Nat → Bool → Bool

/-- The pseudo-channel, bank and DRAM row of a channel row, as one number: the fixed hash of R293. -/
opaque bankRow : Nat → Nat

/-- Whether a stack has a bank and DRAM row of these numbers (Table 9-6). -/
opaque rowExists : Nat → Nat → Bool

/-- The messages that the common pool of a hop holds beyond its reserved buffers (R288). -/
opaque hopPool : Nat → Nat

/-- The special functions of vector family 6 (R209): a fixed function of the operation and its input bits; the model
uses it only where it lies within the bound of R209. -/
opaque sfu : Nat → Word → Word

/-- SHA-512 (R538, R558, R561, R564). -/
opaque sha512 : List Byte → List Byte

/-- Ed25519 verification of a message and signature under a public key (R539). -/
opaque ed25519Verify : List Byte → List Byte → List Byte → Bool

/-- ML-DSA-65 verification of a message and signature under a public key, with the empty context string (R539). -/
opaque mldsaVerify : List Byte → List Byte → List Byte → Bool

/-- The fused SHA-512 hashes of the Ed25519 key (false) and of the ML-DSA-65 key (true) (Table 16-10c). -/
opaque keyHash : Bool → List Byte

/-- The Ed25519 signature of a message by the key pair of a seed (R562, R564). -/
opaque ed25519Sign : List Byte → List Byte → List Byte

/-- The ML-DSA-65 signature by the key pair of a seed, with a context string, of a message (R562, R564). -/
opaque mldsaSign : List Byte → List Byte → List Byte → List Byte

/-- SHA-512 digests fixed at manufacture: the boot ROM (0) and the header of the image of manufacture (1) (Table 17-7). -/
opaque madeDigest : Nat → List Byte

/-- The certificate chains of slots 0 and 1 (Table 17-6). -/
opaque certChain : Nat → List Byte

/-- Plynand's identity code in JEP106, bits [11:1] of IDCODE (R628). -/
opaque jep106 : BitVec 11

end Sys2Proof.Config
end

