-- ==== Sys2Proof/Machine/Bits.lean ====
section
/-! DEFINITION. Bit fields, sign extension, byte order (R17: little-endian everywhere) and lane masks. -/

namespace Sys2Proof.Machine

/-- The field of `len` bits of `w` that starts at bit `lo`, as a number. -/
def field {n : Nat} (w : BitVec n) (lo len : Nat) : Nat := (w.toNat >>> lo) % 2 ^ len

/-- Bit `i` of `w`. -/
def bitAt {n : Nat} (w : BitVec n) (i : Nat) : Bool := w.getLsbD i

/-- The low `w` bits of a number read as two's complement. -/
def signedOf (w : Nat) (v : Nat) : Int :=
  let u := v % 2 ^ w
  if u < 2 ^ (w - 1) then (u : Int) else (u : Int) - (2 ^ w : Nat)

/-- An integer reduced modulo 2^w. -/
def wrapInt (w : Nat) (v : Int) : Nat := (v % (2 ^ w : Nat)).toNat

/-- The `n` low bytes of a number, lowest first (R17). -/
def bytesOf (n : Nat) (v : Nat) : List Byte := (List.range n).map (fun i => BitVec.ofNat 8 (v >>> (8 * i)))

/-- The number that a list of bytes spells, lowest first (R17). -/
def ofBytes : List Byte → Nat
  | [] => 0
  | b :: t => b.toNat + 256 * ofBytes t

/-- The 16 bytes, or any number of bytes, of a list from an offset; bytes beyond its end read as zero (R515). -/
def sliceBytes (l : List Byte) (off n : Nat) : List Byte := (List.range n).map (fun i => l.getD (off + i) 0)

/-- The number in the bytes of a list from an offset. -/
def numAt (l : List Byte) (off n : Nat) : Nat := ofBytes (sliceBytes l off n)

/-- A list with its bytes from an offset replaced by others. -/
def spliceBytes (l : List Byte) (off : Nat) (v : List Byte) : List Byte :=
  (List.range l.length).map (fun i => if off ≤ i ∧ i < off + v.length then v.getD (i - off) 0 else l.getD i 0)

/-- The lanes 0 to 31. -/
def laneList : List Nat := List.range 32

/-- The mask of the lanes for which `f` holds. -/
def maskOf (f : Nat → Bool) : Mask :=
  BitVec.ofNat 32 (laneList.foldl (fun m l => if f l then m ||| (1 <<< l) else m) 0)

/-- The 32 lanes given by `f`. -/
def lanesOf (f : Nat → Word) : Lanes := laneList.map f

/-- Lane `l` of a vector value. -/
def laneAt (v : Lanes) (l : Nat) : Word := v.getD l 0

/-- The vector register that holds zero in every lane (R71). -/
def zeroLanes : Lanes := List.replicate 32 0

/-- The lanes of a mask, in ascending order. -/
def lanesIn (m : Mask) : List Nat := laneList.filter (fun l => m.getLsbD l)

/-- The lowest-numbered lane of a mask (lane 0 for the empty mask, which no caller uses). -/
def lowestLane (m : Mask) : Nat := (lanesIn m).headD 0

/-- Number of set bits among the low `n` bits. -/
def popCount (n : Nat) (v : Nat) : Nat := ((List.range n).filter (fun i => v.testBit i)).length

/-- The set bits among the low `n` bits of a number, ascending. -/
def bitsOf (n : Nat) (v : Nat) : List Nat := (List.range n).filter (fun i => v.testBit i)

/-- The number whose set bits are listed. -/
def numOfBits (l : List Nat) : Nat := l.foldl (fun a i => a ||| (1 <<< i)) 0

/-- The bits of a 32-bit value in reversed order. -/
def bitReverse (v : Word) : Word := maskOf (fun i => v.getLsbD (31 - i))

/-- A value put before the first of a list with a larger key. -/
def insertOn {α : Type} (f : α → Nat) (x : α) : List α → List α
  | [] => [x]
  | y :: t => if f x < f y then x :: y :: t else y :: insertOn f x t

/-- A list in rising order of a key, equal keys kept in order. -/
def sortOn {α : Type} (f : α → Nat) (l : List α) : List α := l.foldl (fun acc x => insertOn f x acc) []

/-- `n` rounded up to a multiple of `k`. -/
def roundUp (n k : Nat) : Nat := (n + k - 1) / k * k

end Sys2Proof.Machine
end

