-- ==== Sys2Proof/Machine/Float.lean ====
section
/-! DEFINITION. The number formats of Table 6-1 and Table 6-2, exact values, rounding once (R199, R200, R205) and the
settling of Table 6-7; vector arithmetic (R207, R208) and the MXU's step sum (R187, R188, R189). -/

namespace Sys2Proof.Machine

/-- The floating-point formats of Table 6-1. -/
inductive FFmt where
  | fp32 | bf16 | fp16 | e4m3 | e5m2 | e3m2 | e2m3 | e2m1
deriving DecidableEq, Repr

/-- The element formats of Table 5-8: floating-point and integer. -/
inductive EFmt where
  | flt (f : FFmt) | int8 | int4 | int32
deriving DecidableEq, Repr

/-- Format codes of Table 5-8; `none` for a reserved code. -/
def EFmt.ofCode : Nat → Option EFmt
  | 0 => some (.flt .fp32) | 1 => some (.flt .bf16) | 2 => some (.flt .fp16) | 3 => some (.flt .e4m3)
  | 4 => some (.flt .e5m2) | 5 => some (.flt .e3m2) | 6 => some (.flt .e2m3) | 7 => some (.flt .e2m1)
  | 8 => some .int8 | 9 => some .int4 | 10 => some .int32 | _ => none

/-- Exponent bits (Table 6-1). -/
def FFmt.ebits : FFmt → Nat
  | .fp32 => 8 | .bf16 => 8 | .fp16 => 5 | .e4m3 => 4 | .e5m2 => 5 | .e3m2 => 3 | .e2m3 => 2 | .e2m1 => 2

/-- Fraction bits (Table 6-1). -/
def FFmt.mbits : FFmt → Nat
  | .fp32 => 23 | .bf16 => 7 | .fp16 => 10 | .e4m3 => 3 | .e5m2 => 2 | .e3m2 => 2 | .e2m3 => 3 | .e2m1 => 1

/-- Exponent bias (Table 6-1). -/
def FFmt.bias : FFmt → Nat
  | .fp32 => 127 | .bf16 => 127 | .fp16 => 15 | .e4m3 => 7 | .e5m2 => 15 | .e3m2 => 3 | .e2m3 => 1 | .e2m1 => 1

/-- Width in bits (Table 5-8). -/
def FFmt.bits (f : FFmt) : Nat := 1 + f.ebits + f.mbits

/-- Width in bits of an element format (Table 5-8). -/
def EFmt.bits : EFmt → Nat
  | .flt f => f.bits | .int8 => 8 | .int4 => 4 | .int32 => 32

/-- The code of the largest finite magnitude (Table 6-1). -/
def FFmt.maxCode : FFmt → Nat
  | .fp32 => 0x7F7FFFFF | .bf16 => 0x7F7F | .fp16 => 0x7BFF | .e4m3 => 0x7E | .e5m2 => 0x7B | .e3m2 => 0x1F
  | .e2m3 => 0x1F | .e2m1 => 0x7

/-- The canonical NaN (Table 6-1); the formats without NaN give +0 (R181). -/
def FFmt.nanCode : FFmt → Nat
  | .fp32 => 0x7FC00000 | .bf16 => 0x7FC0 | .fp16 => 0x7E00 | .e4m3 => 0x7F | .e5m2 => 0x7E | _ => 0

/-- The code of +infinity where the format has one. -/
def FFmt.infCode : FFmt → Option Nat
  | .fp32 => some 0x7F800000 | .bf16 => some 0x7F80 | .fp16 => some 0x7C00 | .e5m2 => some 0x7C | _ => none

/-- Whether subnormal results are kept by Table 6-7 (FP32 and BF16 flush). -/
def FFmt.keepsSub : FFmt → Bool
  | .fp32 => false | .bf16 => false | _ => true

/-- A value: NaN, an infinity, or (−1)^neg × m × 2^e exactly. -/
inductive FVal where
  | nan
  | inf (neg : Bool)
  | fin (neg : Bool) (m : Nat) (e : Int)
deriving DecidableEq, Repr

/-- The value of a code (R179, R180, Table 6-1). -/
def FFmt.decode (f : FFmt) (code : Nat) : FVal :=
  let s := code.testBit (f.ebits + f.mbits)
  let E := (code >>> f.mbits) % 2 ^ f.ebits
  let M := code % 2 ^ f.mbits
  if f.infCode.isSome ∧ E = 2 ^ f.ebits - 1 then (if M = 0 then .inf s else .nan)
  else if f = .e4m3 ∧ E = 15 ∧ M = 7 then .nan
  else if E = 0 then .fin s M (1 - (f.bias : Int) - f.mbits)
  else .fin s (2 ^ f.mbits + M) ((E : Int) - f.bias - f.mbits)

/-- Rounding modes of R199, stochastic with its 32-bit draw (R205). -/
inductive Rnd where
  | rne | rtz | sr (r : Nat)
deriving DecidableEq, Repr

/-- m × 2^e rounded to an integer multiple of 2^q: the multiple (R199, R205). -/
def roundAt (md : Rnd) (m : Nat) (e q : Int) : Nat :=
  if q ≤ e then m <<< (e - q).toNat
  else
    let d := (q - e).toNat
    let t := m >>> d
    let rem := m % 2 ^ d
    match md with
    | .rtz => t
    | .rne => if 2 * rem > 2 ^ d ∨ (2 * rem = 2 ^ d ∧ t % 2 = 1) then t + 1 else t
    | .sr r => if (rem <<< 32) >>> d + r ≥ 2 ^ 32 then t + 1 else t

/-- The unbiased exponent floor(log2 (m × 2^e)) of a non-zero magnitude. -/
def expOf (m : Nat) (e : Int) : Int := (Nat.log2 m : Int) + e

/-- The magnitude code of m × 2^e rounded once in format `f` on an exponent range unbounded above (R200); `sub` keeps
subnormals, otherwise a magnitude below the smallest normal becomes zero. -/
def roundCode (f : FFmt) (md : Rnd) (sub : Bool) (m : Nat) (e : Int) : Nat :=
  if m = 0 then 0
  else
    let E := expOf m e
    let emin : Int := 1 - (f.bias : Int)
    if sub ∧ E < emin then roundAt md m e (emin - f.mbits)
    else
      let t := roundAt md m e (E - f.mbits)
      let c : Int := (E + f.bias) * (2 ^ f.mbits : Nat) + t - (2 ^ f.mbits : Nat)
      if c < (2 ^ f.mbits : Nat) then 0 else c.toNat

/-- A sign and a magnitude code put together. -/
def FFmt.signed (f : FFmt) (neg : Bool) (c : Nat) : Nat := if neg then c ||| (1 <<< (f.ebits + f.mbits)) else c

/-- The result of a magnitude above the largest finite value, or of an infinite source (Table 6-7). -/
def FFmt.overflow (f : FFmt) (neg : Bool) (toMax : Bool) : Nat :=
  match f with
  | .e3m2 => f.signed neg f.maxCode
  | .e2m3 => f.signed neg f.maxCode
  | .e2m1 => f.signed neg f.maxCode
  | _ =>
    if toMax then f.signed neg f.maxCode
    else match f.infCode with
      | some c => f.signed neg c
      | none => f.nanCode

/-- The formats whose range SAT saturates (Table 5-9a). -/
def FFmt.saturable : FFmt → Bool
  | .e4m3 => true | .e5m2 => true | _ => false

/-- A value converted to format `f` under a rounding mode, SAT, and whether subnormal results are kept (R199, R200,
Table 6-7). -/
def convertTo (f : FFmt) (md : Rnd) (sat sub : Bool) (v : FVal) : Nat :=
  match v with
  | .nan => f.nanCode
  | .inf neg => f.overflow neg (sat && f.saturable)
  | .fin neg m e =>
    let c := roundCode f md sub m e
    if c > f.maxCode then f.overflow neg ((sat && f.saturable) || md == .rtz) else f.signed neg c

/-- A value rounded to an integer and saturated to lo … hi; NaN gives 0 (Table 6-7, Table 3-15). -/
def convertInt (md : Rnd) (lo hi : Int) (v : FVal) : Int :=
  match v with
  | .nan => 0
  | .inf neg => if neg then lo else hi
  | .fin neg m e =>
    let t : Int := roundAt md m e 0
    let i := if neg then -t else t
    if i < lo then lo else if i > hi then hi else i

/-- The integer range of an integer format, signed or unsigned (Table 6-2). -/
def intRange (bits : Nat) (signed : Bool) : Int × Int :=
  if signed then (-(2 ^ (bits - 1) : Nat), (2 ^ (bits - 1) : Nat) - 1) else (0, (2 ^ bits : Nat) - 1)

/-- An exact integer as a value. -/
def FVal.ofInt (v : Int) : FVal := .fin (decide (v < 0)) v.natAbs 0

/-- The value of an element code of a format, integer formats signed or unsigned (R179, R183). -/
def EFmt.decode (f : EFmt) (signed : Bool) (code : Nat) : FVal :=
  match f with
  | .flt g => g.decode code
  | .int8 => .ofInt (if signed then signedOf 8 code else ((code % 256 : Nat) : Int))
  | .int4 => .ofInt (if signed then signedOf 4 code else ((code % 16 : Nat) : Int))
  | .int32 => .ofInt (if signed then signedOf 32 code else ((code % 2 ^ 32 : Nat) : Int))

/-! ## Vector arithmetic (R207, R208, R181, R210) -/

/-- The signed integer (−1)^neg × m. -/
def sgn (neg : Bool) (m : Nat) : Int := if neg then -(m : Int) else m

/-- The exact sum of two finite values; an exact zero is −0 only when both are −0. -/
def addFin (n1 : Bool) (m1 : Nat) (e1 : Int) (n2 : Bool) (m2 : Nat) (e2 : Int) : FVal :=
  let e := min e1 e2
  let s := sgn n1 (m1 <<< (e1 - e).toNat) + sgn n2 (m2 <<< (e2 - e).toNat)
  if s = 0 then .fin (n1 && n2 && decide (m1 = 0) && decide (m2 = 0)) 0 0 else .fin (decide (s < 0)) s.natAbs e

/-- Exact sum with the special values of IEEE 754 (R210). -/
def FVal.add : FVal → FVal → FVal
  | .nan, _ => .nan
  | _, .nan => .nan
  | .inf a, .inf b => if a = b then .inf a else .nan
  | .inf a, .fin _ _ _ => .inf a
  | .fin _ _ _, .inf b => .inf b
  | .fin n1 m1 e1, .fin n2 m2 e2 => addFin n1 m1 e1 n2 m2 e2

/-- The value with its sign inverted; NaN stays NaN. -/
def FVal.neg : FVal → FVal
  | .nan => .nan
  | .inf a => .inf (!a)
  | .fin n m e => .fin (!n) m e

/-- Exact product with the special values of Table 6-4 and of IEEE 754. -/
def FVal.mul : FVal → FVal → FVal
  | .nan, _ => .nan
  | _, .nan => .nan
  | .inf a, .inf b => .inf (a != b)
  | .inf a, .fin n m _ => if m = 0 then .nan else .inf (a != n)
  | .fin n m _, .inf b => if m = 0 then .nan else .inf (n != b)
  | .fin n1 m1 e1, .fin n2 m2 e2 => .fin (n1 != n2) (m1 * m2) (e1 + e2)

/-- Whether a value is NaN. -/
def FVal.isNan : FVal → Bool
  | .nan => true
  | _ => false

/-- a < b for values that are not NaN, −0 equal to +0. -/
def FVal.lt : FVal → FVal → Bool
  | .nan, _ => false
  | _, .nan => false
  | .inf a, .inf b => a && !b
  | .inf a, .fin _ _ _ => a
  | .fin _ _ _, .inf b => !b
  | .fin n1 m1 e1, .fin n2 m2 e2 =>
    let e := min e1 e2
    decide (sgn n1 (m1 <<< (e1 - e).toNat) < sgn n2 (m2 <<< (e2 - e).toNat))

/-- a = b for values that are not NaN, −0 equal to +0 (Table 3-16). -/
def FVal.feq (a b : FVal) : Bool := !a.isNan && !b.isNan && !a.lt b && !b.lt a

/-- The sign of a value. -/
def FVal.isNeg : FVal → Bool
  | .nan => false
  | .inf n => n
  | .fin n _ _ => n

/-- Whether `a` orders before `b` in FMIN and FMAX, where −0 orders below +0 (Table 3-15). -/
def FVal.below (a b : FVal) : Bool := a.lt b || (a.feq b && a.isNeg && !b.isNeg)

/-- A subnormal code flushed to zero of its sign (FTZ, R85, R207). -/
def FFmt.flush (f : FFmt) (code : Nat) : Nat :=
  if code % 2 ^ (f.ebits + f.mbits) < 2 ^ f.mbits then code &&& (1 <<< (f.ebits + f.mbits)) else code

/-- The value of a vector operand, flushed under FTZ. -/
def vecIn (f : FFmt) (ftz : Bool) (code : Nat) : FVal := f.decode (if ftz then f.flush code else code)

/-- A vector result: rounded to nearest even once, subnormals kept except under FTZ (R207). -/
def vecOut (f : FFmt) (ftz : Bool) (v : FVal) : Nat :=
  let c := convertTo f .rne false true v
  if ftz then f.flush c else c

/-- FMIN or FMAX: one NaN yields the other operand, two yield the canonical NaN (Table 3-15). -/
def fminmax (f : FFmt) (ftz isMax : Bool) (a b : Nat) : Nat :=
  let x := vecIn f ftz a
  let y := vecIn f ftz b
  vecOut f ftz
    (if x.isNan then y else if y.isNan then x
     else if isMax then (if x.below y then y else x) else (if y.below x then y else x))

/-- Direction of an integral rounding (FRINT, FTRUNC, FFLOOR, FCEIL). -/
inductive IntegralDir where
  | nearest | trunc | floor | ceil
deriving DecidableEq, Repr

/-- The integral value of a value, its sign kept (Table 3-15). -/
def FVal.integral (d : IntegralDir) : FVal → FVal
  | .nan => .nan
  | .inf n => .inf n
  | .fin n m e =>
    if 0 ≤ e then .fin n m e
    else
      let t := roundAt .rtz m e 0
      let exact := decide (t <<< (-e).toNat = m)
      let up := match d with
        | .nearest => roundAt .rne m e 0
        | .trunc => t
        | .floor => if n && !exact then t + 1 else t
        | .ceil => if !n && !exact then t + 1 else t
      .fin n up 0

/-! ## Special functions (R209): exact value to far more than 2 units in the last place -/

/-- Integer square root of `n` by `k` bits, from the top. -/
def isqrtBits (n : Nat) : Nat → Nat → Nat
  | 0, r => r
  | k + 1, r =>
    let c := r + 2 ^ k
    isqrtBits n k (if c * c ≤ n then c else r)

/-- Integer square root of a number below 2^(2k). -/
def isqrt (k n : Nat) : Nat := isqrtBits n k 0

/-- π × 2^510, truncated. -/
def piFix : Nat :=
  0x3243f6a8885a308d313198a2e03707344a4093822299f31d0082efa98ec4e6c89452821e638d01377be5466cf34e90c6cc0ac29b7c97c50dd3f84d5b5b5470917 >>> 2

/-- ln 2 × 2^256, truncated. -/
def ln2Fix : Nat := 0xb17217f7d1cf79abc9e3b39803f2f6af40f343267298b62d8a0d175b8baafa2b

/-- Terms of a fixed-point power series at scale 2^p: each term is the one before it times `x`, divided by 2^p and by
the next divisor. -/
def seriesSum (p : Nat) (x : Int) : Nat → Nat → Nat → Int → Int → Int
  | 0, _, _, _, acc => acc
  | k + 1, d, stride, t, acc =>
    let div : Int := if stride = 1 then d else (d * (d + 1) : Nat)
    let t' := t * x / (2 ^ p : Nat) / div
    seriesSum p x k (d + stride) stride t' (acc + t')

/-- 2^p × e^(x / 2^p) for x from 0 to 2^p. -/
def expFix (p : Nat) (x : Nat) : Nat := (seriesSum p x 40 1 1 (2 ^ p : Nat) (2 ^ p : Nat)).toNat

/-- 2^p × cos and 2^p × sin of x / 2^p, for x up to 2^p. -/
def cosFix (p : Nat) (x : Nat) : Int :=
  let y : Int := -(((x * x) >>> p : Nat) : Int)
  seriesSum p y 24 1 2 (2 ^ p : Nat) (2 ^ p : Nat)

/-- See `cosFix`. -/
def sinFix (p : Nat) (x : Nat) : Int :=
  let y : Int := -(((x * x) >>> p : Nat) : Int)
  seriesSum p y 24 2 2 x x

/-- Fraction bits of log2 of y / 2^p, y from 2^p below 2^(p+1): one bit a squaring. -/
def log2Bits (p : Nat) : Nat → Nat → Nat → Nat
  | 0, _, acc => acc
  | k + 1, y, acc =>
    let z := (y * y) >>> p
    if z < 2 ^ (p + 1) then log2Bits p k z (2 * acc) else log2Bits p k (z >>> 1) (2 * acc + 1)

/-- The special functions of vector family 6. -/
inductive Sfu where
  | rcp | rsq | sqrt | ex2 | lg2 | sin | cos
deriving DecidableEq, Repr

/-- Reduction of x = m × 2^e modulo π/2 at scale 2^300: the quadrant and the remainder, 0 to π/2. -/
def trigReduce (m : Nat) (e : Int) : Nat × Nat :=
  let xf := if 0 ≤ e then m <<< (e.toNat + 300) else (m <<< 300) >>> (-e).toNat
  -- π/2 at scale 2^300 is too coarse for large x; the quotient is taken at scale 2^509 of π/2
  let half := piFix
  let big := if 0 ≤ e then m <<< (e.toNat + 511) else (m <<< 511) >>> (-e).toNat
  let q := big / half
  let r := big % half
  if xf < 2 ^ 299 then (0, xf) else (q % 4, r >>> 211)

/-- sin or cos of quadrant q and remainder r at scale 2^300. -/
def trigVal (isSin : Bool) (neg : Bool) (q r : Nat) : Int :=
  let k := (if isSin then q else q + 1) % 4
  let v := if k % 2 = 0 then sinFix 300 r else cosFix 300 r
  let v := if 2 ≤ k then -v else v
  if isSin && neg then -v else v

/-- The value of a special function: exact for the special cases, otherwise to well within 2^-30 units in the last
place of FP32 (R209). The special cases are those of IEEE 754 (R210, DEDUCED, log 20). -/
def Sfu.exact (op : Sfu) (x : FVal) : FVal :=
  match op, x with
  | _, .nan => .nan
  | .rcp, .inf n => .fin n 0 0
  | .rcp, .fin n m e => if m = 0 then .inf n else .fin n (2 ^ 200 / m) (-200 - e)
  | .rsq, .inf n => if n then .nan else .fin false 0 0
  | .rsq, .fin n m e =>
    if m = 0 then .inf n else if n then .nan
    else
      let odd := (e % 2).toNat
      let m' := m <<< odd
      .fin false (isqrt 200 (2 ^ 300 / m')) (-150 - (e - odd) / 2)
  | .sqrt, .inf n => if n then .nan else .inf false
  | .sqrt, .fin n m e =>
    if m = 0 then .fin n 0 0 else if n then .nan
    else
      let odd := (e % 2).toNat
      .fin false (isqrt 140 (m <<< (odd + 200))) ((e - odd) / 2 - 100)
  | .ex2, .inf n => if n then .fin false 0 0 else .inf false
  | .ex2, .fin n m e =>
    if m = 0 then .fin false 1 0
    else if expOf m e ≥ 9 then (if n then .fin false 1 (-400) else .fin false 1 400)
    else
      let xf : Int := sgn n (if 0 ≤ e then m <<< (e.toNat + 256) else (m <<< 256) >>> (-e).toNat)
      let i := xf / (2 ^ 256 : Nat)
      let f := (xf % (2 ^ 256 : Nat)).toNat
      .fin false (expFix 256 ((f * ln2Fix) >>> 256)) (i - 256)
  | .lg2, .inf n => if n then .nan else .inf false
  | .lg2, .fin n m e =>
    if m = 0 then .inf true else if n then .nan
    else
      let k := Nat.log2 m
      let y := m <<< (200 - k)
      let s : Int := (expOf m e) * (2 ^ 120 : Nat) + log2Bits 200 120 y 0
      .fin (decide (s < 0)) s.natAbs (-120)
  | .sin, .inf _ => .nan
  | .sin, .fin n m e =>
    if m = 0 then .fin n 0 0
    else if expOf m e < -100 then .fin n m e
    else
      let qr := trigReduce m e
      let v := trigVal true n qr.1 qr.2
      .fin (decide (v < 0)) v.natAbs (-300)
  | .cos, .inf _ => .nan
  | .cos, .fin n m e =>
    if m = 0 ∨ expOf m e < -100 then .fin false 1 0
    else
      let qr := trigReduce m e
      let v := trigVal false n qr.1 qr.2
      .fin (decide (v < 0)) v.natAbs (-300)

/-- Whether an FP32 code is a finite number within 2 units in the last place of an exact finite value (R209). -/
def within2Ulp (v : FVal) (code : Nat) : Bool :=
  match v, FFmt.fp32.decode code with
  | .fin n m e, .fin n' m' e' =>
    let q := max (expOf m e - 23) (-149)
    let lo := min (min e e') q
    let d := sgn n (m <<< (e - lo).toNat) - sgn n' (m' <<< (e' - lo).toNat)
    decide (d.natAbs ≤ 2 * 2 ^ (q - lo).toNat) && decide (0 < m)
  | _, _ => false

/-! ## MXU arithmetic -/

/-- An operand of an MXI or MXF multiply: subnormal FP32 and BF16 read as zero of their sign (R182). -/
def mxuIn (f : EFmt) (signed : Bool) (code : Nat) : FVal :=
  match f with
  | .flt .fp32 => FFmt.fp32.decode (FFmt.fp32.flush code)
  | .flt .bf16 => FFmt.bf16.decode (FFmt.bf16.flush code)
  | _ => f.decode signed code

/-- A value times a power of two (block scales, R185). -/
def FVal.scale (v : FVal) (k : Int) : FVal :=
  match v with
  | .nan => .nan
  | .inf n => .inf n
  | .fin n m e => .fin n m (e + k)

/-- A product rounded to FP32 (R187): nearest even on an unbounded range, then infinity or signed zero. -/
def product32 (p : FVal) : FVal := FFmt.fp32.decode (convertTo .fp32 .rne false false p)

/-- The magnitude of an addend truncated at 2^w (R188). -/
def truncAt (w : Int) : FVal → Int
  | .fin n m e => sgn n (roundAt .rtz m e w)
  | _ => 0

/-- The largest exponent of the non-zero finite addends. -/
def maxExp : List FVal → Option Int
  | [] => none
  | .fin _ m e :: t =>
    if m = 0 then maxExp t
    else match maxExp t with
      | none => some (expOf m e)
      | some x => some (max x (expOf m e))
  | _ :: t => maxExp t

/-- The step sum of R188 and R189 over the accumulator's value and the rounded products: an FP32 code. -/
def stepSum (adds : List FVal) : Nat :=
  if adds.any FVal.isNan then FFmt.fp32.nanCode
  else
    let pos := adds.any (fun v => v == .inf false)
    let neg := adds.any (fun v => v == .inf true)
    if pos && neg then FFmt.fp32.nanCode
    else if pos || neg then FFmt.fp32.signed neg 0x7F800000
    else match maxExp adds with
      | none => if adds.all FVal.isNeg then 0x80000000 else 0
      | some emax =>
        let w := emax - 47
        let s := (adds.map (truncAt w)).foldl (· + ·) 0
        if s = 0 then 0 else convertTo .fp32 .rne false false (.fin (decide (s < 0)) s.natAbs w)

/-- A product as a 128-bit fixed-point contribution p × 2^(k + 32), rounded to an integer, nearest even, when it is not
one (R191, R193, Table 6-6). -/
def fx128Of (p : FVal) (k : Int) : Int :=
  match p with
  | .fin n m e => sgn n (roundAt .rne m (e + k + 32) 0)
  | _ => 0

/-! ## Stochastic rounding draws (R51, R204) -/

/-- mix64 of R51. -/
def mix64 (v : DWord) : DWord :=
  let v := v ^^^ (v >>> 30)
  let v := v * 0xBF58476D1CE4E5B9
  let v := v ^^^ (v >>> 27)
  let v := v * 0x94D049BB133111EB
  v ^^^ (v >>> 31)

/-- child_identity of R51. -/
def childIdentity (parent : DWord) (blockLinear : Nat) (key : Nat) : DWord :=
  mix64 (parent ^^^ (BitVec.ofNat 64 blockLinear <<< 16) ^^^ BitVec.ofNat 64 key ^^^ 0x9E3779B97F4A7C15)

/-- sr_bits of R204. -/
def srBits (task site : DWord) : Nat := (mix64 (mix64 (task ^^^ 0xD1B54A32D192ED03) ^^^ site) >>> 32).toNat

/-- site_ard of R204. -/
def siteArd (q n row col : Nat) : DWord :=
  (BitVec.ofNat 64 q <<< 16) ||| BitVec.ofNat 64 (n <<< 8) ||| BitVec.ofNat 64 (16 * row + col)

/-- site_st of R204. -/
def siteSt (va : Nat) : DWord := (1#64 <<< 63) ||| BitVec.ofNat 64 va

end Sys2Proof.Machine
end

