-- ==== Sys2Proof/Machine/Table.lean ====
section
/-! DEFINITION. Sparse tables: sorted lists of key and value pairs in one canonical form, for memories, register files
and every family of numbered units. -/

namespace Sys2Proof.Machine

/-- A sparse table: rows with strictly rising keys. A row whose value equals the table's default is never listed when
the table is written through `put`. -/
structure Tab (α : Type) where
  rows : List (Nat × α)
deriving DecidableEq, Repr

namespace Tab

variable {α β : Type}

/-- The table that lists nothing. -/
def empty : Tab α := ⟨[]⟩

/-- The value listed for a key. -/
def findIn (k : Nat) : List (Nat × α) → Option α
  | [] => none
  | r :: t => if r.1 = k then some r.2 else findIn k t

/-- The value listed for a key, if any. -/
def get? (t : Tab α) (k : Nat) : Option α := findIn k t.rows

/-- The value of a key, the default `d` where none is listed. -/
def get (d : α) (t : Tab α) (k : Nat) : α := (t.get? k).getD d

/-- Rows with the key's value replaced, or inserted before the first larger key. -/
def insertIn (k : Nat) (v : α) : List (Nat × α) → List (Nat × α)
  | [] => [(k, v)]
  | r :: t => if k < r.1 then (k, v) :: r :: t else if r.1 = k then (k, v) :: t else r :: insertIn k v t

/-- The table with the key's value set. -/
def set (t : Tab α) (k : Nat) (v : α) : Tab α := ⟨insertIn k v t.rows⟩

/-- The table with the key no longer listed. -/
def erase (t : Tab α) (k : Nat) : Tab α := ⟨t.rows.filter (fun r => !(r.1 == k))⟩

/-- The table with the key's value written, kept canonical: the default is never listed. -/
def put [DecidableEq α] (d : α) (t : Tab α) (k : Nat) (v : α) : Tab α :=
  if v = d then t.erase k else t.set k v

/-- The key's value changed by `f`. -/
def upd [DecidableEq α] (d : α) (t : Tab α) (k : Nat) (f : α → α) : Tab α := t.put d k (f (t.get d k))

/-- The keys listed, in rising order. -/
def keys (t : Tab α) : List Nat := t.rows.map (·.1)

/-- The values listed, in the order of their keys. -/
def vals (t : Tab α) : List α := t.rows.map (·.2)

/-- The rows for which `p` holds. -/
def keep (p : Nat → α → Bool) (t : Tab α) : Tab α := ⟨t.rows.filter (fun r => p r.1 r.2)⟩

/-- Every listed value changed by `f`. -/
def mapVal (f : Nat → α → β) (t : Tab α) : Tab β := ⟨t.rows.map (fun r => (r.1, f r.1 r.2))⟩

/-- Whether some listed row satisfies `p`. -/
def any (p : Nat → α → Bool) (t : Tab α) : Bool := t.rows.any (fun r => p r.1 r.2)

/-- Whether every listed row satisfies `p`. -/
def all (p : Nat → α → Bool) (t : Tab α) : Bool := t.rows.all (fun r => p r.1 r.2)

/-- The first listed row, by key, that satisfies `p`. -/
def find (p : Nat → α → Bool) (t : Tab α) : Option (Nat × α) := t.rows.find? (fun r => p r.1 r.2)

/-- One more than the largest key listed: a key that is free. -/
def fresh (t : Tab α) : Nat := t.rows.foldl (fun m r => max m (r.1 + 1)) 0

/-- Keys strictly rising from `lo`. -/
def risingFrom : Nat → List (Nat × α) → Bool
  | _, [] => true
  | lo, r :: t => decide (lo ≤ r.1) && risingFrom (r.1 + 1) t

/-- The canonical form: keys strictly rising and no listed default. -/
def wf [DecidableEq α] (d : α) (t : Tab α) : Bool :=
  risingFrom 0 t.rows && t.rows.all (fun r => !decide (r.2 = d))

/-- `put` at each key of a list. -/
def putAll [DecidableEq α] (d : α) (t : Tab α) (kvs : List (Nat × α)) : Tab α :=
  kvs.foldl (fun t kv => t.put d kv.1 kv.2) t

end Tab

end Sys2Proof.Machine
end

