-- ==== Sys2Proof/Machine/State.lean ====
section
/-! DEFINITION. The state of the device: everything the spec gives it, as plain data, and its value after reset. -/

namespace Sys2Proof.Machine

/-! ## Completion status and flags -/

/-- Completion status codes (Table 12-11). -/
inductive Status where
  | ok | timeout | killed | diverged | deadlock | poison | tileCorrupt | spentRead | residueFault | accessFault
  | stateLost | queueOverflow | peerUnreachable | inexactAbort
deriving DecidableEq, Repr

/-- The 8-bit code of a status (Table 12-11). -/
def Status.code : Status → Nat
  | .ok => 0 | .timeout => 1 | .killed => 2 | .diverged => 3 | .deadlock => 4 | .poison => 5 | .tileCorrupt => 6
  | .spentRead => 7 | .residueFault => 8 | .accessFault => 9 | .stateLost => 10 | .queueOverflow => 11
  | .peerUnreachable => 12 | .inexactAbort => 13

/-! ## The matrix units (chapter 5) -/

/-- What a queued MXU instruction does, with what it captured at issue (R148, R154, R163, R167). -/
inductive MxOp where
  | mma (repro : Bool) (descA descB : DWord) (shape : Word) (mod : BitVec 16)
  | frag (repro : Bool) (a b : List Lanes) (scale : Lanes) (sel : Mask) (mod : BitVec 16)
  | aclr (shape : Word) (mod : BitVec 16)
  | ard (laddr : Nat) (q : Nat) (shape : Word) (mod : BitVec 16)
  | ard128 (laddr : Nat) (shape : Word) (mod : BitVec 16)
  | ald (laddr : Nat) (shape : Word) (mod : BitVec 16)
  | ardf (dst : Nat) (sel : Mask) (mod : BitVec 16)
deriving DecidableEq, Repr

/-- One entry of an MXU queue: its number, group, instruction address, token slot, the accumulator units it names,
whether it has started, its next step (R148, R178), and the local units whose bytes it reads as unspecified (R98, R151). -/
structure MxEntry where
  id : Nat
  block : Nat
  group : Nat
  pc : DWord
  slot : Option Nat
  units : List Nat
  op : MxOp
  started : Bool
  step : Nat
  smudged : List Nat
deriving DecidableEq, Repr

/-! ## Groups, blocks and tasks (chapters 2 to 5) -/

/-- Kinds of a reconvergence stack entry (Table 4-1). -/
inductive StackKind where
  | div | join | call
deriving DecidableEq, Repr

/-- One entry of the reconvergence stack (R114). -/
structure StackEntry where
  kind : StackKind
  addr : DWord
  mask : Mask
deriving DecidableEq, Repr

/-- What holds a group: nothing, a barrier phase (R123) with the address of its BAR.SYNC, a semaphore wait (R129) with
its request, token slots at EXIT (R93), or its end. `since` orders holds by time (R146). -/
inductive Hold where
  | none
  | bar (id : Nat) (addr : DWord) (since : Nat)
  | sem (req : Nat) (since : Nat)
  | exit
  | ended
deriving DecidableEq, Repr

/-- Vector registers that an instruction in flight will write (the interlock of R82). -/
structure Busy where
  first : Nat
  count : Nat
  op : Nat
deriving DecidableEq, Repr

/-- Where a group's accumulator footprint stands (R144, R145, R146). -/
inductive FootState where
  | none
  | waiting (since : Nat)
  | held
  | evicted
deriving DecidableEq, Repr

/-- A group's accumulator footprint: 32-bit words keyed 256 × unit + word, the units whose kind is FX128, and whether a
storage residue check will fail at the next read (R142, R169). -/
structure Foot where
  st : FootState
  acc : Tab Word
  fx : List Nat
  bad : Bool
deriving DecidableEq, Repr

/-- The footprint of a group that has acquired none. -/
def Foot.empty : Foot := ⟨.none, .empty, [], false⟩

/-- One group of a block (R68 to R71, R111, R114). Lists of request numbers hold later accesses: `gateW` and `gateV` the group's
writes, until these requests are ordered at home and until they are globally visible (R219), `gate` every access (R220, R222); `acq` are
atomics whose response performs an acquire that invalidates the L1. -/
structure Group where
  vregs : Tab Lanes
  uregs : Tab Word
  preds : Tab Mask
  live : Mask
  active : Mask
  pc : DWord
  stack : List StackEntry
  tokens : Tab Nat
  hold : Hold
  busy : List Busy
  gateW : List Nat
  gateV : List Nat
  gate : List Nat
  acq : List Nat
  foot : Foot
deriving DecidableEq, Repr

/-- A group at its start, at its kernel's first instruction (R71, R111, R114). -/
def Group.init (pc : DWord) : Group :=
  ⟨.empty, .empty, .empty, 0xFFFFFFFF, 0xFFFFFFFF, pc, [], .empty, .none, [], [], [], [], [], Foot.empty⟩

/-- One of a block's 16 barriers: its arrivals, and once a phase is open the count that its first arrival fixed, 0 for an
uncounted phase (R124). -/
structure Barrier where
  arrivals : Nat
  opened : Option Nat
deriving DecidableEq, Repr

/-- A barrier with no phase open. -/
def Barrier.init : Barrier := ⟨0, none⟩

/-- A local unit that a TLD wrote: its group, its token slot, and whether that group has waited on the slot since (R151). -/
structure Veil where
  unit : Nat
  group : Nat
  slot : Nat
  waited : Bool
deriving DecidableEq, Repr

/-- Where a block stands: resident, being switched out, its live state written, or switched out (R451). -/
inductive BlockPhase where
  | resident
  | leaving
  | stored
  | out
deriving DecidableEq, Repr

/-- A block (R36, R75, R76, R95): local memory bytes by address, the 2 KiB units that carry no zero mark, and those whose TLD writes are
not yet visible to every group (R151). -/
structure Block where
  task : Nat
  linear : Nat
  core : Nat
  phase : BlockPhase
  groups : List Group
  lmemSize : Nat
  lmem : Tab Byte
  unmarked : Tab Bool
  bars : Tab Barrier
  outSeq : Nat
  displaced : Bool
  saved : List MxEntry
  veils : List Veil
deriving DecidableEq, Repr

/-- Where a task stands: waiting for its predecessors, ready, ended, or never to start because a predecessor failed (R48). -/
inductive TaskState where
  | waiting
  | ready
  | ended
  | skipped
deriving DecidableEq, Repr

/-- A task (R37 to R51): its command, node, identity, shape after clamping, parameters, progress and outcome. `order` is
its place among the tasks that became ready (R439), `quads` where its blocks last ran, `arena` the bytes its pour holds (R412),
`tags` what its scheduler last read of the residency tags: a region and its lines in each half (R442). -/
structure Task where
  cmd : Nat
  part : Nat
  ctx : Nat
  node : Nat
  poured : Bool
  parent : Nat
  identity : DWord
  seed : Word
  gridX : Nat
  gridY : Nat
  gridZ : Nat
  groups : Nat
  nregs : Nat
  accUnits : Nat
  lmem : Nat
  params : List Byte
  kernel : DWord
  affKind : Nat
  affArg : Nat
  state : TaskState
  status : Status
  detail : DWord
  flags : BitVec 16
  placed : Nat
  finished : Nat
  killed : Bool
  quads : List Nat
  order : Nat
  arena : Nat
  tags : List (Nat × Nat × Nat)
deriving DecidableEq, Repr

/-! ## Matrix units and cores -/

/-- An MXU: its queue, whether it takes further instructions (Table 5-11 step 1), and the mismatch injected into it: 1 clean
on recomputation, 2 persistent (R595). -/
structure Mxu where
  queue : List MxEntry
  fenced : Bool
  inject : Nat
deriving DecidableEq, Repr

/-- An MXU after reset. -/
def Mxu.init : Mxu := ⟨[], false, 0⟩

/-- One line of a core's L1: the sectors it holds and their bytes (R213). -/
structure L1Line where
  valid : BitVec 4
  data : BitVec 1024
deriving DecidableEq, Repr

/-- A core: its L1 lines by line key, its L1 size in KiB in effect (R73, R74), and whether a debug session halted it
(R566). -/
structure Core where
  l1 : Tab L1Line
  l1KiB : Nat
  halted : Bool
deriving DecidableEq, Repr

/-- A core at device start (R73). -/
def Core.init : Core := ⟨.empty, 64, false⟩

/-! ## Requests on the networks (chapters 7, 8 and 15) -/

/-- The home of a line: this device's memory, host memory, or an export of a peer device, each with a line number
(R211). -/
inductive Home where
  | dev (line : Nat)
  | host (line : Nat)
  | peer (dest exp line : Nat)
deriving DecidableEq, Repr

/-- The atomic operations of Table 3-11. -/
inductive AtomOp where
  | addI | minS | minU | maxS | maxU | and | or | xor | exch | cas | addF
deriving DecidableEq, Repr

/-- One lane of an atomic request: the lane, its byte offset in the line, its operand and, for CAS, its new value. -/
structure AtomLane where
  lane : Nat
  off : Nat
  arg : Nat
  new : Nat
deriving DecidableEq, Repr

/-- What a request asks of its home (Table 8-11). A load's `fill` says what its data does to the L1: 0 nothing, 1 refreshes a copy,
2 fills. `read` is an outer agent's read, cacheable shared or owning where `cache` says so. -/
inductive ReqKind where
  | load (dst width : Nat) (signed : Bool) (lanes : List (Nat × Nat)) (op : Nat) (fill : Nat)
  | prefetch
  | store (data : BitVec 1024) (mask : BitVec 128)
  | atom (op : AtomOp) (size : Nat) (lanes : List AtomLane) (ret : Option Nat)
  | spent
  | semAcq (off : Nat) (n : Nat)
  | semRel (off : Nat) (n : Nat)
  | tile (write : Bool) (op tile : Nat)
  | read (need : BitVec 4) (cache : Option Bool)
deriving DecidableEq, Repr

/-- Where a request stands: on its way to the home, ordered there while copies are still to be invalidated (Table 7-1), waiting there (for
memory, for another device, for repair, or among a semaphore's waiters), acknowledged by copy 1 of a mirrored region, answered and on its
way back with the line's bytes, a front end's read that failed with a status, or a semaphore wait whose withdrawal was sent to a peer, or
is complete (R132). -/
inductive ReqStage where
  | flight
  | accepted
  | waiting
  | acked
  | back (data : BitVec 1024)
  | failed (st : Status)
  | recalled
  | withdrawn
deriving DecidableEq, Repr

/-- Who made a request: a group of a block, a command of a queue, a front end as it fetches for a queue, or an agent outside the cores (0 the host, 1 the Hithen cache,
2 + d peer d) with its tag and, for a peer, the export it came under. -/
inductive Src where
  | grp (block group : Nat)
  | cmd (id : Nat)
  | fe (queue : Nat)
  | outer (agent tag : Nat) (exp : Option Nat)
deriving DecidableEq, Repr

/-- What a request carries on its way: the requests that must be ordered at home (`after`) or over (`seen`) before it goes out (R219, R245);
for a load, the bytes that its core has stored in the line since (R213); the TST whose line it is; its place in the home's request queue,
in order of arrival (R286); its hinge leaf (R290); whether its lookup has been counted (R274), and whether the sectors that it needs have been read (R254). -/
structure Via where
  after : List Nat
  seen : List Nat
  lay : BitVec 1024
  layMask : BitVec 128
  op : Option Nat
  arr : Option Nat
  leaf : Option Nat
  counted : Bool
  fetched : Bool
deriving DecidableEq, Repr

/-- A request that nothing holds. -/
def Via.free : Via := ⟨[], [], 0, 0, none, none, none, false, false⟩

/-- A request (R287): its maker, its address as the maker named it, its home, its hint, its instruction and what it carries on its way. -/
structure MemReq where
  src : Src
  part : Nat
  va : Nat
  home : Home
  kind : ReqKind
  hint : Nat
  stage : ReqStage
  pc : DWord
  via : Via
deriving DecidableEq, Repr

/-- A load with the spent hint: the tiles it touched and the requests it still waits for (R90). -/
structure SpentLoad where
  tiles : List (Nat × Home)
  waits : List Nat
deriving DecidableEq, Repr

/-- A TLD or TST in flight (R93, R94, R97): its group, token slot and operands. `lines` are the lines of a TST that its
homes have accepted, keyed 16 × tile + line; `opened` the tiles whose multi-line write has begun; `after` and `seen` as of `Via`; `smudged`
the units that were written before it had completed (R98). -/
structure TileOp where
  store : Bool
  block : Nat
  group : Nat
  slot : Nat
  part : Nat
  va : Nat
  laddr : Nat
  count : Nat
  stride : Nat
  hint : Nat
  pc : DWord
  lines : List Nat
  opened : List Nat
  after : List Nat
  seen : List Nat
  smudged : List Nat
deriving DecidableEq, Repr

/-! ## Device memory and the tile state store (chapter 9) -/

/-- Tile states (Table 9-1). -/
inductive TileState where
  | valid | opened | zero | spent | poison | stale
deriving DecidableEq, Repr

/-- A TSS entry (Table 9-1). -/
structure Tss where
  state : TileState
  crc : Word
  openCount : Nat
deriving DecidableEq, Repr

/-- The entry of a tile at device start (R311). -/
def Tss.init : Tss := ⟨.zero, 0, 0⟩

/-- Who owns rows or channels: a partition, the shared read-only region, the reserve, or nobody. -/
inductive Owner where
  | free
  | part (p : Nat)
  | shared
deriving DecidableEq, Repr

/-- Under which key and tweak a sector of device memory was encrypted: the owner's key, its generation and the data unit, DPA bits [39:5]
(R300). -/
structure Seal where
  owner : Owner
  gen : Nat
  unit : Nat
deriving DecidableEq, Repr

/-- An entry of the open-tile table (R308). -/
structure OpenTile where
  zeroMask : BitVec 16
  poisonMask : BitVec 16
  spentPending : Bool
  line0 : Nat
deriving DecidableEq, Repr

/-- A shadow entry of a set being rebuilt (Table 9-5b step 3): its channels, first row and rows, the tiles already moved, those
copied and not yet committed (R380, R381), and the channel that leaves. -/
structure Shadow where
  chans : List Nat
  row0 : Nat
  rows : Nat
  moved : List Nat
  held : List Nat
  leaving : Nat
deriving DecidableEq, Repr

/-- An interleave set (R297). -/
structure IntSet where
  base : Nat
  chans : List Nat
  row0 : Nat
  rows : Nat
  owner : Owner
  copy : Nat
  shadow : Option Shadow
deriving DecidableEq, Repr

/-- Channel states (Table 9-5a). -/
inductive ChanState where
  | unbound | inService | failing | migrating | mappedOut
deriving DecidableEq, Repr

/-- A channel: its state and the counts of MEM_CHANNEL_STATUS (R326, Table 16-14); `reserved` counts the rows of
re-placed reserve that it holds at its top (R295), `ueRows` the rows with an uncorrectable error in the last 24 hours, and `ueAfter` those of them that
erred after a soft repair (R325). -/
structure Chan where
  state : ChanState
  owner : Owner
  ceTotal : Nat
  ceHour : Nat
  ueTotal : Nat
  odecc : Nat
  ueRows : List Nat
  ueAfter : List Nat
  softPpr : Nat
  trigger : Nat
  passed : Bool
  reserved : Nat
deriving DecidableEq, Repr

/-- A channel at reset: UNBOUND, nothing counted. -/
def Chan.init : Chan := ⟨.unbound, .free, 0, 0, 0, 0, [], [], 0, 0, false, 0⟩

/-- The class of a memory controller queue entry (R270, R271). -/
inductive McKind where
  | fill (req : Nat)
  | outerRead (req : Nat)
  | writeBack
  | outerWrite
deriving DecidableEq, Repr

/-- An entry of a pseudo-channel's queues: which line, which sectors, the bytes written, whether it was
issued, how many younger entries passed it, and who made it (0 the host, 1 another outer agent, 2 the LLC). -/
structure McEntry where
  kind : McKind
  ch : Nat
  row : Nat
  line : Nat
  dpaLine : Nat
  sectors : BitVec 4
  mask : BitVec 128
  data : BitVec 1024
  issued : Bool
  age : Nat
  who : Nat
deriving DecidableEq, Repr

/-- A pseudo-channel's two queues in order of arrival, and its open row (R270, R271). -/
structure PseudoChan where
  entries : List McEntry
  openRow : Option Nat
deriving DecidableEq, Repr

/-- A pseudo-channel with empty queues. -/
def PseudoChan.init : PseudoChan := ⟨[], none⟩

/-! ## Last-level cache (chapter 8) -/

/-- A line held in a way of a slice (R249, R255). `host` says that the line number is one of host memory. -/
structure LlcLine where
  line : Nat
  host : Bool
  valid : BitVec 4
  dirty : BitVec 4
  age : Nat
  drip : Bool
  keep : Option Nat
  data : BitVec 1024
  owner : Nat
deriving DecidableEq, Repr

/-- A directory entry: the line's state S or E, its agents, bit 0 the host, bit 1 the Hithen cache, bits 2 to 9 the peers, and its
way (R280, Table 8-9). -/
structure DirEntry where
  excl : Bool
  agents : BitVec 10
  way : Nat
deriving DecidableEq, Repr

/-- A pending transaction of a line (R282): the agents still to answer, those whose WbData is still to come (R285), the directory
entry afterwards, whether returned dirty data is discarded (R264), the request that it holds, and dirty data accepted but not yet merged
(R284, R289). -/
structure Txn where
  awaits : BitVec 10
  wbDue : BitVec 10
  next : Option DirEntry
  drop : Bool
  cause : Option Nat
  data : Option (BitVec 1024)
deriving DecidableEq, Repr

/-- A host-memory line held through CXL.cache (R286). -/
inductive CxlState where
  | shared | exclusive | modified
deriving DecidableEq, Repr

/-- A residency tag: its region (DPA bits from 21) and its count of valid lines (R266). -/
structure ResTag where
  region : Nat
  count : Nat
deriving DecidableEq, Repr

/-! ## Command front ends (chapters 12 and 13) -/

/-- Queue states (Table 12-3). -/
inductive QState where
  | idle | active | stalled | draining | disabled
deriving DecidableEq, Repr

/-- A completion record held in a shadow, or ready to be written, with its signal (R432). -/
structure HeldRec where
  cmd : Nat
  record : Option (List Byte)
  signal : Option (DWord × DWord × Bool)
deriving DecidableEq, Repr

/-- A submission queue with its completion ring (R401, Table 12-2). Indexes are taken modulo the depth. -/
structure Queue where
  depth : Nat
  sqLoc : Bool
  fe : Nat
  sqBase : Nat
  cqBase : Nat
  enable : Bool
  state : QState
  drainPend : Bool
  tail : Nat
  head : Nat
  sqHead : Nat
  cqTail : Nat
  phase : Bool
  shadow : List HeldRec
  sigDrops : Nat
deriving DecidableEq, Repr

/-- Where a fetched command stands (R405, Table 12-14): fetched, running, drained after expiry or abort, killed, complete
with its record owed, and record written with its signal owed. -/
inductive CmdStage where
  | fetched
  | running
  | draining
  | killing
  | complete
  | recorded
deriving DecidableEq, Repr

/-- A fetched command (R404, R408). `bytes` are the 64 bytes read; `why` is the status that expiry or abort fixed;
`batch` the batch descriptor; `version` the graph version of the launch; `moved` bytes of COPY and FILL done, `srcTiles` source tiles that have come
for the next ones, by address (an entry one above it: its lines have been asked of the host), `srcFail` the source tile that stopped with its status (R314), and `acked` that copy 1 of a mirrored destination has taken them (R398); `slot` the
address that it was fetched from (R630), and `failed` that its fetch failed. -/
structure Cmd where
  queue : Nat
  slot : Nat
  bytes : List Byte
  stage : CmdStage
  why : Option Status
  status : Status
  flags : BitVec 16
  detail : DWord
  task : DWord
  batch : List Byte
  version : Option Nat
  moved : Nat
  failed : Bool
  req : Option Nat
  boundStarted : Bool
  drained : List Nat
  srcTiles : Tab (List Byte)
  srcFail : Option (Nat × Status)
  acked : Bool
deriving DecidableEq, Repr

/-- A dependence edge (R41). -/
structure Edge where
  pred : Nat
  poured : Bool
deriving DecidableEq, Repr

/-- A node of a stored graph, after the clamps of R38 and R413. `grid` is its own grid before a batch grid replaces it. -/
structure Node where
  kernel : DWord
  gridX : Nat
  gridY : Nat
  gridZ : Nat
  groups : Nat
  paramLen : Nat
  pourOnly : Bool
  affKind : Nat
  affArg : Nat
  gridSlot : Nat
  nregs : Nat
  accUnits : Nat
  lmem : Nat
  paramVa : Nat
  edges : List Edge
  clamped : Bool
deriving DecidableEq, Repr

/-- A live version of a stored graph (R415, R416). -/
structure GraphVer where
  nodes : List Node
  clamped : Bool
deriving DecidableEq, Repr

/-- A graph index of a partition: its version counter and its current version (R415). -/
structure GraphIdx where
  counter : Nat
  current : Option Nat
deriving DecidableEq, Repr

/-! ## Partitions, slices, pools and twins (chapter 11) -/

/-- Backing of a page (Table 2-8): a device frame, a frame of the shared region, a host address, or an offset of an export
of a peer device. -/
inductive Backing where
  | dev (dpa : Nat)
  | shared (dpa : Nat)
  | host (addr : Nat)
  | peer (dest exp off : Nat)
deriving DecidableEq, Repr

/-- A page of a partition (R62): large is 2 MiB; `spill` says that pool state sits in this backing (R386). -/
structure Page where
  large : Bool
  backing : Backing
  readWrite : Bool
  spill : Bool
deriving DecidableEq, Repr

/-- Partition states (Table 11-2). -/
inductive PartState where
  | free | built | active | quiescing | quiesced | reconfiguring | detached
deriving DecidableEq, Repr

/-- A PART_REBIND_QUADS in progress (R374): its slice, the quads to add and to withdraw, and whether its batch-step boundary
has passed. -/
structure Rebind where
  slice : Nat
  add : BitVec 40
  withdraw : BitVec 40
  begun : Bool
deriving DecidableEq, Repr

/-- A partition (R366 to R370, R315, R444, R559). Pages are keyed by virtual address divided by 64 KiB; `preemptNow` is the PREEMPT
in effect since the last change of owner. -/
structure Part where
  state : PartState
  contexts : Nat
  wholeDevice : Bool
  confidential : Bool
  spill : Nat
  generation : Nat
  hostEpoch : Nat
  keepQuota : Nat
  spentFlag : Bool
  quantum : Nat
  weights : List Nat
  preemptFull : Bool
  preemptNow : Bool
  owner : Option Nat
  quantaLeft : Nat
  switchOuts : Nat
  restores : Nat
  pages : Tab Page
  locked : Bool
  rebind : Option Rebind
  rebound : Bool
  save : Nat
deriving DecidableEq, Repr

/-- A partition that does not exist, with the settings of Table 13-2 and R369. -/
def Part.init : Part :=
  ⟨.free, 0, false, false, 0, 0, 0, 0, false, 2000, List.replicate 8 1, true, true, none, 0, 0, 0, .empty, false, none, false,
    0⟩

/-- A slice record (R366, Table 11-1). -/
structure Slice where
  quads : BitVec 40
  chans : BitVec 256
  ports : BitVec 12
  part : Option Nat
deriving DecidableEq, Repr

/-- A slice record that lists nothing. -/
def Slice.init : Slice := ⟨0, 0, 0, none⟩

/-- A message that leaves the device. A reply leaves by a management port: 0 JTAG, 1 I3C, 2 DOE; its kind is 0 for success, 1
ERROR_NOT_READY, 2 ERROR_UNSUPPORTED_PLDM_CMD, 3 an SPDM ERROR. -/
inductive Msg where
  | record (queue slot : Nat) (bytes : List Byte)
  | busWrite (addr value : Nat)
  | snoop (agent line : Nat) (inv : Bool)
  | answer (agent tag : Nat) (data : BitVec 1024) (poison : Bool)
  | lbx (dest kind : Nat) (args : List Nat) (data : List Byte)
  | reply (port kind : Nat) (data : List Byte)
deriving DecidableEq, Repr

/-! ## Fuses, start-up, firmware and errors (chapters 16, 18, 19) -/

/-- What the fuses hold (Tables 19-4 and 19-5, R540, R582). -/
structure Fuses where
  grade : BitVec 2
  serial : Word
  cstep : List Byte
  bstep : List Byte
  quads : BitVec 40
  speedClass : Nat
  rollback : Nat
deriving DecidableEq, Repr

/-- What the fuses of a part may hold (R3, R4, Table 0-1): of grade 0, 1 or 2, with no more than one quad of a compute die absent, and as
many absent in each half as the grade says. -/
def Fuses.wf (f : Fuses) : Bool :=
  let absent := fun (first n : Nat) => ((List.range n).filter (fun k => !f.quads.getLsbD (first + k))).length
  f.grade.toNat < 3 && (List.range 8).all (fun d => absent (5 * d) 5 ≤ 1)
    && (List.range 2).all (fun h => absent (20 * h) 20 = f.grade.toNat)

/-- Start-up (Table 16-7, R529 to R533): `stage` is the step begun, `running` a start in progress, `forced` a restart into
minimal mode, `restart` a DEV_RESTART that waits for a flash write; reason, fails, failStage and starts are always-on. -/
structure Boot where
  running : Bool
  stage : Nat
  ready : Bool
  minimal : Bool
  forced : Bool
  reason : Nat
  fails : Nat
  failStage : Nat
  starts : Nat
  restart : Option Nat
  epoch : Nat
deriving DecidableEq, Repr

/-- What the checks of Table 16-10c read of a firmware image (R538, R539), and the SHA-512 of header bytes 0 to 2,239 (Table
17-7), `none` for the image of manufacture. -/
structure Image where
  header : Bool
  version : DWord
  svn : Nat
  keys : Bool
  ed25519 : Bool
  mldsa : Bool
  body : Bool
  digest : Option (List Byte)
deriving DecidableEq, Repr

/-- An event-log record (Table 16-12); its DATA holds the row of a memory event (R313), else zero (log 22). -/
structure LogRec where
  seq : Nat
  starts : Nat
  ms : Nat
  event : Nat
  unit : Nat
  data : Nat
deriving DecidableEq, Repr

/-- A row that was repaired (R333): stack, channel, and the pseudo-channel, bank and row as the stack numbers them. -/
structure SoftRepair where
  stack : Nat
  chan : Nat
  row : Nat
deriving DecidableEq, Repr

/-- The flash (Table 16-10a): image, a write in progress with the mailbox slot that it answers, the configuration for the
next start (memory mode, board device number, link mode), soft repairs and the event log, oldest first. -/
structure Flash where
  image : Image
  writing : Option (Image × Nat × Nat × Bool)
  memMode : Nat
  devNum : Nat
  linkMode : Nat
  repairs : List SoftRepair
  log : List LogRec
  nextSeq : Nat
deriving DecidableEq, Repr

/-- The running firmware (R522, R528) and the health registers; `ms` counts milliseconds since the start's first tick. -/
structure Fw where
  running : Bool
  version : DWord
  svn : Nat
  digest : Option (List Byte)
  heartbeat : Word
  ms : Nat
  fatal : Bool
  cause : Nat
  hung : Bool
  halving : Bool
  lastFn : Nat
deriving DecidableEq, Repr

/-- The pins of chapter 20: inputs, and the outputs TWIN_ALIVE_OUT and THERMTRIP# (asserted). -/
structure Pins where
  vddIo : Bool
  pwrgd : Bool
  perst : Bool
  coldRst : Bool
  twinIn : Bool
  twinOut : Bool
  thermtrip : Bool
deriving DecidableEq, Repr

/-- Capabilities (R346, Table 19-5): the words of the ten dies received so far and what negotiation and closures wrote. -/
structure Caps where
  words : Tab DWord
  level : DWord
  quadMask : BitVec 40
  open_ : BitVec 160
  gen : Nat
  fence : Tab Nat
deriving DecidableEq, Repr

/-- Power states (Table 18-5); `off` before a start has ended. -/
inductive PowerState where
  | off | active | idle | retain | minimal
deriving DecidableEq, Repr

/-- Power and the cap controller (R573 to R579, R587 to R590). Allowances are 0 to 16; `retainReq` is 1 for a command, 2
for D3hot; `nextCap` holds settings that take effect at the next 4 µs period; `pavg` the P of the last 250 periods and `ticks` the 4 µs periods so far. -/
structure Power where
  state : PowerState
  retainReq : Nat
  d3hot : Bool
  selfRefresh : Bool
  cap : Nat
  vmax : Nat
  idleDelay : Nat
  nextCap : Option (Nat × Nat × Nat)
  vtarget : Nat
  est : Tab Nat
  pavg : List Nat
  capAllow : Nat
  droopAllow : Tab Nat
  ticks : Nat
deriving DecidableEq, Repr

/-- Temperatures in °C and the thermal levels they have set (Tables 18-4 and 9-6a), and droop levels and counts (R363,
R579); dies 8 and 9 are the base dies. -/
structure Temps where
  die : Tab Int
  dieLevel : Tab Nat
  stack : Tab Int
  stackLevel : Tab Nat
  droop : Tab Nat
  droopCount : Tab Nat
  droopRecent : Tab (List Nat)
deriving DecidableEq, Repr

/-- The PLDM sensors as last updated (R586). -/
structure Sensors where
  p : Nat
  cap : Nat
  vtarget : Nat
  hotCdie : Int
  hotBdie : Int
  hotStack : Int
  stackTemps : List Int
  power : PowerState
  fatal : Bool
  cause : Nat
deriving DecidableEq, Repr

/-! ## Functions and their mailboxes (chapters 14, 16) -/

/-- Slot states (Table 16-1). -/
inductive SlotState where
  | free | pending | done
deriving DecidableEq, Repr

/-- A mailbox slot: the request area, the request copied at its submission (R513), the response, its order among
submissions, and whether the firmware serves it. -/
structure Slot where
  state : SlotState
  area : List Byte
  req : List Byte
  resp : List Byte
  order : Nat
  busy : Bool
deriving DecidableEq, Repr

/-- A slot at reset. -/
def Slot.init : Slot := ⟨.free, [], [], [], 0, false⟩

/-- Dirty-page logging of a function (R472, R473): its range, two buffers, which is active, and its misses. -/
structure DirtyLog where
  start : Nat
  pages : Nat
  buf0 : Nat
  buf1 : Nat
  second : Bool
  misses : Nat
deriving DecidableEq, Repr

/-- A function: its mailbox, admission limit, bound context, tumbler counter and grants (Table 14-4, R470), FLR in progress,
dirty logging, and counter selectors (R274, R609). -/
structure Fn where
  slots : Tab Slot
  limit : Nat
  setLimit : Nat
  ctx : Option (Nat × Nat)
  drops : Nat
  lastKind : Nat
  lastRid : Nat
  grants : List Nat
  flr : Bool
  log : Option DirtyLog
  csel : Word
  mxuCsel : Word
deriving DecidableEq, Repr

/-- A function at reset: unbound, limit 7, selectors at the device total. -/
def Fn.init : Fn := ⟨.empty, 7, 7, none, 0, 0, 0, [], false, none, 0x1F, 0x1F⟩

/-- The host link (R459, R464, R466, R481, R556, R593, R610); the window maps 2 MiB window frames to frames of device
memory, by DPA. -/
structure HostLink where
  up : Bool
  vfEnable : Bool
  memActive : Bool
  ideIo : Bool
  ideCxl : Bool
  aerCorr : Bool
  aerUncorr : Bool
  decoder : Option (Nat × Nat)
  window : Tab Nat
  unmapped : Nat
deriving DecidableEq, Repr

/-! ## Fabric and clocks (chapter 10) -/

/-- Leaf states (Table 10-11). -/
inductive LeafState where
  | off | train | confirm | active | degraded | failed
deriving DecidableEq, Repr

/-- One direction of a flit link, seen from its sender and its receiver: the next SEQ, the flits not yet acknowledged, the
last SEQ accepted, and whether the receiver discards until the resend (R343, R493). -/
structure FlitDir where
  nextSeq : Nat
  unacked : List Nat
  accepted : Nat
  nak : Bool
deriving DecidableEq, Repr

/-- A direction of a new session: nothing sent, so that SEQ 0 is the next to accept. -/
def FlitDir.init : FlitDir := ⟨0, [], 4095, false⟩

/-- One end of a leaf in training: the good-group mask it offered, and the width in groups and group mask it confirmed (R352,
R354), and whether it has asserted and has received RESET_SEEN (R355). -/
structure LeafEnd where
  offer : Option (BitVec 4)
  confirm : Option (Nat × BitVec 4)
  mask : BitVec 4
  resetSeen : Bool
  gotReset : Bool
deriving DecidableEq, Repr

/-- A leaf end that has offered nothing. -/
def LeafEnd.init : LeafEnd := ⟨none, none, 0, false, false⟩

/-- A hinge leaf (R352 to R358): both ends, both directions, failure count, forced width, whether its training began with the
reset that RESET_SEEN reports, trained width in groups and the groups in use, replays of the last second, whether the firmware retrained it in
this second, an injected CRC error, and for each direction the message buffers of REQ, SNP, RSP, DAT and SYNC that its sender has filled
and the far end has not returned as credits (R288, R342). -/
structure Leaf where
  state : LeafState
  fails : Nat
  end0 : LeafEnd
  end1 : LeafEnd
  up : FlitDir
  down : FlitDir
  forced : Bool
  fresh : Bool
  width : Nat
  groups : BitVec 4
  replays : Nat
  retrained : Bool
  inject : Bool
  usedUp : List Nat
  usedDown : List Nat
deriving DecidableEq, Repr

/-- A leaf before hinge training. -/
def Leaf.init : Leaf :=
  ⟨.off, 0, LeafEnd.init, LeafEnd.init, FlitDir.init, FlitDir.init, false, false, 0, 0, 0, false,
    false, [0, 0, 0, 0, 0], [0, 0, 0, 0, 0]⟩

/-- PLL states: not yet locked, locked, relocking, failed (R361, R362). -/
inductive Pll where
  | unlocked | locked | relocking | failed
deriving DecidableEq, Repr

/-- The clock unit (R24, R360 to R362): both references, the forwarded pairs still present, and the PLL of each of the 32
sites: 0 CXL, 1 to 6 LBX, 7 to 22 HBM3E, 23 to 30 hinge leaf ends (two for each leaf), 31 xSPI. -/
structure Clocks where
  hostRef : Bool
  boardRef : Bool
  pairs : BitVec 2
  plls : Tab Pll
deriving DecidableEq, Repr

/-- The hinge: the sync leaf, the bucket counts in effect by leaf (R290, R291, R357), bonded channels with a word to be resent,
and compute dies fenced (R345, R348, R365). -/
structure Hinge where
  sync : Option Nat
  buckets : List Nat
  resend : Tab Bool
  fenced : Tab Bool
deriving DecidableEq, Repr

/-! ## Memory management, pools and twins (chapters 9, 11) -/

/-- Migrations (R379): a set moved to its shadow entry, a page moved to a new frame (of partition 16 or 17: a frame of copy 0 or 1 of the
shared region), a spilled page recalled to a frame, a partition re-keyed and re-placed under R383, a partition copied to its twin, a
partition's mirrored region resynchronised up to a chunk, or a channel that leaves with no tile left on it (R328). -/
inductive Migration where
  | set (part set : Nat)
  | page (part key src dst tiles : Nat) (held moved : List Nat)
  | recall (part key dst tiles : Nat) (moved : List Nat)
  | rekey (part : Nat)
  | detach (part : Nat) (held moved : List Nat)
  | attach (part chunk : Nat)
  | leave (ch : Nat)
deriving DecidableEq, Repr

/-- A piece of a copy of the shared region: its DPAs (R318). -/
structure SharedPart where
  copy : Nat
  base : Nat
  size : Nat
deriving DecidableEq, Repr

/-- The shared read-only region (R318 to R321): length, half-replicated, quarantined, and where its copies lie, in order of offset. -/
structure SharedRegion where
  length : Nat
  half : Bool
  quarantined : Bool
  parts : List SharedPart
deriving DecidableEq, Repr

/-- Device-wide memory management: the mode in use (R324), the migration rate and the migrations in the order accepted
(R379), the shared region, lane repair maps, stacks with an open IEEE 1500 session (R331, R333), and channels whose
mapping-out ends unbound (R378); `laneMap` and `hardPpr`, the rows that hard repair replaced, lie in the stacks for good (R333). -/
structure MemMgmt where
  laneSpare : Bool
  migRate : Nat
  migs : List Migration
  shared : Option SharedRegion
  laneMap : Tab Nat
  hardPpr : List SoftRepair
  session : Tab Bool
  unbind : List Nat
deriving DecidableEq, Repr

/-- A state pool (R384 to R387, R399): `groups` lists, for a coded pool, each group's four data channels and its parity channel. -/
structure Pool where
  part : Nat
  onTwin : Bool
  chans : BitVec 256
  base : Nat
  length : Nat
  mirror : Bool
  coded : Bool
  ledger : Nat
  failed : Bool
  groups : List (List Nat)
deriving DecidableEq, Repr

/-- A ledger region (R388): the pool that registered it, its partition, virtual base and length. -/
structure Ledger where
  pool : Nat
  part : Nat
  base : Nat
  length : Nat
deriving DecidableEq, Repr

/-- Pair states (Table 11-9). -/
inductive PairState where
  | unpaired | paired | solo | severed | detached | attaching
deriving DecidableEq, Repr

/-- The twin pairing (R394 to R397): the pairs of a local partition and its partner, whether TWIN_ALIVE in is being timed
low, the partitions an attach names with RETURN, the TIME_MS of the last failover, and the pool numbers of the lost twin that this device holds
mirrors of. -/
structure Pair where
  state : PairState
  pairs : List (Nat × Nat)
  lowCount : Bool
  naming : List Nat
  ret : Bool
  lastFailover : Nat
  mirrors : BitVec 64
deriving DecidableEq, Repr

/-! ## Peer links (chapter 15) -/

/-- Port states (Table 15-5a). -/
inductive PortState where
  | down | training | active | half | failed
deriving DecidableEq, Repr

/-- An LBX port (R490 to R500): its peer's number and port, failure reason (1 ID_DUP, 2 ID_MISMATCH, 3 MODE_MISMATCH, 4
VERSION), counters, both directions of its link, the credits it has left on the virtual channels REQ, SNP, RSP and DAT, and the messages
that wait for credit or replay room, oldest first (R493, R494). -/
structure LbxPort where
  state : PortState
  attempts : Nat
  peer : Option (Nat × Nat)
  idOk : Bool
  reason : Nat
  replays : Nat
  corrected : Nat
  rspErrs : Nat
  rx : FlitDir
  tx : FlitDir
  inject : Bool
  credits : List Nat
  wait : List Msg
deriving DecidableEq, Repr

/-- The message buffers that a receiving port reserves for each virtual channel (R494). -/
def lbxBuffers : List Nat := [64, 16, 128, 128]

/-- A port at reset. -/
def LbxPort.init : LbxPort := ⟨.down, 0, none, false, 0, 0, 0, 0, FlitDir.init, FlitDir.init, false, lbxBuffers, []⟩

/-- An export (R501). -/
structure Export where
  part : Nat
  va : Nat
  length : Nat
  rw : Bool
  peers : BitVec 8
  closing : Option (Nat × Nat)
deriving DecidableEq, Repr

/-- The peer links: this device's number and mode in use, and the peers lost. -/
structure Lbx where
  d : Nat
  twin : Bool
  lost : List Nat
  ports : Tab LbxPort
  exports : Tab Export
deriving DecidableEq, Repr

/-! ## Security, debug and management (chapters 17, 20) -/

/-- Security and debug state (R556 to R569): the armed token with its mask, the open session's mask, the trace buffer
(destination, length, position), SPDM sessions and the number of the next, the exchange secrets of the sessions (Table 17-5), the number
of the random draw that is N_boot (R558), and whether IDE keys are programmed. -/
structure Sec where
  token : Option (List Byte × BitVec 16)
  session : Option (BitVec 16)
  trace : Option (Nat × Nat × Nat)
  spdm : List Nat
  nextSpdm : Nat
  dhe : Tab Nat
  nBoot : Nat
  ideKeys : BitVec 2
deriving DecidableEq, Repr

/-- The JTAG instruction register's contents (R565, R628). -/
inductive JtagIr where
  | bypass | idcode | sample | extest
deriving DecidableEq, Repr

/-- The management ports: the JTAG instruction, the I3C dynamic address, and the PLDM sensors. -/
structure Mgmt where
  ir : JtagIr
  i3c : Option Nat
  sensors : Sensors
deriving DecidableEq, Repr

/-! ## The state -/

/-- Everything the device holds. `pending` is the queue of waiting commands, first in first out (log 1); `cCache` the lines that the
Hithen controller's cache holds, true where it owns them (Table 8-9); `repaired` the repairs of a tile since the last scrub (Table
9-3); `copyTurn` the partition that the copy engines of a half served last (R440), and `turns`
the queue of a context that fetched last (R439); `nextId` the next
free number for a task, block, request or operation; `freeCtr` the model's counter of free values (log 4); `outbox` what
the device has sent outward, newest first (log 5). -/
structure State where
  pending : List Instr
  nextId : Nat
  freeCtr : Nat
  outbox : List Msg
  tasks : Tab Task
  blocks : Tab Block
  mxus : Tab Mxu
  cores : Tab Core
  quadL1 : Tab Nat
  reqs : Tab MemReq
  spents : Tab SpentLoad
  tileOps : Tab TileOp
  hbm : Tab Byte
  seals : Tab Seal
  tss : Tab Tss
  openTiles : Tab OpenTile
  poisoned : Tab Bool
  latent : Tab Nat
  sets : Tab IntSet
  chans : Tab Chan
  pseudo : Tab PseudoChan
  llc : Tab LlcLine
  dir : Tab DirEntry
  txns : Tab Txn
  hostLines : Tab CxlState
  cCache : Tab Bool
  repaired : Tab Nat
  copyTurn : Tab Nat
  turns : Tab Nat
  resTags : Tab ResTag
  lookups : Tab Nat
  hits : Tab Nat
  events : Tab Nat
  waiters : Tab (List Nat)
  hostMem : Tab Byte
  queues : Tab Queue
  cmds : Tab Cmd
  graphs : Tab GraphIdx
  versions : Tab GraphVer
  parts : Tab Part
  closed : Tab Bool
  mxuCtr : Tab Nat
  errs : Tab Nat
  fuses : Fuses
  boot : Boot
  flash : Flash
  fw : Fw
  pins : Pins
  caps : Caps
  power : Power
  temps : Temps
  fns : Tab Fn
  host : HostLink
  leaves : Tab Leaf
  clocks : Clocks
  hinge : Hinge
  mm : MemMgmt
  slices : Tab Slice
  pools : Tab Pool
  ledgers : List Ledger
  pair : Pair
  lbx : Lbx
  sec : Sec
  mgmt : Mgmt
deriving DecidableEq, Repr

/-- The image that the model's flash holds at reset (log 6): one that passes every check, version 1.0.0.0. -/
def Image.reset : Image := ⟨true, 0x0001000000000000, 0, true, true, true, true, none⟩

/-- The machine right after its resets were released (log 3): no start begun, every register at the reset value the spec
states, and where it states none at the value that notes/assumptions names (logs 3, 4, 6, 7). -/
def State.reset : State where
  pending := []
  nextId := 1
  freeCtr := 0
  outbox := []
  tasks := .empty
  blocks := .empty
  mxus := .empty
  cores := .empty
  quadL1 := .empty
  reqs := .empty
  spents := .empty
  tileOps := .empty
  hbm := .empty
  seals := .empty
  tss := .empty
  openTiles := .empty
  poisoned := .empty
  latent := .empty
  sets := .empty
  chans := .empty
  pseudo := .empty
  llc := .empty
  dir := .empty
  txns := .empty
  hostLines := .empty
  cCache := .empty
  repaired := .empty
  copyTurn := .empty
  turns := .empty
  resTags := .empty
  lookups := .empty
  hits := .empty
  events := .empty
  waiters := .empty
  hostMem := .empty
  queues := .empty
  cmds := .empty
  graphs := .empty
  versions := .empty
  parts := .empty
  closed := .empty
  mxuCtr := .empty
  errs := .empty
  fuses := ⟨0, 0, List.replicate 8 0x20, [0x20, 0x20], BitVec.allOnes 40, 2, 0⟩
  boot := ⟨false, 0, false, false, false, 0, 0, 0, 0, none, 0⟩
  flash := ⟨Image.reset, none, 0, 0, 0, [], [], 0⟩
  fw := ⟨false, 0, 0, none, 0, 0, false, 0, false, false, 0⟩
  pins := ⟨true, true, true, true, false, false, false⟩
  caps := ⟨.empty, 0, 0, 0, 0, .empty⟩
  power := ⟨.off, 0, false, false, 2200, 750, 1000, none, 750, .empty, [], 16, .empty, 0⟩
  temps := ⟨.empty, .empty, .empty, .empty, .empty, .empty, .empty⟩
  fns := .empty
  host := ⟨false, false, false, false, false, false, false, none, .empty, 0⟩
  leaves := .empty
  clocks := ⟨true, true, 3, .empty⟩
  hinge := ⟨none, [0, 0, 0, 0], .empty, .empty⟩
  mm := ⟨false, 80, [], none, .empty, [], .empty, []⟩
  slices := .empty
  pools := .empty
  ledgers := []
  pair := ⟨.unpaired, [], false, [], false, 0, 0⟩
  lbx := ⟨0, false, [], .empty, .empty⟩
  sec := ⟨none, none, none, [], 0, .empty, 0, 0⟩
  mgmt := ⟨.idcode, none, ⟨0, 0, 0, 0, 0, 0, List.replicate 16 0, .off, false, 0⟩⟩

/-- Why a step stops without a next state. -/
inductive Fault where
  /-- Raised by no meaning: every error the spec describes is reported in a next state (safe). -/
  | none
deriving DecidableEq, Repr

/-- Why a command has no meaning here. -/
inductive Refusal where
  /-- Raised by the dispatch for a command that has no meaning yet (safe). -/
  | notModelled (mnemonic : String)
deriving DecidableEq, Repr

end Sys2Proof.Machine
end

