-- ==== Sys2Proof/Machine/Flags.lean ====
section
/-! DEFINITION. Completion flags (Table 12-12) and the comparison and logic codes of Table 3-16. -/

namespace Sys2Proof.Machine

/-- CLAMPED (Table 12-12). -/
def flagClamped : BitVec 16 := 1
/-- UNVERIFIED_TILE. -/
def flagUnverified : BitVec 16 := 2
/-- REPLAYED. -/
def flagReplayed : BitVec 16 := 4
/-- FALLBACK_PATH. -/
def flagFallback : BitVec 16 := 8
/-- INEXACT. -/
def flagInexact : BitVec 16 := 16
/-- SPENT_SEEN. -/
def flagSpentSeen : BitVec 16 := 32
/-- MIGRATED. -/
def flagMigrated : BitVec 16 := 64

/-- CLAMPED when a condition holds. -/
def clampedIf (c : Bool) : BitVec 16 := if c then flagClamped else 0

/-- Integer comparison of two w-bit values by a code of Table 3-16; `none` for a code that the table does not give. -/
def intCompare {w : Nat} (cc : Nat) (a b : BitVec w) : Option Bool :=
  match cc with
  | 0 => some (a == b)
  | 1 => some (a != b)
  | 2 => some (a.slt b)
  | 3 => some (a.sle b)
  | 4 => some (b.slt a)
  | 5 => some (b.sle a)
  | 6 => some (a.ult b)
  | 7 => some (a.ule b)
  | 8 => some (b.ult a)
  | 9 => some (b.ule a)
  | _ => none

/-- FP32 comparison by a code of Table 3-16, −0 equal to +0; `none` for a code that the table does not give. -/
def floatCompare (cc : Nat) (a b : FVal) : Option Bool :=
  let nan := a.isNan || b.isNan
  match cc with
  | 0 => some (a.feq b)
  | 1 => some (nan || !a.feq b)
  | 2 => some (a.lt b)
  | 3 => some (!nan && !b.lt a)
  | 4 => some (b.lt a)
  | 5 => some (!nan && !a.lt b)
  | 6 => some (!nan)
  | 7 => some nan
  | _ => none

/-- Logic function of two predicates by a code of Table 3-16. -/
def predLogic (cc : Nat) (a b : Bool) : Option Bool :=
  match cc with
  | 0 => some (a && b)
  | 1 => some (a || b)
  | 2 => some (a != b)
  | 3 => some (a && !b)
  | 4 => some (a || !b)
  | 5 => some (!a)
  | _ => none

end Sys2Proof.Machine
end

