-- ==== Sys2Proof/Machine/Ops.lean ====
section
/-! DEFINITION. The shared operations: groups and tasks, how an instruction issues and how a fault ends its task (the
device's form of taking an exception, R86), address translation and interleave decode. -/

namespace Sys2Proof.Machine

/-- The outcome of a command. -/
abbrev Out := Host.Outcome State Fault Refusal

/-- Why an instruction does not take effect: it waits to issue, or it ends its task with a status (R86). -/
inductive Stop where
  | wait
  | fault (st : Status)
deriving DecidableEq, Repr

/-- An instruction ends its task with ACCESS_FAULT. -/
def accessFault {α : Type} : Except Stop α := .error (.fault .accessFault)

/-- An instruction waits to issue. -/
def waits {α : Type} : Except Stop α := .error .wait

/-- Goes on when a condition holds, otherwise ends the task with ACCESS_FAULT. -/
def require (c : Bool) : Except Stop Unit := if c then .ok () else accessFault

/-- Goes on when a condition holds, otherwise waits. -/
def await (c : Bool) : Except Stop Unit := if c then .ok () else waits

/-! ## Blocks, groups and tasks -/

/-- A block's group. -/
def Block.group? (b : Block) (k : Nat) : Option Group := b.groups[k]?

/-- A block with one group replaced. -/
def Block.putGroup (b : Block) (k : Nat) (g : Group) : Block := { b with groups := b.groups.set k g }

/-- The live threads of a block (R123, R126). -/
def Block.liveThreads (b : Block) : Nat := (b.groups.map (fun g => popCount 32 g.live.toNat)).foldl (· + ·) 0

/-- The state with one block replaced. -/
def State.setBlock (s : State) (k : Nat) (b : Block) : State := { s with blocks := s.blocks.set k b }

/-- The state with one task replaced. -/
def State.setTask (s : State) (k : Nat) (t : Task) : State := { s with tasks := s.tasks.set k t }

/-- The state with one group of a block replaced. -/
def State.putGroup (s : State) (r : GroupRef) (g : Group) : State :=
  match s.blocks.get? r.block with
  | none => s
  | some b => s.setBlock r.block (b.putGroup r.group.val g)

/-- The group that a reference names. -/
def State.group? (s : State) (r : GroupRef) : Option Group :=
  (s.blocks.get? r.block).bind (fun b => b.group? r.group.val)

/-- A group changed by `f`. -/
def State.updGroup (s : State) (r : GroupRef) (f : Group → Group) : State :=
  match s.group? r with
  | none => s
  | some g => s.putGroup r (f g)

/-- A task with flags raised. -/
def State.raise (s : State) (t : Nat) (f : BitVec 16) : State :=
  match s.tasks.get? t with
  | none => s
  | some k => s.setTask t { k with flags := k.flags ||| f }

/-- A free number taken for a task, block, request or operation. -/
def State.newId (s : State) : Nat × State := (s.nextId, { s with nextId := s.nextId + 1 })

/-- A free 64-bit value (log 4): unconstrained, a new one each time. -/
def State.takeFree (s : State) : DWord × State := (Config.free s.freeCtr, { s with freeCtr := s.freeCtr + 1 })

/-- The sub-core of a group of a block, as a number of the device: 4 × core + group mod 4 (R66). -/
def Block.subCore (b : Block) (group : Nat) : Nat := 4 * b.core + group % 4

/-- Units of 1 KiB of vector registers of a group whose kernel declares `n` registers (R68). -/
def regUnits (n : Nat) : Nat := (max n 8 + 7) / 8

/-- An MXU queue without the entries of a block (R153). -/
def Mxu.dropBlock (m : Mxu) (blk : Nat) : Mxu := { m with queue := m.queue.filter (fun e => !(e.block == blk)) }

/-- Every MXU without the queued work of a block (R153). -/
def State.mxuDrop (s : State) (blk : Nat) : State := { s with mxus := s.mxus.mapVal (fun _ m => m.dropBlock blk) }

/-- The saved MXU entries of a restored block enter their queues, behind what those hold, as far as they have room (R148, R178; log 106). -/
def State.refill (s : State) : State :=
  s.blocks.keys.foldl (fun s k =>
    match s.blocks.get? k with
    | none => s
    | some b =>
      if b.saved = [] || b.phase ≠ .resident then s
      else
        let step := fun (acc : Tab Mxu × List MxEntry) (e : MxEntry) =>
          let u := 4 * b.core + e.group % 4
          let m := acc.1.get Mxu.init u
          if m.queue.length < 16 then (acc.1.put Mxu.init u { m with queue := m.queue ++ [{ e with started := false }] }, acc.2)
          else (acc.1, acc.2 ++ [e])
        let out := b.saved.foldl step (s.mxus, [])
        { s with mxus := out.1, blocks := s.blocks.set k { b with saved := out.2 } }) s

/-- The blocks of a task. -/
def State.blocksOf (s : State) (t : Nat) : List Nat := (s.blocks.keep (fun _ b => b.task == t)).keys

/-- A task ended with a status and the detail of its record (R48, R86, R134): its queued MXU work is discarded and its
footprints are released (R153); its blocks issue nothing more and leave their cores at TASK_KILL. A task that has ended
keeps its first outcome. -/
def State.endTask (s : State) (t : Nat) (st : Status) (detail : DWord) : State :=
  match s.tasks.get? t with
  | none => s
  | some k =>
    if k.state = .ended then s
    else
      let s := s.setTask t { k with state := .ended, status := st, detail := detail }
      let s := (s.blocksOf t).foldl State.mxuDrop s
      let blocks := s.blocks.mapVal (fun _ (b : Block) =>
        if b.task = t then { b with groups := b.groups.map (fun g => { g with foot := Foot.empty }), saved := [] } else b)
      { s with blocks := blocks }.refill

/-! ## Issue -/

/-- What an instruction sees when it issues: the state, its group and where that group is, and its selected lanes. -/
structure Ctx where
  s : State
  r : GroupRef
  b : Block
  g : Group
  t : Task
  i : Ins
  sel : Mask

/-- A predicate register; p0 reads as true in every lane (R70). -/
def Group.pred (g : Group) (p : Nat) : Mask := if p = 0 then 0xFFFFFFFF else g.preds.get 0 p

/-- A predicate register written; p0 discards writes (R70). -/
def Group.putPred (g : Group) (p : Nat) (v : Mask) : Group :=
  if p = 0 then g else { g with preds := g.preds.put 0 p v }

/-- The selected lanes (R112): active lanes whose guard is true, or false under GNEG. -/
def Group.selected (g : Group) (i : Ins) : Mask :=
  let p := g.pred i.guard.toNat
  g.active &&& (if i.gneg then ~~~p else p)

/-- Whether a group can issue: its block is resident, its task runs, its core is not halted and nothing holds it. -/
def State.ctx? (s : State) (r : GroupRef) (i : Ins) : Option Ctx :=
  match s.blocks.get? r.block with
  | none => none
  | some b =>
    match b.group? r.group.val, s.tasks.get? b.task with
    | some g, some t =>
      if b.phase = .resident ∧ g.hold = .none ∧ t.state ≠ .ended ∧ !t.killed
          ∧ !s.fw.fatal ∧ !(s.cores.get Core.init b.core).halted then
        some ⟨s, r, b, g, t, i, g.selected i⟩
      else none
    | _, _ => none

/-- The address of the instruction after this one (R83). -/
def Ctx.nextPc (x : Ctx) : DWord := x.g.pc + (if x.i.long.isSome then 16 else 8)

/-- The group goes on at the next instruction, changed to `g`. -/
def Ctx.done (x : Ctx) (g : Group) : Except Stop State := .ok (x.s.putGroup x.r { g with pc := x.nextPc })

/-- As `done`, in a state already changed elsewhere. -/
def Ctx.doneIn (x : Ctx) (s : State) (g : Group) : Except Stop State :=
  .ok (s.putGroup x.r { g with pc := x.nextPc })

/-- An instruction that acts for the group acts only when some lane is selected (R112). -/
def Ctx.forGroup (x : Ctx) (body : Except Stop State) : Except Stop State :=
  if x.sel = 0 then x.done x.g else body

/-! ## Translation (R31, R32, R62) -/

/-- The page entry that covers a virtual address: a 64 KiB page, or a 2 MiB page at its own base. -/
def Part.page? (p : Part) (va : Nat) : Option (Nat × Page) :=
  match p.pages.get? (va / 65536) with
  | some g => some (if g.large then va / 2097152 * 2097152 else va / 65536 * 65536, g)
  | none =>
    match p.pages.get? (va / 2097152 * 32) with
    | some g => if g.large then some (va / 2097152 * 2097152, g) else none
    | none => none

/-- The partition record of a number. -/
def State.part (s : State) (p : Nat) : Part := s.parts.get Part.init p

/-- Where a recall in progress has already put the tile of a spilled page (R380, R387). -/
def State.recalled? (s : State) (p va : Nat) : Option Nat :=
  s.mm.migs.findSome? (fun m => match m with
    | .recall q key dst tiles moved =>
      let t := (va - key * 65536) / 2048
      if q = p && key * 65536 ≤ va && t < tiles && moved.contains t then some (dst + (va - key * 65536)) else none
    | _ => none)

/-- Where a virtual address of a partition lies, and whether it may be written (R31, R32, R62); `none` when no page
maps it. -/
def State.locate (s : State) (p va : Nat) : Option (Home × Bool) :=
  match (s.part p).page? va with
  | none => none
  | some (base, g) =>
    let off := va - base
    match (if g.spill then s.recalled? p va else none) with
    | some d => some (.dev (d / 128), g.readWrite)
    | none => match g.backing with
      | .dev d => some (.dev ((d + off) / 128), g.readWrite)
      | .shared d => some (.dev ((d + off) / 128), false)
      | .host h => some (.host ((h + off) / 128), g.readWrite)
      | .peer d e o => some (.peer d e ((o + off) / 128), g.readWrite)

/-- Whether an address is mapped. -/
def State.mapped (s : State) (p va : Nat) : Bool := (s.locate p va).isSome

/-! ## Issue (R82, R86, R112) -/

/-- Whether an address is aligned to `w` bytes and has bits [63:48] zero (R88). -/
def addrOk (w va : Nat) : Bool := va < 2 ^ 48 && va % w = 0

/-- Whether the words of the instruction can be fetched: its address is a multiple of 8 and mapped, and so is its second word's (R86). -/
def Ctx.fetched (x : Ctx) : Bool :=
  addrOk 8 x.g.pc.toNat && x.s.mapped x.t.part x.g.pc.toNat
    && (x.i.long.isNone || x.s.mapped x.t.part (x.g.pc.toNat + 8))

/-- How every instruction issues: a group that cannot issue, or an instruction that must wait, leaves everything as it is (log 2); a fetch
that fails, or a fault, ends the task with its status and the instruction's address (R86). -/
def issue (r : GroupRef) (i : Ins) (body : Ctx → Except Stop State) (s : State) : Out :=
  match s.ctx? r i with
  | none => .next s
  | some x =>
    if !x.fetched then .next (s.endTask x.b.task .accessFault x.g.pc)
    else match body x with
      | .ok s' => .next s'
      | .error .wait => .next s
      | .error (.fault st) => .next (s.endTask x.b.task st x.g.pc)

/-- The rotation of a set row (R298). -/
def setRot (r : Nat) : Nat :=
  ((r ^^^ (r >>> 4) ^^^ (r >>> 8) ^^^ (r >>> 12) ^^^ (r >>> 16)) &&& 0xF)

/-- The place of tile `t` of a set with these channels and first row (R298): channel and row. -/
def setPlace (chans : List Nat) (row0 t : Nat) : Nat × Nat :=
  let n := max chans.length 1
  let r := t / n
  (chans.getD ((t % n + setRot r) % n) 0, row0 + r)

/-- The number of bytes a set covers (R297). -/
def IntSet.size (e : IntSet) : Nat := e.chans.length * e.rows * 2048

/-- The set that covers a DPA, with its number (R297). -/
def State.setOf (s : State) (dpa : Nat) : Option (Nat × IntSet) :=
  s.sets.find (fun _ e => e.base ≤ dpa && dpa < e.base + e.size)

/-- The place of the copy engine's buffer that holds a tile between the copy and the commit of its move (Table 11-4 steps 3 and 4),
outside the channels. -/
def bufferPlace (leaving t : Nat) : Nat × Nat := (256 + 16 * leaving, t)

/-- The channel and row that hold a DPA's tile now: the shadow entry's place once the tile has moved (R298, R381), the copy engine's
buffer while it is being moved. -/
def IntSet.place (e : IntSet) (dpa : Nat) : Nat × Nat :=
  let t := (dpa - e.base) / 2048
  match e.shadow with
  | some sh =>
    if sh.moved.contains t then setPlace sh.chans sh.row0 t
    else if sh.held.contains t then bufferPlace sh.leaving t
    else setPlace e.chans e.row0 t
  | none => setPlace e.chans e.row0 t

/-- The channel and row of a DPA (R298); `none` for an unbacked DPA. -/
def State.placeOf (s : State) (dpa : Nat) : Option (Nat × Nat) := (s.setOf dpa).map (fun e => e.2.place dpa)

/-- The half of a channel (Table 1-2). -/
def halfOfChan (ch : Nat) : Nat := ch / 128

/-- The half of a core: cores 0 to 79 lie in half 0 (Table 1-2). -/
def halfOfCore (c : Nat) : Nat := c / 80

/-- The slice in a half of tile number `t` (R251). -/
def sliceInHalf (t : Nat) : Nat :=
  let u := t % 2 ^ 29
  let f := (List.range 8).foldl (fun f i => f ^^^ ((u >>> (4 * i)) &&& 0xF)) 0
  16 * (u % 3) + f

/-- The set index of a line of tile number `t` (R251). -/
def llcSet (t line : Nat) : Nat := ((t ^^^ (t >>> 9)) &&& 0x1FF) * 16 + line

/-! ## Requests that hold a group's accesses (R218 to R222) -/

/-- Whether a request reads for its maker. -/
def MemReq.reads (q : MemReq) : Bool :=
  match q.kind with
  | .load _ _ _ _ _ _ => true
  | .atom _ _ _ _ => true
  | .semAcq _ _ => true
  | _ => false

/-- Whether a write is ordered at its home (Table 7-1), though copies are still to be invalidated; the data of an atomic is still to
return. -/
def MemReq.placed (q : MemReq) : Bool := q.stage == .accepted && !q.reads

/-- Requests of a list that are still outstanding. -/
def State.anyLeft (s : State) (l : List Nat) : Bool := l.any (fun k => (s.reqs.get? k).isSome)

/-- Whether one of the requests of a list is not yet ordered at its home. -/
def State.anyUnplaced (s : State) (l : List Nat) : Bool :=
  l.any (fun k => match s.reqs.get? k with
    | some q => !q.placed
    | none => false)

/-- An access may issue: nothing that an acquire or LBX.FENCE waits for is outstanding (R220, R222). -/
def Ctx.gateAll (x : Ctx) : Except Stop Unit := await (!x.s.anyLeft x.g.gate)

/-- A local write, a barrier arrival or a POUR may issue: no gate holds it (R219). -/
def Ctx.gateWrites (x : Ctx) : Except Stop Unit :=
  await (!x.s.anyLeft x.g.gate && !x.s.anyUnplaced x.g.gateW && !x.s.anyLeft x.g.gateV)

end Sys2Proof.Machine
end

