-- ==== Sys2Proof/Machine/Operands.lean ====
section
/-! DEFINITION. Operand forms: register fields and tuples (R68, R69, R85), immediates and offsets (R84), uniform marks
(Table 3-14), predicates, and the writing of results to selected lanes (R112). -/

namespace Sys2Proof.Machine

/-- The signed 16-bit immediate in bits [47:32] (R84). -/
def insImm16 (i : Ins) : BitVec 16 := i.c ++ i.b

/-- The signed 24-bit offset in bits [47:24], in bytes (R84, R115). -/
def insOff24 (i : Ins) : DWord := ((i.c ++ i.b ++ i.a : BitVec 24).signExtend 64) <<< 3

/-- MOD[15], IMM (Table 3-6). -/
def insImm (i : Ins) : Bool := i.mod.getLsbD 15

/-- The immediate that replaces SRC_B, or is an offset: the second word under LONG, the sign-extended 16-bit immediate
under IMM (R84). -/
def insImmValue (i : Ins) : Option DWord :=
  match i.long with
  | some w => some w
  | none => if insImm i then some ((insImm16 i).signExtend 64) else none

/-- SRC_C is absent when IMM is 1 and LONG is 0 (R84). -/
def insNoC (i : Ins) : Bool := i.long.isNone && insImm i

/-- The registers that a group of the task is allocated per thread (R68). -/
def Ctx.vLimit (x : Ctx) : Nat := 8 * regUnits x.t.nregs

/-- A vector register as it stands, v0 reading as zero (R68). -/
def Group.vreg (g : Group) (n : Nat) : Lanes := if n = 0 then zeroLanes else g.vregs.get zeroLanes n

/-- A uniform register, u0 reading as zero (R69). -/
def Group.ureg (g : Group) (n : Nat) : Word := if n = 0 then 0 else g.uregs.get 0 n

/-- A uniform register written; u0 discards writes (R69). -/
def Group.putU (g : Group) (n : Nat) (v : Word) : Group :=
  if n = 0 then g else { g with uregs := g.uregs.put 0 n v }

/-- Lanes of a vector register written under a mask; v0 discards writes (R68, R112). -/
def Group.putV (g : Group) (n : Nat) (m : Mask) (f : Nat → Word) : Group :=
  if n = 0 then g
  else { g with vregs := g.vregs.put zeroLanes n (lanesOf (fun l => if m.getLsbD l then f l else laneAt (g.vreg n) l)) }

/-- Whether a vector register is still to be written by an instruction in flight (R82). -/
def Group.isBusy (g : Group) (n : Nat) : Bool := g.busy.any (fun e => e.first ≤ n && n < e.first + e.count)

/-- The first register of a tuple of `k` vector registers: a tuple starts at a non-zero multiple of its size (R85), every
register is allocated (R68), and none is still to be written (R82). -/
def Ctx.vTuple (x : Ctx) (k : Nat) (f : BitVec 8) : Except Stop Nat := do
  let n := f.toNat
  require (n + k ≤ x.vLimit && (k = 1 || (n ≠ 0 && n % k = 0)))
  await ((List.range k).all (fun j => !x.g.isBusy (n + j)))
  pure n

/-- The first register of a tuple of `k` uniform registers (R69, R85). -/
def Ctx.uTuple (_ : Ctx) (k : Nat) (f : BitVec 8) : Except Stop Nat := do
  let n := f.toNat
  require (n + k ≤ 48 && (k = 1 || (n ≠ 0 && n % k = 0)))
  pure n

/-- A predicate field, which must not exceed 7 (Table 3-6). -/
def Ctx.pField (_ : Ctx) (f : BitVec 8) : Except Stop Nat := do
  require (f.toNat ≤ 7)
  pure f.toNat

/-- A vector register's value in each lane. -/
def Ctx.v32 (x : Ctx) (f : BitVec 8) : Except Stop (Nat → Word) := do
  let n ← x.vTuple 1 f
  pure (laneAt (x.g.vreg n))

/-- A vector register pair's value in each lane, the low word first (R85). -/
def Ctx.v64 (x : Ctx) (f : BitVec 8) : Except Stop (Nat → DWord) := do
  let n ← x.vTuple 2 f
  pure (fun l => laneAt (x.g.vreg (n + 1)) l ++ laneAt (x.g.vreg n) l)

/-- The bytes of a vector register tuple in a lane, as a number, low register first. -/
def Ctx.vNum (x : Ctx) (n k l : Nat) : Nat :=
  (List.range k).foldr (fun j a => (laneAt (x.g.vreg (n + j)) l).toNat + 2 ^ 32 * a) 0

/-- A uniform register's value. -/
def Ctx.u32 (x : Ctx) (f : BitVec 8) : Except Stop Word := do
  let n ← x.uTuple 1 f
  pure (x.g.ureg n)

/-- A uniform register pair's value. -/
def Ctx.u64 (x : Ctx) (f : BitVec 8) : Except Stop DWord := do
  let n ← x.uTuple 2 f
  pure (x.g.ureg (n + 1) ++ x.g.ureg n)

/-- A 32-bit VALU source from a field that bit `k` of UNI marks as uniform (Table 3-14). -/
def Ctx.fsrc32 (x : Ctx) (k : Nat) (f : BitVec 8) : Except Stop (Nat → Word) :=
  if x.i.mod.getLsbD k then do
    let w ← x.u32 f
    pure (fun _ => w)
  else x.v32 f

/-- A pair as a VALU source. -/
def Ctx.fsrc64 (x : Ctx) (k : Nat) (f : BitVec 8) : Except Stop (Nat → DWord) :=
  if x.i.mod.getLsbD k then do
    let w ← x.u64 f
    pure (fun _ => w)
  else x.v64 f

/-- Source A of a VALU instruction. -/
def Ctx.srcA (x : Ctx) : Except Stop (Nat → Word) := x.fsrc32 0 x.i.a

/-- Source B, or the immediate in its place (R84); the low 32 bits of the immediate for a 32-bit operand (DEDUCED,
log 11). -/
def Ctx.srcB (x : Ctx) : Except Stop (Nat → Word) :=
  match insImmValue x.i with
  | some w => pure (fun _ => w.setWidth 32)
  | none => x.fsrc32 1 x.i.b

/-- Source C; zero when it is absent (R84). -/
def Ctx.srcC (x : Ctx) : Except Stop (Nat → Word) :=
  if insNoC x.i then pure (fun _ => 0) else x.fsrc32 2 x.i.c

/-- Pair A. -/
def Ctx.pairA (x : Ctx) : Except Stop (Nat → DWord) := x.fsrc64 0 x.i.a

/-- Pair B, or the immediate, sign-extended to 64 bits, in its place (R84). -/
def Ctx.pairB (x : Ctx) : Except Stop (Nat → DWord) :=
  match insImmValue x.i with
  | some w => pure (fun _ => w)
  | none => x.fsrc64 1 x.i.b

/-- Pair C; a zero pair when it is absent (R84). -/
def Ctx.pairC (x : Ctx) : Except Stop (Nat → DWord) :=
  if insNoC x.i then pure (fun _ => 0) else x.fsrc64 2 x.i.c

/-- A per-lane 32-bit result written to DST in the selected lanes (R112). -/
def Ctx.write32 (x : Ctx) (f : Nat → Word) : Except Stop State := do
  let n ← x.vTuple 1 x.i.dst
  x.done (x.g.putV n x.sel f)

/-- A per-lane pair written to DST and DST + 1. -/
def Ctx.write64 (x : Ctx) (f : Nat → DWord) : Except Stop State := do
  let n ← x.vTuple 2 x.i.dst
  x.done ((x.g.putV n x.sel (fun l => (f l).setWidth 32)).putV (n + 1) x.sel (fun l => ((f l) >>> 32).setWidth 32))

/-- A per-lane predicate written to DST in the selected lanes; p0 discards it (R70, R108). -/
def Ctx.writeP (x : Ctx) (f : Nat → Bool) : Except Stop State := do
  let p ← x.pField x.i.dst
  x.done (x.g.putPred p (maskOf (fun l => if x.sel.getLsbD l then f l else (x.g.pred p).getLsbD l)))

/-- Width in bytes of a WIDTH code of Table 3-8. -/
def widthOf (code : Nat) : Option Nat := if code ≤ 4 then some (2 ^ code) else none

/-- Registers that hold an element of `w` bytes. -/
def regsFor (w : Nat) : Nat := if w ≤ 4 then 1 else w / 4

/-- A loaded element of `w` bytes as the value of its registers: 1 and 2 bytes zero- or sign-extended (Table 3-8). -/
def extendLoad (w : Nat) (signed : Bool) (v : Nat) : Nat :=
  if signed && w < 4 then wrapInt 32 (signedOf (8 * w) v) else v

/-- A group with an element of `k` registers written to one lane. -/
def Group.putLane (g : Group) (n k l v : Nat) : Group :=
  (List.range k).foldl
    (fun g j => g.putV (n + j) (maskOf (fun m => m = l)) (fun _ => BitVec.ofNat 32 (v >>> (32 * j)))) g

end Sys2Proof.Machine
end

