-- ==== Sys2Proof/Machine/Lmem.lean ====
section
/-! DEFINITION. Local memory and its instructions (R75, R76, R77, R95, R110, R217, R240). -/

namespace Sys2Proof.Machine

/-- Bytes of a block's local memory (R76: zero until written). -/
def Block.readL (b : Block) (a n : Nat) : List Byte := (List.range n).map (fun j => b.lmem.get 0 (a + j))

/-- Bytes written to local memory; every unit touched loses its zero mark (R95). -/
def Block.writeL (b : Block) (a : Nat) (v : List Byte) : Block :=
  { b with
    lmem := b.lmem.putAll 0 (v.mapIdx (fun j x => (a + j, x)))
    unmarked := b.unmarked.putAll false ((List.range v.length).map (fun j => ((a + j) / 2048, true))) }

/-- A unit of 2 KiB that reads as zero and carries the zero mark (R95, Table 3-10). -/
def Block.zeroUnit (b : Block) (u : Nat) : Block :=
  { b with
    lmem := b.lmem.keep (fun a _ => a / 2048 != u)
    unmarked := b.unmarked.put false u false }

/-- Whether a unit carries the zero mark. -/
def Block.marked (b : Block) (u : Nat) : Bool := !(b.unmarked.get false u)

/-! ## Units that asynchronous instructions use (R98, R151) -/

/-- The width in bits of a format code (Table 5-8), 8 for a reserved one. -/
def fmtBits (c : Nat) : Nat := ((EFmt.ofCode c).map EFmt.bits).getD 8

/-- The ranges of local memory that an MXI instruction uses: addresses and bytes. The lengths follow from its shape word and
formats (R157, R158). -/
def MxOp.ranges : MxOp → List (Nat × Nat)
  | .mma _ da db w _ =>
    let nt := field w 3 3 + 1
    let kc := field w 6 6 + 1
    let bits := fun (d : DWord) => fmtBits (field d 19 4)
    let one := fun (d : DWord) (tiles : Nat) =>
      (field d 0 19, 64 * bits d * tiles * kc) :: (if d.getLsbD 24 then [(field d 32 19, 16 * tiles * kc)] else [])
    one da 1 ++ one db nt
  | .ard a _ w m => [(a, (field w 3 3 + 1) * 256 * fmtBits (field m 4 4) / 8)]
  | .ard128 a w _ => [(a, (field w 3 3 + 1) * 4096)]
  | .ald a w m => [(a, (field w 3 3 + 1) * (if m.getLsbD 0 then 4096 else 1024))]
  | _ => []

/-- Whether a range of bytes touches a unit of 2 KiB. -/
def touches (r : Nat × Nat) (u : Nat) : Bool := r.2 ≠ 0 && r.1 / 2048 ≤ u && u ≤ (r.1 + r.2 - 1) / 2048

/-- Units that are written before the TILE and MXI instructions of the block that use them have completed: those instructions will find
unspecified bytes in them (R98). -/
def State.smudge (s : State) (blk : Nat) (units : List Nat) : State :=
  { s with
    tileOps := s.tileOps.mapVal (fun _ (o : TileOp) =>
      if o.block = blk then { o with smudged := units.filter (touches (o.laddr, 2048 * o.count)) ++ o.smudged } else o)
    mxus := s.mxus.mapVal (fun _ (m : Mxu) => { m with queue := m.queue.map (fun (e : MxEntry) =>
      if e.block = blk then { e with smudged := units.filter (fun u => e.op.ranges.any (fun r => touches r u)) ++ e.smudged } else e) }) }

/-- A block's local memory as an instruction finds it to which some units are unspecified: free bytes, the `n`-th of the model's. -/
def Block.blur (b : Block) (us : List Nat) (n : Nat) : Block :=
  us.foldl (fun b u => b.writeL (2048 * u) ((List.range 16).map (fun k => bytesOf 128 (Config.freeLine n (16 * u + k)).toNat)).flatten) b

/-- The units of a range of bytes. -/
def unitsIn (a n : Nat) : List Nat := if n = 0 then [] else (List.range ((a + n - 1) / 2048 - a / 2048 + 1)).map (fun k => a / 2048 + k)

/-- The units that are not visible to a group: a TLD wrote them, and the group has not waited on its token, or another group has and no
barrier phase has completed since (R151). -/
def Block.veiled (b : Block) (g : Nat) : List Nat := (b.veils.filter (fun v => v.group ≠ g || !v.waited)).map (·.unit)

/-- A state with an instruction's block replaced and its group at the next instruction; the units that it wrote are unspecified to
instructions still at work on them. -/
def Ctx.doneBlock (x : Ctx) (b : Block) (g : Group) (units : List Nat) : Except Stop State :=
  .ok ((x.s.setBlock x.r.block (b.putGroup x.r.group.val { g with pc := x.nextPc })).smudge x.r.block units)

/-- The low 32 bits of the offset that an LMEM instruction adds to each address (R84). -/
def insLocalOff (i : Ins) : Word := ((insImmValue i).getD 0).setWidth 32

/-- The local address of each lane, aligned to `w` bytes and inside the allocation in every selected lane (R75, R110). Address plus offset
wraps modulo 2^32 (DESIGN CHOICE, log 97). -/
def Ctx.localAddr (x : Ctx) (w : Nat) : Except Stop (Nat → Nat) := do
  let a ← x.v32 x.i.a
  let f := fun l => (a l + insLocalOff x.i).toNat
  require ((lanesIn x.sel).all (fun l => f l % w = 0 && f l + w ≤ x.b.lmemSize))
  pure f

/-- The WIDTH field of an LMEM or GMEM instruction in bytes; codes 5 to 7 end the task. -/
def Ctx.width (x : Ctx) : Except Stop Nat :=
  match widthOf (field x.i.mod 3 3) with
  | some w => pure w
  | none => accessFault

/-- LDS. -/
def execLds (g : GroupRef) (i : Ins) (s : State) : Out :=
  issue g i (fun x => do
    let w ← x.width
    let n ← x.vTuple (regsFor w) i.dst
    let f ← x.localAddr w
    x.gateAll
    x.done ((lanesIn x.sel).foldl
      (fun g l => g.putLane n (regsFor w) l
        (extendLoad w (i.mod.getLsbD 6) (ofBytes (x.b.readL (f l) w)))) x.g)) s

/-- The units that the selected lanes' accesses of `w` bytes lie in. -/
def Ctx.laneUnits (x : Ctx) (f : Nat → Nat) : List Nat := ((lanesIn x.sel).map (fun l => f l / 2048)).eraseDups

/-- STS: lanes store in ascending order, so the highest-numbered lane's byte stays (R217). -/
def execSts (g : GroupRef) (i : Ins) (s : State) : Out :=
  issue g i (fun x => do
    let w ← x.width
    let n ← x.vTuple (regsFor w) i.dst
    let f ← x.localAddr w
    x.gateWrites
    x.doneBlock ((lanesIn x.sel).foldl
      (fun b l => b.writeL (f l) (bytesOf w (x.vNum n (regsFor w) l))) x.b) x.g (x.laneUnits f)) s

/-- A local 32-bit atomic, a read and a write that the group's gates hold (R240): lanes take effect in ascending order and each receives the value before its own (R110). -/
def localAtomic (useC : Bool) (f : Word → Word → Word → Word) (x : Ctx) : Except Stop State := do
  require (!(insImm x.i && x.i.long.isNone))
  let b ← x.v32 x.i.b
  let c ← if useC then x.v32 x.i.c else pure (fun _ => 0)
  let ret := x.i.mod.getLsbD 7
  let n ← if ret then x.vTuple 1 x.i.dst else pure 0
  let a ← x.localAddr 4
  x.gateWrites
  let r := (lanesIn x.sel).foldl
    (fun (acc : Block × Group) l =>
      let old := BitVec.ofNat 32 (ofBytes (acc.1.readL (a l) 4))
      (acc.1.writeL (a l) (bytesOf 4 (f old (b l) (c l)).toNat),
        if ret then acc.2.putLane n 1 l old.toNat else acc.2)) (x.b, x.g)
  x.doneBlock r.1 r.2 (x.laneUnits a)

/-- ATOMS.ADD. -/
def execAtomsAdd (g : GroupRef) (i : Ins) (s : State) : Out :=
  issue g i (localAtomic false (fun o b _ => o + b)) s
/-- ATOMS.MIN, signed when SIGNED is 1. -/
def execAtomsMin (g : GroupRef) (i : Ins) (s : State) : Out :=
  issue g i (localAtomic false (fun o b _ =>
    if (if i.mod.getLsbD 6 then b.slt o else b.ult o) then b else o)) s
/-- ATOMS.MAX, signed when SIGNED is 1. -/
def execAtomsMax (g : GroupRef) (i : Ins) (s : State) : Out :=
  issue g i (localAtomic false (fun o b _ =>
    if (if i.mod.getLsbD 6 then o.slt b else o.ult b) then b else o)) s
/-- ATOMS.EXCH. -/
def execAtomsExch (g : GroupRef) (i : Ins) (s : State) : Out :=
  issue g i (localAtomic false (fun _ b _ => b)) s
/-- ATOMS.CAS: SRC_C stored where the old value equals SRC_B. -/
def execAtomsCas (g : GroupRef) (i : Ins) (s : State) : Out :=
  issue g i (localAtomic true (fun o b c => if o = b then c else o)) s

end Sys2Proof.Machine
end

