-- ==== Sys2Proof/Machine/Keys.lean ====
section
/-! DEFINITION. The keyring of the key engine (R557 to R559, Table 17-5): HMAC and HKDF over SHA-512, and the keys that a start derives. -/

namespace Sys2Proof.Machine

/-- The bytes of an ASCII string. -/
def asciiBytes (t : String) : List Byte := t.toUTF8.toList.map (fun c => BitVec.ofNat 8 c.toNat)

/-- HMAC with SHA-512, on which HKDF rests (RFC 5869): the key padded to a block of 128 bytes. -/
def hmac (key m : List Byte) : List Byte :=
  let k := if 128 < key.length then Config.sha512 key else key
  let k := k ++ List.replicate (128 - k.length) 0
  Config.sha512 (k.map (· ^^^ 0x5C) ++ Config.sha512 (k.map (· ^^^ 0x36) ++ m))

/-- HKDF-Extract with SHA-512 (RFC 5869). -/
def hkdfExtract (salt ikm : List Byte) : List Byte := hmac salt ikm

/-- The blocks T(1) to T(n) of HKDF-Expand, the last first. -/
def hkdfBlocks (prk info : List Byte) : Nat → List (List Byte)
  | 0 => []
  | n + 1 =>
    let l := hkdfBlocks prk info n
    hmac prk (l.head?.getD [] ++ info ++ bytesOf 1 (n + 1)) :: l

/-- HKDF-Expand with SHA-512 to a length (RFC 5869). -/
def hkdfExpand (prk info : List Byte) (len : Nat) : List Byte := ((hkdfBlocks prk info ((len + 63) / 64)).reverse.flatten).take len

/-- The pseudorandom key of the keyring, from the device root secret (R557, R558). -/
def keyringPrk : List Byte := hkdfExtract (asciiBytes "EZ2-KEYRING-1") (bytesOf 32 Config.rootSecret.toNat)

/-- The seed of an identity key pair, Ed25519 (false) or ML-DSA-65 (true): the same at every start. -/
def identitySeed (mldsa : Bool) : List Byte := hkdfExpand keyringPrk (asciiBytes (if mldsa then "id-mldsa65" else "id-ed25519")) 32

/-- The device's identity signatures, over a message with a context string (R562, R564). -/
def identitySign (mldsa : Bool) (context m : List Byte) : List Byte :=
  if mldsa then Config.mldsaSign (identitySeed true) context m else Config.ed25519Sign (identitySeed false) m

/-- N_boot of the present start (R558). -/
def State.bootNonce (s : State) : List Byte := bytesOf 32 (Config.trueRandom s.sec.nBoot).toNat

/-- The memory key of an owner of rows, at a generation for a partition (Table 17-5): a partition's own, the shared region's, or the
device key of the reserve. -/
def State.ownerKey (s : State) (o : Owner) (g : Nat) : List Byte :=
  match o with
  | .part p => hkdfExpand keyringPrk (asciiBytes "mem" ++ bytesOf 1 p ++ bytesOf 4 g ++ s.bootNonce) 64
  | .shared => hkdfExpand keyringPrk (asciiBytes "shared" ++ s.bootNonce) 64
  | .free => hkdfExpand keyringPrk (asciiBytes "device" ++ s.bootNonce) 64

/-- The order of the group of secp384r1 (SEC 2). -/
def p384Order : Nat := 0xFFFFFFFFFFFFFFFFFFFFFFFFFFFFFFFFFFFFFFFFFFFFFFFFC7634D81F4372DDF581A0DB248B0A77AECEC196ACCC52973

/-- The exchange secret of an SPDM session from 32 bytes of the random source (Table 17-5), 48 bytes read big-endian and reduced modulo the
order (log 117). -/
def spdmSecret (session : Nat) (random : List Byte) : Nat :=
  ofBytes (hkdfExpand keyringPrk (asciiBytes "spdm" ++ bytesOf 8 session ++ random) 48).reverse % p384Order

end Sys2Proof.Machine
end

