-- ==== Sys2Proof/Machine/Lines.lean ====
section
/-! DEFINITION. Lines of memory: their bytes and sectors, device memory under the memory controllers' queues, host memory,
encryption, poison, and CRC-32C (R249, R270, R271, R293, R300, R302, R307, R312). -/

namespace Sys2Proof.Machine

/-- The mask of the bytes from `off` for `n` bytes of a line. -/
def byteMask (off n : Nat) : BitVec 128 := BitVec.ofNat 128 ((2 ^ n - 1) <<< off)

/-- The sectors that a byte mask touches. -/
def sectorsOf (m : BitVec 128) : BitVec 4 :=
  BitVec.ofNat 4 (numOfBits ((List.range 4).filter (fun k => field m (32 * k) 32 != 0)))

/-- The sectors that a byte mask covers whole. -/
def wholeSectors (m : BitVec 128) : BitVec 4 :=
  BitVec.ofNat 4 (numOfBits ((List.range 4).filter (fun k => field m (32 * k) 32 = 2 ^ 32 - 1)))

/-- A byte mask widened to one bit per data bit. -/
def bitMask (m : BitVec 128) : BitVec 1024 :=
  BitVec.ofNat 1024 ((bitsOf 128 m.toNat).foldl (fun a i => a ||| (0xFF <<< (8 * i))) 0)

/-- The byte mask of whole sectors. -/
def maskOfSectors (v : BitVec 4) : BitVec 128 :=
  BitVec.ofNat 128 ((bitsOf 4 v.toNat).foldl (fun a i => a ||| (0xFFFFFFFF <<< (32 * i))) 0)

/-- `old` with the masked bytes of `new`. -/
def mergeLine (old new : BitVec 1024) (m : BitVec 128) : BitVec 1024 :=
  (old &&& ~~~(bitMask m)) ||| (new &&& bitMask m)

/-- `old` with the given sectors of `new`. -/
def mergeSectors (old new : BitVec 1024) (v : BitVec 4) : BitVec 1024 := mergeLine old new (maskOfSectors v)

/-- Bytes of a line from an offset, as a number. -/
def lineNum (d : BitVec 1024) (off n : Nat) : Nat := field d (8 * off) (8 * n)

/-- A line whose bytes from an offset are those of a number. -/
def lineOf (off : Nat) (v : Nat) : BitVec 1024 := BitVec.ofNat 1024 (v <<< (8 * off))

/-- The bytes of a line. -/
def lineBytes (d : BitVec 1024) : List Byte := bytesOf 128 d.toNat

/-- The whole line. -/
def allBytes : BitVec 128 := BitVec.allOnes 128

/-! ## Device memory under the queues -/

/-- A tile's key: its channel and row (R293). -/
def tileKey (ch row : Nat) : Nat := ch * 2 ^ 20 + row

/-- The key of a tile's byte in device memory. -/
def hbmKey (tile off : Nat) : Nat := tile * 2048 + off

/-- The pseudo-channel of a line of a tile (R293). -/
def pseudoOf (ch line : Nat) : Nat := 2 * ch + line / 8

/-- A line of a tile as device memory holds it. -/
def State.hbmLine (s : State) (tile line : Nat) : BitVec 1024 :=
  BitVec.ofNat 1024 (ofBytes ((List.range 128).map (fun i => s.hbm.get 0 (hbmKey tile (128 * line + i)))))

/-! ## Encryption (R300) -/

/-- The key and tweak of a sector of a device line at present: those of its set's owner. -/
def State.sealOf (s : State) (dpa k : Nat) : Seal :=
  let o := ((s.setOf (dpa * 128)).map (fun e => e.2.owner)).getD .free
  ⟨o, match o with
    | .part p => (s.part p).generation
    | _ => 0, 4 * dpa + k⟩

/-- Whether a partition is being re-keyed: both generations of its key are held (R559). -/
def State.rekeying (s : State) (o : Owner) : Bool :=
  s.mm.migs.any (fun m => match m with
    | .rekey p => o = .part p
    | _ => false)

/-- Whether a sector encrypted under `z` decrypts under the present `w`. -/
def State.opens (s : State) (z w : Seal) : Bool :=
  z.owner = w.owner && z.unit = w.unit && (z.gen = w.gen || ((z.gen + 1) % 2 ^ 32 = w.gen && s.rekeying w.owner))

/-- An owner of rows as a number. -/
def Owner.index : Owner → Nat
  | .free => 0
  | .shared => 1
  | .part p => 2 + p

/-- The key of a seal (R300, Table 17-5). -/
def State.sealKey (s : State) (z : Seal) : List Byte := s.ownerKey z.owner z.gen

/-- The sectors of a line that the present key does not open; none where nothing was written (log 98), and none in the copy engine's
buffer. -/
def State.foreign (s : State) (dpa tile line : Nat) : BitVec 4 :=
  if 2 ^ 28 ≤ tile then 0
  else BitVec.ofNat 4 (numOfBits ((List.range 4).filter (fun k => match s.seals.get? ((tile * 16 + line) * 4 + k) with
    | some z => !s.opens z (s.sealOf dpa k)
    | none => false)))

/-- A line of a tile as its present key decrypts it. -/
def State.plainLine (s : State) (dpa tile line : Nat) : BitVec 1024 :=
  let d := s.hbmLine tile line
  (bitsOf 4 (s.foreign dpa tile line).toNat).foldl (fun a k => match s.seals.get? ((tile * 16 + line) * 4 + k) with
    | some z =>
      let w := s.sealOf dpa k
      let v := BitVec.ofNat 4 (1 <<< k)
      mergeSectors a (Config.decipher (s.sealKey z) z.unit (s.sealKey w) w.unit (mergeSectors 0 d v)) v
    | none => a) d

/-- The masked bytes of a line written to device memory under its present key; sectors written whole lose their poison and any error not
yet found (R302), and the other bytes of a sector are encrypted again as they decrypted. -/
def State.hbmWrite (s : State) (dpa tile line : Nat) (d : BitVec 1024) (m : BitVec 128) : State :=
  let sec := fun k => (tile * 16 + line) * 4 + k
  let whole := (bitsOf 4 (wholeSectors m).toNat).map sec
  let odd := s.foreign dpa tile line &&& sectorsOf m &&& ~~~(wholeSectors m)
  let d' := if odd = 0 then d else mergeLine (s.plainLine dpa tile line) d m
  let m' := if odd = 0 then m else m ||| maskOfSectors odd
  { s with
    hbm := s.hbm.putAll 0
      ((bitsOf 128 m'.toNat).map (fun i => (hbmKey tile (128 * line + i), BitVec.ofNat 8 (lineNum d' i 1))))
    seals := if 2 ^ 28 ≤ tile then s.seals
      else (bitsOf 4 (sectorsOf m).toNat).foldl (fun t k => t.set (sec k) (s.sealOf dpa k)) s.seals
    poisoned := whole.foldl (fun t k => t.put false k false) s.poisoned
    latent := whole.foldl (fun t k => t.put 0 k 0) s.latent }

/-- The queues of a pseudo-channel. -/
def State.pseudoChan (s : State) (k : Nat) : PseudoChan := s.pseudo.get PseudoChan.init k

/-- Whether a queue entry writes memory. -/
def McEntry.writes (e : McEntry) : Bool :=
  match e.kind with
  | .writeBack => true
  | .outerWrite => true
  | _ => false

/-- A line of a tile as a read of either queue finds it: device memory under the queued writes, oldest first (R270,
R271). -/
def State.memLine (s : State) (dpa ch row line : Nat) : BitVec 1024 :=
  (s.pseudoChan (pseudoOf ch line)).entries.foldl
    (fun d e => if e.writes && e.ch = ch && e.row = row && e.line = line then mergeLine d e.data e.mask else d)
    (s.plainLine dpa (tileKey ch row) line)

/-- Masked bytes of a line written to device memory past the queues: queued writes keep only their other bytes. -/
def State.memWrite (s : State) (dpa ch row line : Nat) (d : BitVec 1024) (m : BitVec 128) : State :=
  let k := pseudoOf ch line
  let p := s.pseudoChan k
  let es := p.entries.map (fun e =>
    if e.writes && e.ch = ch && e.row = row && e.line = line then { e with mask := e.mask &&& ~~~m } else e)
  { s with pseudo := s.pseudo.put PseudoChan.init k { p with entries := es } }.hbmWrite dpa (tileKey ch row) line d m

/-- The sectors of a line that a read of memory finds poisoned or uncorrectable (R302), queued writes of whole sectors
taken into account. -/
def State.badSectors (s : State) (ch row line : Nat) : BitVec 4 :=
  let key := (tileKey ch row * 16 + line) * 4
  let queued := (s.pseudoChan (pseudoOf ch line)).entries.foldl
    (fun v e => if e.writes && e.ch = ch && e.row = row && e.line = line then v ||| wholeSectors e.mask else v) (0#4)
  BitVec.ofNat 4 (numOfBits ((List.range 4).filter (fun k =>
    !(queued.getLsbD k) && (s.poisoned.get false (key + k) || s.latent.get 0 (key + k) = 2))))

/-- The sectors of a line known to be poisoned: those that a read has found (R302, R309). -/
def State.knownBad (s : State) (ch row line : Nat) : BitVec 4 :=
  BitVec.ofNat 4 (numOfBits ((List.range 4).filter (fun k => s.poisoned.get false ((tileKey ch row * 16 + line) * 4 + k))))
    &&& s.badSectors ch row line

/-- The sectors marked poisoned, an error found now becoming poison (R302). -/
def State.poisonSectors (s : State) (ch row line : Nat) (v : BitVec 4) : State :=
  let key := (tileKey ch row * 16 + line) * 4
  let ks := (bitsOf 4 v.toNat).map (fun k => key + k)
  { s with
    poisoned := ks.foldl (fun t k => t.put false k true) s.poisoned
    latent := ks.foldl (fun t k => t.put 0 k 0) s.latent }

/-! ## Host memory -/

/-- A line of host memory (log 9). -/
def State.hostLine (s : State) (line : Nat) : BitVec 1024 :=
  BitVec.ofNat 1024 (ofBytes ((List.range 128).map (fun i => s.hostMem.get 0 (128 * line + i))))

/-- Bytes of host memory. -/
def State.hostRead (s : State) (a n : Nat) : List Byte := (List.range n).map (fun i => s.hostMem.get 0 (a + i))

/-- Bytes of host memory written. -/
def State.hostWrite (s : State) (a : Nat) (v : List Byte) : State :=
  { s with hostMem := s.hostMem.putAll 0 (v.mapIdx (fun i x => (a + i, x))) }

/-! ## CRC-32C (R307, R312) -/

/-- One bit of the reflected CRC-32C register. -/
def crcBit (c : Nat) : Nat := if c % 2 = 1 then (c >>> 1) ^^^ 0x82F63B78 else c >>> 1

/-- `k` bits. -/
def crcBits : Nat → Nat → Nat
  | 0, c => c
  | k + 1, c => crcBits k (crcBit c)

/-- The register carried over bytes. -/
def crcBytes (c : Nat) (l : List Byte) : Nat := l.foldl (fun c b => crcBits 8 (c ^^^ b.toNat)) c

/-- CRC-32C of a list of bytes (R307). -/
def crc32c (l : List Byte) : Word := BitVec.ofNat 32 (crcBytes 0xFFFFFFFF l ^^^ 0xFFFFFFFF)

/-- The change of a tile's CRC when line L changes by `diff` (R312). -/
def crcDelta (L : Nat) (diff : BitVec 1024) : Word :=
  BitVec.ofNat 32 (crcBits (8 * 128 * (15 - L)) (crcBytes 0 (lineBytes diff)))

/-- The CRC of 2,048 zero bytes. -/
def zeroCrc : Word := crc32c (List.replicate 2048 0)

end Sys2Proof.Machine
end

