-- ==== Sys2Proof/Machine/Llc.lean ====
section
/-! DEFINITION. The last-level cache: where a line lives, replacement, hints, pins, residency tags and counters (R249 to
R275), and the coherent value of a line. -/

namespace Sys2Proof.Machine

/-- The line as LLC data: device line by DPA, or host line by host physical address. -/
structure LineId where
  host : Bool
  line : Nat
deriving DecidableEq, Repr

/-- The tile number that the slice hash takes: DPA bits [39:11], or for host memory bits [39:11] XOR bits [51:40] (R251,
R252). -/
def LineId.tile (l : LineId) : Nat :=
  let t := l.line / 16
  if l.host then (t % 2 ^ 29) ^^^ (t >>> 29) else t

/-- The home slice of a line (R251, R252). -/
def State.sliceOf (s : State) (l : LineId) : Nat :=
  if l.host then sliceInHalf l.tile
  else match s.placeOf (l.line * 128) with
    | some p => 48 * halfOfChan p.1 + sliceInHalf l.tile
    | none => sliceInHalf l.tile

/-- The key of way 0 of a line's set. -/
def State.setKey (s : State) (l : LineId) : Nat := (s.sliceOf l * 8192 + llcSet l.tile (l.line % 16)) * 16

/-- The ways of a set, lowest first. -/
def State.waysOf (s : State) (base : Nat) : List (Nat × LlcLine) :=
  (List.range 16).filterMap (fun w => (s.llc.get? (base + w)).map (fun e => (base + w, e)))

/-- The way that holds a line. -/
def State.llcFind (s : State) (l : LineId) : Option (Nat × LlcLine) :=
  (s.waysOf (s.setKey l)).find? (fun e => e.2.line = l.line && e.2.host = l.host)

/-- Whether a line has a pending transaction at its home: snoops awaited, or a fill in a queue (R257). -/
def State.linePending (s : State) (l : LineId) : Bool :=
  (!l.host && (s.txns.get? l.line).isSome)
  || s.reqs.any (fun _ r => r.stage = .waiting && (match r.kind, r.home with
      | .semAcq _ _, _ => false
      | .tile _ _ _, .dev n => !l.host && n / 16 = l.line / 16
      | _, .dev n => !l.host && n = l.line
      | _, .host n => l.host && n = l.line
      | _, .peer _ _ _ => false))

/-! ## Counters (R274, R275) -/

/-- Requester classes of Table 8-5. -/
inductive Requester where
  | engine | tld | copy | hithen | host | peer
deriving DecidableEq, Repr

/-- The REQ code of a requester. -/
def Requester.code : Requester → Nat
  | .engine => 0 | .tld => 1 | .copy => 2 | .hithen => 3 | .host => 4 | .peer => 5

/-- The key of a lookup counter: partition, or 31 for the device total, requester and hint. -/
def lookupKey (part : Nat) (q : Requester) (hint : Nat) : Nat := (part * 8 + q.code) * 4 + hint

/-- A 64-bit counter raised by `n`, modulo 2^64 (R275). -/
def bump (t : Tab Nat) (k n : Nat) : Tab Nat := t.put 0 k ((t.get 0 k + n) % 2 ^ 64)

/-- One lookup counted, and a hit (R274). -/
def State.countLookup (s : State) (part : Nat) (q : Requester) (hint : Nat) (hit : Bool) : State :=
  let ks := [lookupKey part q hint, lookupKey 31 q hint]
  { s with
    lookups := ks.foldl (fun t k => bump t k 1) s.lookups
    hits := if hit then ks.foldl (fun t k => bump t k 1) s.hits else s.hits }

/-- LLC event `n` of Table 8-7 counted for a partition and the device. -/
def State.countEvent (s : State) (part n : Nat) : State :=
  { s with events := bump (bump s.events (part * 8 + n) 1) (31 * 8 + n) 1 }

/-! ## Residency tags (R266) -/

/-- The tag of a region in a slice. -/
def State.tagOf (s : State) (slice region : Nat) : Option (Nat × ResTag) :=
  s.resTags.find (fun k t => k / 512 = slice && t.region = region)

/-- A line of a region entered a slice. -/
def State.tagFill (s : State) (slice region : Nat) : State :=
  match s.tagOf slice region with
  | some (k, t) => { s with resTags := s.resTags.set k { t with count := min (t.count + 1) 65535 } }
  | none =>
    let used := fun n => (s.resTags.get? (slice * 512 + n)).map (·.count)
    let slot := match (List.range 512).find? (fun n => (used n).isNone) with
      | some n => n
      | none => (List.range 512).foldl (fun b n => if (used n).getD 0 < (used b).getD 0 then n else b) 0
    { s with resTags := s.resTags.set (slice * 512 + slot) ⟨region, 1⟩ }

/-- A line of a region left a slice; a tag whose count reaches zero is freed. -/
def State.tagDrop (s : State) (slice region : Nat) : State :=
  match s.tagOf slice region with
  | none => s
  | some (k, t) =>
    if t.count ≤ 1 then { s with resTags := s.resTags.erase k }
    else { s with resTags := s.resTags.set k { t with count := t.count - 1 } }

/-! ## Leaving the cache -/

/-- Sectors of a host-memory line written to host memory. -/
def State.hostSectors (s : State) (line : Nat) (d : BitVec 1024) (v : BitVec 4) : State :=
  (bitsOf 4 v.toNat).foldl (fun s k => s.hostWrite (line * 128 + 32 * k) (((lineBytes d).drop (32 * k)).take 32)) s

/-- An entry put at the end of a pseudo-channel's queues. -/
def State.mcPush (s : State) (e : McEntry) : State :=
  let k := pseudoOf e.ch e.line
  let p := s.pseudoChan k
  { s with pseudo := s.pseudo.put PseudoChan.init k { p with entries := p.entries ++ [e] } }

/-- Whether the LLC queue of a line's pseudo-channel has room for another entry (R271). -/
def State.mcRoom (s : State) (k : Nat) (wb : Bool) : Bool :=
  let es := (s.pseudoChan k).entries
  let wbs := (es.filter (fun e => e.kind == .writeBack)).length
  let fills := (es.filter (fun e => match e.kind with
    | .fill _ => true
    | _ => false)).length
  if wb then wbs < 8 || fills + (wbs - 8) < 52 else fills + (wbs - 8) < 52

/-- Whether the reorder queue of a pseudo-channel has room for the host (0) or another outer agent (R270). -/
def State.outerRoom (s : State) (k who : Nat) : Bool :=
  let es := (s.pseudoChan k).entries.filter (fun e => e.who ≠ 2)
  let own := (es.filter (fun e => e.who = who)).length
  let other := es.length - own
  own < 16 || (own - 16) + (other - 16) < 32

/-- A line taken out of the cache: its dirty sectors are written back unless they are discarded (R254, R264). -/
def State.llcEvict (s : State) (key : Nat) (e : LlcLine) (discard : Bool) : State :=
  let s := { s with llc := s.llc.erase key, hostLines := if e.host then s.hostLines.erase e.line else s.hostLines }
  let s := if e.host then s else s.tagDrop (key / 131072) (e.line / 16384)
  if discard || e.dirty = 0 then s
  else
    let s := s.countEvent e.owner 4
    if e.host then s.hostSectors e.line e.data e.dirty
    else match s.placeOf (e.line * 128) with
      | none => s
      | some (ch, row) =>
        s.mcPush ⟨.writeBack, ch, row, e.line % 16, e.line, e.dirty, maskOfSectors e.dirty, e.data, false, 0, 2⟩

/-! ## Replacement and hints (R255 to R263) -/

/-- Who makes an engine access: its partition, requester class and hint, and whether it is an engine of the partition. -/
structure Access where
  part : Nat
  who : Requester
  hint : Nat
deriving DecidableEq, Repr

/-- The hint that governs allocation: spent acts as DEFAULT for the access itself (Table 8-2). -/
def Access.alloc (a : Access) : Nat := if a.hint = 3 then 0 else a.hint

/-- Whether a KEEP access pins (R260). -/
def State.canPin (s : State) (base part : Nat) : Bool :=
  let keeps := (s.waysOf base).filter (fun e => e.2.keep.isSome)
  keeps.length < 12 && (keeps.filter (fun e => e.2.keep = some part)).length < (s.part part).keepQuota

/-- A line that a KEEP access pins, or the demotion counted (R260, R261). -/
def State.pin (s : State) (base : Nat) (a : Access) (e : LlcLine) : State × LlcLine :=
  if s.canPin base a.part then (s.countEvent a.part 1, { e with keep := some a.part })
  else (s.countEvent a.part 0, e)

/-- A hit under a hint (Table 8-2, R256). -/
def State.hintHit (s : State) (base : Nat) (a : Access) (e : LlcLine) : State × LlcLine :=
  if e.keep.isSome then (s, e)
  else match a.alloc with
    | 0 => (s, { e with age := 0, drip := false })
    | 1 => (s, e)
    | _ => s.pin base a { e with age := 0, drip := false }

/-- The way of a set that carries its DRIP mark, unless its line is pending. -/
def State.dripWay (s : State) (base : Nat) : Option Nat :=
  ((s.waysOf base).find? (fun e => e.2.drip && !s.linePending ⟨e.2.host, e.2.line⟩)).map (·.1)

/-- The way a new line takes, with the state after the ages are raised (R255); `none` when every replaceable way is
pending (R257). A drip fill takes the set's DRIP way where there is one, before any invalid way (Table 8-2, R259; log 99). -/
def State.victim (s : State) (base : Nat) (drip : Bool) : Option (Nat × State) :=
  match (if drip then s.dripWay base else none), (List.range 16).find? (fun w => (s.llc.get? (base + w)).isNone) with
  | some w, _ => some (w, s)
  | none, some w => some (base + w, s)
  | none, none =>
    let ways := s.waysOf base
    let ok := fun (e : Nat × LlcLine) => e.2.keep.isNone && !s.linePending ⟨e.2.host, e.2.line⟩
    let cand := ways.filter ok
    let top := cand.foldl (fun m e => max m e.2.age) 0
    match cand.find? (fun e => e.2.age = top) with
    | none => none
    | some e =>
      let aged := cand.foldl (fun t c => t.set c.1 { c.2 with age := c.2.age + (3 - top) }) s.llc
      some (e.1, { s with llc := aged })

/-- A line placed in its set with the given sectors (R255, R256, R260); `none` when it must wait for a way or for
write-back room. -/
def State.llcPlace (s : State) (l : LineId) (a : Access) (d : BitVec 1024) (valid dirty : BitVec 4) : Option State :=
  let base := s.setKey l
  match s.victim base (a.alloc = 1) with
  | none => none
  | some (key, s) =>
    let old := s.llc.get? key
    let room := match old with
      | some e => e.dirty = 0 || e.host || (match s.placeOf (e.line * 128) with
        | some (ch, _) => s.mcRoom (pseudoOf ch (e.line % 16)) true
        | none => true)
      | none => true
    if !room then none
    else
      let s := match old with
        | some e => (if a.alloc = 1 && e.drip then s.countEvent a.part 2 else s).llcEvict key e false
        | none => s
      let s := if l.host then s else s.tagFill (key / 131072) (l.line / 16384)
      let e : LlcLine := ⟨l.line, l.host, valid, dirty, if a.alloc = 1 then 3 else 2, a.alloc = 1, none, d, a.part⟩
      -- a drip fill leaves at most one DRIP line in the set (R259)
      let s := if a.alloc = 1 then
          let llc := (s.waysOf base).foldl (fun t c => t.set c.1 { c.2 with drip := false }) s.llc
          { s with llc := llc }
        else s
      let r := if a.alloc = 2 then s.pin base a e else (s, e)
      some { r.1 with llc := r.1.llc.set key r.2 }

/-- Sectors written into, or filled into, the cache under a hint: a hit merges, a miss allocates. -/
def State.llcPut (s : State) (l : LineId) (a : Access) (d : BitVec 1024) (valid dirty : BitVec 4) : Option State :=
  match s.llcFind l with
  | some (key, e) =>
    let base := s.setKey l
    let r := s.hintHit base a e
    let e' : LlcLine :=
      { r.2 with data := mergeSectors e.data d valid, valid := e.valid ||| valid, dirty := e.dirty ||| dirty }
    some { r.1 with llc := r.1.llc.set key e' }
  | none => s.llcPlace l a d valid dirty

/-! ## The coherent value of a line -/

/-- A tile's TSS entry. -/
def State.tssAt (s : State) (tile : Nat) : Tss := s.tss.get Tss.init tile

/-- A device line's place: channel, row and line of its tile. -/
def State.linePlace (s : State) (line : Nat) : Option (Nat × Nat × Nat) :=
  (s.placeOf (line * 128)).map (fun p => (p.1, p.2, line % 16))

/-- The tile key of a device line. -/
def State.lineTile (s : State) (line : Nat) : Option Nat := (s.placeOf (line * 128)).map (fun p => tileKey p.1 p.2)

/-- A device line below the tile state: the LLC's valid sectors over memory. -/
def State.rawLine (s : State) (line : Nat) : BitVec 1024 :=
  let m := match s.linePlace line with
    | some (ch, row, k) => s.memLine line ch row k
    | none => 0
  match s.llcFind ⟨false, line⟩ with
  | some (_, e) => mergeSectors m e.data e.valid
  | none => m

/-- A device line as its home serves it: zeros when the tile is ZERO (R310). -/
def State.devLine (s : State) (line : Nat) : BitVec 1024 :=
  match s.lineTile line with
  | some t => if (s.tssAt t).state = .zero then 0 else s.rawLine line
  | none => 0

/-- The sectors of a device line that are poisoned where its home would read them from memory. -/
def State.lineBad (s : State) (line : Nat) : BitVec 4 :=
  match s.linePlace line with
  | some (ch, row, k) =>
    let held := match s.llcFind ⟨false, line⟩ with
      | some (_, e) => e.valid
      | none => 0
    s.badSectors ch row k &&& ~~~held
  | none => 0

/-- A host-memory line as its home slice serves it. -/
def State.hostView (s : State) (line : Nat) : BitVec 1024 :=
  match s.llcFind ⟨true, line⟩ with
  | some (_, e) => mergeSectors (s.hostLine line) e.data e.valid
  | none => s.hostLine line

end Sys2Proof.Machine
end

