-- ==== Sys2Proof/Machine/Tiles.lean ====
section
/-! DEFINITION. Tiles: state transitions of Table 9-2, line writes, multi-line writes, spent hints, and what a read of a
tile meets (R91, R94, R242 to R245, R264, R303, R309 to R317, Table 3-10). -/

namespace Sys2Proof.Machine

/-- A device tile: its first line number, its channel and row, and its set. -/
structure TileAt where
  line0 : Nat
  ch : Nat
  row : Nat
deriving DecidableEq, Repr

/-- The tile that holds a device line. -/
def State.tileOfLine (s : State) (line : Nat) : Option TileAt :=
  (s.placeOf (line * 128)).map (fun p => ⟨line / 16 * 16, p.1, p.2⟩)

/-- A tile's key. -/
def TileAt.key (t : TileAt) : Nat := tileKey t.ch t.row

/-- A TSS entry written. -/
def State.setTss (s : State) (t : Nat) (e : Tss) : State := { s with tss := s.tss.put Tss.init t e }

/-- The lines of a tile, by device line number. -/
def TileAt.lines (t : TileAt) : List Nat := (List.range 16).map (fun k => t.line0 + k)

/-- The plaintext bytes of a tile as its home serves them. -/
def State.tileBytes (s : State) (t : TileAt) : List Byte := (t.lines.map (fun n => lineBytes (s.devLine n))).flatten

/-- A tile in a state with no CRC of its own (Table 9-1: CRC undefined in ZERO, SPENT and POISON). -/
def State.tileTo (s : State) (t : Nat) (st : TileState) : State := s.setTss t ⟨st, 0, 0⟩

/-- A tile turned MIRRORED_STALE: a VALID or OPEN one keeps its CRC, any other has that of its bytes (Table 9-1). -/
def State.tileStale (s : State) (t : TileAt) : State :=
  let e := s.tssAt t.key
  s.setTss t.key ⟨.stale, match e.state with
    | .zero => zeroCrc
    | .spent | .poison => crc32c (s.tileBytes t)
    | _ => e.crc, 0⟩

/-- The region a device line belongs to: the set's owner and copy. -/
def State.setOfLine (s : State) (line : Nat) : Option (Nat × IntSet) := s.setOf (line * 128)

/-- How a write reaches its line: an engine's write allocates under its hint (R254), a host or peer write does not
(Table 8-3); `who` is 0 for the host. -/
inductive WritePath where
  | alloc (a : Access)
  | outer (who : Nat)
deriving DecidableEq, Repr

/-- Masked bytes stored in a line at its home: in the cache under R254, or under Table 8-3, where the bytes of absent
sectors go to the pseudo-channel's queue. `none` when the write waits. -/
def State.storeLine (s : State) (line : Nat) (d : BitVec 1024) (m : BitVec 128) (w : WritePath) : Option State :=
  match w with
  | .alloc a =>
    -- a partly written absent sector is fetched first (R254); one that is poisoned stays in memory, poisoned (R302)
    let bad := s.lineBad line &&& sectorsOf m &&& ~~~(wholeSectors m)
    let good := sectorsOf m &&& ~~~bad
    let full := mergeLine (s.devLine line) d m
    let s := if bad = 0 then s else match s.linePlace line with
      | some (ch, row, k) => s.memWrite line ch row k d (m &&& maskOfSectors bad)
      | none => s
    if good = 0 then some s else s.llcPut ⟨false, line⟩ a full good good
  | .outer who =>
    match s.llcFind ⟨false, line⟩ with
    | some (key, e) =>
      let inside := m &&& maskOfSectors e.valid
      let rest := m &&& ~~~inside
      let e' := { e with data := mergeLine e.data d inside, dirty := e.dirty ||| sectorsOf inside }
      let s := { s with llc := s.llc.set key e' }
      match s.linePlace line with
      | some (ch, row, k) =>
        if rest = 0 then some s
        else if !s.outerRoom (pseudoOf ch k) who then none
        else some (s.mcPush ⟨.outerWrite, ch, row, k, line, sectorsOf rest, rest, d, false, 0, who⟩)
      | none => some s
    | none =>
      match s.linePlace line with
      | some (ch, row, k) =>
        if !s.outerRoom (pseudoOf ch k) who then none
        else some (s.mcPush ⟨.outerWrite, ch, row, k, line, sectorsOf m, m, d, false, 0, who⟩)
      | none => some s

/-- Cached lines of a tile made zero where they lie: no pin is released (R262). -/
def State.zeroCached (s : State) (t : TileAt) (ks : List Nat) : State :=
  ks.foldl (fun s k => match s.llcFind ⟨false, t.line0 + k⟩ with
    | some (key, e) => { s with llc := s.llc.set key { e with data := 0, valid := 0xF, dirty := 0 } }
    | none => s) s

/-- Zeros laid over whole lines of a tile: what the home writes when a ZERO tile receives data (Table 9-2). -/
def State.zeroLines (s : State) (t : TileAt) (ks : List Nat) : State :=
  ks.foldl (fun s k => s.memWrite (t.line0 + k) t.ch t.row k 0 allBytes) (s.zeroCached t ks)

/-- The lines of a tile with a sector known to be poisoned (R308, R309). -/
def State.poisonLines (s : State) (t : TileAt) : BitVec 16 :=
  BitVec.ofNat 16 (numOfBits ((List.range 16).filter (fun k =>
    let held := match s.llcFind ⟨false, t.line0 + k⟩ with
      | some (_, e) => e.valid
      | none => 0
    s.knownBad t.ch t.row k &&& ~~~held != 0)))

/-- Bad sectors of a device line found: they become poison, the channel counts them, and the tile's state follows Table 9-2 (private
region: POISON; OPEN: the line joins the poison mask; SPENT and POISON stay). -/
def State.markBad (s : State) (line : Nat) (bad : BitVec 4) (mirrored : Bool) : State :=
  match s.linePlace line, s.lineTile line with
  | some (ch, row, k), some t =>
    if bad = 0 then s
    else
      let s := s.poisonSectors ch row k bad
      let s := { s with chans := s.chans.upd Chan.init ch (fun c =>
        { c with
          ueTotal := min (c.ueTotal + 1) 0xFFFFFFFF
          ueRows := if c.ueRows.contains row then c.ueRows else row :: c.ueRows
          ueAfter := if c.ueAfter.contains row || !s.flash.repairs.contains ⟨ch / 16, ch % 16, Config.bankRow row⟩ then c.ueAfter
            else row :: c.ueAfter }) }
      match (s.tssAt t).state with
      | .valid => if mirrored then s.setTss t ⟨.stale, (s.tssAt t).crc, 0⟩ else s.tileTo t .poison
      | .opened =>
        let o := s.openTiles.get ⟨0, 0, false, 0⟩ t
        { s with openTiles := s.openTiles.set t { o with poisonMask := o.poisonMask ||| BitVec.ofNat 16 (1 <<< k) } }
      | _ => s
  | _, _ => s

/-- An uncorrectable sector found by a read of a device line, among the sectors it needs. -/
def State.foundBad (s : State) (line : Nat) (need : BitVec 4) (mirrored : Bool) : State :=
  s.markBad line (s.lineBad line &&& need) mirrored

/-- A line write of masked bytes (Table 9-2, rows of line writes; R302, R308, R312). `none` when it waits: at an OPEN
tile with a pending spent hint, at a MIRRORED_STALE tile until the twin's copy has been written (R323), or for room. -/
def State.lineWrite (s : State) (line : Nat) (d : BitVec 1024) (m : BitVec 128) (w : WritePath) : Option State :=
  match s.tileOfLine line with
  | none => none
  | some t =>
    let k := line % 16
    let e := s.tssAt t.key
    let old := s.devLine line
    let new := mergeLine old d m
    -- a partly written sector that memory holds poisoned is found by the merge, and stays poisoned (R302)
    let hit := if e.state = .zero then 0 else s.lineBad line &&& sectorsOf m &&& ~~~(wholeSectors m)
    let s := if hit = 0 then s else match s.linePlace line with
      | some (ch, row, j) => s.poisonSectors ch row j hit
      | none => s
    match e.state with
    | .valid =>
      if hit = 0 then (s.storeLine line d m w).map (fun s => s.setTss t.key { e with crc := e.crc ^^^ crcDelta k (old ^^^ new) })
      else (s.storeLine line d m w).map (fun s => s.tileTo t.key .poison)
    | .zero =>
      if new = 0 then some s
      else
        let s := s.zeroLines t (List.range 16)
        let s := s.setTss t.key ⟨.valid, zeroCrc ^^^ crcDelta k new, 0⟩
        s.storeLine line d m w
    | .spent =>
      -- the home reads the other 15 lines
      let others := t.lines.filter (fun n => n != line)
      let bad := others.any (fun n => s.lineBad n != 0)
      let s := others.foldl (fun s n => s.foundBad n 0xF false) s
      (s.storeLine line d m w).map (fun s =>
        if !bad && hit = 0 then
          let s := s.setTss t.key ⟨.valid, 0, 0⟩
          s.setTss t.key ⟨.valid, crc32c (s.tileBytes t), 0⟩
        else s.tileTo t.key .poison)
    | .poison => s.storeLine line d m w
    | .stale => none
    | .opened =>
      let o := s.openTiles.get ⟨0, 0, false, 0⟩ t.key
      if o.spentPending then none
      else
        (s.storeLine line d m w).map (fun s =>
          let bit := BitVec.ofNat 16 (1 <<< k)
          let zm := if new = 0 then o.zeroMask ||| bit else o.zeroMask &&& ~~~bit
          let pm := if m = allBytes then o.poisonMask &&& ~~~bit else if hit = 0 then o.poisonMask else o.poisonMask ||| bit
          let s := s.setTss t.key { e with crc := e.crc ^^^ crcDelta k (old ^^^ new) }
          { s with openTiles := s.openTiles.set t.key { o with zeroMask := zm, poisonMask := pm } })

/-- The open-tile entries of a home slice (R308). -/
def State.openCount (s : State) (line : Nat) : Nat :=
  let sl := s.sliceOf ⟨false, line⟩
  (s.openTiles.rows.filter (fun r => s.sliceOf ⟨false, r.2.line0⟩ = sl)).length

/-- A full or multi-line write begins (Table 9-2); `none` when it waits: a spent hint is pending, the open-tile table is
full, OPEN_COUNT is 255 (R308), or the tile is being moved (R329). -/
def State.beginWrite (s : State) (line : Nat) : Option State :=
  match s.tileOfLine line with
  | none => none
  | some t =>
    let e := s.tssAt t.key
    match e.state with
    | .opened =>
      let o := s.openTiles.get ⟨0, 0, false, 0⟩ t.key
      if o.spentPending || 255 ≤ e.openCount then none
      else some (s.setTss t.key { e with openCount := e.openCount + 1 })
    | .zero =>
      if 128 ≤ s.openCount line then none
      else
        let s := s.zeroLines t (List.range 16)
        let s := s.setTss t.key ⟨.opened, zeroCrc, 1⟩
        some { s with openTiles := s.openTiles.set t.key ⟨0xFFFF, 0, false, t.line0⟩ }
    | _ =>
      if 128 ≤ s.openCount line then none
      else
        let pm := s.poisonLines t
        let zm := BitVec.ofNat 16 (numOfBits ((List.range 16).filter (fun k => s.devLine (t.line0 + k) = 0)))
        let s := s.setTss t.key ⟨.opened, if e.state = .valid then e.crc else crc32c (s.tileBytes t), 1⟩
        some { s with openTiles := s.openTiles.set t.key ⟨zm, pm, false, t.line0⟩ }

/-- A whole line of a multi-line write that began before any pending spent hint: dropped when one is pending (Table 9-2),
otherwise stored. -/
def State.openLine (s : State) (line : Nat) (d : BitVec 1024) (w : WritePath) : Option State :=
  match s.tileOfLine line with
  | none => none
  | some t =>
    if (s.openTiles.get ⟨0, 0, false, 0⟩ t.key).spentPending then some s else s.lineWrite line d allBytes w

/-- The lines of a tile dropped from the cache without write-back (R264). -/
def State.dropTile (s : State) (t : TileAt) : State :=
  t.lines.foldl (fun s n => match s.llcFind ⟨false, n⟩ with
    | some (key, e) => s.llcEvict key e true
    | none => s) s

/-- A tile set SPENT counted for the partition that owns it (Table 8-7). -/
def State.countSpent (s : State) (t : TileAt) : State :=
  match s.setOfLine t.line0 with
  | some (_, ⟨_, _, _, _, .part p, _, _⟩) => s.countEvent p 3
  | _ => s

/-- A full or multi-line write ends (Table 9-2): the CRC is the one kept up with the lines as they were written (R244). -/
def State.endWrite (s : State) (line : Nat) : State :=
  match s.tileOfLine line with
  | none => s
  | some t =>
    let e := s.tssAt t.key
    if e.state ≠ .opened then s
    else if 1 < e.openCount then s.setTss t.key { e with openCount := e.openCount - 1 }
    else
      let o := s.openTiles.get ⟨0, 0, false, 0⟩ t.key
      let s := { s with openTiles := s.openTiles.erase t.key }
      if o.spentPending then ((s.dropTile t).tileTo t.key .spent).countSpent t
      else if o.poisonMask ≠ 0 then s.tileTo t.key .poison
      else if o.zeroMask = 0xFFFF then s.tileTo t.key .zero
      else s.setTss t.key ⟨.valid, e.crc, 0⟩

/-- A full write of a tile in one step: it begins, its 16 lines are written and it ends (R97, R309, R314). The CRC is that of the lines,
which updates line by line come to (R312). -/
def State.fullWrite (s : State) (line : Nat) (data : List (BitVec 1024)) (w : WritePath) : Option State := do
  let s ← s.beginWrite line
  let s ← (List.range 16).foldlM (fun s k => s.openLine (line / 16 * 16 + k) (data.getD k 0) w) s
  match s.tileOfLine line with
  | none => none
  | some t => pure ((s.setTss t.key { s.tssAt t.key with
      crc := crc32c (((List.range 16).map (fun k => lineBytes (data.getD k 0))).flatten) }).endWrite line)

/-- A spent hint at its point in the tile's order (R264, Table 9-2), once external copies are gone. -/
def State.spentHint (s : State) (line part : Nat) : State :=
  match s.tileOfLine line with
  | none => s
  | some t =>
    let e := s.tssAt t.key
    if e.state = .opened then
      let o := s.openTiles.get ⟨0, 0, false, 0⟩ t.key
      { s with openTiles := s.openTiles.set t.key { o with spentPending := true } }
    else ((s.dropTile t).tileTo t.key .spent).countEvent part 3

/-- Unspecified bytes of a line of a SPENT tile (R317), and the state with one free value more used. -/
def State.spentBytes (s : State) (line : Nat) : BitVec 1024 :=
  Config.spentLine (match s.setOfLine line with
    | some (_, e) => e.owner.index
    | none => 0) line s.freeCtr

/-- What a read of a line meets in its tile (R91, Table 3-10). -/
inductive ReadMeets where
  | data
  | zero
  | spent
  | bad
  | stale
deriving DecidableEq, Repr

/-- What a GMEM load or a TLD line meets at a device line: the tile's state, and any uncorrectable sector that the read
itself finds among the sectors it needs (R91, R243, R303). -/
def State.readMeets (s : State) (line : Nat) (need : BitVec 4) : ReadMeets :=
  match s.lineTile line with
  | none => .bad
  | some t =>
    let bad := s.lineBad line &&& need
    match (s.tssAt t).state with
    | .zero => .zero
    | .spent => .spent
    | .poison => .bad
    | .stale => .stale
    | .valid => if bad = 0 then .data else .bad
    | .opened =>
      let o := s.openTiles.get ⟨0, 0, false, 0⟩ t
      if o.poisonMask.getLsbD (line % 16) || bad ≠ 0 then .bad else .data

/-- The line that a moved tile of a page is found at (R381). -/
def State.forward (s : State) (line : Nat) : Nat :=
  s.mm.migs.foldl (fun n m => match m with
    | .page _ _ src dst tiles _ moved =>
      let t := n / 16 - src / 2048
      if src / 2048 ≤ n / 16 && t < tiles && moved.contains t then dst / 128 + (n - src / 128) else n
    | _ => n) line

/-- The offset in a list of pieces of a DPA that one of them holds. -/
def offsetIn : List SharedPart → Nat → Option Nat
  | [], _ => none
  | e :: t, dpa => if e.base ≤ dpa && dpa < e.base + e.size then some (dpa - e.base) else (offsetIn t dpa).map (e.size + ·)

/-- The DPA at an offset in a list of pieces. -/
def dpaIn : List SharedPart → Nat → Option Nat
  | [], _ => none
  | e :: t, off => if off < e.size then some (e.base + off) else dpaIn t (off - e.size)

/-- The pieces of a copy of the region, in order of offset. -/
def SharedRegion.copyParts (g : SharedRegion) (copy : Nat) : List SharedPart := g.parts.filter (fun e => e.copy = copy)

/-- The DPA of an offset of the region in a copy. -/
def State.sharedDpa (s : State) (copy off : Nat) : Option Nat := s.mm.shared.bind (fun g => dpaIn (g.copyParts copy) off)

/-- The offset of the region that a DPA of a copy holds; a frame that a tile has moved to counts as the one that it leaves. -/
def State.sharedOffset (s : State) (copy dpa : Nat) : Option Nat :=
  let from_ := s.mm.migs.foldl (fun d m => match m with
    | .page p _ src dst tiles _ _ => if p = 16 + copy && dst ≤ d && d < dst + tiles * 2048 then src + (d - dst) else d
    | _ => d) dpa
  s.mm.shared.bind (fun g => offsetIn (g.copyParts copy) from_)

/-- The line at the same offset of the other copy of the half-replicated region, where a device line lies in it (R318). -/
def State.otherCopy (s : State) (line : Nat) : Option Nat :=
  match s.setOfLine line with
  | some (_, e) =>
    if e.owner = .shared && s.mm.shared.any (·.half) then
      ((s.sharedOffset e.copy (line * 128)).bind (s.sharedDpa (1 - e.copy))).map (fun d => s.forward (d / 128))
    else none
  | none => none

/-- Repair of a half-replicated tile from the other copy, which is read and verified (R320, Table 9-3): with `true` the repaired state;
otherwise both copies are POISON. -/
def State.repair (s : State) (line : Nat) : State × Bool :=
  match s.otherCopy line, s.tileOfLine line with
  | some o, some t =>
    match s.tileOfLine o with
    | some u =>
      let s := if (s.tssAt u.key).state = .valid then u.lines.foldl (fun s n => s.foundBad n 0xF false) s else s
      let e := s.tssAt u.key
      if e.state = .valid ∧ crc32c (s.tileBytes u) = e.crc then
        let data := u.lines.map s.devLine
        let s := s.dropTile t
        let s := (List.range 16).foldl (fun s k => s.memWrite (t.line0 + k) t.ch t.row k (data.getD k 0) allBytes) s
        (s.setTss t.key ⟨.valid, e.crc, 0⟩, true)
      else ((s.tileTo u.key .poison).tileTo t.key .poison, false)
    | none => (s, false)
  | _, _ => (s, false)

end Sys2Proof.Machine
end

