-- ==== Sys2Proof/Machine/Requests.lean ====
section
/-! DEFINITION. Requests of groups to their homes, and what holds later accesses: outstanding requests, releases,
acquires and the L1 (R82, R213, R218 to R225). -/

namespace Sys2Proof.Machine

/-- The home of a line of a partition's memory. -/
def State.homeOf (s : State) (part va : Nat) : Option Home := (s.locate part va).map (·.1)

/-- The requests of a group that are still outstanding, by number. -/
def State.outstanding (s : State) (r : GroupRef) : List (Nat × MemReq) :=
  (s.reqs.keep (fun _ q => q.src == .grp r.block r.group.val)).rows

/-- Whether a request writes. -/
def MemReq.writes (q : MemReq) : Bool :=
  match q.kind with
  | .store _ _ => true
  | .atom _ _ _ _ => true
  | .semRel _ _ => true
  | .spent => true
  | _ => false

/-- Whether a request's home lies on another device. -/
def MemReq.remote (q : MemReq) : Bool :=
  match q.home with
  | .peer _ _ _ => true
  | _ => false

/-- The outstanding requests that a release at a scope waits for (Table 7-3); lines of a TST count only once its token was waited on, and
they are all accepted by then (R225). -/
def State.releaseSet (s : State) (r : GroupRef) (scope : Nat) : List Nat :=
  let l := (s.outstanding r).filter (fun q => q.2.via.op.isNone)
  match scope with
  | 0 => []
  | 3 => (l.filter (fun q => q.2.reads || q.2.writes)).map (·.1)
  | _ => (l.filter (fun q => q.2.reads || (q.2.writes && !q.2.remote && !q.2.placed))).map (·.1)

/-- The outstanding reads of a group. -/
def State.readSet (s : State) (r : GroupRef) : List Nat := ((s.outstanding r).filter (fun q => q.2.reads)).map (·.1)

/-- Whether what a request carries lets it out (R219, R245). -/
def State.released (s : State) (v : Via) : Bool := !s.anyUnplaced v.after && !s.anyLeft v.seen

/-- Requests of a list that have not ended. -/
def State.left (s : State) (l : List Nat) : List Nat := l.filter (fun k => (s.reqs.get? k).isSome)

/-- What a write of a group carries: the group's releases hold it (R219). -/
def Ctx.held (x : Ctx) : Via := { Via.free with after := x.s.left x.g.gateW, seen := x.s.left x.g.gateV }

/-- As `held`, for a write that performs a release at a scope itself. -/
def Ctx.heldAt (x : Ctx) (scope : Nat) : Via :=
  let v := x.held
  if scope = 3 then { v with seen := x.s.releaseSet x.r 3 ++ v.seen } else { v with after := x.s.releaseSet x.r scope ++ v.after }

/-- A release that the instruction performs before itself: it waits to issue until Table 7-3 holds for the scope. -/
def Ctx.released (x : Ctx) (scope : Nat) : Except Stop Unit := await ((x.s.releaseSet x.r scope).isEmpty)

/-- The key of a line in an L1. -/
def Home.l1Key : Home → Nat
  | .dev n => 3 * n
  | .host n => 3 * n + 1
  | .peer d e n => 3 * ((d * 512 + e) * 2 ^ 41 + n) + 2

/-- A core's record. -/
def State.core (s : State) (c : Nat) : Core := s.cores.get Core.init c

/-- A core's record written. -/
def State.setCore (s : State) (c : Nat) (k : Core) : State := { s with cores := s.cores.put Core.init c k }

/-- Loads in flight, made on a core, that will no longer fill its L1: all of them, or those of one line. -/
def State.stopFills (s : State) (core : Nat) (only : Option Home) : State :=
  let reqs := s.reqs.mapVal (fun _ q =>
    match q.kind, q.src with
    | .load d w sg ls op _, .grp b _ =>
      let here := (s.blocks.get? b).any (fun k => k.core == core)
      if here && (only.isNone || only == some q.home) then { q with kind := .load d w sg ls op 0 }
      else q
    | _, _ => q)
  { s with reqs := reqs }

/-- A core's L1 invalidated whole (R218, R74); loads in flight fill nothing old. -/
def State.l1Invalidate (s : State) (core : Nat) : State :=
  (s.setCore core { s.core core with l1 := .empty }).stopFills core none

/-- A line dropped from a core's L1 (R100). -/
def State.l1Drop (s : State) (core : Nat) (h : Home) : State :=
  (s.setCore core { s.core core with l1 := (s.core core).l1.erase h.l1Key }).stopFills core (some h)

/-- The core that makes a request. -/
def State.srcCore (s : State) (q : MemReq) : Option Nat :=
  match q.src with
  | .grp b _ => (s.blocks.get? b).map (·.core)
  | _ => none

/-- Whether a request's home lies on another device. -/
def Home.away : Home → Bool
  | .peer _ _ _ => true
  | _ => false

/-- The bytes of a core's stores to a line that its home has not taken, oldest first; with `before`, of those older than a request. Reads
by the core find them (R215). -/
def State.storesOver (s : State) (core : Nat) (h : Home) (before : Option Nat) : BitVec 1024 × BitVec 128 :=
  s.reqs.rows.foldl (fun acc r => match r.2.kind with
    | .store d m =>
      if r.2.home == h && r.2.stage == .flight && s.srcCore r.2 == some core && before.all (fun k => r.1 < k) then
        (mergeLine acc.1 d m, acc.2 ||| m)
      else acc
    | _ => acc) (0, 0)

/-- A store's bytes laid over what loads of its line, served and on their way back to the core or in flight to a peer, will fill. -/
def State.layOver (s : State) (core : Nat) (h : Home) (d : BitVec 1024) (m : BitVec 128) : State :=
  let reqs := s.reqs.mapVal (fun _ q =>
    match q.kind with
    | .load _ _ _ _ _ _ =>
      if q.home == h && s.srcCore q == some core && (h.away || q.stage != .flight && q.stage != .waiting) then
        { q with via := { q.via with lay := mergeLine q.via.lay d m, layMask := q.via.layMask ||| m } }
      else q
    | _ => q)
  { s with reqs := reqs }

/-- A store's bytes laid over the copy of its line in the issuing core's L1, and over the copies that loads in flight will fill (R213). -/
def State.l1Store (s : State) (core : Nat) (h : Home) (d : BitVec 1024) (m : BitVec 128) : State :=
  let s := s.layOver core h d m
  match (s.core core).l1.get? h.l1Key with
  | none => s
  | some e =>
    let e' := { e with data := mergeLine e.data d (m &&& maskOfSectors e.valid) }
    s.setCore core { s.core core with l1 := (s.core core).l1.set h.l1Key e' }

/-- Loads of a line that its home served before the one of place `arr`, made on a core, will no longer fill its L1: a newer one
has (R214). -/
def State.outdate (s : State) (core : Nat) (h : Home) (arr : Nat) : State :=
  let reqs := s.reqs.mapVal (fun _ q =>
    match q.kind with
    | .load d w sg ls op _ =>
      if q.home == h && s.srcCore q == some core && q.via.arr.any (fun k => k < arr) then { q with kind := .load d w sg ls op 0 } else q
    | _ => q)
  { s with reqs := reqs }

/-- Whether an atomic or a SEM.REL of a core to a line has not ended: loads of the line fill no L1 meanwhile (R100). -/
def State.atomPending (s : State) (core : Nat) (h : Home) : Bool :=
  s.reqs.any (fun _ q => q.home == h && s.srcCore q == some core && (match q.kind with
    | .atom _ _ _ _ => true
    | .semRel _ _ => true
    | _ => false))

/-- A line filled into a core's L1 (2), or refreshed where it holds the line (1), with the sectors that its home returned: the copy is
the line at one time, and sectors whose bytes have changed since leave it (R213, R216). -/
def State.l1Fill (s : State) (core : Nat) (h : Home) (d : BitVec 1024) (v : BitVec 4) (fill : Nat) : State :=
  match (s.core core).l1.get? h.l1Key with
  | some e =>
    if fill ≠ 0 then
      let e' : L1Line := ⟨if mergeSectors d e.data e.valid = d then e.valid ||| v else v, d⟩
      s.setCore core { s.core core with l1 := (s.core core).l1.set h.l1Key e' }
    else s
  | none => if fill = 2 then s.setCore core { s.core core with l1 := (s.core core).l1.set h.l1Key ⟨v, d⟩ } else s

/-- A request entered. -/
def State.addReq (s : State) (q : MemReq) : Nat × State :=
  (s.nextId, { s with nextId := s.nextId + 1, reqs := s.reqs.set s.nextId q })

/-- Whether a line's set or page is being moved (R382). -/
def State.inMove (s : State) (line : Nat) : Bool :=
  (match s.setOfLine line with
   | some (_, e) => e.shadow.isSome
   | none => false)
  || s.mm.migs.any (fun m =>
    let at_ := fun (b tiles : Nat) => b / 2048 ≤ line / 16 && line / 16 < b / 2048 + tiles
    match m with
    | .page _ _ src dst tiles _ _ => at_ src tiles || at_ dst tiles
    | _ => false)

/-- Whether a spilled page at an address is being recalled (R382, R387). -/
def State.inRecall (s : State) (part va : Nat) : Bool :=
  s.mm.migs.any (fun m => match m with
    | .recall p key _ tiles _ => p = part && key * 65536 ≤ va && va < key * 65536 + tiles * 2048
    | _ => false)

/-- The flags that an access raises: MIGRATED in memory being moved (R382), FALLBACK_PATH on a spilled page (R387). -/
def State.accessFlags (s : State) (part va : Nat) (h : Home) : BitVec 16 :=
  let moving := s.inRecall part va || (match h with
    | .dev n => s.inMove n
    | _ => false)
  let spilled := match (s.part part).page? va with
    | some (_, g) => g.spill
    | none => false
  (if moving then flagMigrated else 0) ||| (if spilled then flagFallback else 0)

/-- Flags that an access raises for its task. -/
def State.noteAccess (s : State) (task part va : Nat) (h : Home) : State :=
  let f := s.accessFlags part va h
  if f = 0 then s else s.raise task f

/-! ## Lanes and lines of a global access (R87, R88) -/

/-- The byte offset that a GMEM instruction adds to each address (R84). -/
def insGlobalOff (i : Ins) : DWord := (insImmValue i).getD 0

/-- The global address of each lane, from the pair that SRC_A names. -/
def Ctx.globalAddr (x : Ctx) : Except Stop (Nat → Nat) := do
  let a ← x.v64 x.i.a
  pure (fun l => (a l + insGlobalOff x.i).toNat)

/-- The distinct lines that lanes touch, ascending lane order within each, with each lane's byte offset. -/
def lineGroups (f : Nat → Nat) (lanes : List Nat) : List (Nat × List (Nat × Nat)) :=
  let lines := lanes.foldl (fun acc l => if acc.contains (f l / 128) then acc else acc ++ [f l / 128]) []
  lines.map (fun n => (n, (lanes.filter (fun l => f l / 128 = n)).map (fun l => (l, f l % 128))))

end Sys2Proof.Machine
end

