-- ==== Sys2Proof/Machine/Gmem.lean ====
section
/-! DEFINITION. Global loads, stores and prefetches (R84, R87 to R91, R202, R203, R213, R217). -/

namespace Sys2Proof.Machine

/-- Every selected lane's address is aligned, within 48 bits and mapped, and writable where it must be (R34, R88). -/
def Ctx.checkLanes (x : Ctx) (f : Nat → Nat) (w : Nat) (write : Bool) : Except Stop Unit :=
  require ((lanesIn x.sel).all (fun l => addrOk w (f l) &&
    (match x.s.locate x.t.part (f l) with
     | some (_, rw) => !write || rw
     | none => false)))

/-- The sectors of a line that lanes of `w` bytes touch. -/
def laneSectors (lanes : List (Nat × Nat)) (w : Nat) : BitVec 4 :=
  lanes.foldl (fun v l => v ||| sectorsOf (byteMask l.2 w)) 0

/-- Loaded lanes of a line written to their registers. -/
def Group.putLoaded (g : Group) (dst w : Nat) (signed : Bool) (lanes : List (Nat × Nat)) (d : BitVec 1024) : Group :=
  lanes.foldl (fun g l => g.putLane dst (regsFor w) l.1 (extendLoad w signed (lineNum d l.2 w))) g

/-- One line of a load: served from the L1, or requested from its home. -/
def Ctx.loadLine (x : Ctx) (dst w hint op : Nat) (signed cache : Bool) (acc : State × List Nat)
    (grp : Nat × List (Nat × Nat)) : State × List Nat :=
  let s := acc.1
  match s.homeOf x.t.part (128 * grp.1), s.group? x.r with
  | some h, some g =>
    let need := laneSectors grp.2 w
    let fill := if s.atomPending x.b.core h then 0 else if cache then 2 else 1
    match (if cache then (s.core x.b.core).l1.get? h.l1Key else none) with
    | some e =>
      if e.valid &&& need = need then (s.putGroup x.r (g.putLoaded dst w signed grp.2 e.data), acc.2)
      else
        let r := s.addReq ⟨.grp x.r.block x.r.group.val, x.t.part, 128 * grp.1, h,
          .load dst w signed grp.2 op fill, hint, .flight, x.g.pc, .free⟩
        (r.2.putGroup x.r { g with busy := ⟨dst, regsFor w, r.1⟩ :: g.busy }, r.1 :: acc.2)
    | none =>
      let r := s.addReq ⟨.grp x.r.block x.r.group.val, x.t.part, 128 * grp.1, h,
        .load dst w signed grp.2 op fill, hint, .flight, x.g.pc, .free⟩
      (r.2.putGroup x.r { g with busy := ⟨dst, regsFor w, r.1⟩ :: g.busy }, r.1 :: acc.2)
  | _, _ => acc

/-- The L1 copies of a tile's lines dropped from a core (R90). -/
def State.dropCopies (s : State) (core : Nat) (h : Home) : State :=
  (List.range 16).foldl (fun s k => match h with
    | .dev n => s.l1Drop core (.dev (n + k))
    | .host n => s.l1Drop core (.host (n + k))
    | .peer d e n => s.l1Drop core (.peer d e (n + k))) s

/-- The spent requests of an instruction for its tiles: they go out once the requests that returned its data are over (R90, R245). -/
def State.sendSpent (s : State) (src : Src) (part : Nat) (pc : DWord) (waits : List Nat) (tiles : List (Nat × Home)) : State :=
  tiles.foldl (fun s t => (s.addReq ⟨src, part, t.1, t.2, .spent, 3, .flight, pc, { Via.free with seen := waits }⟩).2) s

/-- The tiles that a spent load touches: device and peer memory that may be written (R90, R265). -/
def State.spentTiles (s : State) (part : Nat) (vas : List Nat) : List (Nat × Home) :=
  vas.foldl (fun acc va =>
    let base := va / 2048 * 2048
    if acc.any (fun t => t.1 = base) then acc
    else match s.locate part base with
      | some (.host _, _) => acc
      | some (h, true) => acc ++ [(base, h)]
      | _ => acc) []

/-- LD: lanes are served from the L1 or by requests; registers are written as data returns (R82, R91). The spent requests of a spent load
are made with it, so that a later release of the group waits for them (R245). -/
def execLd (g : GroupRef) (i : Ins) (s : State) : Out :=
  issue g i (fun x => do
    let w ← x.width
    let n ← x.vTuple (regsFor w) i.dst
    let f ← x.globalAddr
    x.checkLanes f w false
    x.gateAll
    let lanes := lanesIn x.sel
    let groups := lineGroups f lanes
    -- a load served from the L1 never passes an older read of its line (R214)
    await (groups.all (fun p => match s.homeOf x.t.part (128 * p.1) with
      | some h => !((s.outstanding g).any (fun q => q.2.reads && q.2.home == h))
      | none => true))
    let hint := field i.mod 0 2
    let op := s.nextId
    let s0 := lanes.foldl (fun s l => match s.homeOf x.t.part (f l) with
      | some h => s.noteAccess x.b.task x.t.part (f l) h
      | none => s) { s with nextId := op + 1 }
    let r := groups.foldl (x.loadLine n w hint op (i.mod.getLsbD 6) (!i.mod.getLsbD 2)) (s0, [])
    let tiles := if hint = 3 then s.spentTiles x.t.part (lanes.map f) else []
    let s1 := if tiles.isEmpty then r.1
      else
        let s := r.1.sendSpent (.grp g.block g.group.val) x.t.part x.g.pc r.2 tiles
        if r.2.isEmpty then tiles.foldl (fun s t => s.dropCopies x.b.core t.2) s
        else { s with spents := s.spents.set op ⟨tiles, r.2⟩ }
    .ok (s1.updGroup g (fun k => { k with pc := x.nextPc }))) s

/-- The stored element of a lane: the register's low bytes, or the conversion of its FP32 value (R202 to R205). -/
def Ctx.storeElem (x : Ctx) (n w cvt fmt va l : Nat) : Nat :=
  if cvt = 0 then x.vNum n (regsFor w) l % 2 ^ (8 * w)
  else
    let v := FFmt.fp32.decode (laneAt (x.g.vreg n) l).toNat
    let md : Rnd := match cvt with
      | 1 => .rne
      | 2 => .rtz
      | _ => .sr (srBits x.t.identity (siteSt va))
    match fmt with
    | 1 => convertTo .bf16 md false true v
    | 2 => convertTo .fp16 md false true v
    | 3 => convertTo .e4m3 md true true v
    | 4 => convertTo .e5m2 md true true v
    | _ => wrapInt 8 (convertInt md (-128) 127 v)

/-- Whether a conversion store's format and width go together (Table 6-8). -/
def cvtOk (cvt fmt w : Nat) : Bool :=
  cvt = 0 || ((fmt = 1 || fmt = 2) && w = 2) || ((fmt = 3 || fmt = 4 || fmt = 8) && w = 1)

/-- One line of a store: the L1 copy is updated and the write sent to its home. -/
def Ctx.storeLanes (x : Ctx) (hint w : Nat) (val : Nat → Nat) (s : State) (grp : Nat × List (Nat × Nat)) : State :=
  match s.homeOf x.t.part (128 * grp.1) with
  | none => s
  | some h =>
    let dm := grp.2.foldl (fun (a : BitVec 1024 × BitVec 128) l =>
      (mergeLine a.1 (lineOf l.2 (val l.1)) (byteMask l.2 w), a.2 ||| byteMask l.2 w)) (0, 0)
    let s := s.l1Store x.b.core h dm.1 dm.2
    let s := s.noteAccess x.b.task x.t.part (128 * grp.1) h
    (s.addReq ⟨.grp x.r.block x.r.group.val, x.t.part, 128 * grp.1, h, .store dm.1 dm.2, hint, .flight, x.g.pc, x.held⟩).2

/-- ST: it issues although a release holds its writes (R219); later lanes' bytes win (R217); a spent hint acts as DEFAULT and sets CLAMPED (Table 3-8). -/
def execSt (g : GroupRef) (i : Ins) (s : State) : Out :=
  issue g i (fun x => do
    let w ← x.width
    let cvt := field i.mod 7 2
    let fmt := field i.mod 9 4
    require (cvtOk cvt fmt w)
    let n ← x.vTuple (regsFor w) i.dst
    let f ← x.globalAddr
    x.checkLanes f w true
    x.gateAll
    let hint := field i.mod 0 2
    let s0 := if hint = 3 then s.raise x.b.task flagClamped else s
    let s1 := (lineGroups f (lanesIn x.sel)).foldl
      (x.storeLanes (if hint = 3 then 0 else hint) w (fun l => x.storeElem n w cvt fmt (f l) l)) s0
    x.doneIn s1 x.g) s

/-- PREFETCH: lines of mapped lanes are requested; unmapped lanes fetch nothing (R34, R87). -/
def execPrefetch (g : GroupRef) (i : Ins) (s : State) : Out :=
  issue g i (fun x => do
    let w ← x.width
    let f ← x.globalAddr
    require ((lanesIn x.sel).all (fun l => addrOk w (f l)))
    x.gateAll
    let hint := field i.mod 0 2
    let s0 := if hint = 3 then s.raise x.b.task flagClamped else s
    let lanes := (lanesIn x.sel).filter (fun l => s.mapped x.t.part (f l))
    let s1 := (lineGroups f lanes).foldl (fun s p => match s.homeOf x.t.part (128 * p.1) with
      | some h => (s.addReq ⟨.grp g.block g.group.val, x.t.part, 128 * p.1, h, .prefetch,
          if hint = 3 then 0 else hint, .flight, x.g.pc, .free⟩).2
      | none => s) s0
    x.doneIn s1 x.g) s

end Sys2Proof.Machine
end

