-- ==== Sys2Proof/Machine/Atom.lean ====
section
/-! DEFINITION. Atomics in partition memory as they issue (R99, R100, R102, R219, R220, R224), and the operation that a
home performs (Table 3-11, R101, R103). -/

namespace Sys2Proof.Machine

/-- The value an atomic stores, from the old value, its operand and its new value, of `w` bytes (Table 3-11). -/
def atomNew (op : AtomOp) (w old arg new : Nat) : Nat :=
  let b := 8 * w
  match op with
  | .addI => (old + arg) % 2 ^ b
  | .minS => if signedOf b arg < signedOf b old then arg else old
  | .minU => min old arg
  | .maxS => if signedOf b old < signedOf b arg then arg else old
  | .maxU => max old arg
  | .and => old &&& arg
  | .or => old ||| arg
  | .xor => old ^^^ arg
  | .exch => arg
  | .cas => if old = arg then new else old
  | .addF => convertTo .fp32 .rne false true ((FFmt.fp32.decode old).add (FFmt.fp32.decode arg))

/-- The lanes of an atomic request applied to a line in ascending lane order: the line after, and each lane's old value
(R101). -/
def atomLine (op : AtomOp) (w : Nat) (lanes : List AtomLane) (d : BitVec 1024) : BitVec 1024 × List (Nat × Nat) :=
  lanes.foldl (fun acc l =>
    let old := lineNum acc.1 l.off w
    (mergeLine acc.1 (lineOf l.off (atomNew op w old l.arg l.new)) (byteMask l.off w), acc.2 ++ [(l.lane, old)])) (d, [])

/-- The bytes an atomic request writes. -/
def atomMask (w : Nat) (lanes : List AtomLane) : BitVec 128 := lanes.foldl (fun m l => m ||| byteMask l.off w) 0

/-- The operand of each lane from SRC_B, or the immediate, sign-extended to the operand's width, in its place (R84, log
11). -/
def Ctx.atomB (x : Ctx) (w : Nat) : Except Stop (Nat → Nat) :=
  match insImmValue x.i with
  | some v => pure (fun _ => wrapInt (8 * w) v.toInt)
  | none => do
    let n ← x.vTuple (regsFor w) x.i.b
    pure (fun l => x.vNum n (regsFor w) l)

/-- The new value of a CAS from SRC_C, zero where it is absent (R84, R99). -/
def Ctx.atomC (x : Ctx) (w : Nat) : Except Stop (Nat → Nat) :=
  if insNoC x.i then pure (fun _ => 0)
  else do
    let n ← x.vTuple (regsFor w) x.i.c
    pure (fun l => x.vNum n (regsFor w) l)

/-- One line of an atomic: the core's L1 copy is dropped and the request sent (R100); an ACQUIRE holds later accesses
until its response (R220). The requests of the instruction carry the release that it performs, and the group's (R219). -/
def Ctx.atomLanes (x : Ctx) (op : AtomOp) (w : Nat) (ret : Option Nat) (b c : Nat → Nat) (v : Via) (s : State)
    (grp : Nat × List (Nat × Nat)) : State :=
  match s.homeOf x.t.part (128 * grp.1) with
  | none => s
  | some h =>
    let s := s.l1Drop x.b.core h
    let s := s.noteAccess x.b.task x.t.part (128 * grp.1) h
    let lanes := grp.2.map (fun l => (⟨l.1, l.2, b l.1, c l.1⟩ : AtomLane))
    let r := s.addReq ⟨.grp x.r.block x.r.group.val, x.t.part, 128 * grp.1, h, .atom op w lanes ret, 0, .flight, x.g.pc, v⟩
    let acquire := x.i.mod.getLsbD 2
    r.2.updGroup x.r (fun g =>
      let g := match ret with
        | some n => { g with busy := ⟨n, regsFor w, r.1⟩ :: g.busy }
        | none => g
      let g := if acquire then { g with gate := r.1 :: g.gate } else g
      if acquire && 2 ≤ field x.i.mod 0 2 then { g with acq := r.1 :: g.acq } else g)

/-- An ATOM instruction: SCOPE in MOD[1:0], ORDER in MOD[3:2], RET in MOD[4] (R99). A release part holds the atomic's
requests until Table 7-3 is satisfied (R219). -/
def atomic (op : AtomOp) (w : Nat) (x : Ctx) : Except Stop State := do
  let ret ← if x.i.mod.getLsbD 4 then do
      let n ← x.vTuple (regsFor w) x.i.dst
      pure (some n)
    else pure none
  let a ← x.v64 x.i.a
  let b ← x.atomB w
  let c ← if op = .cas then x.atomC w else pure (fun _ => 0)
  let f := fun l => (a l).toNat
  x.checkLanes f w true
  x.gateAll
  let v := if x.i.mod.getLsbD 3 then x.heldAt (field x.i.mod 0 2) else x.held
  let s := (lineGroups f (lanesIn x.sel)).foldl (x.atomLanes op w ret b c v) x.s
  .ok (s.updGroup x.r (fun g => { g with pc := x.nextPc }))

/-- ADD.U32 (Table 3-11). -/
def execAtomAddU32 (g : GroupRef) (i : Ins) (s : State) : Out := issue g i (atomic .addI 4) s
/-- ADD.U64 (Table 3-11). -/
def execAtomAddU64 (g : GroupRef) (i : Ins) (s : State) : Out := issue g i (atomic .addI 8) s
/-- MIN.S32 (Table 3-11). -/
def execAtomMinS32 (g : GroupRef) (i : Ins) (s : State) : Out := issue g i (atomic .minS 4) s
/-- MIN.U32 (Table 3-11). -/
def execAtomMinU32 (g : GroupRef) (i : Ins) (s : State) : Out := issue g i (atomic .minU 4) s
/-- MAX.S32 (Table 3-11). -/
def execAtomMaxS32 (g : GroupRef) (i : Ins) (s : State) : Out := issue g i (atomic .maxS 4) s
/-- MAX.U32 (Table 3-11). -/
def execAtomMaxU32 (g : GroupRef) (i : Ins) (s : State) : Out := issue g i (atomic .maxU 4) s
/-- MIN.S64 (Table 3-11). -/
def execAtomMinS64 (g : GroupRef) (i : Ins) (s : State) : Out := issue g i (atomic .minS 8) s
/-- MIN.U64 (Table 3-11). -/
def execAtomMinU64 (g : GroupRef) (i : Ins) (s : State) : Out := issue g i (atomic .minU 8) s
/-- MAX.S64 (Table 3-11). -/
def execAtomMaxS64 (g : GroupRef) (i : Ins) (s : State) : Out := issue g i (atomic .maxS 8) s
/-- MAX.U64 (Table 3-11). -/
def execAtomMaxU64 (g : GroupRef) (i : Ins) (s : State) : Out := issue g i (atomic .maxU 8) s
/-- AND.B32 (Table 3-11). -/
def execAtomAndB32 (g : GroupRef) (i : Ins) (s : State) : Out := issue g i (atomic .and 4) s
/-- OR.B32 (Table 3-11). -/
def execAtomOrB32 (g : GroupRef) (i : Ins) (s : State) : Out := issue g i (atomic .or 4) s
/-- XOR.B32 (Table 3-11). -/
def execAtomXorB32 (g : GroupRef) (i : Ins) (s : State) : Out := issue g i (atomic .xor 4) s
/-- AND.B64 (Table 3-11). -/
def execAtomAndB64 (g : GroupRef) (i : Ins) (s : State) : Out := issue g i (atomic .and 8) s
/-- OR.B64 (Table 3-11). -/
def execAtomOrB64 (g : GroupRef) (i : Ins) (s : State) : Out := issue g i (atomic .or 8) s
/-- XOR.B64 (Table 3-11). -/
def execAtomXorB64 (g : GroupRef) (i : Ins) (s : State) : Out := issue g i (atomic .xor 8) s
/-- EXCH.B32 (Table 3-11). -/
def execAtomExchB32 (g : GroupRef) (i : Ins) (s : State) : Out := issue g i (atomic .exch 4) s
/-- EXCH.B64 (Table 3-11). -/
def execAtomExchB64 (g : GroupRef) (i : Ins) (s : State) : Out := issue g i (atomic .exch 8) s
/-- CAS.B32 (Table 3-11). -/
def execAtomCasB32 (g : GroupRef) (i : Ins) (s : State) : Out := issue g i (atomic .cas 4) s
/-- CAS.B64 (Table 3-11). -/
def execAtomCasB64 (g : GroupRef) (i : Ins) (s : State) : Out := issue g i (atomic .cas 8) s
/-- CAS.B128 (Table 3-11). -/
def execAtomCasB128 (g : GroupRef) (i : Ins) (s : State) : Out := issue g i (atomic .cas 16) s
/-- ADD.F32 (Table 3-11). -/
def execAtomAddF32 (g : GroupRef) (i : Ins) (s : State) : Out := issue g i (atomic .addF 4) s
/-- FXADD128: add modulo 2^128 (R103). -/
def execFxadd128 (g : GroupRef) (i : Ins) (s : State) : Out := issue g i (atomic .addI 16) s

end Sys2Proof.Machine
end

