-- ==== Sys2Proof/Machine/Events.lean ====
section
/-! DEFINITION. Device-wide events: the event log and error counts (R542, R593), device-fatal errors (R591), resets and failed
starts (R531), core closure (R171, R606), writes to host memory with dirty logging (R472), and trace (R569). -/

namespace Sys2Proof.Machine

/-- The events of Table 18-7 whose Reported as column reads Counted. -/
def countedEvents : List Nat :=
  [0x100, 0x101, 0x200, 0x207, 0x301, 0x304, 0x400, 0x403, 0x409, 0x40A, 0x500, 0x501, 0x701, 0x802, 0x803]

/-- Records the ring of Table 16-10a holds: 48 MiB of 64 bytes. -/
def logCapacity : Nat := 786432

/-- A record appended to the event log; the oldest leaves a full ring. -/
def Flash.append (f : Flash) (r : LogRec) : Flash :=
  let l := f.log ++ [r]
  { f with log := if logCapacity < l.length then l.drop 1 else l, nextSeq := f.nextSeq + 1 }

/-- An event of Table 18-7: a record, at most 16 for a code in one second (log 21), and a count where the table says
Counted, which sets the corrected-error status (R593). -/
def State.eventAt (s : State) (code unit data : Nat) : State :=
  let same := s.flash.log.filter (fun r =>
    r.event = code && r.starts = s.boot.starts && r.ms / 1000 = s.fw.ms / 1000)
  let s := if same.length < 16 then
      let r : LogRec := ⟨s.flash.nextSeq, s.boot.starts, s.fw.ms, code, unit, data⟩
      { s with flash := s.flash.append r }
    else s
  if countedEvents.contains code then
    { s with
      errs := s.errs.put 0 code (min (s.errs.get 0 code + 1) 0xFFFFFFFF)
      host := { s.host with aerCorr := true } }
  else s

/-- An event with no data. -/
def State.event (s : State) (code unit : Nat) : State := s.eventAt code unit 0

/-- An event in a channel's row (R313): its DATA is the row (log 22), zero where the row is a CONFIDENTIAL partition's (R547). -/
def State.rowEvent (s : State) (code ch row : Nat) : State :=
  let hidden := match (s.chans.get Chan.init ch).owner with
    | .part p => (s.part p).confidential
    | _ => false
  s.eventAt code ch (if hidden then 0 else row)

/-- The 64 bytes of a record (Table 16-12). -/
def LogRec.bytes (r : LogRec) : List Byte :=
  bytesOf 8 r.seq ++ bytesOf 4 r.starts ++ bytesOf 4 r.ms ++ bytesOf 2 r.event ++ bytesOf 2 r.unit ++ List.replicate 12 0
    ++ bytesOf 32 r.data

/-! ## Functions and host memory -/

/-- A function's record. -/
def State.fnRec (s : State) (f : Nat) : Fn := s.fns.get Fn.init f

/-- A function's record written. -/
def State.setFn (s : State) (f : Nat) (v : Fn) : State := { s with fns := s.fns.put Fn.init f v }

/-- The function whose routing ID a context's requests carry (R464): the bound VF, or the PF. -/
def State.fnOf (s : State) (part ctx : Nat) : Nat :=
  match s.fns.find (fun _ f => f.ctx == some (part, ctx)) with
  | some (k, _) => k
  | none => 0

/-- Whether a context is bound to a VF. -/
def State.bound (s : State) (part ctx : Nat) : Bool := s.fns.any (fun _ f => f.ctx == some (part, ctx))

/-- A context may make requests (R464): no VF is bound, or VF Enable is set. -/
def State.mayRequest (s : State) (part ctx : Nat) : Bool := s.host.vfEnable || !s.bound part ctx

/-- The mark of a write at an address in a function's active dirty-log buffer (R472). -/
def State.dirtyMark (s : State) (f a : Nat) : State :=
  let r := s.fnRec f
  match r.log with
  | none => s
  | some l =>
    if l.start ≤ a ∧ a < l.start + l.pages * 4096 then
      let p := (a - l.start) / 4096
      let byte := (if l.second then l.buf1 else l.buf0) + p / 8
      s.hostWrite byte [s.hostMem.get 0 byte ||| BitVec.ofNat 8 (1 <<< (p % 8))]
    else s.setFn f { r with log := some { l with misses := l.misses + 1 } }

/-- A CXL.io memory write that the device issues with a function's routing ID, with the dirty-log mark of each 4 KiB page it
touches (R464, R472). -/
def State.ioWrite (s : State) (f a : Nat) (v : List Byte) : State :=
  let pages := (List.range ((a % 4096 + v.length + 4095) / 4096)).map (fun k => if k = 0 then a else (a / 4096 + k) * 4096)
  pages.foldl (fun s p => s.dirtyMark f p) (s.hostWrite a v)

/-- A trace record of a command front-end or sync-network event, written to the PF's ring while trace runs (R569); the
contents that the spec leaves open are free (log 23). -/
def State.trace (s : State) : State :=
  match s.sec.trace with
  | none => s
  | some (dest, len, pos) =>
    let d := Config.freeLine s.freeCtr 0
    let s := s.ioWrite 0 (dest + pos % len) ((lineBytes d).take 64)
    { s with freeCtr := s.freeCtr + 1, sec := { s.sec with trace := some (dest, len, (pos + 64) % len) } }

/-! ## Cores and dies -/

/-- The compute die of a core: a quad is four cores and a die five quads (Table 1-2). -/
def dieOfCore (c : Nat) : Nat := c / 20

/-- Whether a core is open to blocks. -/
def State.coreOpen (s : State) (c : Nat) : Bool :=
  !(s.closed.get false c) && !(s.hinge.fenced.get false (dieOfCore c)) && s.fuses.quads.getLsbD (c / 4)

/-- A core closed: at once for the schedulers, and in OPEN_CORES and the fence reason by the firmware's update (R171, R351,
R606, R607). -/
def State.closeCore (s : State) (c reason : Nat) : State :=
  let s := { s with closed := s.closed.put false c true }
  if s.fw.hung then s
  else
    let d := dieOfCore c
    let f := if s.hinge.fenced.get false d then s.caps.fence else s.caps.fence.put 0 d reason
    { s with caps := { s.caps with
        open_ := s.caps.open_ &&& ~~~(BitVec.ofNat 160 (1 <<< c)), gen := (s.caps.gen + 2) % 256, fence := f } }

/-- EFF_CORES (Table 19-5). -/
def Caps.eff (c : Caps) : Nat := popCount 160 c.open_.toNat

/-- A block switched out of its core as a pre-emption does (R451): it is leaving, and `displaced` blocks are re-placed first. -/
def Block.leave (b : Block) : Block :=
  if b.phase = .resident then { b with phase := .leaving, displaced := true } else b

/-- Resident blocks of cores for which `p` holds switched out. -/
def State.vacate (s : State) (p : Nat → Bool) : State :=
  { s with blocks := s.blocks.mapVal (fun _ b => if p b.core then b.leave else b) }

/-! ## Ports, fatal errors and resets -/

/-- Whether a PLL site's domain is suspended: its PLL relocks, or has failed (R362). -/
def State.suspended (s : State) (site : Nat) : Bool :=
  s.clocks.plls.get .unlocked site = .relocking || s.clocks.plls.get .unlocked site = .failed

/-- Whether the networks, the hinge and the memory stand still: after a device-fatal error, or without the board reference (R26, R591). -/
def State.halted (s : State) : Bool := s.fw.fatal || !s.clocks.boardRef

/-- A port's record. -/
def State.port (s : State) (k : Nat) : LbxPort := s.lbx.ports.get LbxPort.init k

/-- A port's record written. -/
def State.setPort (s : State) (k : Nat) (p : LbxPort) : State :=
  { s with lbx := { s.lbx with ports := s.lbx.ports.put LbxPort.init k p } }

/-- TWIN_ALIVE out driven low, with every LBX port DOWN (R395, Table 15-5a). -/
def State.aliveLow (s : State) : State :=
  { s with
    pins := { s.pins with twinOut := false }
    lbx := { s.lbx with ports := s.lbx.ports.mapVal (fun _ p => { p with state := .down }) } }

/-- What PERST#, device cold reset, a restart or a failed start resets: everything but the always-on registers, the flash,
the pins, the fuses, the channels that are MAPPED_OUT (Table 9-5a), and what lies outside the device. -/
def State.resetAll (s : State) : State :=
  { State.reset with
    pending := s.pending
    nextId := s.nextId
    freeCtr := s.freeCtr
    outbox := s.outbox
    hostMem := s.hostMem
    fuses := s.fuses
    flash := s.flash
    pins := { s.pins with twinOut := false }
    clocks := { s.clocks with plls := .empty }
    chans := (s.chans.keep (fun _ c => c.state == .mappedOut)).mapVal (fun _ (c : Chan) =>
      { Chan.init with state := .mappedOut, trigger := c.trigger })
    mm := { State.reset.mm with laneMap := s.mm.laneMap, hardPpr := s.mm.hardPpr }
    boot := { State.reset.boot with
      reason := s.boot.reason, fails := s.boot.fails, failStage := s.boot.failStage, starts := s.boot.starts } }

/-- A start begun at step 1 (R529); `forced` is DEV_RESTART with TARGET 1. -/
def State.beginStart (s : State) (forced : Bool) : State :=
  { s with boot := { s.boot with
      running := true, stage := 1, ready := false, minimal := false, forced := forced, starts := s.boot.starts + 1,
      epoch := s.boot.epoch + 1 } }

/-- A start that fails with a counted reason (R531): REASON, FAIL_STAGE and FAILS are written, every block is reset, and a
start begins again at step 1. The host link and its PLL stay up unless the reason is CLOCK. -/
def State.failStart (s : State) (reason : Nat) : State :=
  let keep := s.host.up
  let cxl := s.clocks.plls.get .unlocked 0
  let s := s.event 0x800 reason
  let s := { s with boot := { s.boot with
    reason := reason, failStage := s.boot.stage, fails := min (s.boot.fails + 1) 15 } }
  let r := s.resetAll.beginStart false
  if reason = 7 then r
  else { r with
    host := { r.host with up := keep }
    clocks := { r.clocks with plls := r.clocks.plls.put .unlocked 0 cxl } }

/-- Dirty host-memory lines held in the LLC discarded. -/
def State.dropHostLines (s : State) : State :=
  { s with llc := s.llc.keep (fun _ e => !e.host), hostLines := .empty }

/-- A device-fatal error (R591): FATAL and its cause, TWIN_ALIVE out low, dirty host lines discarded, the uncorrectable status
set; before READY it fails the start with the matching reason, WATCHDOG where none matches. -/
def State.fatalError (s : State) (cause : Nat) (reason : Option Nat) : State :=
  if s.boot.running && !s.boot.ready then s.failStart (reason.getD 0x0B)
  else
    let s := { s.dropHostLines with
      fw := { s.fw with fatal := true, cause := cause }
      host := { s.host with aerUncorr := true } }
    s.aliveLow

/-- Whether the device does its work: no device-fatal error stands and start-up has ended. -/
def State.alive (s : State) : Bool := s.boot.ready && !s.fw.fatal

end Sys2Proof.Machine
end

