-- ==== Sys2Proof/Machine/Mailbox.lean ====
section
/-! DEFINITION. Mailboxes: slots, submission and admission, dispatch and the checks of a request, message encoding and paged
status images (R511 to R525, R534, R536, R588, R591). -/

namespace Sys2Proof.Machine

/-! ## Encoding (R514, R515) -/

/-- The offsets of fields of the given sizes, each aligned to its own size up to 8 (R515). -/
def layout : Nat → List Nat → List (Nat × Nat)
  | _, [] => []
  | off, n :: t => (roundUp off (min n 8), n) :: layout (roundUp off (min n 8) + n) t

/-- The encoded size of fields of the given sizes (R515). -/
def encodedLen (sizes : List Nat) : Nat := (layout 0 sizes).foldl (fun _ p => p.1 + p.2) 0

/-- The fields of a payload. -/
def decodeFields (sizes : List Nat) (payload : List Byte) : List Nat :=
  (layout 0 sizes).map (fun p => numAt payload p.1 p.2)

/-- Values encoded under R515, each with its size. -/
def encodeFields (vals : List (Nat × Nat)) : List Byte :=
  ((layout 0 (vals.map (·.1))).zip vals).foldl
    (fun l p => l ++ List.replicate (p.1.1 - l.length) 0 ++ bytesOf p.2.1 p.2.2) []

/-- A signed byte. -/
def signedByte (v : Int) : Nat := wrapInt 8 v

/-! ## Answers -/

/-- Mailbox status codes (Table 16-3, Table 12-13). -/
inductive MbStatus where
  | ok | busy | denied | unknown | badLength | notInMode
deriving DecidableEq, Repr

/-- The code of a mailbox status. -/
def MbStatus.code : MbStatus → Nat
  | .ok => 0 | .busy => 1 | .denied => 2 | .unknown => 3 | .badLength => 4 | .notInMode => 5

/-- What serving a request gives: the state after, the status, CLAMPED, DETAIL and the payload; `later` when the answer
follows from another command. -/
structure Ans where
  s : State
  status : MbStatus
  clamped : Bool
  detail : Nat
  payload : List Byte
  later : Bool

/-- MB_OK in a state. -/
def Ans.ok (s : State) (clamped : Bool := false) (payload : List Byte := []) : Ans := ⟨s, .ok, clamped, 0, payload, false⟩

/-- A request served: a refusal, which performs nothing (R487), or an answer. -/
abbrev Serve := Except MbStatus Ans

/-- A slot's record. -/
def Fn.slot (f : Fn) (k : Nat) : Slot := f.slots.get Slot.init k

/-- A slot's record written. -/
def Fn.setSlot (f : Fn) (k : Nat) (v : Slot) : Fn := { f with slots := f.slots.put Slot.init k v }

/-- The response header of Table 16-3 and its payload. -/
def respBytes (req : List Byte) (st : MbStatus) (clamped : Bool) (detail : Nat) (payload : List Byte) : List Byte :=
  sliceBytes req 0 2 ++ bytesOf 2 payload.length ++ sliceBytes req 4 4
    ++ [BitVec.ofNat 8 st.code, if clamped then 1 else 0, 0, 0] ++ bytesOf 4 detail ++ payload

/-- A slot answered: its response written and the slot DONE (Table 16-1). -/
def Slot.answer (k : Slot) (st : MbStatus) (clamped : Bool) (detail : Nat) (payload : List Byte) : Slot :=
  { k with state := .done, resp := respBytes k.req st clamped detail payload, busy := false }

/-- A pending slot of a function answered. -/
def State.answer (s : State) (fn slot : Nat) (st : MbStatus) (clamped : Bool) (detail : Nat) (payload : List Byte) : State :=
  let f := s.fnRec fn
  let k := f.slot slot
  if k.state = .pending then s.setFn fn (f.setSlot slot (k.answer st clamped detail payload)) else s

/-- A slot's command code and payload length. -/
def Slot.code (k : Slot) : Nat := numAt k.req 0 2
/-- A slot's LENGTH field. -/
def Slot.len (k : Slot) : Nat := numAt k.req 2 2
/-- A slot's payload. -/
def Slot.payload (k : Slot) : List Byte := k.req.drop 16

/-- The class of a command code (R518). -/
def classOf (code : Nat) : Nat := code / 16384

/-! ## Commands (Tables 16-5, 17-11, 18-8) -/

/-- Every defined command code. -/
def commandCodes : List Nat :=
  [0x0100, 0x0101, 0x8102, 0x8103, 0x8104, 0x0105, 0x4106, 0x4200, 0x4201, 0x0202, 0x4203, 0x4204, 0x4205]
  ++ [0x4300, 0x4301, 0x4302, 0x4303, 0x4304, 0x4305, 0x4306, 0x4307, 0x4308, 0x4309, 0x430A, 0x030B, 0x430C]
  ++ [0x4400, 0x4401, 0x0402, 0x4403, 0x4500, 0x0501, 0x4600, 0x8601, 0x8602]
  ++ [0x4700, 0x0701, 0x0702, 0x4703, 0x4704, 0x8705, 0x4706, 0x4800, 0x4801, 0x0802, 0x4803, 0x4804, 0x0900, 0x4901]
  ++ [0x4A00, 0x4A01, 0x4A02, 0x8A03, 0x4A04, 0x0A05, 0x8A06, 0x4A07, 0x4A08, 0x4A09, 0x0A0A, 0x0A0B]
  ++ [0x4B00, 0x4B01, 0x0B02, 0x4B03, 0x4B04, 0x4B05, 0x4B06, 0x4B07, 0x4B08, 0x4B09]
  ++ [0x4C00, 0x0C01, 0x4C02, 0x4C03, 0x4C04, 0x4C05]
  ++ [0x0D00, 0x4D01, 0x8D02, 0x0D03, 0x4D04, 0x4D05, 0x4D06, 0x4D07, 0x4E00, 0x0E01, 0x4E02, 0x0E03, 0x4E04]

/-- The commands that the boot ROM serves in minimal mode (R536). -/
def minimalCodes : List Nat :=
  [0x0100, 0x0101, 0x8102, 0x8104, 0x0105, 0x4800, 0x4801, 0x0802, 0x4803, 0x4804, 0x4706, 0x4C00]

/-- Whether the state of the device admits a command at all: R534 before READY, R536 in minimal mode, R588 from the request
for RETAIN (PWR_SET_STATE excepted, log 24), R591 after a device-fatal error. -/
def State.servesCode (s : State) (code : Nat) : Bool :=
  if s.boot.minimal then minimalCodes.contains code
  else if s.fw.fatal then classOf code = 0 || code = 0x8102
  else if !s.boot.ready then classOf code = 0
  else if s.power.retainReq ≠ 0 || s.power.state = .retain then classOf code = 0 || code = 0x4E02
  else true

/-- Whether something serves mailbox requests now: the firmware, or in minimal mode the boot ROM, for the PF alone (R535). -/
def State.served (s : State) (fn : Nat) : Bool :=
  (s.fw.running && !s.fw.hung) || (s.boot.minimal && fn = 0)

/-! ## Slots (R511 to R513, R518 to R522) -/

/-- The size of a slot (R511). -/
def slotSize (fn : Nat) : Nat := if fn = 0 then 512 else 128

/-- The pending requests of classes 1 and 2 of a function. -/
def Fn.queued (f : Fn) : Nat :=
  (f.slots.vals.filter (fun k => k.state = .pending && classOf k.code ≠ 0)).length

/-- Whether a function exists: the PF, and VFs while VF Enable is set (R464, R535). -/
def State.fnExists (s : State) (fn : Nat) : Bool := fn = 0 || (s.host.vfEnable && !s.boot.minimal)

/-- The tumbler's check of an inbound request's requester (Table 14-3): the host's upstream port, or a granted routing ID at
a doorbell register (R470). -/
def State.admits (s : State) (fn : Nat) (rid : Option Nat) (doorbell : Bool) : Bool :=
  match rid with
  | none => true
  | some r => doorbell && (s.fnRec fn).grants.contains r

/-- A request that the tumbler drops (Table 14-3, Table 14-4). -/
def State.tumblerDrop (s : State) (fn kind rid : Nat) : State :=
  let f := s.fnRec fn
  s.setFn fn { f with drops := min (f.drops + 1) 0xFFFFFFFF, lastKind := kind, lastRid := rid % 65536 }

/-- An inbound register write as it reaches a function: nothing while the host link is not up or its PLL relocks, or for a function that does not
exist, dropped uncounted during an FLR (Table 14-5, R479), dropped and counted by the tumbler (R469), else performed. -/
def inbound (fn : Nat) (rid : Option Nat) (doorbell : Bool) (s : State) (body : State) : Out :=
  if !s.host.up || s.suspended 0 || !s.fnExists fn || (s.fnRec fn).flr || (s.fnRec 0).flr then .next s
  else if !s.admits fn rid doorbell then .next ((s.tumblerDrop fn 1 (rid.getD 0)).event 0x601 fn)
  else .next body

/-- One slot submitted (R513, R518, R522, R534): a slot that is not FREE is left alone; a refused admission is answered
MB_BUSY at once. -/
def State.submitSlot (s : State) (fn slot : Nat) : State :=
  let f := s.fnRec fn
  let k := f.slot slot
  if k.state ≠ .free then s
  else
    let k := { k with state := SlotState.pending, req := sliceBytes k.area 0 (slotSize fn), order := s.nextId, busy := false }
    let limit := if fn = 0 then 7 else f.limit
    let full := classOf k.code ≠ 0 && limit ≤ f.queued
    let s := { s with nextId := s.nextId + 1 }
    if s.fw.hung || !s.served fn || full then s.setFn fn (f.setSlot slot (k.answer .busy false 0 []))
    else s.setFn fn (f.setSlot slot k)

/-- MB_SUBMIT.SLOTS written: slots are submitted in ascending order. -/
def execMbSubmit (fn : Fin 64) (rid : Option Nat) (slots : BitVec 8) (s : State) : Out :=
  inbound fn rid false s ((bitsOf 8 slots.toNat).foldl (fun s k => s.submitSlot fn k) s)

/-- MB_ACK.SLOTS written: each DONE slot named becomes FREE; its response area keeps its bytes. -/
def execMbAck (fn : Fin 64) (rid : Option Nat) (slots : BitVec 8) (s : State) : Out :=
  inbound fn rid false s
    (s.setFn fn ((bitsOf 8 slots.toNat).foldl (fun f k =>
      if (f.slot k).state = .done then f.setSlot k { f.slot k with state := .free } else f) (s.fnRec fn)))

/-- A request that the firmware may take next: pending, not taken, and behind no earlier request of classes 1 and 2 of its
function when it is of those classes itself (R520). -/
def Fn.candidates (f : Fn) : List (Nat × Slot) :=
  f.slots.rows.filter (fun r =>
    r.2.state = .pending && !r.2.busy
    && (classOf r.2.code = 0
      || !(f.slots.any (fun _ k => k.state == .pending && classOf k.code ≠ 0 && k.order < r.2.order))))

/-- The next request in class order, then in round-robin order of functions after the one last served, then the oldest
(R519). -/
def State.nextRequest (s : State) : Option (Nat × Nat × Slot) :=
  let all := (s.fns.rows.map (fun r => if s.served r.1 then r.2.candidates.map (fun c => (r.1, c.1, c.2)) else [])).flatten
  let rank := fun (c : Nat × Nat × Slot) =>
    (classOf c.2.2.code * 64 + (c.1 + 63 - s.fw.lastFn) % 64) * 2 ^ 64 + c.2.2.order
  (sortOn rank all).head?

/-- The firmware takes the next pending request and makes the checks that concern no field: an undefined code is MB_UNKNOWN
(R516 check 1), and a command that the device's state does not admit is MB_NOT_IN_MODE. A request that passes is served by
the command of its own name. -/
def execMailboxDispatch (s : State) : Out :=
  match s.nextRequest with
  | none => .next s
  | some (fn, slot, k) =>
    let s := { s with fw := { s.fw with lastFn := fn } }
    if !commandCodes.contains k.code then .next (s.answer fn slot .unknown false 0 [])
    else if !s.servesCode k.code then .next (s.answer fn slot .notInMode false 0 [])
    else .next (s.setFn fn ((s.fnRec fn).setSlot slot { k with busy := true }))

/-- The function-level permission of a command: the PF, or a bound VF for the commands its table lets a VF send (R462, R526,
R489, R572, R595, R400, R509). -/
def State.permits (s : State) (fn : Nat) (vf : Bool) : Bool := fn = 0 || (vf && (s.fnRec fn).ctx.isSome)

/-- A request served by its command (R516): nothing happens unless its slot was dispatched and holds the command's code. The
checks follow in order: permission, the length, then the command's own, which `body` makes on the fields. -/
def serve (r : Req) (code : Nat) (sizes : List Nat) (perm : State → List Nat → Bool)
    (body : List Nat → State → Serve) (s : State) : Out :=
  let k := (s.fnRec r.fn).slot r.slot
  if k.state ≠ .pending || !k.busy || k.code ≠ code then .next s
  else
    let fs := decodeFields sizes k.payload
    if !perm s fs then .next (s.answer r.fn r.slot .denied false 0 [])
    else if k.len ≠ encodedLen sizes then .next (s.answer r.fn r.slot .badLength false 0 [])
    else match body fs s with
      | .error st => .next (s.answer r.fn r.slot st false 0 [])
      | .ok a => if a.later then .next a.s else .next (a.s.answer r.fn r.slot a.status a.clamped a.detail a.payload)

/-- As `serve`, for a command that ends in a variable list of elements of `m` bytes: a 2-byte count and the elements (R515). -/
def serveList (r : Req) (code : Nat) (sizes : List Nat) (m : Nat) (perm : State → List Nat → Bool)
    (body : List Nat → List Nat → State → Serve) (s : State) : Out :=
  let k := (s.fnRec r.fn).slot r.slot
  let n := (decodeFields (sizes ++ [2]) k.payload).getD sizes.length 0
  let all := sizes ++ [2] ++ List.replicate n m
  serve r code all perm (fun fs s => body (fs.take sizes.length) (fs.drop (sizes.length + 1)) s) s

/-- A field of a request. -/
def fieldAt (fs : List Nat) (k : Nat) : Nat := fs.getD k 0

/-- Goes on unless a condition holds, in which case the request is refused. -/
def refuseIf (c : Bool) (st : MbStatus) : Except MbStatus Unit := if c then .error st else .ok ()

/-- The payload size of a function's slots (R524). -/
def pageSize (fn : Nat) : Nat := slotSize fn - 16

/-- A page of a status image (R524). -/
def pageAns (s : State) (fn : Nat) (image : List Byte) (page : Nat) (clamped : Bool) : Serve :=
  let n := pageSize fn
  let last := (image.length - 1) / n
  let p := min page last
  .ok ⟨s, .ok, clamped || last < page, image.length, (image.drop (p * n)).take n, false⟩

/-- The PF alone. -/
def pfOnly (r : Req) : State → List Nat → Bool := fun s _ => s.permits r.fn false

/-- The partition of a VF's bound context. -/
def State.vfPart (s : State) (fn : Nat) : Nat := match (s.fnRec fn).ctx with
  | some (p, _) => p
  | none => 0

/-- Whether any partition is CONFIDENTIAL. -/
def State.anyConfidential (s : State) : Bool := s.parts.any (fun _ p => p.confidential && p.state ≠ .free)

/-- A value clamped to a range, and whether it changed. -/
def clampTo (lo hi v : Nat) : Nat × Bool := (min (max v lo) hi, v < lo || hi < v)

end Sys2Proof.Machine
end

