-- ==== Sys2Proof/Machine/Fabric.lean ====
section
/-! DEFINITION. Die links: hinge leaf training, flits and replay, bonded channels, steering buckets, capability negotiation and
the hinge commands (R290, R291, R334 to R359, R365). -/

namespace Sys2Proof.Machine

/-- A leaf's record. -/
def State.leaf (s : State) (l : Nat) : Leaf := s.leaves.get Leaf.init l

/-- A leaf's record written. -/
def State.setLeaf (s : State) (l : Nat) (v : Leaf) : State := { s with leaves := s.leaves.put Leaf.init l v }

/-- Whether a leaf carries traffic. -/
def Leaf.runs (l : Leaf) : Bool := l.state = .active || l.state = .degraded

/-- Whether a leaf trains. -/
def Leaf.trains (l : Leaf) : Bool := l.state = .train || l.state = .confirm

/-! ## Training (R352 to R357) -/

/-- A leaf's handshake state forgotten. -/
def Leaf.scratch (l : Leaf) : Leaf :=
  { l with
    end0 := { l.end0 with offer := none, confirm := none }
    end1 := { l.end1 with offer := none, confirm := none }
    groups := 0
    width := 0 }

/-- The groups good at both ends. -/
def Leaf.common (l : Leaf) : BitVec 4 := l.end0.mask &&& l.end1.mask

/-- The lowest-numbered `n` groups of a mask. -/
def lowGroups (m : BitVec 4) (n : Nat) : BitVec 4 := BitVec.ofNat 4 (numOfBits ((bitsOf 4 m.toNat).take n))

/-- A failed handshake (Table 10-11): training starts again from scratch; the third failure forces 128 lanes on the lowest
group good at both ends; a failure at the forced width, or with no such group, ends FAILED. -/
def Leaf.failHandshake (l : Leaf) : Leaf :=
  if l.forced then { l.scratch with state := .failed, forced := false }
  else
    let n := l.fails + 1
    if n < 3 then { l.scratch with state := .train, fails := n }
    else if l.common = 0 then { l.scratch with state := .failed, fails := n }
    else { l.scratch with state := .confirm, fails := n, forced := true, width := 1, groups := lowGroups l.common 1 }

/-- A partial reset of a leaf at one end (R355): a running leaf trains with its failure count cleared; that end asserts
RESET_SEEN. -/
def Leaf.reset (l : Leaf) (atEnd1 : Bool) : Leaf :=
  let l := if l.runs then { l.scratch with state := .train, fails := 0, forced := false, fresh := true } else l
  if atEnd1 then { l with end1 := { l.end1 with resetSeen := true, gotReset := false } }
  else { l with end0 := { l.end0 with resetSeen := true, gotReset := false } }

/-- After a change of leaf states: the sync leaf is the lowest-numbered running leaf when the present one has failed, and the
hinge is lost when every leaf has failed (R357, R22). `was` is the state before the change. -/
def State.settleLeaf (s : State) (k : Nat) (was : LeafState) : State :=
  let now := (s.leaf k).state
  let s := if now ≠ was && (now = .failed || now = .degraded) then s.event 0x405 k else s
  let runs := (List.range 4).find? (fun j => (s.leaf j).runs)
  let s := if now = .failed && (s.hinge.sync = some k || s.hinge.sync = none) then
      { s with hinge := { s.hinge with sync := runs } }
    else s
  if now ≠ was && (List.range 4).all (fun j => (s.leaf j).state = .failed) then
    (s.event 0x406 k).fatalError 3 (some 9)
  else s

/-- A leaf changed, with what follows from its new state. -/
def State.stepLeaf (s : State) (k : Nat) (f : Leaf → Leaf) : State :=
  (s.setLeaf k (f (s.leaf k))).settleLeaf k (s.leaf k).state

/-- Both offers have been sent: the leaf enters CONFIRM at the lower width, on the lowest groups good at both ends (R354). -/
def Leaf.offered (l : Leaf) : Leaf :=
  match l.end0.offer, l.end1.offer with
  | some a, some b =>
    let w := min (popCount 4 a.toNat) (popCount 4 b.toNat)
    let l := { l with state := LeafState.confirm }
    if a &&& b = 0 then { l.scratch with state := .failed }
    else if popCount 4 (a &&& b).toNat < w then l.failHandshake
    else { l with width := w, groups := lowGroups (a &&& b) w }
  | _, _ => l

/-- A leaf end's width offer arrives on the sideband with its good-group mask (R354). -/
def execWidthOffer (leaf : Fin 4) (end1 : Bool) (mask : BitVec 4) (s : State) : Out :=
  if (s.leaf leaf).state ≠ .train then .next s
  else .next (s.stepLeaf leaf (fun l =>
    if end1 then { l with end1 := { l.end1 with offer := some mask, mask := mask } }.offered
    else { l with end0 := { l.end0 with offer := some mask, mask := mask } }.offered))

/-- Both confirms have been sent: they must agree, and then the test pattern runs. -/
def Leaf.confirmed (l : Leaf) : Leaf :=
  match l.end0.confirm, l.end1.confirm with
  | some a, some b => if a = b then l else l.failHandshake
  | _, _ => l

/-- A leaf end's width confirmation arrives with a width in groups and the groups (R354). -/
def execWidthConfirm (leaf : Fin 4) (end1 : Bool) (width : Nat) (groups : BitVec 4) (s : State) : Out :=
  if (s.leaf leaf).state ≠ .confirm then .next s
  else .next (s.stepLeaf leaf (fun l =>
    if end1 then { l with end1 := { l.end1 with confirm := some (width, groups) } }.confirmed
    else { l with end0 := { l.end0 with confirm := some (width, groups) } }.confirmed))

/-- The 4,096-flit test pattern ends (R353, R354, R356): clean, the leaf is ACTIVE, or DEGRADED at the forced width; otherwise
the handshake has failed. -/
def execLeafTestDone (leaf : Fin 4) (clean : Bool) (s : State) : Out :=
  let l := s.leaf leaf
  match l.end0.confirm, l.end1.confirm with
  | some (w, g), some b =>
    if l.state ≠ .confirm || b ≠ (w, g) then .next s
    else .next (s.stepLeaf leaf (fun l =>
      if clean then
        { l with
          state := if l.forced then .degraded else .active
          width := w, groups := g, forced := false, fresh := false
          up := { l.up with nak := false }, down := { l.down with nak := false }
          end0 := { l.end0 with resetSeen := false, gotReset := false }
          end1 := { l.end1 with resetSeen := false, gotReset := false } }
      else l.failHandshake))
  | _, _ => .next s

/-- The training sideband is silent for 100 µs: a failed handshake (R354). -/
def execSidebandSilence (leaf : Fin 4) (s : State) : Out :=
  if (s.leaf leaf).trains then .next (s.stepLeaf leaf Leaf.failHandshake) else .next s

/-- RESET_SEEN arrives at an end (R355): it asserts its own in return. When the leaf was already training before that reset,
the handshake has failed (R354). Once each end has asserted and received, both are released. -/
def execResetSeen (leaf : Fin 4) (end1 : Bool) (s : State) : Out :=
  let l := s.leaf leaf
  let far := if end1 then l.end0 else l.end1
  let near := if end1 then l.end1 else l.end0
  if !far.resetSeen || near.gotReset then .next s
  else
    let late := !near.resetSeen && l.trains && !l.fresh
    let near' := { near with resetSeen := true, gotReset := true }
    let l := if end1 then { l with end1 := near' } else { l with end0 := near' }
    let both := l.end0.gotReset && l.end1.gotReset
    let l := if both then
        { l with
          end0 := { l.end0 with resetSeen := false, gotReset := false }
          end1 := { l.end1 with resetSeen := false, gotReset := false }
          fresh := false }
      else l
    .next ((s.setLeaf leaf (if late then l.failHandshake else l)).settleLeaf leaf (s.leaf leaf).state)

/-- A half reset of one base die's bridge PHYs: a partial reset of its end of every leaf (R355). -/
def execHalfReset (half1 : Bool) (s : State) : Out :=
  .next ((List.range 4).foldl (fun s k => s.setLeaf k ((s.leaf k).reset half1)) s)

/-- Over 1,000 flits replayed in 1 ms: the firmware retrains an ACTIVE leaf, at most once a second (R358). -/
def execLeafReplayStorm (leaf : Fin 4) (s : State) : Out :=
  let l := s.leaf leaf
  if l.state ≠ .active || l.retrained || !s.fw.running || s.fw.hung then .next s
  else .next ((s.event 0x404 leaf).setLeaf leaf { l.reset false with retrained := true })

/-! ## Flits (R342, R343, R493) -/

/-- A replay buffer with everything through `seq` acknowledged. -/
def ackThrough (l : List Nat) (seq : Nat) : List Nat :=
  if l.contains seq then (l.dropWhile (fun k => !(k == seq))).drop 1 else l

/-- A flit sent for the first time takes the next SEQ and enters the replay buffer; `none` when the buffer of `cap` flits is
full or the SEQ is neither new nor held. -/
def FlitDir.send (d : FlitDir) (cap seq : Nat) : Option FlitDir :=
  if d.unacked.contains seq then some d
  else if seq = d.nextSeq ∧ d.unacked.length < cap then
    some { d with nextSeq := (seq + 1) % 4096, unacked := d.unacked ++ [seq] }
  else none

/-- A flit at its receiver: a CRC mismatch starts discarding; only the next SEQ is accepted. -/
def FlitDir.receive (d : FlitDir) (seq : Nat) (ok : Bool) : FlitDir :=
  if !ok then { d with nak := true }
  else if seq = (d.accepted + 1) % 4096 then { d with accepted := seq, nak := false }
  else d

/-- The sender takes an acknowledgement. -/
def FlitDir.acked (d : FlitDir) (seq : Nat) : FlitDir := { d with unacked := ackThrough d.unacked seq }

/-! ### Flit layout (Table 10-6, Table 15-2) -/

/-- One bit of the CRC-64 register: polynomial 0x42F0E1EBA9EA3693, most significant bit first (R342). -/
def crc64Bit (c : Nat) : Nat := if 2 ^ 63 ≤ c then (2 * c % 2 ^ 64) ^^^ 0x42F0E1EBA9EA3693 else 2 * c

/-- The register carried over one byte. -/
def crc64Byte (c b : Nat) : Nat := (List.range 8).foldl (fun c _ => crc64Bit c) (c ^^^ (b <<< 56))

/-- The CRC-64 of bytes 0 to 247 of a flit, from all ones (R342). -/
def flitCrc (f : BitVec 2048) : Nat := (List.range 248).foldl (fun c i => crc64Byte c (field f (8 * i) 8)) (2 ^ 64 - 1)

/-- Whether a flit's CRC field, read low byte first (log 102), matches. -/
def flitOk (f : BitVec 2048) : Bool := field f 1984 64 = flitCrc f

/-- A flit of its SEQ, its ACK and the bits above them. -/
def wholeFlit (seq ack : BitVec 12) (rest : BitVec 2024) : BitVec 2048 := rest ++ ack ++ seq

/-- SEQ of a flit. -/
def flitSeq (f : BitVec 2048) : Nat := field f 0 12
/-- ACK of a flit: the last SEQ accepted in the other direction. -/
def flitAck (f : BitVec 2048) : Nat := field f 12 12
/-- KIND of a flit: 0 DATA, 1 IDLE, 2 NAK. -/
def flitKind (f : BitVec 2048) : Nat := field f 24 2
/-- The credits that a bridge flit returns, by class. -/
def bridgeCredits (f : BitVec 2048) : List Nat := [field f 26 8, field f 34 8, field f 42 8, field f 50 8, field f 58 6]

/-- Credits returned for filled buffers. -/
def lessUsed : List Nat → List Nat → List Nat
  | u :: us, c :: cs => (u - c) :: lessUsed us cs
  | us, _ => us

/-- One direction of a leaf, toward end 1 (`up`) or toward end 0. -/
def Leaf.dir (l : Leaf) (up : Bool) : FlitDir := if up then l.up else l.down

/-- One direction of a leaf replaced. -/
def Leaf.setDir (l : Leaf) (up : Bool) (d : FlitDir) : Leaf := if up then { l with up := d } else { l with down := d }

/-- What a flit's header tells of the other direction: its ACK, the credits returned, and for a NAK the flits to be resent, which are
counted as replayed (R343). -/
def Leaf.takeHeader (l : Leaf) (up : Bool) (f : BitVec 2048) : Leaf :=
  let d := (l.dir (!up)).acked (flitAck f)
  let l := l.setDir (!up) d
  let l := if up then { l with usedDown := lessUsed l.usedDown (bridgeCredits f) } else { l with usedUp := lessUsed l.usedUp (bridgeCredits f) }
  if flitKind f = 2 then { l with replays := l.replays + d.unacked.length } else l

/-- A hinge flit is received at an end (R342, R343): a DATA flit under its SEQ, and of every flit the header. A CRC mismatch is counted and
starts a replay. -/
def execBridgeFlit (leaf : Fin 4) (toEnd1 : Bool) (seq ack : BitVec 12) (rest : BitVec 2024) (s : State) : Out :=
  let flit := wholeFlit seq ack rest
  let l := s.leaf leaf
  if !l.runs || s.halted || s.suspended (23 + 2 * leaf.val) || s.suspended (24 + 2 * leaf.val) then .next s
  else if flitOk flit && !l.inject then
    match (if flitKind flit = 0 then ((l.dir toEnd1).send 256 (flitSeq flit)).map (fun d => d.receive (flitSeq flit) true)
      else some (l.dir toEnd1)) with
    | none => .next s
    | some d => .next (s.setLeaf leaf ((l.setDir toEnd1 d).takeHeader toEnd1 flit))
  else .next ((s.setLeaf leaf { l.setDir toEnd1 { l.dir toEnd1 with nak := true } with inject := false }).event 0x403 leaf)

/-- A NAK makes the sender resend, in order, every flit after the SEQ that it carries (R343): they are counted as replayed. -/
def execBridgeNak (leaf : Fin 4) (toEnd1 : Bool) (seq : BitVec 12) (s : State) : Out :=
  let l := s.leaf leaf
  if !l.runs || s.halted then .next s
  else
    let d := (l.dir toEnd1).acked seq.toNat
    .next (s.setLeaf leaf { l.setDir toEnd1 d with replays := l.replays + d.unacked.length })

/-! ## Steering buckets (R290, R291) -/

/-- The buckets each leaf has by its trained width. -/
def State.leafBuckets (s : State) : List Nat :=
  (List.range 4).map (fun k => if (s.leaf k).runs then (s.leaf k).width else 0)

/-- The leaf that takes a bucket: buckets are numbered from leaf 0 upward (R290). -/
def bucketLeaf : List Nat → Nat → Nat → Nat
  | [], _, k => k
  | n :: t, b, k => if b < n then k else bucketLeaf t (b - n) (k + 1)

/-- Whether a leaf's buckets await the change that its new width, or its failure, asks for (R291, R357). -/
def State.steerDue (s : State) (k : Nat) : Bool :=
  let n := s.hinge.buckets.getD k 0
  let l := s.leaf k
  if l.runs then n ≠ l.width else l.state = .failed && n ≠ 0

/-- Whether a leaf carries messages now: it runs, its PLLs are not suspended, and no change of buckets is due (R291, R356, R362). -/
def State.leafOpen (s : State) (k : Nat) : Bool :=
  (s.leaf k).runs && !s.halted && !s.suspended (23 + 2 * k) && !s.suspended (24 + 2 * k) && !(List.range 4).any (fun j => s.steerDue j)

/-- The message buffers of a leaf direction reserved for REQ, SNP, RSP and DAT (Table 8-12). -/
def leafBuffers : List Nat := [16, 16, 32, 32]

/-- Whether a leaf's sender toward a half may send a message of a class: a reserved buffer of the far end is free, or its common pool has
room (R288). -/
def State.leafRoom (s : State) (k half cls : Nat) : Bool :=
  let u := if half = 1 then (s.leaf k).usedUp else (s.leaf k).usedDown
  let n := u.getD cls 0
  n < leafBuffers.getD cls 0
    || ((List.range 4).map (fun c => u.getD c 0 - leafBuffers.getD c 0)).foldl (· + ·) 0 < Config.hopPool k

/-- A message of a class sent over a leaf toward a half. -/
def State.leafSend (s : State) (k half cls : Nat) : State :=
  let l := s.leaf k
  let more := fun (u : List Nat) => u.set cls (u.getD cls 0 + 1)
  s.setLeaf k (if half = 1 then { l with usedUp := more l.usedUp } else { l with usedDown := more l.usedDown })

/-- Whether a synchronisation message between halves can cross: by the sync leaf (R338). -/
def State.syncOpen (s : State) (a b : Nat) : Bool :=
  a = b || s.hinge.sync.any (fun k => (s.leaf k).runs && !s.halted && !s.suspended (23 + 2 * k) && !s.suspended (24 + 2 * k))

/-- The buckets change to the trained widths once every transaction in flight on the affected leaves has completed (R291). -/
def execBucketResteer (s : State) : Out :=
  if s.reqs.any (fun _ q => match q.via.leaf with
      | some k => s.steerDue k
      | none => false) then .next s
  else .next { s with hinge := { s.hinge with buckets := s.leafBuckets } }

/-! ## Bonded channels (R345, R365) -/

/-- A compute die fenced in service (R365): its tasks end with KILLED, and its quads and cores leave the capability masks,
which the firmware writes unless it is hung (R606). -/
def State.fenceDie (s : State) (die reason : Nat) : State :=
  let onDie := fun (b : Block) => dieOfCore b.core = die && b.phase ≠ .out
  let tasks := (s.blocks.rows.filter (fun r => onDie r.2)).map (fun r => r.2.task)
  let s := tasks.foldl (fun s t => s.endTask t .killed 0) s
  let s := { s with hinge := { s.hinge with fenced := s.hinge.fenced.put false die true } }
  if s.fw.hung then s
  else
    let quads := numOfBits ((List.range 5).map (fun k => 5 * die + k))
    let cores := numOfBits ((List.range 20).map (fun k => 20 * die + k))
    { s with caps := { s.caps with
        quadMask := s.caps.quadMask &&& ~~~(BitVec.ofNat 40 quads)
        open_ := s.caps.open_ &&& ~~~(BitVec.ofNat 160 cores)
        gen := (s.caps.gen + 2) % 256
        fence := s.caps.fence.put 0 die reason } }

/-- A bonded channel receives a word (R345): a parity mismatch has it resent once; a second mismatch is persistent and fences
the die. Dies 8 and 9 stand for the network links of base dies 0 and 1, whose persistent fault is device-fatal (R22, Tables 18-6 and 18-7;
log 116). -/
def execBondedWord (die : Fin 10) (chan : Fin 16) (parityOk : Bool) (s : State) : Out :=
  let key := die.val * 16 + chan.val
  let again := s.hinge.resend.get false key
  let set := fun (s : State) v => { s with hinge := { s.hinge with resend := s.hinge.resend.put false key v } }
  let unit := if die.val < 8 then die.val else die.val - 8
  if parityOk then .next (if again then (set s false).event 0x400 unit else s)
  else if again then .next (if die.val < 8 then ((set s false).event 0x401 unit).fenceDie die 4
    else ((set s false).event 0x402 unit).fatalError 5 none)
  else .next (set s true)

/-! ## Capability negotiation (R346 to R350) -/

/-- Even parity of a field with its bit of CPAR. -/
def parityOk (w : DWord) (lo n bit : Nat) : Bool :=
  (popCount n (field w lo n) + (if w.getLsbD bit then 1 else 0)) % 2 = 0

/-- Whether a word's CPAR is right (Table 10-7). -/
def capParity (w : DWord) : Bool :=
  parityOk w 0 15 60 && parityOk w 15 15 61 && parityOk w 30 15 62 && parityOk w 45 15 63

/-- Whether a word has what every die needs (Table 10-7). -/
def capRequired (w : DWord) : Bool :=
  let ver := field w 0 8
  (1 < ver / 16 || (ver / 16 = 1 && 2 ≤ ver % 16)) && w.getLsbD 12 && 3 ≤ field w 13 7
  && w.getLsbD 20 && w.getLsbD 21 && w.getLsbD 23 && w.getLsbD 24 && w.getLsbD 25 && field w 26 8 = 0xFF

/-- The fence reason of a compute die's word (Table 10-9), 0 for a die that negotiates. -/
def capReason (w : DWord) : Nat := if !capParity w then 2 else if !capRequired w then 1 else 0

/-- The negotiated level over the words left in service (R347), with STEPPING, KIND and CPAR zero (Table 19-5). -/
def capLevel : List DWord → DWord
  | [] => 0
  | w :: t =>
    let rest := w :: t
    let ver := rest.foldl (fun m v => min m (field v 0 8)) 255
    let coh := rest.foldl (fun m v => min m (field v 13 7)) 127
    let anded := rest.foldl (· &&& ·) (BitVec.allOnes 64)
    BitVec.ofNat 64 (ver + (coh <<< 13)) ||| (anded &&& 0x00000103FFF01F00)

/-- A die's capability word arrives (R346). -/
def execCapabilityWord (die : Fin 10) (word : DWord) (s : State) : Out :=
  if !s.boot.running || 6 < s.boot.stage then .next s
  else .next { s with caps := { s.caps with words := s.caps.words.set die word } }

/-- Negotiation once ten words are there (Table 10-8): `none` when a base die fails. Compute dies that fail, and those listed
as failing bond training, are fenced; masks and level are written as one update. -/
def State.negotiate (s : State) (bond : List Nat) : Option State :=
  let word := fun d => (s.caps.words.get? d).getD 0
  let bad := fun d => if d < 8 && bond.contains d then 3 else capReason (word d)
  if bad 8 ≠ 0 || bad 9 ≠ 0 then none
  else
    let out := (List.range 8).filter (fun d => bad d ≠ 0)
    let kept := (List.range 10).filter (fun d => !out.contains d)
    let quads := numOfBits ((List.range 40).filter (fun q => s.fuses.quads.getLsbD q && !out.contains (q / 5)))
    let cores := numOfBits ((List.range 160).filter (fun c => s.fuses.quads.getLsbD (c / 4) && !out.contains (c / 20)))
    let s := out.foldl (fun s d => if bad d = 3 then s else s.event 0x407 d) s
    some { s with
      caps := { s.caps with
        level := capLevel (kept.map word)
        quadMask := BitVec.ofNat 40 quads
        open_ := BitVec.ofNat 160 cores
        gen := (s.caps.gen + 2) % 256
        fence := out.foldl (fun t d => t.put 0 d (bad d)) s.caps.fence }
      hinge := { s.hinge with fenced := out.foldl (fun t d => t.put false d true) s.hinge.fenced } }

/-! ## Hinge commands (Table 10-12) -/

/-- The code of a leaf state (Table 16-15). -/
def LeafState.code : LeafState → Nat
  | .off => 0 | .train => 1 | .confirm => 2 | .active => 3 | .degraded => 4 | .failed => 5

/-- The HINGE_STATUS image of a leaf (Table 16-15). -/
def State.hingeImage (s : State) (k : Nat) : List Byte :=
  let l := s.leaf k
  let first := ((s.hinge.buckets.take k).foldl (· + ·) 0)
  encodeFields [(1, l.state.code), (1, l.width), (1, l.groups.toNat), (1, l.end0.mask.toNat), (1, l.end1.mask.toNat),
    (1, l.fails), (1, if s.hinge.sync = some k then 1 else 0), (1, 0), (4, l.replays), (1, first),
    (1, s.hinge.buckets.getD k 0), (2, 0)]

/-- HINGE_STATUS. -/
def execHingeStatus (r : Req) (s : State) : Out :=
  serve r 0x0900 [1, 1] (pfOnly r) (fun fs s =>
    pageAns s r.fn (s.hingeImage (min (fieldAt fs 0) 3)) (fieldAt fs 1) (3 < fieldAt fs 0)) s

/-- HINGE_RETRAIN: a leaf retrain from the half 0 end; a FAILED leaf trains afresh (Table 10-11, Table 10-12). -/
def execHingeRetrain (r : Req) (s : State) : Out :=
  serve r 0x4901 [1] (pfOnly r) (fun fs s => do
    refuseIf (3 < fieldAt fs 0) .badLength
    let k := fieldAt fs 0
    let l := s.leaf k
    let l' := if l.state = .failed then
        { l.scratch.reset false with state := .train, fails := 0, forced := false, fresh := true }
      else { l.reset false with fails := 0 }
    pure (Ans.ok (s.setLeaf k l'))) s

end Sys2Proof.Machine
end

