-- ==== Sys2Proof/Machine/Power.lean ====
section
/-! DEFINITION. Power, temperature, droop, device-fatal events and error commands (R330, R331, R363, R573 to R595). -/

namespace Sys2Proof.Machine

/-! ## Estimates and the cap controller (R575 to R578) -/

/-- The package estimate P: the sum of the ten latest estimates (R575). -/
def Power.p (w : Power) : Nat := ((List.range 10).map (w.est.get 0)).foldl (· + ·) 0

/-- The average of P over the last 1 ms, which is 250 periods. -/
def Power.avg (w : Power) : Nat := if w.pavg = [] then 0 else w.pavg.foldl (· + ·) 0 / w.pavg.length

/-- The VDD_CORE target, in mV: 0.55 V in IDLE (R587). -/
def Power.target (w : Power) : Nat := if w.state = .idle then 550 else w.vtarget

/-- A die sends its power estimate in watts (R575): dies 8 and 9 are the base dies. -/
def execPowerEstimate (die : Fin 10) (watts : Nat) (s : State) : Out :=
  .next { s with power := { s.power with est := s.power.est.put 0 die watts } }

/-- The cap allowance after a 4 µs period (R578). -/
def capStep (p cap a : Nat) : Nat :=
  if cap < p then max 4 (a - 1) else if 100 * p < 95 * cap ∧ a < 16 then a + 1 else a

/-- A 4 µs period of the cap controller: settings written since the last take effect (R577), then the allowance moves. -/
def execCapPeriod (s : State) : Out :=
  let w := s.power
  let w := match w.nextCap with
    | some (c, v, i) => { w with cap := c, vmax := v, idleDelay := i, nextCap := none }
    | none => w
  .next { s with power := { w with
    capAllow := capStep w.p w.cap w.capAllow, pavg := (w.p :: w.pavg).take 250, ticks := w.ticks + 1 } }

/-- A 100 µs period: the VDD_CORE target moves by 5 mV (R578). -/
def execVoltagePeriod (s : State) : Out :=
  let w := s.power
  let t := if w.capAllow < 16 || w.vmax < w.vtarget then max 550 (w.vtarget - 5)
    else if 100 * w.avg < 95 * w.cap ∧ w.vtarget < w.vmax then w.vtarget + 5
    else w.vtarget
  .next { s with power := { w with vtarget := t } }

/-! ## Temperature (R330, R331, R583 to R586) -/

/-- The level a temperature gives from the level before: entered at its threshold, left 3 °C below it. -/
def thermalLevel (thresholds : List Int) (before : Nat) (t : Int) : Nat :=
  ((thresholds.zipIdx).filter (fun p => p.1 ≤ t || (p.2 < before && p.1 - 3 < t))).length

/-- DEV_HEALTH.THROTTLED: some die or stack is at a thermal level. -/
def State.throttled (s : State) : Bool := s.temps.dieLevel.any (fun _ l => l ≠ 0) || s.temps.stackLevel.any (fun _ l => l ≠ 0)

/-- A compute or base die's temperature is read (R583, R584); a rising level is recorded, with a base die's half as its
unit (R18). -/
def execDieTempRead (die : Fin 10) (temp : Int) (s : State) : Out :=
  let was := s.temps.dieLevel.get 0 die
  let now := thermalLevel [95, 100, 105] was temp
  let s := { s with temps := { s.temps with
    die := s.temps.die.put 25 die temp, dieLevel := s.temps.dieLevel.put 0 die now } }
  .next (if was < now then s.event 0x700 (if die.val < 8 then die.val else die.val - 8) else s)

/-- A stack's temperature is read and its thermal level set (R330, Table 9-6a). -/
def execStackTempRead (stack : Fin 16) (temp : Int) (s : State) : Out :=
  let was := s.temps.stackLevel.get 0 stack
  let now := thermalLevel [85, 90, 95, 100] was temp
  let s := { s with temps := { s.temps with
    stack := s.temps.stack.put 25 stack temp, stackLevel := s.temps.stackLevel.put 0 stack now } }
  .next (if was < now then s.event 0x20A stack else s)

/-- The thermal allowance of a compute die: the lesser of its own row and its base die's (Table 18-4). -/
def State.thermAllow (s : State) (d : Nat) : Nat :=
  let own := [16, 12, 8, 4].getD (s.temps.dieLevel.get 0 d) 4
  let base := [16, 16, 8, 4].getD (s.temps.dieLevel.get 0 (8 + d / 4)) 4
  min own base

/-- The zone allowance of R331, which acts before READY, in minimal mode and during an IEEE 1500 session on a stack of the zone (R573). -/
def State.zoneAllow (s : State) (d : Nat) : Nat :=
  let session := s.mm.session.get false (2 * d) || s.mm.session.get false (2 * d + 1)
  if s.boot.ready && !s.boot.minimal && !session then 16
  else [16, 12, 8, 4, 0].getD (max (s.temps.stackLevel.get 0 (2 * d)) (s.temps.stackLevel.get 0 (2 * d + 1))) 0

/-- The issue allowance k of a compute die (R573). -/
def State.issueAllow (s : State) (d : Nat) : Nat :=
  min (min s.power.capAllow (s.thermAllow d)) (min (s.power.droopAllow.get 16 d) (s.zoneAllow d))

/-! ## Droop (R363, R579) -/

/-- A quad's supply crosses a droop threshold: the stretch rises to the level, which is counted; the seventeenth entry of a die
into level 3 within 1 ms lowers its droop allowance. -/
def execDroopCrossing (quad : Fin 40) (level : Fin 4) (s : State) : Out :=
  let q := quad.val
  let t := s.temps
  if level.val ≤ t.droop.get 0 q then .next s
  else
    let key := q * 4 + level.val
    let t := { t with
      droop := t.droop.put 0 q level.val
      droopCount := t.droopCount.put 0 key (min (t.droopCount.get 0 key + 1) 0xFFFFFFFF) }
    if level.val < 3 then .next { s with temps := t }
    else
      let d := q / 5
      let recent := s.power.ticks :: (t.droopRecent.get [] d).filter (fun k => s.power.ticks < k + 250)
      let s := { s with temps := { t with droopRecent := t.droopRecent.put [] d recent } }
      if recent.length ≤ 16 then .next s
      else .next ({ s with power := { s.power with droopAllow := s.power.droopAllow.put 16 d 12 } }.event 0x701 d)

/-- The supply stayed above a level's threshold for 200 ns: the stretch drops one level. -/
def execDroopLevelExit (quad : Fin 40) (s : State) : Out :=
  .next { s with temps := { s.temps with droop := s.temps.droop.put 0 quad (s.temps.droop.get 0 quad - 1) } }

/-- The 10 ms droop allowance interval of a die ends (R579). -/
def execDroopAllowanceExpiry (die : Fin 8) (s : State) : Out :=
  .next { s with power := { s.power with droopAllow := s.power.droopAllow.put 16 die 16 } }

/-! ## Device-fatal events (R585, R592, R616) -/

/-- THERMTRIP# driven low and latched (R585, R625). -/
def execThermtrip (s : State) : Out :=
  .next ((({ s with pins := { s.pins with thermtrip := true } }).event 0x702 0).fatalError 1 none)

/-- A rail out of its range beyond its time (R616): the start fails with SUPPLY, or a device-fatal error. -/
def execSupplyFault (s : State) : Out := .next ((s.event 0x703 0).fatalError 6 (some 0x0D))

/-- A fault of the clock unit's control block (R592). -/
def execClockUnitFault (s : State) : Out := .next ((s.event 0x40B 0).fatalError 7 none)

/-! ## Power states (R587 to R590) -/

/-- Whether nothing works: no fetched command, block, migration or scrub (Table 18-5). -/
def State.quiet (s : State) : Bool := s.cmds.rows = [] && s.blocks.rows = [] && s.mm.migs = []

/-- IDLE_DELAY passes without work: ACTIVE becomes IDLE. -/
def execIdleEntry (s : State) : Out :=
  if s.power.state = .active && s.quiet then .next { s with power := { s.power with state := .idle } } else .next s

/-- Work begins: IDLE becomes ACTIVE (Table 18-5). -/
def State.wake (s : State) : State :=
  if s.power.state = .idle then { s with power := { s.power with state := .active } } else s

/-- Requests of the PF that wait for a change and hold this code, answered MB_OK. -/
def State.answerCode (s : State) (code : Nat) : State :=
  (s.fnRec 0).slots.keys.foldl (fun s k =>
    let e := (s.fnRec 0).slot k
    if e.state = .pending && e.busy && e.code = code then s.answer 0 k .ok false 0 [] else s) s

/-- The activities that R588 lets end have ended: RETAIN is entered. The compute dies lose their contents, the stacks enter
self-refresh, and trace stops (R589, Table 17-9). -/
def execRetainEntry (s : State) : Out :=
  let ready := s.power.state = .active || s.power.state = .idle
  if !ready || s.power.retainReq = 0 || !s.quiet || s.flash.writing.isSome
      || s.parts.any (fun _ p => p.rebind.isSome) then .next s
  else
    let s := { s with
      power := { s.power with state := .retain, selfRefresh := true }
      cores := s.cores.mapVal (fun _ (c : Core) => { c with l1 := .empty })
      sec := { s.sec with trace := none } }
    .next (s.answerCode 0x4E02)

/-- RETAIN left: the compute dies are powered and fetching resumes (R590). -/
def State.leaveRetain (s : State) : State :=
  { s with power := { s.power with state := .active, retainReq := 0, selfRefresh := false } }

/-- In RETAIN, 100 µs without a request: the controllers re-enter self-refresh (R589). -/
def execSelfRefreshReentry (s : State) : Out :=
  if s.power.state = .retain then .next { s with power := { s.power with selfRefresh := true } } else .next s

/-- The PF enters D3hot: RETAIN is requested (Table 18-5). -/
def execPfD3hot (s : State) : Out :=
  if s.power.state = .off || s.power.state = .minimal then .next s
  else .next { s with power := { s.power with
    d3hot := true, retainReq := if s.power.state = .retain && s.power.retainReq = 1 then 1 else 2 } }

/-- The PF returns to D0: RETAIN is left, and a request for it that was not yet met ends (R590). -/
def execPfD0 (s : State) : Out :=
  if !s.power.d3hot then .next s
  else
    let s := { s with power := { s.power with d3hot := false } }
    if s.power.state = .retain then .next s.leaveRetain else .next { s with power := { s.power with retainReq := 0 } }

/-- PLDM sensors are updated (R586). -/
def execSensorUpdate (s : State) : Out :=
  let hot := fun (l : List Nat) (t : Tab Int) => l.foldl (fun m k => max m (t.get 25 k)) (-273)
  let v : Sensors :=
    { p := s.power.p, cap := s.power.cap, vtarget := s.power.target
      hotCdie := hot (List.range 8) s.temps.die
      hotBdie := hot [8, 9] s.temps.die
      hotStack := hot (List.range 16) s.temps.stack
      stackTemps := (List.range 16).map (s.temps.stack.get 25)
      power := s.power.state, fatal := s.fw.fatal, cause := s.fw.cause }
  .next { s with mgmt := { s.mgmt with sensors := v } }

/-! ## Commands (Table 18-8) -/

/-- PWR_SET_CAP: the settings of Table 18-1, in effect at the next 4 µs period. -/
def execPwrSetCap (r : Req) (s : State) : Out :=
  serve r 0x4E00 [2, 2, 4] (pfOnly r) (fun fs s =>
    let c := clampTo 1000 2400 (fieldAt fs 0)
    let v := clampTo 600 850 (fieldAt fs 1)
    let i := clampTo 100 100000 (fieldAt fs 2)
    pure (Ans.ok { s with power := { s.power with nextCap := some (c.1, v.1, i.1) } } (c.2 || v.2 || i.2))) s

/-- The code of a power state (Table 16-16). -/
def PowerState.code : PowerState → Nat
  | .active => 0 | .idle => 1 | .retain => 2 | .minimal => 3 | .off => 3

/-- The PWR_STATUS image (Table 16-16): 560 bytes for the PF, the first 80 for a VF. -/
def State.powerImage (s : State) (fn : Nat) : List Byte :=
  let w := s.power
  let head := encodeFields ([(1, w.state.code), (1, s.fuses.speedClass), (2, w.cap), (2, w.vmax), (2, w.target), (2, w.p),
    (2, w.avg), (4, 0)])
  let allow := ((List.range 8).map (fun d =>
    bytesOf 1 w.capAllow ++ bytesOf 1 (s.thermAllow d) ++ bytesOf 1 (w.droopAllow.get 16 d) ++ bytesOf 1 (s.zoneAllow d))).flatten
  let temps := (List.range 10).map (fun d => BitVec.ofNat 8 (signedByte (s.temps.die.get 25 d)))
  let hbm := (List.range 16).map (fun d => BitVec.ofNat 8 (signedByte (s.temps.stack.get 25 d)))
  let droop := ((List.range 40).map (fun q => ((List.range 3).map (fun l =>
    bytesOf 4 (s.temps.droopCount.get 0 (4 * q + l + 1)))).flatten)).flatten
  let common := head ++ allow ++ temps ++ List.replicate 6 0 ++ hbm
  if fn = 0 then common ++ droop else common

/-- PWR_STATUS. -/
def execPwrStatus (r : Req) (s : State) : Out :=
  serve r 0x0E01 [1] (fun s _ => s.permits r.fn true) (fun fs s => pageAns s r.fn (s.powerImage r.fn) (fieldAt fs 0) false) s

/-- PWR_SET_STATE: RETAIN is answered when it is entered (R517, R588); ACTIVE leaves it. -/
def execPwrSetState (r : Req) (s : State) : Out :=
  serve r 0x4E02 [1] (pfOnly r) (fun fs s => do
    refuseIf (s.power.state = .retain && s.power.retainReq = 2) .notInMode
    if fieldAt fs 0 = 1 then
      let s := { s with power := { s.power with retainReq := 1 } }
      pure (if s.power.state = .retain then Ans.ok s else { Ans.ok s with later := true })
    else
      let s := if s.power.state = .retain then s.leaveRetain else { s with power := { s.power with retainReq := 0 } }
      pure (Ans.ok s (1 < fieldAt fs 0))) s

/-- The event codes of a group, in the order of Table 18-7. -/
def groupEvents (g : Nat) : List Nat :=
  let n := [7, 11, 4, 15, 7, 5, 4, 4].getD (g - 1) 0
  let first := [0x0100, 0x0200, 0x0301, 0x0400, 0x0500, 0x0600, 0x0700, 0x0800].getD (g - 1) 0
  (List.range n).map (fun k => first + k)

/-- ERR_COUNTS: the count of each code of an event group. -/
def execErrCounts (r : Req) (s : State) : Out :=
  serve r 0x0E03 [1, 1] (pfOnly r) (fun fs s =>
    let g := clampTo 1 8 (fieldAt fs 0)
    let image := ((groupEvents g.1).map (fun c => bytesOf 4 (s.errs.get 0 c))).flatten
    pageAns s r.fn image (fieldAt fs 1) g.2) s

/-- Whether a channel or a sub-core's core belongs to a CONFIDENTIAL partition. -/
def State.confidentialUnit (s : State) (kind unit : Nat) : Bool :=
  s.slices.any (fun _ sl =>
    (match sl.part with
      | some p => (s.part p).confidential
      | none => false)
    && (if kind ≤ 1 then sl.chans.getLsbD unit else sl.quads.getLsbD (unit / 16)))

/-- A channel's record. -/
def State.chan (s : State) (k : Nat) : Chan := s.chans.get Chan.init k

/-- ERR_INJECT: the error takes the path of its row of Table 18-7 when it is next met. -/
def execErrInject (r : Req) (s : State) : Out :=
  serve r 0x4E04 [1, 2, 4, 1] (fun s fs => s.permits r.fn false && !(fieldAt fs 0 ≤ 3 && s.confidentialUnit (fieldAt fs 0) (fieldAt fs 1)))
    (fun fs s => do
      let kind := fieldAt fs 0
      let unit := fieldAt fs 1
      refuseIf (5 < kind) .badLength
      refuseIf ([256, 256, 640, 640, 4, 12].getD kind 0 ≤ unit) .badLength
      refuseIf (kind ≤ 1 && (1048575 < fieldAt fs 2 || 63 < fieldAt fs 3)) .badLength
      refuseIf s.anyConfidential .notInMode
      let st := (s.chan unit).state
      refuseIf (kind ≤ 1 && !(st = .inService || st = .failing || st = .migrating)) .notInMode
      match kind with
      | 0 => pure (Ans.ok { s with latent := s.latent.put 0 ((unit * 2 ^ 20 + fieldAt fs 2) * 64 + fieldAt fs 3) 1 })
      | 1 => pure (Ans.ok { s with latent := s.latent.put 0 ((unit * 2 ^ 20 + fieldAt fs 2) * 64 + fieldAt fs 3) 2 })
      | 2 => pure (Ans.ok { s with mxus := s.mxus.upd Mxu.init unit (fun m => { m with inject := 1 }) })
      | 3 => pure (Ans.ok { s with mxus := s.mxus.upd Mxu.init unit (fun m => { m with inject := 2 }) })
      | 4 => pure (Ans.ok (s.setLeaf unit { s.leaf unit with inject := true }))
      | _ => pure (Ans.ok (s.setPort unit { s.port unit with inject := true }))) s

end Sys2Proof.Machine
end

