-- ==== Sys2Proof/Machine/Start.lean ====
section
/-! DEFINITION. Resets and pins, start-up, firmware duties, flash and the device commands (R510, R521, R522, R526 to R542,
R618 to R623, R625). -/

namespace Sys2Proof.Machine

/-! ## Resets (Table 20-5) -/

/-- Whether PWRGD is high and both resets are released (R622). -/
def Pins.released (p : Pins) : Bool := p.pwrgd && p.perst && p.coldRst

/-- A start begun where the pins allow it and no flash write holds it (R622, R623). -/
def State.tryStart (s : State) : State :=
  if s.pins.released && s.flash.writing.isNone then s.beginStart false else s

/-- A pin falls: everything but the always-on registers is reset, a start in progress is abandoned uncounted, and
TWIN_ALIVE_OUT goes low (R618, R621, R622). -/
def State.assertReset (s : State) (f : Pins → Pins) : State :=
  let r := s.resetAll
  { r with pins := f { r.pins with twinOut := false } }

/-- PERST# asserted. -/
def execPerstAssert (s : State) : Out := .next (s.assertReset (fun p => { p with perst := false }))
/-- COLD_RST# asserted. -/
def execColdRstAssert (s : State) : Out := .next (s.assertReset (fun p => { p with coldRst := false }))
/-- PWRGD low: every block but the always-on registers is held in reset (R618). -/
def execPwrgdFall (s : State) : Out := .next (s.assertReset (fun p => { p with pwrgd := false }))

/-- PERST# released: a start begins at the release of the last reset (R622). -/
def execPerstRelease (s : State) : Out :=
  if s.pins.perst then .next s else .next ({ s with pins := { s.pins with perst := true } }.tryStart)
/-- COLD_RST# released. -/
def execColdRstRelease (s : State) : Out :=
  if s.pins.coldRst then .next s else .next ({ s with pins := { s.pins with coldRst := true } }.tryStart)
/-- PWRGD high, which the board drives only with every rail in range (R618). -/
def execPwrgdRise (s : State) : Out :=
  if s.pins.pwrgd then .next s
  else .next ({ s with pins := { s.pins with pwrgd := true, vddIo := true } }.tryStart)

/-- An image in flash whose write power loss cut short: some check of the next start fails (Table 16-11); which one is free. -/
def brokenImage (f : DWord) : Image :=
  ⟨f.getLsbD 0, f, 0, f.getLsbD 1, f.getLsbD 2, f.getLsbD 3, false, none⟩

/-- VDD_IO removed (R510, R625): the always-on registers lose their contents, a latched THERMTRIP# is released, and a flash
write in progress is lost (Table 16-11). -/
def execPowerRemoved (s : State) : Out :=
  let f := s.takeFree
  let r := f.2.resetAll
  let flash := if r.flash.writing.isSome then { r.flash with image := brokenImage f.1, writing := none } else r.flash
  .next { r with
    flash := flash
    pins := { r.pins with vddIo := false, pwrgd := false, thermtrip := false, twinOut := false }
    boot := { r.boot with reason := 0, fails := 0, failStage := 0 } }

/-! ## The firmware image (R538 to R540) -/

/-- What the checks read of an image in memory. -/
def Image.ofBytes (l : List Byte) : Image :=
  let msg := sliceBytes l 0 2240
  let ed := sliceBytes l 256 32
  let ml := sliceBytes l 288 1952
  let n := numAt l 20 4
  { header := numAt l 0 4 = 0x4E485448 && numAt l 4 2 = 1
    version := BitVec.ofNat 64 (numAt l 8 8)
    svn := numAt l 16 1
    keys := Config.sha512 ed = Config.keyHash false && Config.sha512 ml = Config.keyHash true
    ed25519 := Config.ed25519Verify ed msg (sliceBytes l 2240 64)
    mldsa := Config.mldsaVerify ml msg (sliceBytes l 2304 3309)
    body := n ≤ 1572864 && 8192 + n ≤ l.length && Config.sha512 (sliceBytes l 8192 n) = sliceBytes l 32 64
    digest := some (Config.sha512 msg) }

/-- The reason of the first check of Table 16-10c that an image fails; 0 when it is accepted. -/
def Image.check (i : Image) (rollback : Nat) : Nat :=
  if !i.header then 1 else if !i.keys then 4 else if !i.ed25519 then 2 else if !i.mldsa then 3
  else if i.svn < rollback then 5 else if !i.body then 6 else 0

/-! ## Start-up (Table 16-8) -/

/-- START: a start begins when the pins allow it and none has begun since the last reset (R529, R622). -/
def execStart (s : State) : Out := if s.boot.stage = 0 then .next s.tryStart else .next s

/-- Every PLL of the listed sites locked. -/
def State.lockPlls (s : State) (sites : List Nat) : State :=
  { s with clocks := { s.clocks with plls := sites.foldl (fun t k => t.put .unlocked k .locked) s.clocks.plls } }

/-- The next step of a start begins. -/
def State.stageTo (s : State) (n : Nat) : State := { s with boot := { s.boot with stage := n } }

/-- Minimal mode entered at step 2 (R533, R535): the boot ROM serves the PF's mailbox over CXL.io. The CXL and xSPI PLLs lock where their
references are there (R23). -/
def State.enterMinimal (s : State) : State :=
  { s with
    boot := { s.boot with minimal := true, running := false, reason := if s.boot.forced then 0x0C else s.boot.reason }
    power := { s.power with state := .minimal }
    host := { s.host with up := s.clocks.hostRef } }.lockPlls
      ((if s.clocks.hostRef then [0] else []) ++ (if s.clocks.boardRef then [31] else []))

/-- Step 6 done (R324, R495, Table 10-8): the configuration is read, PLLs lock and the level is negotiated. -/
def State.stage6 (s : State) (bond : List Nat) : State :=
  if s.caps.words.rows.length < 10 then s
  else match s.negotiate bond with
    | none => (s.event 0x408 (if capReason ((s.caps.words.get? 8).getD 0) ≠ 0 then 0 else 1)).failStart 8
    | some s =>
      let s := s.lockPlls ((List.range 30).map (· + 1))
      let s := { s with
        mm := { s.mm with laneSpare := s.flash.memMode = 1 }
        lbx := { s.lbx with d := s.flash.devNum, twin := s.flash.linkMode = 1 } }
      ((List.range 4).foldl (fun s k => s.setLeaf k { Leaf.init with state := .train }) s).stageTo 7

/-- Step 7 done: the leaves have trained, and at least one runs (R530). -/
def State.stage7 (s : State) : State :=
  if (List.range 4).any (fun k => (s.leaf k).trains) then s
  else match (List.range 4).find? (fun k => (s.leaf k).runs) with
    | none => s.failStart 9
    | some k => { s with hinge := { s.hinge with sync := some k, buckets := s.leafBuckets } }.stageTo 8

/-- Step 8 done: channels that pass are UNBOUND, or stay MAPPED_OUT until admitted, and the others are MAPPED_OUT (Table 9-5a); fewer than
128 that pass fail the start. `failing` lists the channels with failing data lanes, some of which lane repair cures (Table 9-4). -/
def State.stage8 (s : State) (failing : List Nat) : State :=
  let bad := (List.range 256).filter (fun k =>
    failing.contains k && !Config.laneCure (s.mm.laneMap.get 0 (k / 16)) k s.mm.laneSpare)
  if 256 - bad.length < 128 then s.failStart 0x0A
  else
    let chan := fun (old : Chan) (k : Nat) =>
      if bad.contains k then { Chan.init with state := ChanState.mappedOut, trigger := 1 }
      else if old.state = .mappedOut then { old with passed := true }
      else { Chan.init with passed := true }
    ({ s with chans := (List.range 256).foldl (fun t k => t.put Chan.init k (chan (t.get Chan.init k) k)) s.chans }).stageTo 9

/-- Rows of the reserve put on channels in turn, each taking whole 2 MiB units of its free rows: the rows left to place, and the state. -/
def State.putUnits (s : State) (chans : List Nat) (rows : Nat) : Nat × State :=
  chans.foldl (fun acc c =>
    let n := min acc.1 ((1042432 - (acc.2.chans.get Chan.init c).reserved) / 1024 * 1024)
    (acc.1 - n, { acc.2 with chans := acc.2.chans.upd Chan.init c (fun v => { v with reserved := v.reserved + n }) })) (rows, s)

/-- The UNBOUND channels of a half, highest number first (R295 item 2). -/
def State.unboundOf (s : State) (half : Nat) : List Nat :=
  ((List.range 256).filter (fun c => halfOfChan c = half && (s.chans.get Chan.init c).state = .unbound)).reverse

/-- Step 9 done: the reserve is placed (R294, R295), and every tile is ZERO (R311). -/
def State.stage9 (s : State) : State :=
  let out := (List.range 256).filter (fun c => (s.chans.get Chan.init c).state = .mappedOut)
  let s := out.foldl (fun s c => (s.putUnits (s.unboundOf (halfOfChan c)) 6144).2) s
  { s with tss := .empty, openTiles := .empty }.stageTo 10

/-- Step 10 done: failing cores are closed with reason 0x6, and the capability update is made whether or not any closed
(R606). -/
def State.stage10 (s : State) (failing : List Nat) : State :=
  let bad := (List.range 160).filter (fun c => failing.contains c && s.coreOpen c)
  let gen := s.caps.gen
  let s := bad.foldl (fun s c => (s.closeCore c 6).event 0x105 c) s
  let s := { s with caps := { s.caps with gen := (gen + 2) % 256 } }
  ((List.range 12).foldl (fun s k => s.setPort k { LbxPort.init with state := .training }) s).stageTo 11

/-- Step 11 done: ports left unconnected stay DOWN (R496), and no other port still trains. -/
def State.stage11 (s : State) (unconnected : List Nat) : State :=
  let s := unconnected.foldl (fun s k => if (s.port k).state = .training then s.setPort k LbxPort.init else s) s
  if s.lbx.ports.any (fun _ p => p.state = .training) then s else s.stageTo 12

/-- Step 13: READY, FAILS zero, the anti-rollback counter raised (a fuse that fails to blow is logged), TWIN_ALIVE out high
(R529, R540, R587). -/
def State.stage13 (s : State) (fuse : Bool) : State :=
  let s := if s.fuses.rollback < s.fw.svn then
      if fuse then { s with fuses := { s.fuses with rollback := s.fw.svn } } else s.event 0x802 0
    else s
  { s with
    boot := { s.boot with ready := true, running := false, fails := 0 }
    power := { s.power with state := .active }
    pins := { s.pins with twinOut := true } }

/-- A start-up step's wait ends: its checks are made, and the next step begins or the start fails (R529 to R533). -/
def execStartStageAdvance (rep : StageReport) (s : State) : Out :=
  if !s.boot.running then .next s
  else match s.boot.stage with
    | 1 => .next (if rep.ok then s.stageTo 2 else s.failStart (if rep.second then 0x0E else 0x0D))
    | 2 => .next (if 3 ≤ s.boot.fails || s.boot.forced then s.enterMinimal else s.stageTo 3)
    | 3 => .next (if rep.ok && s.clocks.hostRef && s.clocks.boardRef then (s.lockPlls [0, 31]).stageTo 4 else s.failStart 7)
    | 4 => .next (if rep.ok then { s with host := { s.host with up := true } }.stageTo 5 else s)
    | 5 =>
      let i := s.flash.image
      let why := i.check s.fuses.rollback
      -- N_boot is drawn (R558)
      let s := { s with sec := { s.sec with nBoot := s.freeCtr }, freeCtr := s.freeCtr + 1 }
      .next (if why = 0 then { s with fw := { s.fw with running := true, version := i.version, svn := i.svn, digest := i.digest } }.stageTo 6
        else s.failStart why)
    | 6 => .next (if !rep.ok && rep.second then s.failStart 7 else s.stage6 rep.failing)
    | 7 => .next s.stage7
    | 8 => .next (s.stage8 rep.failing)
    | 9 => .next s.stage9
    | 10 => .next (s.stage10 rep.failing)
    | 11 => .next (s.stage11 rep.failing)
    | 12 => .next ({ s with host := { s.host with memActive := true } }.stageTo 13)
    | 13 => .next (s.stage13 rep.ok)
    | _ => .next s

/-- A start that has not reached step 13 within 30 s (R530). -/
def execStartWatchdog (s : State) : Out := if s.boot.running then .next (s.failStart 0x0B) else .next s

/-! ## The firmware's health duties (R521, R522) -/

/-- The firmware advances FW_HEARTBEAT; each hour the channels' counts of R325, and each second the leaves' counts of R358 and Table 16-15 start again. -/
def execFwHeartbeatTick (s : State) : Out :=
  if !s.fw.running || s.fw.hung then .next s
  else
    let s := { s with fw := { s.fw with heartbeat := s.fw.heartbeat + 1, ms := s.fw.ms + 1 } }
    let s := if s.fw.ms % 3600000 ≠ 0 then s else { s with chans := s.chans.mapVal (fun _ (c : Chan) => { c with ceHour := 0 }) }
    if s.fw.ms % 1000 ≠ 0 then .next s
    else .next { s with leaves := s.leaves.mapVal (fun _ (l : Leaf) => { l with replays := 0, retrained := false }) }

/-- FW_HEARTBEAT unchanged for 1 s: FW_HUNG until the next start (R522). -/
def execFwWatchdogExpiry (s : State) : Out :=
  if !s.fw.running || s.fw.hung then .next s
  else .next (({ s with fw := { s.fw with hung := true } }).event 0x801 0)

/-- QUEUED_1 plus QUEUED_2 (Table 16-2). -/
def State.mbQueued (s : State) : Nat := (s.fns.vals.map Fn.queued).foldl (· + ·) 0

/-- Every 10 ms the limits of the VFs are halved while too many requests wait, then restored by one (R521). -/
def execMbLimitAdjust (s : State) : Out :=
  let q := s.mbQueued
  let halve := 64 < q || (s.fw.halving && 32 ≤ q)
  let fns := (List.range 64).foldl (fun t k =>
    if k = 0 then t
    else t.upd Fn.init k (fun f =>
      if halve then { f with limit := max 1 (f.limit / 2) } else { f with limit := min f.setLimit (f.limit + 1) })) s.fns
  .next { s with fns := fns, fw := { s.fw with halving := halve } }

/-- BACKOFF_US (Table 16-2): one period from the first halving until every LIMIT is restored. -/
def State.backoff (s : State) : Nat := if s.fw.halving || s.fns.any (fun _ f => f.limit < f.setLimit) then 10000 else 0

/-! ## Flash and restarts -/

/-- A restart as DEV_RESTART begins it: as a device cold reset, and then a start (R532, R621). -/
def State.restart (s : State) (forced : Bool) : State := s.aliveLow.resetAll.beginStart forced

/-- A flash write ends (R541): the image is in flash and FW_UPDATE answers; FW_LOAD begins a start with FAILS 2 (R537); a
DEV_RESTART that waited begins its start (R532). -/
def execFlashWriteComplete (s : State) : Out :=
  match s.flash.writing with
  | none => .next s
  | some (img, fn, slot, load) =>
    let s := { s with flash := { s.flash with image := img, writing := none } }
    let s := if load then s else s.answer fn slot .ok false 0 []
    if load && s.boot.minimal then .next ({ s with boot := { s.boot with fails := 2 } }.restart false)
    else match s.boot.restart with
      | some t => .next (s.restart (t = 1))
      | none => .next s

/-- FW_UPDATE and FW_LOAD: the image that host memory returns is checked, and its write begins or MB_DENIED carries the reason
(R539). -/
def fwWrite (r : Req) (load : Bool) (image : List Byte) (fs : List Nat) (s : State) : Serve := do
  if s.flash.writing.any (fun w => w.2.1 = r.fn.val && w.2.2.1 = r.slot.val) then return { Ans.ok s with later := true }
  refuseIf s.flash.writing.isSome .notInMode
  let src := fieldAt fs 0 / 4096 * 4096
  let len := min (fieldAt fs 1) 4194304
  let clamped := src ≠ fieldAt fs 0 || len ≠ fieldAt fs 1
  let img := Image.ofBytes (image.take len)
  let why := img.check s.fuses.rollback
  if why ≠ 0 then pure ⟨s, .denied, clamped, why, [], false⟩
  else pure { Ans.ok { s with flash := { s.flash with writing := some (img, r.fn, r.slot, load) } } with later := true }

/-- FW_UPDATE. -/
def execFwUpdate (r : Req) (image : List Byte) (s : State) : Out :=
  serve r 0x8103 [8, 8] (pfOnly r) (fwWrite r false image) s

/-- FW_LOAD, in minimal mode only (R537). -/
def execFwLoad (r : Req) (image : List Byte) (s : State) : Out :=
  serve r 0x8104 [8, 8] (pfOnly r) (fun fs s => do
    refuseIf (!s.boot.minimal) .notInMode
    fwWrite r true image fs s) s

/-- DEV_RESTART: the device starts afresh once no flash write is in progress (R532); in minimal mode TARGET 0 sets FAILS to 2
(R537). -/
def execDevRestart (r : Req) (s : State) : Out :=
  serve r 0x0105 [1] (pfOnly r) (fun fs s =>
    let target := if fieldAt fs 0 = 1 then 1 else 0
    let s := if s.boot.minimal && target = 0 then { s with boot := { s.boot with fails := 2 } } else s
    if s.flash.writing.isSome then
      pure { Ans.ok { s with boot := { s.boot with restart := some target } } with later := true }
    else pure { Ans.ok (s.restart (target = 1)) with later := true }) s

/-! ## Status commands (Tables 16-6, 16-7) -/

/-- BOOT_STATUS (Table 16-7). -/
def State.bootStatus (s : State) : Nat :=
  let b := s.boot
  (if b.ready then 1 else 0) + (if b.minimal then 2 else 0) + b.stage * 2 ^ 8 + b.reason * 2 ^ 16 + b.fails * 2 ^ 24
    + b.failStage * 2 ^ 32

/-- DEV_HEALTH (Table 16-7). -/
def State.devHealth (s : State) : Nat :=
  (if s.fw.fatal then 1 else 0) + (if s.fw.hung then 2 else 0) + (if s.throttled then 4 else 0) + s.fw.cause * 2 ^ 8

/-- The code of a partition state (Table 16-7). -/
def PartState.code : PartState → Nat
  | .free => 0 | .built => 1 | .active => 2 | .quiescing => 3 | .quiesced => 4 | .reconfiguring => 5 | .detached => 6

/-- The quads bound to a partition: the union of its slices' (R369). -/
def State.quadsOf (s : State) (p : Nat) : BitVec 40 :=
  s.slices.vals.foldl (fun m sl => if sl.part = some p then m ||| sl.quads else m) 0

/-- The channels bound to a partition. -/
def State.chansOf (s : State) (p : Nat) : BitVec 256 :=
  s.slices.vals.foldl (fun m sl => if sl.part = some p then m ||| sl.chans else m) 0

/-- The LBX ports bound to a partition. -/
def State.portsOf (s : State) (p : Nat) : BitVec 12 :=
  s.slices.vals.foldl (fun m sl => if sl.part = some p then m ||| sl.ports else m) 0

/-- The bytes of a partition's interleave sets. -/
def State.capacity (s : State) (p : Nat) : Nat :=
  s.sets.vals.foldl (fun n e => if e.owner = .part p then n + e.size else n) 0

/-- Usable bytes of a partition, without save areas (R455). -/
def State.usable (s : State) (p : Nat) : Nat := s.capacity p - (s.part p).save

/-- Whether a migration of the device concerns a partition. -/
def Migration.part (m : Migration) : Nat :=
  match m with
  | .set p _ => p
  | .page p _ _ _ _ _ _ => p
  | .recall p _ _ _ _ => p
  | .rekey p => p
  | .detach p _ _ => p
  | .attach p _ => p
  | .leave _ => 18

/-- Whether a migration of a partition's memory is in progress. -/
def State.migrating (s : State) (p : Nat) : Bool := s.mm.migs.any (fun m => m.part = p)

/-- PART_MIRROR of a partition (Table 16-7). -/
def State.partMirror (s : State) (p : Nat) : Nat :=
  let r := s.part p
  r.state.code + (if r.confidential then 2 ^ 4 else 0) + popCount 40 (s.quadsOf p).toNat * 2 ^ 5
    + (if r.rebind.isSome || s.migrating p then 2 ^ 11 else 0) + (if s.migrating p then 2 ^ 12 else 0)
    + s.usable p / 2 ^ 30 * 2 ^ 16

/-- The status mirror rows readable by a function (Table 16-7, R528). -/
def State.mirrorImage (s : State) (fn : Nat) : List Byte :=
  let rows := if fn = 0 then List.range 16 else match (s.fnRec fn).ctx with
    | some (p, _) => [p]
    | none => []
  bytesOf 8 s.bootStatus ++ bytesOf 8 s.fw.version.toNat ++ bytesOf 4 s.fw.heartbeat.toNat ++ bytesOf 4 s.devHealth
    ++ (rows.map (fun p => bytesOf 4 (s.partMirror p))).flatten

/-- DEV_STATUS. -/
def execDevStatus (r : Req) (s : State) : Out :=
  serve r 0x0100 [1] (fun s _ => s.permits r.fn true) (fun fs s => pageAns s r.fn (s.mirrorImage r.fn) (fieldAt fs 0) false) s

/-- FW_STATUS. -/
def execFwStatus (r : Req) (s : State) : Out :=
  serve r 0x0101 [1] (pfOnly r) (fun fs s =>
    let image := encodeFields [(8, s.fw.version.toNat), (1, s.fw.svn), (8, s.flash.image.version.toNat),
      (1, s.flash.image.svn), (1, s.fuses.rollback), (1, if s.flash.writing.isSome then 1 else 0)]
    pageAns s r.fn image (fieldAt fs 0) false) s

/-- LOG_READ: records copied to host memory with the PF's routing ID. -/
def execLogRead (r : Req) (s : State) : Out :=
  serve r 0x8102 [8, 4, 8] (pfOnly r) (fun fs s =>
    let oldest := (s.flash.log.head?.map (·.seq)).getD s.flash.nextSeq
    let first := max (fieldAt fs 0) oldest
    let recs := (s.flash.log.filter (fun l => first ≤ l.seq)).take (fieldAt fs 1)
    let dest := fieldAt fs 2 / 64 * 64
    let clamped := first ≠ fieldAt fs 0 || recs.length ≠ fieldAt fs 1 || dest ≠ fieldAt fs 2
    pure (Ans.ok (s.ioWrite 0 dest ((recs.map LogRec.bytes).flatten) ) clamped)) s

/-- MB_SET_LIMIT: the PF's own limit is always 7 (R518). -/
def execMbSetLimit (r : Req) (s : State) : Out :=
  serve r 0x4106 [1, 1] (fun s fs => s.permits r.fn false && fieldAt fs 0 ≠ 0) (fun fs s =>
    let f := clampTo 1 63 (fieldAt fs 0)
    let l := clampTo 1 7 (fieldAt fs 1)
    let v := s.fnRec f.1
    let limit := if v.limit < v.setLimit then min v.limit l.1 else l.1
    pure (Ans.ok (s.setFn f.1 { v with setLimit := l.1, limit := limit }) (f.2 || l.2))) s

end Sys2Proof.Machine
end

