-- ==== Sys2Proof/Machine/Security.lean ====
section
/-! DEFINITION. Debug, trace, attestation and the management ports (R543 to R572, R586, R626 to R628). -/

namespace Sys2Proof.Machine

/-- A reply sent on a management port. -/
def State.reply (s : State) (port kind : Nat) (data : List Byte) : State :=
  { s with outbox := .reply port kind data :: s.outbox }

/-! ## Debug sessions (R565 to R570) -/

/-- Every core that a session halted is released. -/
def State.releaseCores (s : State) (p : Nat → Bool) : State :=
  { s with cores := s.cores.mapVal (fun k (c : Core) => if p k then { c with halted := false } else c) }

/-- A session ends (R567): its cores are released, and an unused token with it. -/
def State.endSession (s : State) : State :=
  { (s.releaseCores (fun _ => true)) with sec := { s.sec with session := none, token := none } }

/-- Whether a core belongs to a partition's quads. -/
def State.coreIn (s : State) (p c : Nat) : Bool := (s.quadsOf p).getLsbD (c / 4)

/-- A partition leaves the debug mask, its halted cores released first (R567). -/
def State.leaveMask (s : State) (p : Nat) : State :=
  let s := s.releaseCores (s.coreIn p)
  let clear := fun (m : BitVec 16) => m &&& ~~~(BitVec.ofNat 16 (1 <<< p))
  { s with sec := { s.sec with
    session := s.sec.session.map clear, token := s.sec.token.map (fun t => (t.1, clear t.2)) } }

/-- Whether the open session reaches a partition: listed, OPERATOR, and the device not in RETAIN (R566, Table 17-9). -/
def State.debugs (s : State) (p : Nat) : Bool :=
  match s.sec.session with
  | some m => m.getLsbD p && !(s.part p).confidential && s.power.state ≠ .retain
  | none => false

/-- UNLOCK: opens a session with the armed token, which is consumed; an all-zero token never does (R566). -/
def execUnlock (token : BitVec 128) (s : State) : Out :=
  match s.sec.token, s.sec.session with
  | some (t, m), none =>
    if token ≠ 0 ∧ t = bytesOf 16 token.toNat then .next { s with sec := { s.sec with token := none, session := some m } }
    else .next s
  | _, _ => .next s

/-- The window of an unused token ends. -/
def execDebugWindowExpiry (s : State) : Out := .next { s with sec := { s.sec with token := none } }

/-- The session halts or releases a core of a listed OPERATOR partition. -/
def execDebugHalt (core : Fin 160) (halt : Bool) (s : State) : Out :=
  if (List.range 16).any (fun p => s.debugs p && s.coreIn p core) then
    .next { s with cores := s.cores.upd Core.init core (fun c => { c with halted := halt }) }
  else .next s

/-- The session reads or writes a register, a word of local memory or a word of an accumulator of a resident group of a listed
OPERATOR partition. v0, u0 and p0 read as they always do and discard writes. -/
def execDebugStateAccess (g : GroupRef) (target : DbgTarget) (write : Option Word) (s : State) : Out :=
  match s.blocks.get? g.block with
  | none => .next s
  | some b =>
    match b.group? g.group.val, s.tasks.get? b.task with
    | some grp, some t =>
      if !s.debugs t.part || b.phase ≠ .resident then .next s
      else match target, write with
        | .vreg n l, none => .next (s.reply 0 0 (bytesOf 4 (laneAt (grp.vreg n) l).toNat))
        | .vreg n l, some v => .next (s.putGroup g (grp.putV n (BitVec.ofNat 32 (1 <<< l.val)) (fun _ => v)))
        | .ureg n, none => .next (s.reply 0 0 (bytesOf 4 (grp.ureg n).toNat))
        | .ureg n, some v => .next (s.putGroup g (grp.putU n v))
        | .pred n, none => .next (s.reply 0 0 (bytesOf 4 (grp.pred n).toNat))
        | .pred n, some v => .next (s.putGroup g (grp.putPred n v))
        | .lmem a, none => .next (s.reply 0 0 (b.readL a.toNat 4))
        | .lmem a, some v =>
          .next (if a.toNat + 4 ≤ b.lmemSize then s.setBlock g.block (b.writeL a.toNat (bytesOf 4 v.toNat)) else s)
        | .acc u w, none => .next (s.reply 0 0 (bytesOf 4 (grp.foot.acc.get 0 (u.val * 256 + w.val)).toNat))
        | .acc u w, some v =>
          .next (s.putGroup g { grp with foot := { grp.foot with acc := grp.foot.acc.put 0 (u.val * 256 + w.val) v } })
    | _, _ => .next s

/-- DBG_AUTHORIZE: arms a token; bits of partitions that are not OPERATOR, or do not exist, are cleared. -/
def execDbgAuthorize (r : Req) (s : State) : Out :=
  serve r 0x4D04 [2, 16, 2] (pfOnly r) (fun fs s => do
    refuseIf (fieldAt fs 1 = 0) .badLength
    refuseIf s.sec.session.isSome .notInMode
    let ok := (List.range 16).filter (fun p => (s.part p).state ≠ .free && !(s.part p).confidential)
    let mask := BitVec.ofNat 16 (fieldAt fs 0) &&& BitVec.ofNat 16 (numOfBits ok)
    let w := clampTo 1 3600 (fieldAt fs 2)
    pure (Ans.ok { s with sec := { s.sec with token := some (bytesOf 16 (fieldAt fs 1), mask) } }
      (mask.toNat ≠ fieldAt fs 0 || w.2))) s

/-- DBG_REVOKE. -/
def execDbgRevoke (r : Req) (s : State) : Out := serve r 0x4D05 [] (pfOnly r) (fun _ s => pure (Ans.ok s.endSession)) s

/-- DBG_TRACE_START: trace is off while any partition is CONFIDENTIAL (R548, R569). -/
def execDbgTraceStart (r : Req) (s : State) : Out :=
  serve r 0x4D06 [8, 8] (pfOnly r) (fun fs s => do
    refuseIf s.anyConfidential .notInMode
    let dest := fieldAt fs 0 / 4096 * 4096
    let len := clampTo 4096 (2 ^ 30) (fieldAt fs 1 / 64 * 64)
    pure (Ans.ok { s with sec := { s.sec with trace := some (dest, len.1, 0) } }
      (dest ≠ fieldAt fs 0 || len.1 ≠ fieldAt fs 1))) s

/-- DBG_TRACE_STOP. -/
def execDbgTraceStop (r : Req) (s : State) : Out :=
  serve r 0x4D07 [] (pfOnly r) (fun _ s => do
    refuseIf s.sec.trace.isNone .notInMode
    pure (Ans.ok { s with sec := { s.sec with trace := none } })) s

/-! ## Reports (R559, R564, R572) -/

/-- The IDE states: bit 0 the CXL.io stream, bit 1 the CXL.cache and CXL.mem stream. -/
def HostLink.ide (h : HostLink) : Nat := (if h.ideIo then 1 else 0) + (if h.ideCxl then 2 else 0)

/-- SEC_STATUS: mode, generation and epoch of each partition readable by the function, the IDE states, session and trace. -/
def execSecStatus (r : Req) (s : State) : Out :=
  serve r 0x0D00 [1] (fun s _ => s.permits r.fn true) (fun fs s =>
    let ps := if r.fn = 0 then List.range 16 else [s.vfPart r.fn]
    let rows := (ps.map (fun p =>
      [(1, if (s.part p).confidential then 1 else 0), (4, (s.part p).generation), (4, (s.part p).hostEpoch)])).flatten
    let image := encodeFields (rows ++ [(1, s.host.ide), (1, if s.sec.session.isSome then 1 else 0),
      (1, if s.sec.trace.isSome then 1 else 0)])
    pageAns s r.fn image (fieldAt fs 0) false) s

/-- The page entry that PAGE_QUERY and SEC_PAGE_QUERY return: PRESENT, size, backing, access, target, SPILL (Table 16-6). -/
def State.pageEntry (s : State) (p va : Nat) : List Byte :=
  let va := if va < 2 ^ 47 then va else 2 ^ 47 - 65536
  let none_ := encodeFields [(1, 0), (1, 0), (1, 0), (1, 0), (8, 0), (1, 0)]
  match (s.part p).page? va with
  | none => none_
  | some (_, g) =>
    let t := match g.backing with
      | .dev d => (0, d)
      | .shared d => (1, d)
      | .host h => (2, h)
      | .peer d e o => (3, (d * 512 + e) * 2 ^ 48 + o)
    encodeFields [(1, 1), (1, if g.large then 1 else 0), (1, t.1), (1, if g.readWrite then 1 else 0), (8, t.2),
      (1, if g.spill then 1 else 0)]

/-- SEC_PAGE_QUERY: a VF's PART is ignored. -/
def execSecPageQuery (r : Req) (s : State) : Out :=
  serve r 0x0D03 [1, 8] (fun s _ => s.permits r.fn true) (fun fs s =>
    let p := if r.fn = 0 then min (fieldAt fs 0) 15 else s.vfPart r.fn
    pure (Ans.ok s ((r.fn.val = 0 && 15 < fieldAt fs 0) || 2 ^ 47 ≤ fieldAt fs 1) (s.pageEntry p (fieldAt fs 1)))) s

/-- PAGE_QUERY. -/
def execPageQuery (r : Req) (s : State) : Out :=
  serve r 0x0202 [1, 8] (pfOnly r) (fun fs s =>
    pure (Ans.ok s (2 ^ 47 ≤ fieldAt fs 1) (s.pageEntry (fieldAt fs 0) (fieldAt fs 1)))) s

/-- The digest of the running image's header (Table 17-7, block 2). -/
def Fw.headerDigest (f : Fw) : List Byte := f.digest.getD (Config.madeDigest 1)

/-- A slice record encoded under R515 (Table 11-1). -/
def sliceBytesOf (k : Nat) (sl : Slice) : List Byte :=
  encodeFields [(1, k), (8, sl.quads.toNat), (32, sl.chans.toNat), (2, sl.ports.toNat)]

/-- The attributes of a partition and its slice records, whose SHA-512 is PART_DIGEST (Table 17-8). -/
def State.partAttrs (s : State) (p : Nat) : List Byte :=
  let a := s.part p
  encodeFields [(1, p), (1, a.contexts), (1, if a.wholeDevice then 1 else 0), (1, if a.confidential then 1 else 0), (1, a.spill)]
    ++ ((s.slices.rows.filter (fun r => r.2.part = some p)).map (fun r => sliceBytesOf r.1 r.2)).flatten

/-- Pages of a partition backed by host memory, in 64 KiB units. -/
def Part.hostPages (p : Part) : Nat :=
  p.pages.vals.foldl (fun n g => match g.backing with
    | .host _ => n + (if g.large then 32 else 1)
    | _ => n) 0

/-- Bytes 0 to 255 of a partition report (Table 17-8). -/
def State.reportBody (s : State) (p nonce : Nat) : List Byte :=
  let a := s.part p
  let dbg := (if (s.sec.session.getD 0).getLsbD p then 1 else 0) + (if s.sec.trace.isSome then 2 else 0)
    + (if s.sec.session.isSome then 4 else 0)
  bytesOf 4 0x54505250 ++ bytesOf 2 1 ++ bytesOf 1 p ++ bytesOf 1 (if a.confidential then 1 else 0) ++ bytesOf 32 nonce
    ++ bytesOf 4 a.generation ++ bytesOf 4 a.hostEpoch ++ bytesOf 8 s.fw.version.toNat ++ bytesOf 1 s.fw.svn
    ++ bytesOf 1 dbg ++ bytesOf 1 s.host.ide ++ List.replicate 5 0
    ++ s.fw.headerDigest ++ Config.sha512 (s.partAttrs p) ++ bytesOf 4 a.hostPages ++ List.replicate 60 0

/-- SEC_PART_REPORT: the report with both signatures, written with the requesting function's routing ID (R564). -/
def execSecPartReport (r : Req) (s : State) : Out :=
  serve r 0x8D02 [1, 32, 8] (fun s _ => s.permits r.fn true) (fun fs s => do
    refuseIf (r.fn = 0 && 15 < fieldAt fs 0) .badLength
    let p := if r.fn = 0 then fieldAt fs 0 else s.vfPart r.fn
    let st := (s.part p).state
    refuseIf (!(st = .active || st = .quiesced)) .notInMode
    let body := s.reportBody p (fieldAt fs 1)
    let ctx := asciiBytes "EZ2-PART-REPORT"
    let report := body ++ identitySign false [] (ctx ++ body) ++ identitySign true ctx body ++ List.replicate 19 0
    let dest := fieldAt fs 2 / 64 * 64
    pure (Ans.ok (s.ioWrite r.fn dest report) (dest ≠ fieldAt fs 2))) s

/-! ## SPDM (R560 to R563) -/

/-- The SPDM responder serves requests once measured firmware runs (R563). -/
def State.spdm (s : State) (body : State) : Out :=
  if !s.host.up then .next s
  else if s.boot.minimal || !s.fw.running then .next (s.reply 2 3 [])
  else .next body

/-- A measurement block (Table 17-7); the forms that the spec does not lay out are log 26. -/
def State.measurement (s : State) (k : Nat) : List Byte :=
  match k with
  | 1 => Config.madeDigest 0
  | 2 => s.fw.headerDigest
  | 3 => [BitVec.ofNat 8 s.fw.svn, BitVec.ofNat 8 s.fuses.rollback]
  | 4 => Config.sha512 (bytesOf 1 s.fuses.grade.toNat ++ bytesOf 8 s.fuses.quads.toNat ++ s.fuses.cstep ++ s.fuses.bstep
      ++ Config.keyHash false ++ Config.keyHash true)
  | 5 => Config.sha512 (bytesOf 1 (if s.mm.laneSpare then 1 else 0) ++ bytesOf 1 s.lbx.d ++ bytesOf 1 (if s.lbx.twin then 1 else 0))
  | 6 => (List.range 16).map (fun p => BitVec.ofNat 8 (s.partMirror p % 32))
      ++ bytesOf 2 (s.sec.session.getD 0).toNat ++ bytesOf 1 (if s.sec.session.isSome then 1 else 0)
      ++ bytesOf 1 (if s.sec.trace.isSome then 1 else 0) ++ bytesOf 1 s.host.ide ++ List.replicate 3 0
  | 7 => bytesOf 8 s.caps.level.toNat
  | _ => []

/-- The context string of SPDM signatures (R562). -/
def spdmContext : List Byte := asciiBytes "EZ2-SPDM"

/-- A message with the SPDM signature and the ML-DSA-65 signature of its OpaqueData (R562). -/
def signedBoth (m : List Byte) : List Byte := m ++ identitySign false [] m ++ identitySign true spdmContext m

/-- GET_MEASUREMENTS: one block, or all for 0xFF. -/
def execGetMeasurements (index : BitVec 8) (s : State) : Out :=
  let ks := if index = 0xFF then [1, 2, 3, 4, 5, 6, 7] else [index.toNat]
  s.spdm (s.reply 2 0 (signedBoth ((ks.map s.measurement).flatten)))

/-- CHALLENGE, answered with CHALLENGE_AUTH. -/
def execChallenge (nonce : List Byte) (s : State) : Out := s.spdm (s.reply 2 0 (signedBoth nonce))

/-- GET_CERTIFICATE of slot 0 or 1. -/
def execGetCertificate (slot : BitVec 3) (s : State) : Out :=
  s.spdm (if slot.toNat < 2 then s.reply 2 0 (Config.certChain slot.toNat) else s.reply 2 3 [])

/-- KEY_EXCHANGE: a session opens, at most two at once (Table 17-6), with an exchange secret of its own, and the answer carries the device's
public value (Table 17-5). -/
def execKeyExchange (s : State) : Out :=
  let n := s.sec.nextSpdm
  let secret := spdmSecret n (bytesOf 32 (Config.trueRandom s.freeCtr).toNat)
  s.spdm (if 2 ≤ s.sec.spdm.length then s.reply 2 3 []
    else { s.reply 2 0 (Config.dhePublic secret) with
      freeCtr := s.freeCtr + 1
      sec := { s.sec with spdm := s.sec.spdm ++ [n], nextSpdm := n + 1, dhe := s.sec.dhe.set n secret } })

/-- IDE_KM in a session programs a stream's keys: stream 0 the CXL.io stream, 1 that of CXL.cache and CXL.mem. -/
def execIdeKm (session : Nat) (stream : Fin 2) (s : State) : Out :=
  s.spdm (if !s.sec.spdm.contains session then s.reply 2 3 []
    else { s.reply 2 0 [] with sec := { s.sec with ideKeys := s.sec.ideKeys ||| BitVec.ofNat 2 (1 <<< stream.val) } })

/-! ## JTAG and the I3C port (R565, R586, R626 to R628) -/

/-- BYPASS. -/
def execBypass (s : State) : Out := .next { s with mgmt := { s.mgmt with ir := .bypass } }

/-- IDCODE: shifts out the value of R628. -/
def execIdcode (s : State) : Out :=
  let digit := (s.fuses.bstep.getD 0 0).toNat % 16
  let v := digit * 2 ^ 28 + 0x5A32 * 2 ^ 12 + Config.jep106.toNat * 2 + 1
  .next ({ s with mgmt := { s.mgmt with ir := .idcode } }.reply 0 0 (bytesOf 4 v))

/-- SAMPLE/PRELOAD. -/
def execSamplePreload (s : State) : Out := .next { s with mgmt := { s.mgmt with ir := .sample } }

/-- EXTEST, served only in minimal mode (R565). -/
def execExtest (s : State) : Out :=
  if s.boot.minimal then .next { s with mgmt := { s.mgmt with ir := .extest } } else .next s

/-- ENTDAA gives the port its dynamic address; the provisioned ID, which holds the serial number, goes out (R626). -/
def execEntdaa (addr : BitVec 7) (s : State) : Out :=
  .next ({ s with mgmt := { s.mgmt with i3c := some addr.toNat } }.reply 1 0 (bytesOf 4 s.fuses.serial.toNat))

/-- A request on the management port is answered once it has an address; nothing else changes. -/
def State.mctp (s : State) (kind : Nat) (data : List Byte) : Out :=
  if s.mgmt.i3c.isNone then .next s else .next (s.reply 1 kind data)

/-- MCTP control. -/
def execMctpControl (s : State) : Out := s.mctp 0 []

/-- A sensor's value as last updated, in the order of R586. -/
def Sensors.value (v : Sensors) (k : Nat) : Int :=
  match k with
  | 0 => v.p
  | 1 => v.cap
  | 2 => v.vtarget
  | 3 => v.hotCdie
  | 4 => v.hotBdie
  | 5 => v.hotStack
  | 22 => v.power.code
  | 23 => if v.fatal then 1 else 0
  | 24 => v.cause
  | k => v.stackTemps.getD (k - 6) 0

/-- A PLDM sensor read: ERROR_NOT_READY before the firmware runs and in minimal mode (R627). -/
def execPldmSensorRead (sensor : Fin 25) (s : State) : Out :=
  if s.boot.minimal || !s.fw.running then s.mctp 1 [] else s.mctp 0 (bytesOf 4 (wrapInt 32 (s.mgmt.sensors.value sensor)))

/-- QueryDeviceIdentifiers. -/
def execQueryDeviceIdentifiers (s : State) : Out := s.mctp 0 (bytesOf 2 0x5A32)

/-- GetFirmwareParameters: the running version, absent in minimal mode and before the firmware runs (R627). -/
def execGetFirmwareParameters (s : State) : Out :=
  s.mctp 0 (if s.boot.minimal || !s.fw.running then [] else bytesOf 8 s.fw.version.toNat)

/-- Any other PLDM type 5 command (R626). -/
def execPldmUnsupported (s : State) : Out := s.mctp 2 []

end Sys2Proof.Machine
end

