-- ==== Sys2Proof/Machine/Links.lean ====
section
/-! DEFINITION. Peer-link ports: training, flits, port groups, exports and imports, and their commands (R490 to R502, R505,
R506, R509). -/

namespace Sys2Proof.Machine

/-- Whether a port carries traffic. -/
def LbxPort.runs (p : LbxPort) : Bool := p.state = .active || p.state = .half

/-- The running ports that lead to a peer, in ascending order (R497). -/
def State.portGroup (s : State) (dest : Nat) : List Nat :=
  (List.range 12).filter (fun k => (s.port k).runs && !s.suspended (1 + k / 2) && (match (s.port k).peer with
    | some (d, _) => d = dest
    | none => false))

/-- The port that carries the requests of a peer's tile: the tile number modulo the running ports of its group (R505). -/
def State.peerPort (s : State) (dest tile : Nat) : Option Nat :=
  let g := s.portGroup dest
  g[tile % max g.length 1]?

/-- The number of the twin (R496). -/
def State.twinNum (s : State) : Nat := s.lbx.d ^^^ 1

/-- The ports through which a partition reaches a peer (R498): the trunk for the twin of a paired partition, otherwise the
ports that its slices list. -/
def State.portsTo (s : State) (part dest : Nat) : List Nat :=
  let paired := s.pair.pairs.any (fun p => p.1 = part)
  (s.portGroup dest).filter (fun k =>
    if s.lbx.twin && dest = s.twinNum && paired then k < 6 else (s.portsOf part).getLsbD k)

/-- The virtual channel of a message kind of the outbox (R494): 0 REQ, 1 SNP, 2 RSP, 3 DAT; none for IDLE, NAK and pairing. -/
def lbxClass (kind : Nat) : Option Nat :=
  if 9 ≤ kind ∧ kind ≤ 18 then some 0
  else if kind = 19 then some 1
  else if (5 ≤ kind ∧ kind ≤ 8) ∨ kind = 20 then some 2
  else if kind = 3 ∨ kind = 4 then some 3
  else none

/-- The virtual channel of a message. -/
def Msg.vc : Msg → Option Nat
  | .lbx _ k _ _ => lbxClass k
  | _ => none

/-- Whether a port can send a message of a virtual channel now: it has credit, and room in its replay buffer (R493, R494). -/
def LbxPort.canSend (p : LbxPort) (vc : Option Nat) : Bool :=
  p.tx.unacked.length < 1024 && (match vc with
    | some c => 0 < p.credits.getD c 0
    | none => true)

/-- A message sent on a port: it takes a credit and the port's next SEQ, and enters the replay buffer. -/
def State.portSend (s : State) (k : Nat) (m : Msg) : State :=
  let p := s.port k
  let credits := match m.vc with
    | some c => p.credits.set c (p.credits.getD c 0 - 1)
    | none => p.credits
  { s.setPort k { p with credits := credits, tx := (p.tx.send 1024 p.tx.nextSeq).getD p.tx } with outbox := m :: s.outbox }

/-- A message given to a port: sent, or made to wait behind those of its virtual channel. -/
def State.portGive (s : State) (k : Nat) (m : Msg) : State :=
  let p := s.port k
  if p.canSend m.vc && !p.wait.any (fun w => w.vc == m.vc) then s.portSend k m
  else s.setPort k { p with wait := p.wait ++ [m] }

/-- The messages that wait at a port sent as far as credit and replay room go, each virtual channel in order. -/
def State.portDrain (s : State) (k : Nat) : State :=
  (s.port k).wait.foldl (fun s m => s.portGive k m) (s.setPort k { s.port k with wait := [] })

/-- A message sent to a peer on the port that its tile selects (R505); a whole tile goes in 16 parts of 128 bytes, numbered (R494, Table
15-5), but for the tile that answers a read. -/
def State.lbxSend (s : State) (dest tile kind : Nat) (args : List Nat) (data : List Byte) : State :=
  let msgs := if data.length ≤ 128 || kind = 4 then [Msg.lbx dest kind args data]
    else (List.range ((data.length + 127) / 128)).map (fun j => Msg.lbx dest kind (args ++ [j]) ((data.drop (128 * j)).take 128))
  match s.peerPort dest tile with
  | none => { s with outbox := msgs.reverse ++ s.outbox }
  | some k => msgs.foldl (fun s m => s.portGive k m) s

/-! ## Training (R499, R500) -/

/-- The peer that an LBX6 to LBX11 port must find in TWIN mode (R496). -/
def twinPeer (d k : Nat) : Nat :=
  let others := (List.range 4).filter (fun j => j ≠ d / 2)
  2 * others.getD (k / 2) 0 + k % 2

/-- The identity check of step 6 (Table 15-7): 0 when it passes, else its reason. -/
def State.identityReason (s : State) (port d peerPort : Nat) (twin versionOk : Bool) : Nat :=
  if !versionOk then 4
  else if twin != s.lbx.twin then 3
  else if d = s.lbx.d then 1
  else if s.lbx.twin && (if port < 6 then d ≠ s.twinNum || peerPort ≠ port else d ≠ twinPeer s.lbx.d (port - 6)) then 2
  else 0

/-- A port trains from step 1. -/
def LbxPort.train (p : LbxPort) : LbxPort := { p with state := .training, attempts := 0, idOk := false }

/-- The CTRL flit of training step 5 arrives: the identity is checked, and in a continuing session every flit after the SEQ
that it offers is resent (R499, R508). -/
def execLbxCtrlFlit (port : Fin 12) (d : Fin 8) (peerPort : Fin 12) (twin versionOk : Bool) (lastSeq : BitVec 12)
    (s : State) : Out :=
  let p := s.port port
  if p.state ≠ .training then .next s
  else
    let why := s.identityReason port d peerPort twin versionOk
    if why ≠ 0 then .next ((s.setPort port { p with state := .failed, reason := why }).event 0x503 port)
    else .next (s.setPort port
      { p with idOk := true, peer := some (d.val, peerPort.val), reason := 0, tx := p.tx.acked lastSeq.toNat })

/-- Training completes: ACTIVE at 8 lanes, HALF at 4; a trunk port up ends SEVERED (Table 11-9), and a port to a lost peer other than the twin
ends its loss (R506). -/
def execLbxTrainingDone (port : Fin 12) (half : Bool) (s : State) : Out :=
  let p := s.port port
  if p.state ≠ .training || !p.idOk then .next s
  else
    let s := if s.pair.state = .severed && port.val < 6 then { s with pair := { s.pair with state := .paired } } else s
    let d := (p.peer.map (fun (x : Nat × Nat) => x.1)).getD 8
    let s := if s.lbx.twin && d = s.twinNum then s else { s with lbx := { s.lbx with lost := s.lbx.lost.filter (fun x => x ≠ d) } }
    .next (s.setPort port
      { p with state := if half then .half else .active, attempts := 0, rx := { p.rx with nak := false } })

/-- A training step fails, or the time passes: a third failure ends FAILED (Table 15-5a). -/
def execLbxTrainingTimeout (port : Fin 12) (s : State) : Out :=
  let p := s.port port
  if p.state ≠ .training then .next s
  else if p.attempts + 1 < 3 then .next (s.setPort port { p with attempts := p.attempts + 1, idOk := false })
  else .next (s.setPort port { p with state := .failed, attempts := p.attempts + 1, idOk := false })

/-- A running port sent to TRAINING, recorded; a port of a larger group is recorded as lost from it (R505). -/
def State.retrainPort (s : State) (port : Nat) : State :=
  let p := s.port port
  if !p.runs then s
  else
    let dest := (p.peer.map (·.1)).getD 8
    let alone := (s.portGroup dest).length ≤ 1
    let s := (s.setPort port p.train).event 0x502 port
    if alone then s else s.event 0x504 port

/-- No CRC-valid flit for 10 µs. -/
def execLbxPortSilence (port : Fin 12) (s : State) : Out := .next (s.retrainPort port)
/-- Over 1,000 replays in 1 ms. -/
def execLbxReplayStorm (port : Fin 12) (s : State) : Out := .next (s.retrainPort port)

/-! ## Flits (R491 to R493) -/

/-- Credits returned on a virtual channel, never beyond the buffers that the far end reserves. -/
def LbxPort.credit (p : LbxPort) (vc n : Nat) : LbxPort :=
  { p with credits := p.credits.set vc (min (p.credits.getD vc 0 + n) (lbxBuffers.getD vc 0)) }

/-- What the header of a flit tells a port (Table 15-2): its ACK, the credits of CVC, and for a NAK the flits to be resent. -/
def LbxPort.takeHeader (p : LbxPort) (f : BitVec 2048) : LbxPort :=
  let tx := p.tx.acked (flitAck f)
  { p with tx := tx, replays := p.replays + (if flitKind f = 2 then tx.unacked.length else 0) }.credit (field f 26 2) (field f 28 8)

/-- A flit is received (R492, R493): its CRC and SEQ are checked and its header taken; a mismatch sends NAK with the last SEQ accepted. -/
def execLbxFlit (port : Fin 12) (seq ack : BitVec 12) (rest : BitVec 2024) (s : State) : Out :=
  let flit := wholeFlit seq ack rest
  let p := s.port port
  if !p.runs then .next s
  else if flitOk flit && !p.inject then
    let rx := if flitKind flit = 0 then p.rx.receive (flitSeq flit) true else p.rx
    .next ((s.setPort port ({ p with rx := rx }.takeHeader flit)).portDrain port)
  else
    let s := s.setPort port { p with rx := { p.rx with nak := true }, inject := false }
    .next { (s.event 0x501 port) with
      outbox := .lbx ((p.peer.map (·.1)).getD 0) 2 [port.val, p.rx.accepted] [] :: s.outbox }

/-- A NAK: every flit after its SEQ is resent in order. -/
def execLbxNak (port : Fin 12) (seq : BitVec 12) (s : State) : Out :=
  let p := s.port port
  if !p.runs then .next s
  else
    let tx := p.tx.acked seq.toNat
    .next ((s.setPort port { p with tx := tx, replays := p.replays + tx.unacked.length }).portDrain port)

/-- A codeword is decoded: corrected, or discarded with every flit it touches (R491). -/
def execLbxCodeword (port : Fin 12) (corrected discarded : Bool) (s : State) : Out :=
  let p := s.port port
  if discarded then .next ((s.setPort port { p with rx := { p.rx with nak := true } }).event 0x501 port)
  else if corrected then .next ((s.setPort port { p with corrected := p.corrected + 1 }).event 0x500 port)
  else .next s

/-- 1 µs passes without a flit: the port sends IDLE. -/
def execLbxIdleTimer (port : Fin 12) (s : State) : Out :=
  let p := s.port port
  if !p.runs || !s.pins.twinOut then .next s
  else .next { s with outbox := .lbx ((p.peer.map (·.1)).getD 0) 1 [port.val, p.rx.accepted] [] :: s.outbox }

/-! ## Pages (R62, R527) -/

/-- Whether any page covers part of `n` units of 64 KiB from a key. -/
def Part.mappedAny (p : Part) (key n : Nat) : Bool :=
  p.pages.any (fun k g =>
    let w := if g.large then 32 else 1
    k < key + n && key < k + w)

/-- A page entry written. -/
def State.putPage (s : State) (p key : Nat) (g : Page) : State :=
  let r := s.part p
  { s with parts := s.parts.put Part.init p { r with pages := r.pages.set key g } }

/-- A page entry removed. -/
def State.dropPage (s : State) (p key : Nat) : State :=
  let r := s.part p
  { s with parts := s.parts.put Part.init p { r with pages := r.pages.erase key } }

/-- The number of 64 KiB units in the partition window (R32). -/
def windowUnits : Nat := 2 ^ 31

/-- A partition number of a command, held within its range (log 27). -/
def partArg (v : Nat) : Nat := min v 15

/-! ## Commands (Table 15-8) -/

/-- LBX_SET_ID: in effect from the next start (R495). -/
def execLbxSetId (r : Req) (s : State) : Out :=
  serve r 0x4C00 [1, 1] (pfOnly r) (fun fs s => do
    refuseIf (7 < fieldAt fs 0 || 1 < fieldAt fs 1) .badLength
    pure (Ans.ok { s with flash := { s.flash with devNum := fieldAt fs 0, linkMode := fieldAt fs 1 } })) s

/-- The code of a port state, in the order of Table 15-5a. -/
def PortState.code : PortState → Nat
  | .down => 0 | .training => 1 | .active => 2 | .half => 3 | .failed => 4

/-- LBX_STATUS. -/
def execLbxStatus (r : Req) (s : State) : Out :=
  serve r 0x0C01 [1, 1] (fun s _ => s.permits r.fn true) (fun fs s =>
    let p := s.port (min (fieldAt fs 0) 11)
    let w := if p.state = .active then 8 else if p.state = .half then 4 else 0
    let image := encodeFields [(1, p.state.code), (1, w), (1, (p.peer.map (·.1)).getD 0), (1, (p.peer.map (·.2)).getD 0),
      (1, p.reason), (4, p.replays), (4, p.corrected), (4, p.rspErrs)]
    pageAns s r.fn image (fieldAt fs 1) (11 < fieldAt fs 0)) s

/-- LBX_RETRAIN. -/
def execLbxRetrain (r : Req) (s : State) : Out :=
  serve r 0x4C02 [1] (pfOnly r) (fun fs s => do
    refuseIf (11 < fieldAt fs 0) .badLength
    pure (Ans.ok (if s.pins.twinOut then s.setPort (fieldAt fs 0) (s.port (fieldAt fs 0)).train else s))) s

/-- LBX_EXPORT (R501). A CONFIDENTIAL partition exports nothing (R555). -/
def execLbxExport (r : Req) (s : State) : Out :=
  serve r 0x4C03 [1, 1, 8, 8, 1, 1]
    (fun s fs => s.permits r.fn false && (s.lbx.exports.get? (fieldAt fs 0)).isNone
      && !(s.part (partArg (fieldAt fs 1))).confidential)
    (fun fs s =>
      let va := min (fieldAt fs 2 / 65536) (windowUnits - 1) * 65536
      let len := min (roundUp (fieldAt fs 3) 65536) (2 ^ 47 - va)
      let own := BitVec.ofNat 8 (1 <<< s.lbx.d)
      let peers := BitVec.ofNat 8 (fieldAt fs 5) &&& ~~~own
      let e : Export := ⟨partArg (fieldAt fs 1), va, len, fieldAt fs 4 = 1, peers, none⟩
      pure (Ans.ok { s with lbx := { s.lbx with exports := s.lbx.exports.set (fieldAt fs 0) e } }
        (va ≠ fieldAt fs 2 || len ≠ fieldAt fs 3 || 1 < fieldAt fs 4 || peers.toNat ≠ fieldAt fs 5
          || 15 < fieldAt fs 1))) s

/-- An export removed, once no admitted request under it is left; the command that waited is answered (R502). -/
def State.closeExport (s : State) (x : Nat) : State :=
  match s.lbx.exports.get? x with
  | none => s
  | some e =>
    match e.closing with
    | none => s
    | some (fn, slot) =>
      if s.reqs.any (fun _ q => match q.src with
          | .outer _ _ y => y == some x
          | _ => false) then s
      else { s with lbx := { s.lbx with exports := s.lbx.exports.erase x } }.answer fn slot .ok false 0 []

/-- LBX_UNEXPORT: later requests are refused at once, and MB_OK follows the last admitted one (R502); an export that another
request is already removing is no export any more. -/
def execLbxUnexport (r : Req) (s : State) : Out :=
  serve r 0x4C04 [1] (fun s fs => s.permits r.fn false && (s.lbx.exports.get? (fieldAt fs 0)).any (fun e =>
      e.closing.isNone || e.closing = some (r.fn.val, r.slot.val))) (fun fs s =>
    match s.lbx.exports.get? (fieldAt fs 0) with
    | none => .error .denied
    | some e =>
      let e' := { e with closing := some (r.fn.val, r.slot.val) }
      let s := { s with lbx := { s.lbx with exports := s.lbx.exports.set (fieldAt fs 0) e' } }
      pure { Ans.ok (s.closeExport (fieldAt fs 0)) with later := true }) s

/-- LBX_IMPORT: pages of 64 KiB mapped onto a peer's export (R502). -/
def execLbxImport (r : Req) (s : State) : Out :=
  serve r 0x4C05 [1, 8, 4, 1, 1, 8]
    (fun s fs => s.permits r.fn false && !(s.part (partArg (fieldAt fs 0))).confidential)
    (fun fs s => do
      refuseIf (7 < fieldAt fs 3 || fieldAt fs 3 = s.lbx.d) .badLength
      let p := partArg (fieldAt fs 0)
      let key := min (fieldAt fs 1 / 65536) (windowUnits - 1)
      let n := min (fieldAt fs 2) (windowUnits - key)
      refuseIf ((s.part p).state = .free || (s.part p).mappedAny key n) .notInMode
      let off := fieldAt fs 5 / 65536 * 65536
      let s := (List.range n).foldl (fun s k =>
        s.putPage p (key + k) ⟨false, .peer (fieldAt fs 3) (fieldAt fs 4) (off + k * 65536), true, false⟩) s
      pure (Ans.ok s (key * 65536 ≠ fieldAt fs 1 || n ≠ fieldAt fs 2 || off ≠ fieldAt fs 5 || 15 < fieldAt fs 0))) s

end Sys2Proof.Machine
end

