-- ==== Sys2Proof/Machine/Cmds.lean ====
section
/-! DEFINITION. Fetched commands: their fields, completion, and the outcome of a batch step (R45, R48 to R50, R404, R408, R419,
R429, R430). -/

namespace Sys2Proof.Machine

/-- A command's record. -/
def State.cmd? (s : State) (id : Nat) : Option Cmd := s.cmds.get? id

/-- A command's record written. -/
def State.setCmd (s : State) (id : Nat) (c : Cmd) : State := { s with cmds := s.cmds.set id c }

/-- The command's opcode (Table 12-4). -/
def Cmd.op (c : Cmd) : Nat := numAt c.bytes 0 1
/-- A bit of the command's FLAGS (Table 12-4). -/
def Cmd.flag (c : Cmd) (k : Nat) : Bool := (numAt c.bytes 1 1).testBit k
/-- RECORD. -/
def Cmd.wantsRecord (c : Cmd) : Bool := c.flag 0
/-- SIGNAL. -/
def Cmd.wantsSignal (c : Cmd) : Bool := c.flag 1
/-- SIG_ON_OK. -/
def Cmd.onOk (c : Cmd) : Bool := c.flag 3
/-- AFTER. -/
def Cmd.after (c : Cmd) : Bool := c.flag 4
/-- The partition of the command's queue (R401). -/
def Cmd.part (c : Cmd) : Nat := c.queue / 64
/-- The context of the command's queue (R401). -/
def Cmd.ctx (c : Cmd) : Nat := c.queue / 8 % 8
/-- Whether the command has not completed. -/
def Cmd.pending (c : Cmd) : Bool := c.stage ≠ .complete && c.stage ≠ .recorded

/-- A queue, by its global number (R401). -/
def State.queue? (s : State) (q : Nat) : Option Queue := s.queues.get? q

/-- A queue's record written. -/
def State.setQueue (s : State) (q : Nat) (v : Queue) : State := { s with queues := s.queues.set q v }

/-- INFLIGHT: commands of a queue fetched and not yet complete (Table 12-2): those whose record is not yet written. -/
def State.inflight (s : State) (q : Nat) : Nat :=
  ((s.cmds.vals).filter (fun c => c.queue = q && c.stage ≠ .recorded)).length

/-- A running command completes with a status and DETAIL; one that is drained keeps the status that its expiry or abort fixed, and
its DETAIL is 0 unless it moved bytes (R429, R430, Table 12-10). -/
def State.cmdDone (s : State) (id : Nat) (st : Status) (detail : DWord) : State :=
  match s.cmd? id with
  | none => s
  | some c =>
    if !c.pending then s
    else match c.why with
      | none => s.setCmd id { c with stage := .complete, status := st, detail := detail }
      | some w => s.setCmd id { c with stage := .complete, status := w, detail := BitVec.ofNat 64 c.moved }

/-- Flags raised for a command. -/
def State.cmdRaise (s : State) (id : Nat) (f : BitVec 16) : State :=
  match s.cmd? id with
  | none => s
  | some c => s.setCmd id { c with flags := c.flags ||| f }

/-! ## Batch steps -/

/-- Whether a task has ended, or never starts. -/
def Task.over (t : Task) : Bool := t.state = .ended || t.state = .skipped

/-- Whether a task failed (R48). -/
def Task.failed (t : Task) : Bool := t.state = .ended && t.status ≠ .ok

/-- The number of blocks of a task's grid. -/
def Task.blocks (t : Task) : Nat := t.gridX * t.gridY * t.gridZ

/-- The tasks of a batch step. -/
def State.tasksOf (s : State) (cmd : Nat) : List (Nat × Task) := (s.tasks.keep (fun _ t => t.cmd == cmd)).rows

/-- The graph version that a command's step runs. -/
def State.stepVer (s : State) (cmd : Nat) : GraphVer :=
  match (s.cmd? cmd).bind (·.version) with
  | some v => (s.versions.get? v).getD ⟨[], false⟩
  | none => ⟨[], false⟩

/-- Whether task `a` was poured by task `p`, directly or by a descendant; `fuel` bounds the chain. -/
def descends (ts : List (Nat × Task)) (p : Nat) : Nat → Nat → Bool
  | 0, _ => false
  | fuel + 1, a =>
    match ts.find? (fun t => t.1 = a) with
    | some (_, t) => t.poured && (t.parent = p || descends ts p fuel t.parent)
    | none => false

/-- The tasks that an edge waits for (Table 2-3, R42): the instances of its node and, for WITH_POURED, what they poured. -/
def edgeTasks (ts : List (Nat × Task)) (e : Edge) : List (Nat × Task) :=
  let own := ts.filter (fun t => t.2.node = e.pred)
  if e.poured then ts.filter (fun t => t.2.node = e.pred || own.any (fun p => descends ts p.1 ts.length t.1)) else own

/-- The edges of a task: those of its node, none for a poured task (R44). -/
def State.edgesOf (s : State) (t : Task) : List Edge :=
  if t.poured then [] else ((s.stepVer t.cmd).nodes[t.node]?.map (·.edges)).getD []

/-- Whether every predecessor of a task has ended (R37, R41, R42). -/
def State.predsDone (s : State) (t : Task) : Bool :=
  let ts := s.tasksOf t.cmd
  (s.edgesOf t).all (fun e => (edgeTasks ts e).all (fun p => p.2.over && p.2.finished = p.2.placed))

/-- Whether a predecessor of a task failed or never starts (R48). -/
def State.predFailed (s : State) (t : Task) : Bool :=
  let ts := s.tasksOf t.cmd
  (s.edgesOf t).any (fun e => (edgeTasks ts e).any (fun p => p.2.failed || p.2.state = .skipped))

/-- One pass over a step's waiting tasks: those with a failed predecessor never start. -/
def State.skipPass (s : State) (cmd : Nat) : State :=
  (s.tasksOf cmd).foldl (fun s r =>
    match s.tasks.get? r.1 with
    | some t => if t.state = .waiting && s.predFailed t then s.setTask r.1 { t with state := .skipped } else s
    | none => s) s

/-- The failed task whose status the step reports: the lowest node index, then the lowest identity (R49). -/
def stepFailure (ts : List (Nat × Task)) : Option Task :=
  ((sortOn (fun (t : Nat × Task) => t.2.node * 2 ^ 64 + t.2.identity.toNat) (ts.filter (fun t => t.2.failed && !t.2.killed))).head?).map (·.2)

/-- The lowest-numbered task that had not ended when the step was stopped (Table 12-9). -/
def stepUnended (ts : List (Nat × Task)) : DWord :=
  match (sortOn (fun (t : Nat × Task) => t.2.node * 2 ^ 64 + t.2.identity.toNat)
      (ts.filter (fun t => t.2.killed || !t.2.over || t.2.state = .skipped))).head? with
  | some t => t.2.identity
  | none => 0

/-- A batch step settled: tasks with a failed predecessor never start, and once every task is over and no block is left the outcome
is formed under R45, R49 and R50, and the step's tasks are forgotten. A drained step ends when its blocks are gone (R429). -/
def State.settleStep (s : State) (cmd : Nat) : State :=
  match s.cmd? cmd with
  | none => s
  | some c =>
    if !c.pending || c.stage = .fetched then s
    else
      let s := (s.tasksOf cmd).foldl (fun s _ => s.skipPass cmd) s
      let ts := s.tasksOf cmd
      let left := s.blocks.any (fun _ b => ts.any (fun t => t.1 = b.task))
      if left || (c.why.isNone && !(ts.all (fun t => t.2.over))) then s
      else
        let flags := ts.foldl (fun f t => f ||| t.2.flags) (c.flags ||| clampedIf (s.stepVer cmd).clamped)
        let f := stepFailure ts
        let c := match c.why, f with
          | some w, _ => { c with status := w, detail := 0, task := stepUnended ts }
          | none, some t => { c with status := t.status, detail := t.detail, task := t.identity }
          | none, none => { c with status := .ok, detail := 0, task := 0 }
        let s := s.setCmd cmd { c with stage := .complete, flags := flags }
        { s with tasks := s.tasks.keep (fun _ t => !(t.cmd == cmd)) }

/-- A command that holds no core ends at once when it is drained (R430). -/
def Cmd.isLaunch (c : Cmd) : Bool := c.op = 1

/-! ## Cores after a block leaves (R73, R74) -/

/-- The blocks on a core. -/
def State.onCore (s : State) (c : Nat) : List (Nat × Block) :=
  (s.blocks.keep (fun _ b => b.core == c && b.phase ≠ .out)).rows

/-- A core that holds no block takes its quad's new split, which invalidates its L1 (R74). -/
def State.coreIdle (s : State) (c : Nat) : State :=
  let want := s.quadL1.get 64 (c / 4)
  let k := s.cores.get Core.init c
  if (s.onCore c).isEmpty && k.l1KiB ≠ want then
    { s with cores := s.cores.put Core.init c { k with l1 := .empty, l1KiB := want } }
  else s

/-- A block's record removed with everything it held. -/
def State.dropBlock (s : State) (b : Nat) : State :=
  match s.blocks.get? b with
  | none => s
  | some k =>
    let s := { s.mxuDrop b with blocks := s.blocks.erase b }.refill
    s.coreIdle k.core

end Sys2Proof.Machine
end

