-- ==== Sys2Proof/Machine/Coher.lean ====
section
/-! DEFINITION. The directory and its snoops (R279 to R285, Tables 8-9 and 8-10), where a line is served while its tile moves
(R318, R380, R381), and which lines are mirrored, coded or lost (R393, R398, R399). -/

namespace Sys2Proof.Machine

/-! ## Directory -/

/-- An agent's bit: 0 the host, 1 the Hithen controller's cache, 2 + d peer d (Table 8-9). -/
def agentBit (a : Nat) : BitVec 10 := BitVec.ofNat 10 (1 <<< a)

/-- The accesses that Table 8-10 distinguishes; a read names the agent that makes it, if one does. -/
inductive DirEvent where
  | read (agent : Option Nat)
  | write
  | hostWrite
  | shared (agent : Nat)
  | own (agent : Nat)
deriving DecidableEq, Repr

/-- What an access does to a line's entry: the agents snooped, whether the snoop invalidates, and the entry afterwards. -/
structure DirStep where
  snoops : BitVec 10
  inv : Bool
  next : Option DirEntry
deriving DecidableEq, Repr

/-- The rows of Table 8-10. -/
def dirStep : Option DirEntry → DirEvent → DirStep
  | none, .shared a => ⟨0, false, some ⟨false, agentBit a, 0⟩⟩
  | none, .own a => ⟨0, false, some ⟨true, agentBit a, 0⟩⟩
  | none, _ => ⟨0, false, none⟩
  | some d, .shared a =>
    if d.excl && d.agents ≠ agentBit a then ⟨d.agents, false, some { d with excl := false, agents := d.agents ||| agentBit a }⟩
    else ⟨0, false, some { d with agents := d.agents ||| agentBit a }⟩
  | some d, .own a => ⟨d.agents &&& ~~~(agentBit a), true, some { d with excl := true, agents := agentBit a }⟩
  | some d, .read a =>
    if d.excl && d.agents ≠ (a.map agentBit).getD 0 then ⟨d.agents, false, some { d with excl := false }⟩
    else ⟨0, false, some d⟩
  | some d, .write => ⟨d.agents, true, none⟩
  | some d, .hostWrite => ⟨d.agents &&& ~~~(agentBit 0), true, none⟩

/-- The directory set of a line: its slice and 12 bits of its set index (R280, log 28). -/
def State.dirSet (s : State) (line : Nat) : Nat :=
  s.sliceOf ⟨false, line⟩ * 4096 + llcSet (line / 16) (line % 16) % 4096

/-- The entries of a line's directory set. -/
def State.dirWays (s : State) (line : Nat) : List (Nat × DirEntry) :=
  s.dir.rows.filter (fun r => s.dirSet r.1 = s.dirSet line)

/-- A line's entry written; a new entry takes the lowest free way of its set. -/
def State.dirPut (s : State) (line : Nat) (e : Option DirEntry) : State :=
  match e with
  | none => { s with dir := s.dir.erase line }
  | some e =>
    if e.agents = 0 then { s with dir := s.dir.erase line }
    else
      match s.dir.get? line with
      | some d => { s with dir := s.dir.set line { e with way := d.way } }
      | none =>
        let used := (s.dirWays line).map (fun r => r.2.way)
        let w := ((List.range 16).find? (fun k => !used.contains k)).getD 0
        { s with dir := s.dir.set line { e with way := w } }

/-- Message kinds on LBX beside 1 IDLE and 2 NAK (Table 15-5, R508). -/
inductive LbxKind where
  | data | dataTile | cmp | atomRsp | semGrant | rspErr | rd | rdTile | wr | wrTile | atom | semAcq | semRel | spent | sig
  | recall | snoop | rspNP | pairing
deriving DecidableEq, Repr

/-- The number of a message kind in the outbox. -/
def LbxKind.code : LbxKind → Nat
  | .data => 3 | .dataTile => 4 | .cmp => 5 | .atomRsp => 6 | .semGrant => 7 | .rspErr => 8 | .rd => 9 | .rdTile => 10
  | .wr => 11 | .wrTile => 12 | .atom => 13 | .semAcq => 14 | .semRel => 15 | .spent => 16 | .sig => 17 | .recall => 18
  | .snoop => 19 | .rspNP => 20 | .pairing => 21

/-- A message to a peer. -/
def State.toPeer (s : State) (dest line : Nat) (k : LbxKind) (args : List Nat) (data : List Byte) : State :=
  s.lbxSend dest (line / 16) k.code args data

/-- The snoops of a line sent to the agents of a mask (Table 8-9): peers by LBX. -/
def State.sendSnoops (s : State) (line : Nat) (inv : Bool) (m : BitVec 10) : State :=
  (bitsOf 10 m.toNat).foldl (fun s a =>
    let s := { s with outbox := .snoop a line inv :: s.outbox }
    if 2 ≤ a then s.toPeer (a - 2) line .snoop [line, if inv then 1 else 0] [] else s) s

/-- A line's transaction opened (R282). -/
def State.openTxn (s : State) (line : Nat) (d : DirStep) (cause : Option Nat) (drop : Bool) : State :=
  let s := { s with txns := s.txns.set line ⟨d.snoops, 0, d.next, drop, cause, none⟩ }
  s.sendSnoops line d.inv d.snoops

/-- A full directory set evicts the entry with the fewest recorded agents, the lowest way among equals; at most one eviction of a
set is in progress (R280). -/
def State.evictDir (s : State) (line : Nat) : Option State :=
  let ways := s.dirWays line
  if ways.any (fun r => (s.txns.get? r.1).isSome) then none
  else match (sortOn (fun (r : Nat × DirEntry) => popCount 10 r.2.agents.toNat * 16 + r.2.way) ways).head? with
    | none => none
    | some r =>
      let s := { s with events := bump s.events (31 * 8 + 5) 1 }
      some (s.openTxn r.1 ⟨r.2.agents, true, none⟩ none false)

/-- An access to a line at its home passes the directory: `none` while the line has a transaction; with `true` when it may go on,
and with `false` when it waits for the snoops it has sent, or for room in the directory. -/
def State.access (s : State) (line : Nat) (ev : DirEvent) (cause : Option Nat) (drop : Bool) : Option (Bool × State) :=
  if (s.txns.get? line).isSome then none
  else
    let d := dirStep (s.dir.get? line) ev
    if d.snoops ≠ 0 then some (false, s.openTxn line d cause drop)
    else if d.next.isSome && (s.dir.get? line).isNone && 16 ≤ (s.dirWays line).length then
      (s.evictDir line).map (fun s => (false, s))
    else some (true, s.dirPut line d.next)

/-- As `access`, for every line of a list at once: an access that spans several lines. -/
def State.accessAll (s : State) (lines : List Nat) (ev : DirEvent) (cause : Option Nat) (drop : Bool) : Option (Bool × State) :=
  if lines.any (fun n => (s.txns.get? n).isSome) then none
  else some (lines.foldl (fun acc n =>
    match acc.2.access n ev cause drop with
    | some r => (acc.1 && r.1, r.2)
    | none => (false, acc.2)) (true, s))

/-! ## Places of lines -/

/-- The line that an agent of a half reads: copy 1 of the half-replicated region for half 1 (R318). -/
def State.readLine (s : State) (half line : Nat) : Nat :=
  match s.mm.shared, s.setOfLine line with
  | some r, some (_, e) =>
    if r.half && half = 1 && e.owner = .shared && e.copy = 0 then (s.otherCopy line).getD line else line
  | _, _ => line

/-- Whether a line's tile is being moved: copied and not yet committed (R380). -/
def State.tileMoving (s : State) (line : Nat) : Bool :=
  (match s.setOfLine line with
   | some (_, e) => match e.shadow with
     | some sh => sh.held.contains ((line * 128 - e.base) / 2048)
     | none => false
   | none => false)
  || s.mm.migs.any (fun m => match m with
    | .page _ _ src dst tiles held _ =>
      let at_ := fun (b : Nat) => b / 2048 ≤ line / 16 && line / 16 - b / 2048 < tiles
        && held.contains (line / 16 - b / 2048)
      at_ src || at_ dst
    | _ => false)

/-- Whether memory still owes sectors to a request. -/
def State.inQueue (s : State) (id : Nat) : Bool :=
  s.pseudo.any (fun _ p => p.entries.any (fun e => e.kind == .fill id || e.kind == .outerRead id))

/-- Whether a tile's writes wait for a spent hint to take effect (Table 9-2). -/
def State.spentDue (s : State) (line : Nat) : Bool :=
  (s.lineTile line).any (fun t => (s.openTiles.get ⟨0, 0, false, 0⟩ t).spentPending)

/-- A write of an outer agent that its home has taken but whose reorder queue has not (R272). -/
def MemReq.unqueued (q : MemReq) : Bool :=
  (q.stage == .flight || q.stage == .accepted) && q.via.arr.isSome && (match q.src, q.kind with
    | .outer _ _ _, .store _ _ => true
    | _, _ => false)

/-- Whether a line's home holds every other request to it (R272, R282, R286, R380): a transaction, a fill, a tile being read, a mirrored
write in flight, or a move of its tile; for what makes no request of its own (0), also a write that waits for the reorder queue. -/
def State.lineBusy (s : State) (id line : Nat) : Bool :=
  (s.txns.get? line).isSome || s.tileMoving line
  || s.reqs.any (fun k r => k ≠ id && r.stage = .waiting && (match r.kind, r.home with
    | .semAcq off _, .dev n => s.forward n = line && !(s.waiters.get [] ((Home.dev n).l1Key * 128 + off)).contains k
    | .tile false _ _, .dev n => s.forward n / 16 = line / 16 && s.inQueue k
    | .tile true _ _, _ => false
    | _, .dev n => s.forward n = line
    | _, _ => false))
  || (id = 0 && !s.spentDue line && s.reqs.any (fun _ r => r.unqueued && (match r.home with
    | .dev n => s.forward n = line
    | _ => false)))

/-- The local pool whose own sets hold a device line (R385). -/
def State.poolOfLine (s : State) (line : Nat) : Option Pool :=
  match s.setOfLine line with
  | some (_, e) => (s.pools.find (fun _ p => !p.onTwin && e.chans.all (fun c => p.chans.getLsbD c))).map (·.2)
  | none => none

/-- The partition and address of a mapped line of a mirrored region, and whether the twin holds copy 0 (R398). -/
def State.regionOf (s : State) (line : Nat) : Option (Nat × Nat × Bool) :=
  s.pools.vals.findSome? (fun p =>
    if !p.mirror then none
    else (s.part p.part).pages.rows.findSome? (fun r =>
      let va := r.1 * 65536
      match r.2.backing with
      | .dev d =>
        if p.base ≤ va && va < p.base + p.length && d / 128 ≤ line && line < (d + (if r.2.large then 2097152 else 65536)) / 128 then
          some (p.part, va + (line * 128 - d), p.onTwin)
        else none
      | _ => none))

/-- The 2 MiB chunks of a partition's mirrored regions, in the order in which an attach works (Table 11-12 step 3). -/
def State.mirrorChunks (s : State) (p : Nat) : List Nat :=
  ((s.pools.vals.filter (fun x => x.mirror && x.part = p)).map (fun (x : Pool) =>
    (List.range ((x.base % 2097152 + x.length + 2097151) / 2097152)).map (fun k => x.base / 2097152 + k))).flatten

/-- Whether an attach in progress mirrors the writes to an address already: its chunk has been marked. -/
def State.attached (s : State) (p va : Nat) : Bool :=
  match s.mm.migs.findSome? (fun m => match m with
    | .attach q n => if q = p then some n else none
    | _ => none) with
  | some n => ((s.mirrorChunks p).take n).contains (va / 2097152)
  | none => true

/-- Whether this device orders the writes to a line and sends them to the twin first (R398): a line of a mirrored region whose copy 0 it holds,
or during an attach one of the serving device's lines whose chunk is marked (Table 11-12 step 3). -/
def State.mirrored (s : State) (line : Nat) : Bool :=
  match s.pair.state with
  | .paired => (s.poolOfLine line).any (fun p => p.mirror)
  | .severed => (s.poolOfLine line).any (fun p => p.mirror)
  | .attaching => (s.regionOf line).any (fun r => (s.part r.1).state ≠ .detached && s.attached r.1 r.2.1)
  | _ => false

/-- Whether a line's channel is lost, its contents being rebuilt from its coded group (R399). -/
def State.codedLost (s : State) (line : Nat) : Bool :=
  match s.poolOfLine line, s.placeOf (line * 128) with
  | some p, some (ch, _) => p.coded && ((s.chan ch).state = .failing || (s.chan ch).state = .migrating)
  | _, _ => false

/-- The status that ends an access to a page of a failed pool without a mirror (R393). -/
def State.poolFailed (s : State) (part va : Nat) : Bool :=
  s.pools.any (fun _ p => p.part = part && p.failed && !p.mirror && p.base ≤ va && va < p.base + p.length)

end Sys2Proof.Machine
end

