-- ==== Sys2Proof/Machine/Home.lean ====
section
/-! DEFINITION. What a home does with a request: reads, writes, atomics, semaphores and spent hints of device and host memory, and
requests to peers (R211 to R216, R237, R253, R254, R264, R269, R286, R303, R309, R315, R398, R503). -/

namespace Sys2Proof.Machine

/-! ## Requests and their outcome -/

/-- A request's record written. -/
def State.setReq (s : State) (id : Nat) (q : MemReq) : State := { s with reqs := s.reqs.set id q }

/-- A request's stage changed. -/
def State.stageReq (s : State) (id : Nat) (q : MemReq) (g : ReqStage) : State := s.setReq id { q with stage := g }

/-- A request forgotten; an export that waited for it is removed (R502). -/
def State.endReq (s : State) (id : Nat) (q : MemReq) : State :=
  let s := { s with reqs := s.reqs.erase id }
  match q.src with
  | .outer _ _ (some x) => s.closeExport x
  | _ => s

/-- The task of a block. -/
def State.taskOf (s : State) (b : Nat) : Option Nat := (s.blocks.get? b).map (·.task)

/-- Flags raised for the maker of a request. -/
def State.reqRaise (s : State) (q : MemReq) (f : BitVec 16) : State :=
  match q.src with
  | .grp b _ => match s.taskOf b with
    | some t => s.raise t f
    | none => s
  | .cmd c => s.cmdRaise c f
  | _ => s

/-- The line that a peer's request named, an offset of an export, by which its port is chosen (R505). -/
def State.peerLine (s : State) (q : MemReq) : Nat :=
  match q.src with
  | .outer _ _ (some x) => (q.va - ((s.lbx.exports.get? x).map (·.va)).getD 0) / 128
  | _ => q.va / 128

/-- The port that an outer agent's request came by (R505): its tile is the one that the peer named, an offset of an export. -/
def State.inPort (s : State) (q : MemReq) : Option Nat :=
  match q.src with
  | .outer a _ _ => s.peerPort (a - 2) (s.peerLine q / 16)
  | _ => none

/-- The half that a request enters at: its core's, the front end's, or its port's (R318). -/
def State.halfOf (s : State) (q : MemReq) : Nat :=
  match q.src with
  | .grp b _ => match s.blocks.get? b with
    | some k => halfOfCore k.core
    | none => 0
  | .cmd c => match (s.cmd? c).bind (fun k => s.queue? k.queue) with
    | some k => k.fe
    | none => 0
  | .fe k => ((s.queue? k).map (·.fe)).getD 0
  | .outer a _ _ => if a < 2 then 0 else (s.inPort q).getD 0 / 6

/-- A message of a class that returns to a request's maker, with payload bytes that are counted (Table 8-7; log 101): over the leaf of its
transaction where that crossed; `none` while it waits there. -/
def State.comeBack (s : State) (q : MemReq) (cls n : Nat) : Option State :=
  match q.via.leaf with
  | none => some s
  | some k =>
    let to_ := s.halfOf q
    if s.leafOpen k && s.leafRoom k to_ cls then
      some { s.leafSend k to_ cls with events := bump s.events (31 * 8 + (if to_ = 1 then 6 else 7)) n }
    else none

/-- An answer to an agent outside the cores, the request forgotten: the host by CXL.mem, the Hithen cache, or a peer by LBX with
its zero, poison and spent indications. It crosses the hinge where its request did. -/
def State.respond (s : State) (id : Nat) (q : MemReq) (k : LbxKind) (d : BitVec 1024) (zero poison spent : Bool) : State :=
  let data := k == .data && !zero && !poison
  let s := (s.comeBack q (if data then 3 else 2) (if data then 128 else 0)).getD s
  let s := s.endReq id q
  match q.src with
  | .outer a tag _ =>
    if a < 2 then
      let s := match a, q.kind, q.home with
        | 1, .read _ (some o), .dev n => { s with cCache := s.cCache.set n o }
        | _, _, _ => s
      { s with outbox := .answer a tag d poison :: s.outbox }
    else s.toPeer (a - 2) (s.peerLine q) k [tag, if zero then 1 else 0, if poison then 1 else 0, if spent then 1 else 0]
      (lineBytes d)
  | _ => s

/-- A request that ends with a status: its task or command ends; a front end learns it; an outer agent receives poison; a prefetch fetches
nothing. -/
def State.reqFail (s : State) (id : Nat) (q : MemReq) (st : Status) : State :=
  if q.kind = .prefetch then s.endReq id q
  else match q.src with
    | .grp b _ => match s.taskOf b with
      | some t => (s.endReq id q).endTask t st q.pc
      | none => s.endReq id q
    | .cmd c => match s.cmd? c with
      | some k => if k.isLaunch then s.endReq id q else (s.endReq id q).cmdDone c st (BitVec.ofNat 64 k.moved)
      | none => s.endReq id q
    | .fe _ => s.stageReq id q (.failed st)
    | .outer _ _ _ => s.respond id q .data 0 false true false

/-- Data that a load finds, with its core's stores that its home has not taken: the registers receive those older than the load, and the
L1 copy holds them all (R213, R215). -/
def State.seen (s : State) (id : Nat) (q : MemReq) (d : BitVec 1024) : MemReq × BitVec 1024 :=
  match q.kind, s.srcCore q with
  | .load _ _ _ _ _ _, some c =>
    let all := s.storesOver c q.home none
    let own := s.storesOver c q.home (some id)
    ({ q with via := { q.via with lay := all.1, layMask := all.2 } }, mergeLine d own.1 own.2)
  | _, _ => (q, d)

/-- Data for a request: on its way back to an engine, or answered to an outer agent at once; a prefetch is over. -/
def State.answered (s : State) (id : Nat) (q : MemReq) (k : LbxKind) (d : BitVec 1024) (zero spent : Bool) : State :=
  match q.src with
  | .outer _ _ _ => s.respond id q k d zero false spent
  | _ =>
    if q.kind = .prefetch then s.endReq id q
    else
      let r := s.seen id q d
      s.stageReq id r.1 (.back r.2)

/-- A write ordered at home: acknowledged to an outer agent, with whether a semaphore saturated (log 100), over for an engine (R212). -/
def State.ordered (s : State) (id : Nat) (q : MemReq) (sat : Bool) : State :=
  match q.src with
  | .outer _ _ _ => s.respond id q .cmp 0 sat false false
  | _ => s.endReq id q

/-- How a request's data enters the cache: an engine's under its hint, a copy's, the Hithen cache's under DEFAULT, or an outer agent's,
which never allocates. -/
def MemReq.access (q : MemReq) : Access :=
  let hint := match q.kind with
    | .load _ _ _ _ _ _ => q.hint
    | .store _ _ => q.hint
    | .prefetch => q.hint
    | .tile false _ _ => q.hint
    | _ => 0
  match q.src with
  | .outer a _ _ => ⟨q.part, if a = 0 then .host else if a = 1 then .hithen else .peer, 0⟩
  | .cmd _ => ⟨q.part, .copy, hint⟩
  | _ => ⟨q.part, if q.via.op.isSome then .tld else .engine, hint⟩

/-- Whether an agent outside the cores makes a request. -/
def MemReq.outer (q : MemReq) : Bool :=
  match q.src with
  | .outer _ _ _ => true
  | _ => false

/-- Whether a request never allocates a line: one of the host or of a peer (R269). -/
def MemReq.noAlloc (q : MemReq) : Bool :=
  match q.src with
  | .outer a _ _ => a ≠ 1
  | _ => false

/-- How a request's write meets its line: under its hint, which has already acted where the line was fetched for it. -/
def MemReq.effect (q : MemReq) : Access := if q.via.fetched then { q.access with hint := 1 } else q.access

/-- The path of a request's write. -/
def MemReq.path (q : MemReq) : WritePath :=
  match q.src with
  | .outer a _ _ => if a = 1 then .alloc q.effect else .outer (if a = 0 then 0 else 1)
  | _ => .alloc q.effect

/-- The directory event of a request's write (R279). -/
def MemReq.writeEvent (q : MemReq) : DirEvent :=
  match q.src with
  | .outer 0 _ _ => .hostWrite
  | _ => .write

/-- Unspecified bytes of a line of a SPENT tile (R317). -/
def State.takeLine (s : State) (line : Nat) : BitVec 1024 × State :=
  (s.spentBytes line, { s with freeCtr := s.freeCtr + 1 })

/-! ## The hinge (R290) -/

/-- Whether a request reads and changes nothing. -/
def MemReq.isRead (q : MemReq) : Bool :=
  match q.kind with
  | .load _ _ _ _ _ _ => true
  | .prefetch => true
  | .read _ _ => true
  | .tile false _ _ => true
  | _ => false

/-- The line of device memory that a request acts on now: a reader's copy of it, where it has moved to (R318, R381). -/
def State.lineOfReq (s : State) (q : MemReq) (n : Nat) : Nat := s.forward (if q.isRead then s.readLine (s.halfOf q) n else n)

/-- The half that a request's home lies in: host memory is homed in half 0 (R251, R252); a peer's memory is reached by a port. -/
def State.homeHalf (s : State) (q : MemReq) : Nat :=
  match q.home with
  | .dev n => match s.placeOf (s.lineOfReq q n * 128) with
    | some p => halfOfChan p.1 % 2
    | none => 0
  | .host _ => 0
  | .peer d _ n => (s.peerPort d (n / 16)).getD 0 / 6

/-- The steering bucket of a request: by tile for an engine, a TLD, a copy or the Hithen cache, by function for the host, whose CXL.mem
requests name the PF (log 101), and by port for a peer. -/
def State.bucketOf (s : State) (q : MemReq) : Nat :=
  let b := max (s.hinge.buckets.foldl (· + ·) 0) 1
  match q.src with
  | .outer 0 _ _ => 0
  | .outer 1 _ _ => tileBucket q.home b
  | .outer _ _ _ => (s.inPort q).getD 0 % b
  | _ => tileBucket q.home b
where
  tileBucket (h : Home) (b : Nat) : Nat :=
    let t := match h with
      | .dev n => (⟨false, n⟩ : LineId).tile
      | .host n => (⟨true, n⟩ : LineId).tile
      | .peer _ _ n => n / 16
    ((t ^^^ (t >>> 7)) &&& 0xFFF) % b

/-- A request sent across the hinge where its home lies in the other half: it takes its leaf, for all the messages of its transaction, and
a store's data crosses with it; `none` while it waits at the hinge input (R288, R290, R291, R356). -/
def State.cross (s : State) (q : MemReq) : Option (State × MemReq) :=
  let to_ := s.homeHalf q
  if q.via.leaf.isSome || s.halfOf q = to_ then some (s, q)
  else
    let k := bucketLeaf s.hinge.buckets (s.bucketOf q) 0
    let data := match q.kind with
      | .store _ m => popCount 128 m.toNat
      | _ => 0
    if k < 4 && s.leafOpen k && s.leafRoom k to_ 0 && (data = 0 || s.leafRoom k to_ 3) then
      let s := s.leafSend k to_ 0
      let s := if data = 0 then s else s.leafSend k to_ 3
      some ({ s with events := if data = 0 then s.events else bump s.events (31 * 8 + (if to_ = 1 then 6 else 7)) data },
        { q with via := { q.via with leaf := some k } })
    else none

/-! ## Finding an uncorrectable sector (Table 9-2, R303, R321) -/

/-- The shared region's mark after a tile of it has become POISON: QUARANTINED, unless the other half's copy can repair it (R321). -/
def State.quarantine (s : State) (line : Nat) : State :=
  match s.setOfLine line, s.mm.shared with
  | some (_, e), some r =>
    if e.owner = Owner.shared && !(r.half && (s.otherCopy line).isSome) then
      { s with mm := { s.mm with shared := some { r with quarantined := true } } }
    else s
  | _, _ => s

/-- The event and the region's mark that a line found bad leaves (Table 18-7, R321). -/
def State.noteBad (s : State) (line : Nat) : State :=
  let p := (s.placeOf (line * 128)).getD (0, 0)
  if (s.otherCopy line).isSome && (s.mm.shared.any (·.half)) then s.rowEvent 0x202 p.1 p.2
  else if s.mirrored line then s.rowEvent 0x203 p.1 p.2
  else (s.quarantine line).rowEvent 0x201 p.1 p.2

/-- A tile whose lines do not match its CRC becomes POISON, logged with its channel and row (R313, R314). -/
def State.corruptTile (s : State) (t : TileAt) : State := ((s.tileTo t.key .poison).quarantine t.line0).rowEvent 0x205 t.ch t.row

/-- A bad sector found among those needed: the tile's state follows Table 9-2. A ZERO tile's bytes are never read (R310). -/
def State.discoverBad (s : State) (line : Nat) (need : BitVec 4) : State :=
  if s.lineBad line &&& need = 0 || (s.lineTile line).any (fun t => (s.tssAt t).state = .zero) then s else (s.foundBad line need (s.mirrored line)).noteBad line

/-- Whether a channel's memory controller serves accesses: its stack is below level 4, not in self-refresh, its clock runs and the device has
not stopped (R26, R330, R588). -/
def State.memOpen (s : State) (ch : Nat) : Bool :=
  s.temps.stackLevel.get 0 (ch / 16) ≠ 4 && !s.power.selfRefresh && !s.suspended (7 + ch / 16) && !s.halted

/-- The first of a channel's reserve rows; its tile state store lies there at 8 bytes for each row (R294, R296). -/
def reserveRow : Nat := 1042432

/-- The key of the first sector of the tile state store's line that holds a row's entry (R296). -/
def tssKey (ch row : Nat) : Nat := (tileKey ch (reserveRow + row / 256) * 16 + row % 256 / 16) * 4

/-- An uncorrectable TSS line: the 16 tiles whose entries it holds become POISON with fresh entries (R305). -/
def State.tssLost (s : State) (ch row : Nat) : State :=
  let s := (List.range 16).foldl (fun s k =>
    let t := tileKey ch (row / 16 * 16 + k)
    { s.tileTo t .poison with openTiles := s.openTiles.erase t }) s
  s.rowEvent 0x204 ch row

/-- A tile's entry is read: an error not yet found in its TSS line loses that line (R302, R305). -/
def State.tssMeet (s : State) (line : Nat) : State :=
  match s.placeOf (line * 128) with
  | none => s
  | some (ch, row) =>
    let ks := (List.range 4).map (fun k => tssKey ch row + k)
    if ks.any (fun k => s.latent.get 0 k = 2) then
      (({ s with latent := ks.foldl (fun t k => t.put 0 k 0) s.latent }.tssLost ch row).quarantine line)
    else s

/-- Whether a bad tile is rebuilt from the other half's copy (R320). -/
def State.repairable (s : State) (line : Nat) : Bool :=
  (match s.mm.shared with
   | some r => r.half && !r.quarantined
   | none => false) && (s.otherCopy line).isSome

/-! ## Reads -/

/-- Whether the twin's copies can still be reached or waited for. -/
def State.twinHere (s : State) : Bool := s.pair.state = .paired || s.pair.state = .severed || s.pair.state = .attaching

/-- A message that asks the twin for the line or tile of a MIRRORED_STALE tile (Table 3-10). -/
def State.askTwin (s : State) (id line : Nat) (k : LbxKind) : State := s.toPeer s.twinNum line k [id, line] []

/-- The sectors that a read needs. -/
def MemReq.need (q : MemReq) : BitVec 4 :=
  match q.kind with
  | .load _ w _ lanes _ _ => lanes.foldl (fun v l => v ||| sectorsOf (byteMask l.2 w)) 0
  | .read n _ => n
  | _ => 0xF

/-- The data of a device line that the cache now holds or that memory has returned: the read completes. -/
def State.readData (s : State) (id : Nat) (q : MemReq) (line : Nat) : State :=
  let s := if s.codedLost line then s.reqRaise q flagFallback else s
  s.answered id q .data (s.devLine line) false false

/-- A read that its tile's state serves without the line's data, or stops (R91, R303, R310, R315, Table 3-10). -/
def State.readOther (s : State) (id : Nat) (q : MemReq) (line : Nat) (m : ReadMeets) : Option State :=
  match m with
  | .zero => some (s.answered id q .data 0 true false)
  | .spent =>
    if !q.outer && !(s.part q.part).spentFlag && q.kind ≠ .prefetch then some (s.reqFail id q .spentRead)
    else
      let r := s.takeLine line
      some ((r.2.reqRaise q flagSpentSeen).answered id q .data r.1 false true)
  | .bad =>
    if s.repairable line && q.kind ≠ .prefetch then some (s.stageReq id q .waiting)
    else some (s.reqFail id q .poison)
  | .stale =>
    if q.kind = .prefetch then some (s.endReq id q)
    else if !s.twinHere then some (s.reqFail id q .peerUnreachable)
    else if s.portGroup s.twinNum = [] then none
    else some (((s.stageReq id q .waiting).reqRaise q flagFallback).askTwin id line .rd)
  | .data => none

/-- A way for a line that is to be filled: the one that holds it, under the hint of a hit, or a new one with no sector valid yet, so that
the data that returns always finds its place (R255, R258, R289). -/
def State.llcReserve (s : State) (l : LineId) (a : Access) : Option State :=
  match s.llcFind l with
  | some (key, e) =>
    let r := s.hintHit (s.setKey l) a e
    some { r.1 with llc := r.1.llc.set key r.2 }
  | none => s.llcPlace l a 0 0 0

/-- Sectors filled into the way that a line has. -/
def State.llcFill (s : State) (l : LineId) (a : Access) (d : BitVec 1024) (v : BitVec 4) : Option State :=
  match s.llcFind l with
  | some (key, e) =>
    let new := v &&& ~~~e.valid
    some { s with llc := s.llc.set key { e with data := mergeSectors e.data d new, valid := e.valid ||| new } }
  | none => s.llcPlace l a d v 0

/-- Sectors of a line asked of memory for a request, in the queue of the line's pseudo-channel; `none` when that has no room, or the cache no
way (R257, R270, R271). -/
def State.askMemory (s : State) (id : Nat) (q : MemReq) (line : Nat) (v : BitVec 4) : Option State :=
  match s.linePlace line with
  | none => none
  | some (ch, row, k) => do
    let pc := pseudoOf ch k
    let who := if q.noAlloc then (if q.access.who = .host then 0 else 1) else 2
    if !(if q.noAlloc then s.outerRoom pc who else s.mcRoom pc false) then none
    else
      let s ← if q.noAlloc then some s else s.llcReserve ⟨false, line⟩ q.access
      pure (s.mcPush ⟨if q.noAlloc then .outerRead id else .fill id, ch, row, k, line, v, 0, 0, false, 0, who⟩)

/-- The sectors of a line that the cache holds. -/
def State.heldSectors (s : State) (line : Nat) : BitVec 4 :=
  match s.llcFind ⟨false, line⟩ with
  | some (_, e) => e.valid
  | none => 0

/-- A request's lookup counted, once (R274). -/
def State.lookup (s : State) (id : Nat) (q : MemReq) (hit : Bool) : State × MemReq :=
  if q.via.counted then (s, q)
  else
    let a := q.access
    let q := { q with via := { q.via with counted := true } }
    ((s.countLookup a.part a.who a.hint hit).setReq id q, q)

/-- A read whose line passed the directory meets its tile: one lookup is counted, and data comes from the cache or is asked of memory
(R253, R274). -/
def State.readTile (s : State) (id : Nat) (q : MemReq) (line : Nat) : Option State :=
  let need := q.need
  let held := s.heldSectors line
  match s.readMeets line 0 with
  | .data =>
    let r := s.lookup id q (held &&& need = need)
    if held &&& need = need then do
      let s ← if q.noAlloc then some r.1 else r.1.llcReserve ⟨false, line⟩ q.access
      pure (s.readData id r.2 line)
    else (r.1.askMemory id r.2 line (need &&& ~~~held)).map (fun s => s.stageReq id r.2 .waiting)
  | m =>
    let r := s.lookup id q false
    r.1.readOther id r.2 line m

/-- The directory event of a read. -/
def MemReq.readEvent (q : MemReq) : DirEvent :=
  match q.kind, q.src with
  | .read _ (some false), .outer a _ _ => .shared a
  | .read _ (some true), .outer a _ _ => .own a
  | _, .outer a _ _ => .read (some a)
  | _, _ => .read none

/-- A read of device memory arrives at the line's home. -/
def State.serveRead (s : State) (id : Nat) (q : MemReq) (line : Nat) : Option State := do
  let r ← s.access line q.readEvent (some id) false
  if !r.1 then pure r.2
  else r.2.readTile id q line

/-! ## The value of a line and its semaphore waiters (R130, R131) -/

/-- A line of this device's memory or of host memory, as its home serves it. -/
def State.homeLine (s : State) : Home → BitVec 1024
  | .dev n => s.devLine n
  | .host n => s.hostView n
  | .peer _ _ _ => 0

/-- Masked bytes stored in a host-memory line that the cache holds with ownership: the line is dirty (R212). -/
def State.hostStore (s : State) (line : Nat) (d : BitVec 1024) (m : BitVec 128) (a : Access) : Option State :=
  match s.llcFind ⟨true, line⟩ with
  | none => none
  | some (key, e) =>
    let r := s.hintHit (s.setKey ⟨true, line⟩) a e
    let e' := { r.2 with data := mergeLine e.data d m, dirty := e.dirty ||| sectorsOf m }
    some { r.1 with llc := r.1.llc.set key e', hostLines := r.1.hostLines.set line .modified }

/-- Masked bytes written at a home. -/
def State.homeWrite (s : State) (h : Home) (d : BitVec 1024) (m : BitVec 128) (w : WritePath) (a : Access) : Option State :=
  match h with
  | .dev n => s.lineWrite n d m w
  | .host n => s.hostStore n d m a
  | .peer _ _ _ => none

/-- The key of a semaphore word among the waiters. -/
def semKey (h : Home) (off : Nat) : Nat := h.l1Key * 128 + off

/-- A wait granted: on its way to its group or command, or told to a peer. -/
def State.granted (s : State) (id : Nat) (q : MemReq) : State :=
  match q.src with
  | .outer _ _ _ => s.respond id q .semGrant 0 false false false
  | _ => s.stageReq id q (.back 0)

/-- What a home needs before it performs an atomic itself (R241): no outside copy of a device line, which is invalidated first, or
ownership of a host line; `false` while it waits. -/
def State.mayGrant (s : State) (h : Home) : Bool × State :=
  match h with
  | .dev n => match s.access n .write none false with
    | some r => r
    | none => (false, s)
  | .host n => ((s.llcFind ⟨true, n⟩).isSome && (s.hostLines.get? n).any (fun c => c != .shared), s)
  | .peer _ _ _ => (false, s)

/-- One waiter of a word considered after the older ones; the flag says that none of those still waits (R131). -/
def wakeStep (h : Home) (off : Nat) (acc : State × Bool) (id : Nat) : Option (State × Bool) :=
  if !acc.2 then some acc
  else match acc.1.reqs.get? id with
    | none => some acc
    | some q => match q.kind with
      | .semAcq _ n =>
        let v := lineNum (acc.1.homeLine h) off 8
        if n ≤ v then match acc.1.mayGrant h with
          | (false, s) => some (s, false)
          | (true, s) => do
            let s ← s.homeWrite h (lineOf off (v - n)) (byteMask off 8) q.path q.access
            let s := match h with
              | .dev k => if s.mirrored k then s.toPeer s.twinNum k .wr [id, k] (lineBytes (s.devLine k)) else s
              | _ => s
            let key := semKey h off
            let s := { s with waiters := s.waiters.put [] key ((s.waiters.get [] key).filter (fun k => k ≠ id)) }
            pure (s.granted id q, true)
        else some (acc.1, false)
      | _ => some acc

/-- The waiters of a word evaluated again. -/
def State.wakeWord (s : State) (h : Home) (off : Nat) : Option State :=
  ((s.waiters.get [] (semKey h off)).foldlM (wakeStep h off) (s, true)).map (·.1)

/-- The waiters left at the words that waits were withdrawn from evaluated again (R129, R131): a wait behind a withdrawn one may now be the
oldest. A grant that finds no room in the LLC comes with the word's next change. -/
def State.wakeAfter (s : State) (l : List (Nat × MemReq)) : State :=
  l.foldl (fun s r => match r.2.kind, r.2.stage, r.2.home with
    | .semAcq _ _, .waiting, .peer _ _ _ => s
    | .semAcq off _, .waiting, h => (s.wakeWord h off).getD s
    | _, _, _ => s) s

/-- The waiters of every word of a line evaluated again; `none` when a grant finds no room. -/
def State.wakeLine (s : State) (h : Home) : Option State :=
  (List.range 16).foldlM (fun s k => s.wakeWord h (8 * k)) s

/-! ## Writes -/

/-- The masked bytes that a request writes, from the line's bytes. -/
def MemReq.change (q : MemReq) (old : BitVec 1024) : BitVec 1024 × BitVec 128 :=
  match q.kind with
  | .store d m => (d, m)
  | .atom op w lanes _ => ((atomLine op w lanes old).1, atomMask w lanes)
  | .semRel off n => (lineOf off (min (lineNum old off 8 + n) (2 ^ 64 - 1)), byteMask off 8)
  | _ => (0, 0)

/-- A request that changes memory, before it takes effect at a mirrored line's copy 0: sent to copy 1 first (R398), the line as it will be or
the spent hint. `none` while the trunk is severed (R397). -/
def State.mirrorFirst (s : State) (id : Nat) (q : MemReq) (line : Nat) : Option (Option State) :=
  let wait := match q.kind with
    | .semAcq _ _ => true
    | _ => false
  if wait || !s.mirrored line || q.stage = .acked then some none
  else if s.pair.state = .severed then none
  else
    let old := s.devLine line
    let c := q.change old
    let s := s.stageReq id q .waiting
    some (some (if q.kind = .spent then s.toPeer s.twinNum line .spent [id, line] []
      else s.toPeer s.twinNum line .wr [id, line] (lineBytes (mergeLine old c.1 c.2))))

/-- The line an atomic or semaphore operation reads, unless its tile ends the maker's task (R315, Table 9-7). -/
def State.rmwRead (s : State) (id : Nat) (q : MemReq) (h : Home) (need : BitVec 4) : Except State (State × BitVec 1024) :=
  match h with
  | .dev n =>
    let s := s.discoverBad n need
    match s.readMeets n need with
    | .bad => .error (s.reqFail id q .poison)
    | .spent =>
      if !q.outer && !(s.part q.part).spentFlag then .error (s.reqFail id q .spentRead)
      else
        let r := s.takeLine n
        .ok (r.2.reqRaise q flagSpentSeen, r.1)
    | _ => .ok (s, s.devLine n)
  | h => .ok (s, s.homeLine h)

/-- Whether the cache holds every sector of a line that a mask touches (R274). -/
def State.holdsAll (s : State) (h : Home) (m : BitVec 128) : Bool :=
  let id : Option LineId := match h with
    | .dev n => some ⟨false, n⟩
    | .host n => some ⟨true, n⟩
    | .peer _ _ _ => none
  match id.bind s.llcFind with
  | some (_, e) => e.valid &&& sectorsOf m = sectorsOf m
  | none => false

/-- The effect of a request at a home that it may act on: a store, an atomic or a semaphore operation. -/
def State.homeEffect (s : State) (id : Nat) (q : MemReq) (h : Home) : Option State :=
  let a := q.effect
  match q.kind with
  | .store d m => do
    let s ← (s.lookup id q (s.holdsAll h m)).1.homeWrite h d m q.path a
    let s ← s.wakeLine h
    pure (s.ordered id q false)
  | .atom _ w lanes _ =>
    let m := atomMask w lanes
    match s.rmwRead id q h (sectorsOf m) with
    | .error s => some s
    | .ok (s, old) => do
      let s ← (s.lookup id q (s.holdsAll h m)).1.homeWrite h (q.change old).1 m q.path a
      let s ← s.wakeLine h
      pure (s.answered id q .atomRsp old false false)
  | .semRel off n =>
    let m := byteMask off 8
    match s.rmwRead id q h (sectorsOf m) with
    | .error s => some s
    | .ok (s, old) => do
      let sat : Bool := 2 ^ 64 ≤ lineNum old off 8 + n
      let s := if sat && !(match q.src with
        | .cmd _ => true
        | _ => false) then s.reqRaise q flagClamped else s
      let s ← (s.lookup id q (s.holdsAll h m)).1.homeWrite h (q.change old).1 m q.path a
      let s ← s.wakeLine h
      pure (s.ordered id q sat)
  | .semAcq off _ =>
    match s.rmwRead id q h (sectorsOf (byteMask off 8)) with
    | .error s => some s
    | .ok (s, _) =>
      let key := semKey h off
      let r := s.lookup id q (s.holdsAll h (byteMask off 8))
      let s := r.1.stageReq id { r.2 with home := h } .waiting
      { s with waiters := s.waiters.put [] key (s.waiters.get [] key ++ [id]) }.wakeWord h off
  | _ => none

/-- The absent sectors that a request must read before it can change a line: those of an atomic or semaphore word, and those that an
engine's store covers in part (R253, R254); none of a ZERO or SPENT tile. -/
def State.fetchNeed (s : State) (q : MemReq) (line : Nat) : BitVec 4 :=
  let dataIn := match (s.lineTile line).map (fun t => (s.tssAt t).state) with
    | some .valid => true
    | some .opened => true
    | some .poison => true
    | _ => false
  let v := match q.kind with
    | .store _ m => if q.noAlloc then 0 else sectorsOf m &&& ~~~(wholeSectors m)
    | .atom _ w lanes _ => sectorsOf (atomMask w lanes)
    | .semRel off _ => sectorsOf (byteMask off 8)
    | .semAcq off _ => sectorsOf (byteMask off 8)
    | _ => 0
  if dataIn && !q.via.fetched then v &&& ~~~(s.heldSectors line) else 0

/-- The sectors that a write covers in part, whose merge reads them. -/
def MemReq.partSectors (q : MemReq) : BitVec 4 :=
  match q.kind with
  | .store _ m => sectorsOf m &&& ~~~(wholeSectors m)
  | _ => 0

/-- A request that changes a line of device memory arrives at its home. It is ordered there while copies are still to be invalidated (Table
7-1); the sectors that it needs are read first, a merge finds what is bad among them (R302, R303), and copy 1 of a mirrored line is
written first. A write to a SPENT tile, whose other lines are read (Table 9-2), waits while memory admits no access. -/
def State.serveWrite (s : State) (id : Nat) (q : MemReq) (line : Nat) : Option State :=
  if (s.lineTile line).any (fun t => (s.tssAt t).state = .spent) && (s.placeOf (line * 128)).any (fun p => !s.memOpen p.1) then none
  else do
  let r ← s.access line q.writeEvent (some id) false
  if !r.1 then
    pure (if (r.2.txns.get? line).isSome && q.stage = .flight then r.2.stageReq id q .accepted else r.2)
  else
    let s := r.2
    let v := s.fetchNeed q line
    if v ≠ 0 then
      let k := s.lookup id q false
      (k.1.askMemory id k.2 line v).map (fun s => s.stageReq id k.2 .waiting)
    else
      let t := s.discoverBad line q.partSectors
      let done := do
        match ← t.mirrorFirst id q line with
        | some s => pure s
        | none => t.homeEffect id q (.dev line)
      match done with
      | some s => pure s
      | none => if s.lineBad line &&& q.partSectors = 0 then none else pure t

/-- A spent hint arrives at its tile's home (R264): every external copy of the tile is invalidated first, and dirty data that
returns is discarded. -/
def State.serveSpent (s : State) (id : Nat) (q : MemReq) (line : Nat) : Option State := do
  let lines := (List.range 16).map (fun k => line / 16 * 16 + k)
  if lines.any (fun n => s.lineBusy id n) then none
  else
    let r ← s.accessAll lines .write (some id) true
    if !r.1 then pure r.2
    else match ← r.2.mirrorFirst id q line with
      | some s => pure s
      | none => pure ((r.2.spentHint line q.part).ordered id q false)

/-! ## Host memory (R212, R286, R481) -/

/-- Whether the cache holds a host line, with ownership where it is to be written. -/
def State.hostHeld (s : State) (line : Nat) (own : Bool) : Bool :=
  (s.llcFind ⟨true, line⟩).isSome && (match s.hostLines.get? line with
    | some .shared => !own
    | some _ => true
    | none => false)

/-- A request for host memory at its home slice: it is served from the line that the slice holds through CXL.cache, or waits for the
host's response. -/
def State.serveHost (s : State) (id : Nat) (q : MemReq) (line : Nat) : Option State :=
  let own := match q.kind with
    | .load _ _ _ _ _ _ => false
    | .prefetch => false
    | .read _ _ => false
    | _ => true
  if !s.host.up then some (s.reqFail id q .accessFault)
  else if !s.hostHeld line own then
    let r := s.lookup id q false
    (r.1.llcReserve ⟨true, line⟩ q.access).map (fun s => s.stageReq id r.2 .waiting)
  else if own then s.homeEffect id q (.host line)
  else do
    let s ← if q.via.fetched then some s else s.llcReserve ⟨true, line⟩ q.access
    let r := s.lookup id q true
    pure (r.1.answered id r.2 .data (s.hostView line) false false)

/-! ## Memory of peers (R503 to R507) -/

/-- The message that carries a request to a peer (Table 15-5). -/
def MemReq.message (q : MemReq) (exp line id : Nat) : Option (LbxKind × List Nat × List Byte) :=
  match q.kind with
  | .load _ _ _ _ _ _ => some (.rd, [id, exp, line], [])
  | .store d m => some (.wr, [id, exp, line, m.toNat], lineBytes d)
  | .atom _ w lanes _ => some (.atom, [id, exp, line, w] ++ (lanes.map (fun l => [l.off, l.arg, l.new])).flatten, [])
  | .read _ _ => some (.rd, [id, exp, line], [])
  | .spent => some (.spent, [id, exp, line], [])
  | .semAcq off n => some (.semAcq, [id, exp, line, off, n], [])
  | .semRel off n => some (.semRel, [id, exp, line, off, n], [])
  | _ => none

/-- Whether the port that a request leaves by has response space for it (R289, R494). -/
def State.replyRoom (s : State) (dest tile : Nat) : Bool :=
  let p := s.peerPort dest tile
  (s.reqs.rows.filter (fun r => r.2.stage == .waiting && (match r.2.home with
    | .peer d _ n => d = dest && s.peerPort dest (n / 16) = p
    | _ => false))).length < 128

/-- A request to a peer's memory: it leaves by the port of its tile, waits while none is up, and ends its task where the peer is
lost (R505 to R507). A prefetch sends nothing. -/
def State.servePeer (s : State) (id : Nat) (q : MemReq) (dest exp line : Nat) : Option State :=
  if s.lbx.lost.contains dest then some (s.reqFail id q .peerUnreachable)
  else match q.message exp line id with
    | none => some (s.endReq id q)
    | some (k, args, data) =>
      if s.portsTo q.part dest = [] || !s.pins.twinOut || !s.replyRoom dest (line / 16) then none
      else some ((s.stageReq id q .waiting).toPeer dest line k args data)

/-! ## Copy 1 of a mirrored region (R398) -/

/-- The partner of a partition on the twin. -/
def State.partnerOf (s : State) (part : Nat) : Nat := ((s.pair.pairs.find? (fun p => p.1 = part)).map (·.2)).getD 0

/-- The number that stands for an export in requests that the pair table admits to the twin's partition (R501). -/
def pairExport (partner : Nat) : Nat := 256 + partner

/-- The partition and address of a device line that is copy 1 of a mirrored region, while the twin holds copy 0. -/
def State.copyOne (s : State) (line : Nat) : Option (Nat × Nat) :=
  if s.pair.state ≠ .paired && s.pair.state ≠ .severed then none
  else match s.regionOf line with
    | some (p, va, true) => some (p, va)
    | _ => none

/-- The home that a write to a line takes effect at: the home of copy 0 on the twin, for a line of copy 1. -/
def State.zeroHome (s : State) (h : Home) : Home :=
  match h with
  | .dev n => match s.copyOne n with
    | some (p, va) => .peer s.twinNum (pairExport (s.partnerOf p)) (va / 128)
    | none => h
  | _ => h

/-- Whether a request is the twin's own. -/
def State.fromTwin (s : State) (q : MemReq) : Bool :=
  match q.src with
  | .outer a _ none => a = 2 + s.twinNum
  | _ => false

/-! ## Arrival -/

/-- Whether two requests touch one line, or one tile where one of them is a spent hint. -/
def MemReq.overlaps (p q : MemReq) : Bool :=
  match p.home, q.home with
  | .dev m, .dev n => m = n || ((p.kind = .spent || q.kind = .spent) && m / 16 = n / 16)
  | .host m, .host n => m = n
  | .peer d e m, .peer d' e' n => d = d' && e = e' && (m = n || ((p.kind = .spent || q.kind = .spent) && m / 16 = n / 16))
  | _, _ => false

/-- Whether a request has not yet reached its home: it is on its way, or waits in a network buffer. -/
def MemReq.unsent (q : MemReq) : Bool := q.stage == .flight && q.via.arr.isNone

/-- Whether a request reads memory into registers. -/
def MemReq.isLoad (q : MemReq) : Bool :=
  match q.kind with
  | .load _ _ _ _ _ _ => true
  | _ => false

/-- Whether a request is a plain store. -/
def MemReq.isStore (q : MemReq) : Bool :=
  match q.kind with
  | .store _ _ => true
  | _ => false

/-- Whether an older request must reach its home before this one (R82, R214): one of the same maker to the line, except that a load finds
its core's stores itself; for a peer's memory any of the core's stores before a load, and any of its reads; or a write to copy 1 of a
mirrored region that copy 0's home has not acknowledged. -/
def State.older (s : State) (id : Nat) (q : MemReq) : Bool :=
  let core := s.srcCore q
  s.reqs.any (fun k p => k < id && (
    (p.overlaps q && p.unsent && p.src == q.src && !(q.isLoad && p.isStore && !q.home.away))
    || (q.home.away && p.home == q.home && core.isSome && s.srcCore p == core
        && ((q.isLoad && p.isStore && p.unsent) || (q.reads && p.reads && p.kind != .prefetch && !(match p.kind with
          | .semAcq _ _ => true
          | _ => false))))
    || (p.part = q.part && p.va / 128 = q.va / 128 && p.stage == .waiting && p.home == s.zeroHome q.home && p.home != q.home)))

/-- Whether a request that came to the home before this one, to the same line, has not been served (R286). -/
def State.ahead (s : State) (id : Nat) (q : MemReq) : Bool :=
  s.reqs.any (fun k p => k ≠ id && p.overlaps q && (p.stage == .flight || p.stage == .accepted || p.stage == .acked)
    && (match p.via.arr, q.via.arr with
      | some a, some b => a < b
      | _, _ => false))

/-- The home slice of a request, for a home on this device. -/
def State.reqSlice (s : State) (q : MemReq) : Option Nat :=
  match q.home with
  | .dev n => some (s.sliceOf ⟨false, n⟩)
  | .host n => some (s.sliceOf ⟨true, n⟩)
  | .peer _ _ _ => none

/-- The class of a request in a slice's queue: the host port's, an LBX port's, the Hithen cache's, or an engine's (R286). -/
def MemReq.queueClass (q : MemReq) : Nat :=
  match q.src with
  | .outer a _ _ => if a = 0 then 0 else if a = 1 then 2 else 1
  | _ => 3

/-- The entries of a slice's request queue that each class has to itself (R286). -/
def queueShare : List Nat := [32, 16, 8, 0]

/-- Whether the request queue of a request's home slice has an entry for it (R286); granted waits and queued waiters hold none. -/
def State.queueRoom (s : State) (q : MemReq) : Bool :=
  let here := (s.reqs.rows.filter (fun r => r.2.via.arr.isSome && s.reqSlice r.2 = s.reqSlice q && (match r.2.stage, r.2.kind with
    | .flight, _ => true
    | .accepted, _ => true
    | .acked, _ => true
    | .waiting, .semAcq _ _ => false
    | .waiting, _ => true
    | _, _ => false))).map (fun r => r.2.queueClass)
  let used := fun c => (here.filter (fun k => k = c)).length
  let c := q.queueClass
  used c < queueShare.getD c 0
    || ((List.range 4).map (fun k => used k - queueShare.getD k 0)).foldl (· + ·) 0 < 200

/-- A request reaches its home on this device: what it carries lets it out, it crosses the hinge where it must, and it enters its slice's
queue; `none` while it waits. -/
def State.arriveReq (s : State) (id : Nat) : Option State :=
  match s.reqs.get? id with
  | none => none
  | some q =>
    if q.home.away || !q.unsent || !s.released q.via || s.older id q then none
    else match s.cross q with
      | none => none
      | some (s, q') =>
        if !s.queueRoom q' then if q'.via.leaf = q.via.leaf then none else some (s.setReq id q')
        else some ({ s with nextId := s.nextId + 1 }.setReq id { q' with via := { q'.via with arr := some s.nextId } })

/-- A request at its home; `none` when it waits there unserved (R257, R271, R273, R286). -/
def State.serveReq (s : State) (id : Nat) : Option State :=
  match s.reqs.get? id with
  | none => none
  | some q =>
    if q.stage ≠ .flight && q.stage ≠ .acked && q.stage ≠ .accepted then none
    else if s.poolFailed q.part q.va && !q.outer then some (s.reqFail id q .stateLost)
    else match q.home with
      | .peer d e n =>
        if s.older id q || !s.released q.via then none
        else (s.cross q).bind (fun r => r.1.servePeer id r.2 d e n)
      | .host n => if q.via.arr.isNone || s.ahead id q then none else s.serveHost id q n
      | .dev n =>
        if q.via.arr.isNone || s.ahead id q then none
        else
          let reads := q.isRead
          let line := s.lineOfReq q n
          let s := s.tssMeet line
          let at0 := s.zeroHome (.dev line)
          if !reads && at0 ≠ .dev line && !s.fromTwin q then match at0 with
            | .peer d e k => s.servePeer id { q with home := at0 } d e k
            | _ => none
          else if s.lineBusy id line then none
          else match q.kind with
            | .spent => s.serveSpent id q line
            | .tile _ _ _ => none
            | _ => if reads then s.serveRead id q line else s.serveWrite id q line

/-- A request brought to its home and served there, as far as it can go. -/
def State.advance (s : State) (id : Nat) : State :=
  let s := (s.arriveReq id).getD s
  (s.serveReq id).getD s

/-- The command that delivers a request: nothing happens unless it is one of the kind that the command carries. -/
def deliver (id : Nat) (p : MemReq → Bool) (s : State) : Out :=
  match s.reqs.get? id with
  | none => .next s
  | some q => if p q && !s.fw.fatal then .next (s.advance id) else .next s

/-- The line and partition address that a peer's request names, when the port admits it (R501): the export exists, is not being
removed, covers the access, lists the peer and grants the right; or the pair table admits trunk traffic. -/
def State.admitPeer (s : State) (m : PeerMsg) (len : Nat) (write : Bool) : Option (Nat × Nat × Nat) :=
  let at_ := match m.exp with
    | some x => match s.lbx.exports.get? x.val with
      | some e =>
        if e.closing.isNone && e.peers.getLsbD m.d.val && m.off + len ≤ e.length && (!write || e.rw) then some (e.part, e.va + m.off)
        else none
      | none => none
    | none =>
      if s.lbx.twin && m.d.val = s.twinNum && s.pair.state ≠ .unpaired && s.pair.pairs.any (fun p => p.1 = m.part.val) then
        some (m.part.val, m.off)
      else none
  match at_ with
  | none => none
  | some (p, va) => match s.locate p va with
    | some (.dev n, rw) => if !write || rw then some (p, va, n) else none
    | _ => none

/-- A request that the port refuses is answered RspErr (R501). -/
def State.refusePeer (s : State) (m : PeerMsg) : State :=
  let k := (s.peerPort m.d.val (m.off / 2048)).getD 0
  let p := s.port k
  (s.setPort k { p with rspErrs := p.rspErrs + 1 }).toPeer m.d.val m.off .rspErr [m.tag] []

/-- Whether the port that a peer's request comes by has a REQ buffer for it (R494): 64, held by requests that wait to enter their home's
queue. -/
def State.requestRoom (s : State) (m : PeerMsg) : Bool :=
  let p := s.peerPort m.d.val (m.off / 2048)
  (s.reqs.rows.filter (fun r => r.2.unsent && (match r.2.src with
    | .outer a _ _ => a = 2 + m.d.val && s.inPort r.2 = p
    | _ => false))).length < 64

/-- A peer's request arrives: it becomes a request of its home, which serves it or holds it. Nothing arrives from a device to which
no port runs, or without a buffer. -/
def arrive (m : PeerMsg) (len : Nat) (write : Bool) (kind : Nat → ReqKind) (s : State) : Out :=
  if s.portGroup m.d.val = [] || s.fw.fatal || !s.requestRoom m then .next s
  else match s.admitPeer m len write with
    | none => .next (s.refusePeer m)
    | some (p, va, n) =>
      let r := s.addReq ⟨.outer (2 + m.d.val) m.tag (m.exp.map (·.val)), p, va, .dev n, kind (va % 128), 0, .flight, 0, .free⟩
      .next (r.2.advance r.1)

/-- RD: an engine's or a peer's read (R253, R258, R503). -/
def execRd (q : ReadMsg) (s : State) : Out :=
  match q with
  | .held id => deliver id (fun q => match q.kind with
      | .load _ _ _ _ _ _ => true
      | .prefetch => true
      | .read _ none => true
      | _ => false) s
  | .peer m need => arrive m 1 false (fun _ => .read need none) s

/-- A read of the Hithen controller's cache or of a peer. -/
def outerRead (q : OuterMsg) (cache : Option Bool) (s : State) : Out :=
  match q with
  | .held id => deliver id (fun q => match q.kind with
      | .read _ c => c == cache
      | _ => false) s
  | .hithen line tag =>
    if (s.placeOf (line * 128)).isNone then .next s
    else
      let p := match s.setOfLine line with
        | some (_, ⟨_, _, _, _, .part p, _, _⟩) => p
        | _ => 30
      let r := s.addReq ⟨.outer 1 tag none, p, 128 * line, .dev line, .read 0xF cache, 0, .flight, 0, .free⟩
      .next (r.2.advance r.1)
  | .peer m need => arrive m 1 false (fun _ => .read need cache) s

/-- RDS (Table 8-10). -/
def execRds (q : OuterMsg) (s : State) : Out := outerRead q (some false) s
/-- RDO (Table 8-10). -/
def execRdo (q : OuterMsg) (s : State) : Out := outerRead q (some true) s
/-- RDNA (R269). -/
def execRdna (q : OuterMsg) (s : State) : Out := outerRead q none s

/-- ATOM: at its home, at every scope (R237). -/
def execAtom (q : AtomMsg) (s : State) : Out :=
  match q with
  | .held id => deliver id (fun q => match q.kind with
      | .atom _ _ _ _ => true
      | _ => false) s
  | .peer m op size arg new ret =>
    let o := [AtomOp.addI, .minS, .minU, .maxS, .maxU, .and, .or, .xor, .exch, .cas, .addF].getD op.val .addI
    arrive m size.val true (fun off => .atom o size.val [⟨0, off, arg.toNat, new.toNat⟩] (if ret then some 0 else none)) s

/-- SPENT (R264, R265). -/
def execSpent (q : SpentMsg) (s : State) : Out :=
  match q with
  | .held id => deliver id (fun q => q.kind == .spent) s
  | .peer m => arrive m 1 true (fun _ => .spent) s

/-- SEM_ACQ_REQUEST: the wait joins the word's waiters (R131). -/
def execSemAcqRequest (q : SemMsg) (s : State) : Out :=
  match q with
  | .held id => deliver id (fun q => match q.kind with
      | .semAcq _ _ => true
      | _ => false) s
  | .peer m n => arrive m 8 true (fun off => .semAcq off n.toNat) s

/-- SEM_REL_REQUEST: the add, and the waiters evaluated again (R130, R131). -/
def execSemRelRequest (q : SemMsg) (s : State) : Out :=
  match q with
  | .held id => deliver id (fun q => match q.kind with
      | .semRel _ _ => true
      | _ => false) s
  | .peer m n => arrive m 8 true (fun off => .semRel off n.toNat) s

/-- SIG: a peer's signal at its home: a write, or an add that behaves as SEM.REL (R425). -/
def execSig (m : PeerMsg) (value : DWord) (add : Bool) (s : State) : Out :=
  arrive m 8 true (fun off =>
    if add then .semRel off value.toNat else .store (lineOf off value.toNat) (byteMask off 8)) s

end Sys2Proof.Machine
end

