-- ==== Sys2Proof/Machine/Barriers.lean ====
section
/-! DEFINITION. Barrier phases, the ends of groups and token slots (R93, R117, R122 to R127, R145), shared by control,
synchronisation and the asynchronous instructions. -/

namespace Sys2Proof.Machine

/-- A group whose exit is complete: it ends when every token slot is empty (R93) and its footprint is released (R145). Its MXF entries, which
carry no token, stay in the queue and find an empty footprint (DESIGN CHOICE, log 107). -/
def Group.tryEnd (g : Group) : Group :=
  if g.hold = .exit ∧ g.tokens.rows = [] then { g with hold := .ended, foot := Foot.empty } else g

/-- One asynchronous instruction of a slot completes (R93). -/
def Group.tokenDone (g : Group) (slot : Nat) : Group :=
  Group.tryEnd { g with tokens := g.tokens.put 0 slot (g.tokens.get 0 slot - 1) }

/-- The threads a phase in progress expects: its count, or the live threads for an uncounted phase (R122, R126). -/
def Block.expected (b : Block) (count : Nat) : Nat := if count = 0 then b.liveThreads else count

/-- The groups held on a barrier released (R125). -/
def Block.release (b : Block) (id : Nat) : Block :=
  { b with groups := b.groups.map (fun g =>
      match g.hold with
      | .bar k _ _ => if k = id then { g with hold := .none } else g
      | _ => g) }

/-- A barrier evaluated: a phase whose arrivals reach its expected count completes (R125); what a TLD wrote is then
visible to every group, where its group had waited on the token (R151). -/
def Block.settleBar (b : Block) (id : Nat) : Block :=
  let r := b.bars.get Barrier.init id
  match r.opened with
  | none => b
  | some c =>
    if b.expected c ≤ r.arrivals then
      { (b.release id) with bars := b.bars.put Barrier.init id Barrier.init, veils := b.veils.filter (fun v => !v.waited) }
    else b

/-- Every barrier evaluated, as at an exit (R125, R126). -/
def Block.settleBars (b : Block) : Block := (List.range 16).foldl Block.settleBar b

/-- An arrival of `n` threads at a barrier; the first of a phase fixes its count (R123, R124). -/
def Block.arrive (b : Block) (id n count : Nat) : Block :=
  let r := b.bars.get Barrier.init id
  { b with bars := b.bars.put Barrier.init id ⟨r.arrivals + n, some (r.opened.getD count)⟩ }

/-- The stack unwound until an entry yields a live lane (R117): the group's masks, program counter and stack, or its
end when the stack empties. Lanes that were suspended at a JOIN with no JOIN entry below are in no entry: they stay live (DESIGN CHOICE, log
104). -/
def Group.unwind (g : Group) : List StackEntry → Group
  | [] => Group.tryEnd { g with stack := [], active := 0, hold := .exit }
  | e :: t =>
    let m := e.mask &&& g.live
    if m = 0 then g.unwind t
    else { g with stack := t, active := m, pc := if e.kind = .join then e.addr + 8 else e.addr }

end Sys2Proof.Machine
end

