-- ==== Sys2Proof/Machine/Valu.lean ====
section
/-! DEFINITION. Vector ALU instructions (R108, Tables 3-14 to 3-16). -/

namespace Sys2Proof.Machine

/-- A VALU operation on A. -/
def valu1 (f : Word → Word) (x : Ctx) : Except Stop State := do
  let a ← x.srcA
  x.write32 (fun l => f (a l))

/-- A VALU operation on A and B. -/
def valu2 (f : Word → Word → Word) (x : Ctx) : Except Stop State := do
  let a ← x.srcA
  let b ← x.srcB
  x.write32 (fun l => f (a l) (b l))

/-- A VALU operation on A, B and C. -/
def valu3 (f : Word → Word → Word → Word) (x : Ctx) : Except Stop State := do
  let a ← x.srcA
  let b ← x.srcB
  let c ← x.srcC
  x.write32 (fun l => f (a l) (b l) (c l))

/-- A VALU operation on pairs A and B with a pair result. -/
def valuPair (f : DWord → DWord → DWord) (x : Ctx) : Except Stop State := do
  let a ← x.pairA
  let b ← x.pairB
  x.write64 (fun l => f (a l) (b l))

/-- A VALU operation on A, B and pair C with a pair result. -/
def valuWide (f : Word → Word → DWord → DWord) (x : Ctx) : Except Stop State := do
  let a ← x.srcA
  let b ← x.srcB
  let c ← x.pairC
  x.write64 (fun l => f (a l) (b l) (c l))

/-- FTZ (Table 3-14). -/
def insFtz (i : Ins) : Bool := i.mod.getLsbD 3

/-- The format of a paired operation by BF (Table 3-14). -/
def insHalf (i : Ins) : FFmt := if i.mod.getLsbD 4 then .bf16 else .fp16

/-- CC (Table 3-14). -/
def insCc (i : Ins) : Nat := field i.mod 5 4

/-- PSRC (Table 3-14). -/
def insPsrc (i : Ins) : Nat := field i.mod 9 3

/-- An FP32 operation on exact values, rounded once (R207). -/
def fp1 (ftz : Bool) (f : FVal → FVal) (a : Word) : Word :=
  BitVec.ofNat 32 (vecOut .fp32 ftz (f (vecIn .fp32 ftz a.toNat)))

/-- A two-operand FP32 operation. -/
def fp2 (ftz : Bool) (f : FVal → FVal → FVal) (a b : Word) : Word :=
  BitVec.ofNat 32 (vecOut .fp32 ftz (f (vecIn .fp32 ftz a.toNat) (vecIn .fp32 ftz b.toNat)))

/-- A three-operand FP32 operation. -/
def fp3 (ftz : Bool) (f : FVal → FVal → FVal → FVal) (a b c : Word) : Word :=
  BitVec.ofNat 32
    (vecOut .fp32 ftz (f (vecIn .fp32 ftz a.toNat) (vecIn .fp32 ftz b.toNat) (vecIn .fp32 ftz c.toNat)))

/-- An operation on each 16-bit half (R208). -/
def halves (f : Nat → Nat → Nat → Nat) (a b c : Word) : Word :=
  BitVec.ofNat 32 (f (field a 0 16) (field b 0 16) (field c 0 16)
    + 65536 * f (field a 16 16) (field b 16 16) (field c 16 16))

/-- A paired operation on exact values, each half rounded to its own format (R208). -/
def hp2 (h : FFmt) (ftz : Bool) (f : FVal → FVal → FVal) (a b : Word) : Word :=
  halves (fun p q _ => vecOut h ftz (f (vecIn h ftz p) (vecIn h ftz q))) a b 0

/-- A paired operation on three operands. -/
def hp3 (h : FFmt) (ftz : Bool) (f : FVal → FVal → FVal → FVal) (a b c : Word) : Word :=
  halves (fun p q r => vecOut h ftz (f (vecIn h ftz p) (vecIn h ftz q) (vecIn h ftz r))) a b c

/-- The field of B that BFE and BFI use: position and length (Table 3-15). -/
def bitFieldOf (b : Word) : Nat × Nat := (field b 0 5, min (field b 8 6) 32)

/-- BFE.U. -/
def bfeU (a b : Word) : Word := BitVec.ofNat 32 ((a.toNat >>> (bitFieldOf b).1) % 2 ^ (bitFieldOf b).2)

/-- BFE.S: bits beyond 31 read as zero, so a field that passes bit 31 is not negative. -/
def bfeS (a b : Word) : Word :=
  let n := (bitFieldOf b).2
  if n = 0 then 0 else BitVec.ofNat 32 (wrapInt 32 (signedOf n (a.toNat >>> (bitFieldOf b).1)))

/-- BFI. -/
def bfi (a b c : Word) : Word :=
  let p := (bitFieldOf b).1
  let n := (bitFieldOf b).2
  let m := BitVec.ofNat 32 ((2 ^ n - 1) <<< p)
  (c &&& ~~~m) ||| (BitVec.ofNat 32 (a.toNat <<< p) &&& m)

/-- Leading zero bits; 32 for 0. -/
def clz32 (a : Word) : Word := if a = 0 then 32 else BitVec.ofNat 32 (31 - Nat.log2 a.toNat)

/-- The value of a uniform special register of Table 3-2, 0 for any other index (R72), and the state after the read:
the oscillator counts are free values (log 4). -/
def Ctx.special (x : Ctx) (idx : Nat) : Word × State :=
  let t := x.t
  let gx := max t.gridX 1
  let gy := max t.gridY 1
  match idx with
  | 0x02 => (BitVec.ofNat 32 x.r.group.val, x.s)
  | 0x03 => (BitVec.ofNat 32 (x.b.linear % gx), x.s)
  | 0x04 => (BitVec.ofNat 32 (x.b.linear / gx % gy), x.s)
  | 0x05 => (BitVec.ofNat 32 (x.b.linear / gx / gy), x.s)
  | 0x06 => (BitVec.ofNat 32 t.gridX, x.s)
  | 0x07 => (BitVec.ofNat 32 t.gridY, x.s)
  | 0x08 => (BitVec.ofNat 32 t.gridZ, x.s)
  | 0x09 => (t.identity.setWidth 32, x.s)
  | 0x0A => ((t.identity >>> 32).setWidth 32, x.s)
  | 0x0B => (t.seed, x.s)
  | 0x0C =>
    (if (x.s.part t.part).confidential then 0xFFFFFFFF
     else BitVec.ofNat 32 (x.b.subCore x.r.group.val), x.s)
  | 0x0D => ((x.s.takeFree.1).setWidth 32, x.s.takeFree.2)
  | 0x0E => ((x.s.takeFree.1 >>> 32).setWidth 32, x.s.takeFree.2)
  | 0x0F => (BitVec.ofNat 32 x.b.lmemSize, x.s)
  | _ => (0, x.s)

/-- A special function (R209): the device's own value where it lies within 2 units in the last place of the exact
result, otherwise the exact result rounded (log 12). -/
def sfuWord (op : Sfu) (code : Nat) (ftz : Bool) (a : Word) : Word :=
  let e := op.exact (vecIn .fp32 ftz a.toNat)
  let c := (Config.sfu code a).toNat
  let r := if within2Ulp e c then c else convertTo .fp32 .rne false true e
  BitVec.ofNat 32 (if ftz then FFmt.fp32.flush r else r)

/-- CVT of one element: the source's low bits read as SFMT, converted once, placed in the low bits (Table 3-15). -/
def cvtWord (src dst : EFmt) (rtz sat uns ftz : Bool) (a : Word) : Word :=
  let code := a.toNat % 2 ^ src.bits
  let v := match src with
    | .flt f => vecIn f ftz code
    | _ => src.decode (!uns) code
  let md : Rnd := if rtz then .rtz else .rne
  match dst with
  | .flt f =>
    let c := convertTo f md sat f.keepsSub v
    BitVec.ofNat 32 (if ftz then f.flush c else c)
  | _ =>
    let r := intRange dst.bits (!uns)
    BitVec.ofNat 32 (wrapInt 32 (convertInt md r.1 r.2 v))

/-- The lane a shuffle reads from; a source outside 0 to 31, or not selected, gives the lane itself. -/
def shflLane (sel : Mask) (l : Nat) (src : Int) : Nat :=
  if 0 ≤ src ∧ src < 32 ∧ sel.getLsbD src.toNat then src.toNat else l

/-- A shuffle whose source lane is `f lane b`. -/
def shuffle (f : Nat → Word → Int) (x : Ctx) : Except Stop State := do
  let a ← x.srcA
  let b ← x.srcB
  x.write32 (fun l => a (shflLane x.sel l (f l (b l))))

/-- A comparison into a predicate; a code that Table 3-16 does not give ends the task. -/
def setPred (r : Nat → Option Bool) (x : Ctx) : Except Stop State := do
  require ((r 0).isSome)
  x.writeP (fun l => (r l).getD false)

/-- IADD: A + B modulo 2^32. -/
def execIadd (g : GroupRef) (i : Ins) (s : State) : Out := issue g i (valu2 (fun a b => a + b)) s
/-- ISUB. -/
def execIsub (g : GroupRef) (i : Ins) (s : State) : Out := issue g i (valu2 (fun a b => a - b)) s
/-- IMUL: the low 32 bits of the product. -/
def execImul (g : GroupRef) (i : Ins) (s : State) : Out := issue g i (valu2 (fun a b => a * b)) s
/-- IMULHI.S. -/
def execImulhiS (g : GroupRef) (i : Ins) (s : State) : Out :=
  issue g i (valu2 (fun a b => BitVec.ofInt 32 (a.toInt * b.toInt / 2 ^ 32))) s
/-- IMULHI.U. -/
def execImulhiU (g : GroupRef) (i : Ins) (s : State) : Out :=
  issue g i (valu2 (fun a b => BitVec.ofNat 32 (a.toNat * b.toNat / 2 ^ 32))) s
/-- IMAD. -/
def execImad (g : GroupRef) (i : Ins) (s : State) : Out := issue g i (valu3 (fun a b c => a * b + c)) s
/-- IMIN.S. -/
def execIminS (g : GroupRef) (i : Ins) (s : State) : Out := issue g i (valu2 (fun a b => if b.slt a then b else a)) s
/-- IMIN.U. -/
def execIminU (g : GroupRef) (i : Ins) (s : State) : Out := issue g i (valu2 (fun a b => if b.ult a then b else a)) s
/-- IMAX.S. -/
def execImaxS (g : GroupRef) (i : Ins) (s : State) : Out := issue g i (valu2 (fun a b => if a.slt b then b else a)) s
/-- IMAX.U. -/
def execImaxU (g : GroupRef) (i : Ins) (s : State) : Out := issue g i (valu2 (fun a b => if a.ult b then b else a)) s
/-- IABS: 0x8000_0000 stays as it is. -/
def execIabs (g : GroupRef) (i : Ins) (s : State) : Out := issue g i (valu1 (fun a => if a.msb then -a else a)) s
/-- IADD64. -/
def execIadd64 (g : GroupRef) (i : Ins) (s : State) : Out := issue g i (valuPair (fun a b => a + b)) s
/-- ISUB64. -/
def execIsub64 (g : GroupRef) (i : Ins) (s : State) : Out := issue g i (valuPair (fun a b => a - b)) s
/-- IMADW.U. -/
def execImadwU (g : GroupRef) (i : Ins) (s : State) : Out :=
  issue g i (valuWide (fun a b c => a.setWidth 64 * b.setWidth 64 + c)) s
/-- IMADW.S. -/
def execImadwS (g : GroupRef) (i : Ins) (s : State) : Out :=
  issue g i (valuWide (fun a b c => a.signExtend 64 * b.signExtend 64 + c)) s
/-- FADD (R207). -/
def execFadd (g : GroupRef) (i : Ins) (s : State) : Out := issue g i (valu2 (fp2 (insFtz i) FVal.add)) s
/-- FSUB. -/
def execFsub (g : GroupRef) (i : Ins) (s : State) : Out :=
  issue g i (valu2 (fp2 (insFtz i) (fun a b => a.add b.neg))) s
/-- FMUL. -/
def execFmul (g : GroupRef) (i : Ins) (s : State) : Out := issue g i (valu2 (fp2 (insFtz i) FVal.mul)) s
/-- FFMA, rounded once. -/
def execFfma (g : GroupRef) (i : Ins) (s : State) : Out :=
  issue g i (valu3 (fp3 (insFtz i) (fun a b c => (a.mul b).add c))) s
/-- FMIN. -/
def execFmin (g : GroupRef) (i : Ins) (s : State) : Out :=
  issue g i (valu2 (fun a b => BitVec.ofNat 32 (fminmax .fp32 (insFtz i) false a.toNat b.toNat))) s
/-- FMAX. -/
def execFmax (g : GroupRef) (i : Ins) (s : State) : Out :=
  issue g i (valu2 (fun a b => BitVec.ofNat 32 (fminmax .fp32 (insFtz i) true a.toNat b.toNat))) s
/-- FABS: the sign bit cleared; a NaN gives the canonical NaN. -/
def execFabs (g : GroupRef) (i : Ins) (s : State) : Out :=
  issue g i (valu1 (fp1 (insFtz i) (fun v => if v.isNeg then v.neg else v))) s
/-- FNEG: the sign bit inverted; a NaN gives the canonical NaN. -/
def execFneg (g : GroupRef) (i : Ins) (s : State) : Out := issue g i (valu1 (fp1 (insFtz i) FVal.neg)) s
/-- FRINT. -/
def execFrint (g : GroupRef) (i : Ins) (s : State) : Out :=
  issue g i (valu1 (fp1 (insFtz i) (FVal.integral .nearest))) s
/-- FTRUNC. -/
def execFtrunc (g : GroupRef) (i : Ins) (s : State) : Out :=
  issue g i (valu1 (fp1 (insFtz i) (FVal.integral .trunc))) s
/-- FFLOOR. -/
def execFfloor (g : GroupRef) (i : Ins) (s : State) : Out :=
  issue g i (valu1 (fp1 (insFtz i) (FVal.integral .floor))) s
/-- FCEIL. -/
def execFceil (g : GroupRef) (i : Ins) (s : State) : Out :=
  issue g i (valu1 (fp1 (insFtz i) (FVal.integral .ceil))) s
/-- HADD2 (R208). -/
def execHadd2 (g : GroupRef) (i : Ins) (s : State) : Out :=
  issue g i (valu2 (hp2 (insHalf i) (insFtz i) FVal.add)) s
/-- HSUB2. -/
def execHsub2 (g : GroupRef) (i : Ins) (s : State) : Out :=
  issue g i (valu2 (hp2 (insHalf i) (insFtz i) (fun a b => a.add b.neg))) s
/-- HMUL2. -/
def execHmul2 (g : GroupRef) (i : Ins) (s : State) : Out :=
  issue g i (valu2 (hp2 (insHalf i) (insFtz i) FVal.mul)) s
/-- HFMA2. -/
def execHfma2 (g : GroupRef) (i : Ins) (s : State) : Out :=
  issue g i (valu3 (hp3 (insHalf i) (insFtz i) (fun a b c => (a.mul b).add c))) s
/-- HMIN2. -/
def execHmin2 (g : GroupRef) (i : Ins) (s : State) : Out :=
  issue g i (valu2 (fun a b => halves (fun p q _ => fminmax (insHalf i) (insFtz i) false p q) a b 0)) s
/-- HMAX2. -/
def execHmax2 (g : GroupRef) (i : Ins) (s : State) : Out :=
  issue g i (valu2 (fun a b => halves (fun p q _ => fminmax (insHalf i) (insFtz i) true p q) a b 0)) s
/-- ISETP. -/
def execIsetp (g : GroupRef) (i : Ins) (s : State) : Out :=
  issue g i (fun x => do
    let a ← x.srcA
    let b ← x.srcB
    setPred (fun l => intCompare (insCc i) (a l) (b l)) x) s
/-- ISETP64. -/
def execIsetp64 (g : GroupRef) (i : Ins) (s : State) : Out :=
  issue g i (fun x => do
    let a ← x.pairA
    let b ← x.pairB
    setPred (fun l => intCompare (insCc i) (a l) (b l)) x) s
/-- FSETP; FTZ is ignored in its family. -/
def execFsetp (g : GroupRef) (i : Ins) (s : State) : Out :=
  issue g i (fun x => do
    let a ← x.srcA
    let b ← x.srcB
    setPred (fun l => floatCompare (insCc i) (FFmt.fp32.decode (a l).toNat) (FFmt.fp32.decode (b l).toNat)) x) s
/-- SEL: A where PSRC is true, otherwise B. -/
def execSel (g : GroupRef) (i : Ins) (s : State) : Out :=
  issue g i (fun x => do
    let a ← x.srcA
    let b ← x.srcB
    x.write32 (fun l => if (x.g.pred (insPsrc i)).getLsbD l then a l else b l)) s
/-- The predicate that SRC_B names, or that the immediate in its place names (R84; DESIGN CHOICE, log 97); above 7 the task ends. -/
def Ctx.predB (x : Ctx) : Except Stop Nat :=
  match insImmValue x.i with
  | some w => do
    require (w.toNat ≤ 7)
    pure w.toNat
  | none => x.pField x.i.b

/-- PLOP: a logic function of the predicates that SRC_A and SRC_B name; an immediate names the second (DESIGN CHOICE, log 97). -/
def execPlop (g : GroupRef) (i : Ins) (s : State) : Out :=
  issue g i (fun x => do
    let p ← x.pField i.a
    let q ← x.predB
    setPred (fun l => predLogic (insCc i) ((x.g.pred p).getLsbD l) ((x.g.pred q).getLsbD l)) x) s
/-- P2V: 1 where PSRC is true. -/
def execP2v (g : GroupRef) (i : Ins) (s : State) : Out :=
  issue g i (fun x => x.write32 (fun l => if (x.g.pred (insPsrc i)).getLsbD l then 1 else 0)) s
/-- V2P: the predicate A ≠ 0. -/
def execV2p (g : GroupRef) (i : Ins) (s : State) : Out :=
  issue g i (fun x => do
    let a ← x.srcA
    x.writeP (fun l => a l != 0)) s
/-- AND. -/
def execAnd (g : GroupRef) (i : Ins) (s : State) : Out := issue g i (valu2 (fun a b => a &&& b)) s
/-- OR. -/
def execOr (g : GroupRef) (i : Ins) (s : State) : Out := issue g i (valu2 (fun a b => a ||| b)) s
/-- XOR. -/
def execXor (g : GroupRef) (i : Ins) (s : State) : Out := issue g i (valu2 (fun a b => a ^^^ b)) s
/-- NOT. -/
def execNot (g : GroupRef) (i : Ins) (s : State) : Out := issue g i (valu1 (fun a => ~~~a)) s
/-- SHL: by B mod 32. -/
def execShl (g : GroupRef) (i : Ins) (s : State) : Out :=
  issue g i (valu2 (fun a b => a <<< (b.toNat % 32))) s
/-- SHR.U. -/
def execShrU (g : GroupRef) (i : Ins) (s : State) : Out :=
  issue g i (valu2 (fun a b => a >>> (b.toNat % 32))) s
/-- SHR.S. -/
def execShrS (g : GroupRef) (i : Ins) (s : State) : Out :=
  issue g i (valu2 (fun a b => a.sshiftRight (b.toNat % 32))) s
/-- BFE.U. -/
def execBfeU (g : GroupRef) (i : Ins) (s : State) : Out := issue g i (valu2 bfeU) s
/-- BFE.S. -/
def execBfeS (g : GroupRef) (i : Ins) (s : State) : Out := issue g i (valu2 bfeS) s
/-- BFI. -/
def execBfi (g : GroupRef) (i : Ins) (s : State) : Out := issue g i (valu3 bfi) s
/-- POPC. -/
def execPopc (g : GroupRef) (i : Ins) (s : State) : Out :=
  issue g i (valu1 (fun a => BitVec.ofNat 32 (popCount 32 a.toNat))) s
/-- CLZ. -/
def execClz (g : GroupRef) (i : Ins) (s : State) : Out := issue g i (valu1 clz32) s
/-- BREV. -/
def execBrev (g : GroupRef) (i : Ins) (s : State) : Out := issue g i (valu1 bitReverse) s
/-- MOV. -/
def execMov (g : GroupRef) (i : Ins) (s : State) : Out := issue g i (valu1 (fun a => a)) s
/-- MOV64. -/
def execMov64 (g : GroupRef) (i : Ins) (s : State) : Out :=
  issue g i (fun x => do
    let a ← x.pairA
    x.write64 a) s
/-- S2V: the special register that the SRC_A field names (Table 3-2), LANE and TID per lane. -/
def execS2v (g : GroupRef) (i : Ins) (s : State) : Out :=
  issue g i (fun x => do
    let n ← x.vTuple 1 i.dst
    let v := x.special i.a.toNat
    let f : Nat → Word := fun l =>
      match i.a.toNat with
      | 0 => BitVec.ofNat 32 l
      | 1 => BitVec.ofNat 32 (32 * x.r.group.val + l)
      | _ => v.1
    x.doneIn v.2 (x.g.putV n x.sel f)) s
/-- CVT (Table 3-15); a reserved format code ends the task. -/
def execCvt (g : GroupRef) (i : Ins) (s : State) : Out :=
  issue g i (fun x => do
    let a ← x.srcA
    match EFmt.ofCode (field i.mod 4 4), EFmt.ofCode (field i.mod 8 4) with
    | some sf, some df =>
      x.write32 (fun l => cvtWord sf df (i.mod.getLsbD 12) (i.mod.getLsbD 13) (i.mod.getLsbD 14) (insFtz i) (a l))
    | _, _ => accessFault) s
/-- CVT2: two FP32 values into BF16 or FP16 halves. -/
def execCvt2 (g : GroupRef) (i : Ins) (s : State) : Out :=
  issue g i (fun x => do
    let a ← x.srcA
    let b ← x.srcB
    let d := field i.mod 8 4
    require (d == 1 || d == 2)
    let f : FFmt := if d = 1 then .bf16 else .fp16
    let one : Word → Nat := fun w =>
      (cvtWord (.flt .fp32) (.flt f) (i.mod.getLsbD 12) (i.mod.getLsbD 13) false (insFtz i) w).toNat
    x.write32 (fun l => BitVec.ofNat 32 (one (a l) + 65536 * one (b l)))) s
/-- RCP (R209). -/
def execRcp (g : GroupRef) (i : Ins) (s : State) : Out := issue g i (valu1 (sfuWord .rcp 0 (insFtz i))) s
/-- RSQ. -/
def execRsq (g : GroupRef) (i : Ins) (s : State) : Out := issue g i (valu1 (sfuWord .rsq 1 (insFtz i))) s
/-- SQRT. -/
def execSqrt (g : GroupRef) (i : Ins) (s : State) : Out := issue g i (valu1 (sfuWord .sqrt 2 (insFtz i))) s
/-- EX2. -/
def execEx2 (g : GroupRef) (i : Ins) (s : State) : Out := issue g i (valu1 (sfuWord .ex2 3 (insFtz i))) s
/-- LG2. -/
def execLg2 (g : GroupRef) (i : Ins) (s : State) : Out := issue g i (valu1 (sfuWord .lg2 4 (insFtz i))) s
/-- SIN. -/
def execSin (g : GroupRef) (i : Ins) (s : State) : Out := issue g i (valu1 (sfuWord .sin 5 (insFtz i))) s
/-- COS. -/
def execCos (g : GroupRef) (i : Ins) (s : State) : Out := issue g i (valu1 (sfuWord .cos 6 (insFtz i))) s
/-- SHFL.IDX: A of lane B[4:0]. -/
def execShflIdx (g : GroupRef) (i : Ins) (s : State) : Out := issue g i (shuffle (fun _ b => (field b 0 5 : Nat))) s
/-- SHFL.UP: A of lane l − B, B read as an unsigned number (DESIGN CHOICE, log 97). -/
def execShflUp (g : GroupRef) (i : Ins) (s : State) : Out :=
  issue g i (shuffle (fun l b => (l : Int) - b.toNat)) s
/-- SHFL.DOWN: A of lane l + B, B read as an unsigned number (DESIGN CHOICE, log 97). -/
def execShflDown (g : GroupRef) (i : Ins) (s : State) : Out :=
  issue g i (shuffle (fun l b => (l : Int) + b.toNat)) s
/-- SHFL.XOR: A of lane l XOR B[4:0]. -/
def execShflXor (g : GroupRef) (i : Ins) (s : State) : Out :=
  issue g i (shuffle (fun l b => ((l ^^^ field b 0 5 : Nat) : Int))) s
/-- VOTE.ALL. -/
def execVoteAll (g : GroupRef) (i : Ins) (s : State) : Out :=
  issue g i (fun x => x.writeP (fun _ => decide (x.sel &&& x.g.pred (insPsrc i) = x.sel))) s
/-- VOTE.ANY. -/
def execVoteAny (g : GroupRef) (i : Ins) (s : State) : Out :=
  issue g i (fun x => x.writeP (fun _ => x.sel &&& x.g.pred (insPsrc i) != 0)) s
/-- VOTE.BALLOT. -/
def execVoteBallot (g : GroupRef) (i : Ins) (s : State) : Out :=
  issue g i (fun x => x.write32 (fun _ => x.sel &&& x.g.pred (insPsrc i))) s

end Sys2Proof.Machine
end

