-- ==== Sys2Proof/Machine/Salu.lean ====
section
/-! DEFINITION. Scalar ALU instructions (R109, Table 3-17): once for the group when some lane is selected. -/

namespace Sys2Proof.Machine

/-- Uniform source B, or the immediate in its place (R84). -/
def Ctx.uB (x : Ctx) : Except Stop Word :=
  match insImmValue x.i with
  | some w => pure (w.setWidth 32)
  | none => x.u32 x.i.b

/-- Uniform pair B, or the immediate. -/
def Ctx.uB64 (x : Ctx) : Except Stop DWord :=
  match insImmValue x.i with
  | some w => pure w
  | none => x.u64 x.i.b

/-- A uniform register written. -/
def Ctx.writeU (x : Ctx) (v : Word) : Except Stop State := do
  let n ← x.uTuple 1 x.i.dst
  x.done (x.g.putU n v)

/-- A uniform register pair written, the low word first. -/
def Ctx.writeU64 (x : Ctx) (v : DWord) : Except Stop State := do
  let n ← x.uTuple 2 x.i.dst
  x.done ((x.g.putU n (v.setWidth 32)).putU (n + 1) ((v >>> 32).setWidth 32))

/-- A SALU operation on A and B. -/
def salu2 (f : Word → Word → Word) (x : Ctx) : Except Stop State :=
  x.forGroup (do
    let a ← x.u32 x.i.a
    let b ← x.uB
    x.writeU (f a b))

/-- UADD. -/
def execUadd (g : GroupRef) (i : Ins) (s : State) : Out := issue g i (salu2 (fun a b => a + b)) s
/-- USUB. -/
def execUsub (g : GroupRef) (i : Ins) (s : State) : Out := issue g i (salu2 (fun a b => a - b)) s
/-- UMUL. -/
def execUmul (g : GroupRef) (i : Ins) (s : State) : Out := issue g i (salu2 (fun a b => a * b)) s
/-- UMIN.S. -/
def execUminS (g : GroupRef) (i : Ins) (s : State) : Out := issue g i (salu2 (fun a b => if b.slt a then b else a)) s
/-- UMIN.U. -/
def execUminU (g : GroupRef) (i : Ins) (s : State) : Out := issue g i (salu2 (fun a b => if b.ult a then b else a)) s
/-- UMAX.S. -/
def execUmaxS (g : GroupRef) (i : Ins) (s : State) : Out := issue g i (salu2 (fun a b => if a.slt b then b else a)) s
/-- UMAX.U. -/
def execUmaxU (g : GroupRef) (i : Ins) (s : State) : Out := issue g i (salu2 (fun a b => if a.ult b then b else a)) s
/-- UAND. -/
def execUand (g : GroupRef) (i : Ins) (s : State) : Out := issue g i (salu2 (fun a b => a &&& b)) s
/-- UOR. -/
def execUor (g : GroupRef) (i : Ins) (s : State) : Out := issue g i (salu2 (fun a b => a ||| b)) s
/-- UXOR. -/
def execUxor (g : GroupRef) (i : Ins) (s : State) : Out := issue g i (salu2 (fun a b => a ^^^ b)) s
/-- USHL. -/
def execUshl (g : GroupRef) (i : Ins) (s : State) : Out := issue g i (salu2 (fun a b => a <<< (b.toNat % 32))) s
/-- USHR.U. -/
def execUshrU (g : GroupRef) (i : Ins) (s : State) : Out := issue g i (salu2 (fun a b => a >>> (b.toNat % 32))) s
/-- USHR.S. -/
def execUshrS (g : GroupRef) (i : Ins) (s : State) : Out :=
  issue g i (salu2 (fun a b => a.sshiftRight (b.toNat % 32))) s
/-- UMOV. -/
def execUmov (g : GroupRef) (i : Ins) (s : State) : Out :=
  issue g i (fun x => x.forGroup (do
    let a ← x.u32 i.a
    x.writeU a)) s
/-- UADD64. -/
def execUadd64 (g : GroupRef) (i : Ins) (s : State) : Out :=
  issue g i (fun x => x.forGroup (do
    let a ← x.u64 i.a
    let b ← x.uB64
    x.writeU64 (a + b))) s
/-- UMOV64. -/
def execUmov64 (g : GroupRef) (i : Ins) (s : State) : Out :=
  issue g i (fun x => x.forGroup (do
    let a ← x.u64 i.a
    x.writeU64 a)) s
/-- USETP: the predicate DST in every lane of the group. -/
def execUsetp (g : GroupRef) (i : Ins) (s : State) : Out :=
  issue g i (fun x => x.forGroup (do
    let a ← x.u32 i.a
    let b ← x.uB
    let p ← x.pField i.dst
    match intCompare (insCc i) a b with
    | none => accessFault
    | some c => x.done (x.g.putPred p (if c then 0xFFFFFFFF else 0)))) s
/-- USEL: A when PSRC is true in the lowest-numbered selected lane, otherwise B. -/
def execUsel (g : GroupRef) (i : Ins) (s : State) : Out :=
  issue g i (fun x => x.forGroup (do
    let a ← x.u32 i.a
    let b ← x.uB
    x.writeU (if (x.g.pred (insPsrc i)).getLsbD (lowestLane x.sel) then a else b))) s
/-- S2U: a per-lane or unlisted special register reads as zero (Table 3-17). -/
def execS2u (g : GroupRef) (i : Ins) (s : State) : Out :=
  issue g i (fun x => x.forGroup (do
    let n ← x.uTuple 1 i.dst
    let v := x.special i.a.toNat
    x.doneIn v.2 (x.g.putU n v.1))) s
/-- R2U, the row LANE_TO_UNIFORM: a vector register of the lowest-numbered selected lane. -/
def execLaneToUniform (g : GroupRef) (i : Ins) (s : State) : Out :=
  issue g i (fun x => x.forGroup (do
    let a ← x.v32 i.a
    x.writeU (a (lowestLane x.sel)))) s
/-- LDP: 1, 2 or 4 uniform registers from the parameter block; bytes at or beyond PARAM_LEN read as zero. -/
def execLdp (g : GroupRef) (i : Ins) (s : State) : Out :=
  issue g i (fun x => x.forGroup (do
    let a ← x.u32 i.a
    let w := field i.mod 3 3
    require (2 ≤ w && w ≤ 4)
    let k := 2 ^ (w - 2)
    let n ← x.uTuple k i.dst
    let off := (a + ((insImmValue i).getD 0).setWidth 32).toNat
    require (off % (4 * k) = 0)
    x.done ((List.range k).foldl
      (fun g j => g.putU (n + j) (BitVec.ofNat 32 (numAt x.t.params (off + 4 * j) 4))) x.g))) s

end Sys2Proof.Machine
end

