-- ==== Sys2Proof/Machine/Sync.lean ====
section
/-! DEFINITION. Barriers, semaphores and fences (R122 to R130, R218 to R223). -/

namespace Sys2Proof.Machine

/-- The operand COUNT of a barrier: SRC_B[10:0], which the second word replaces, or the 16-bit immediate (Table 4-4, R84). -/
def Ctx.barCount (x : Ctx) : Except Stop Nat :=
  match x.i.long with
  | some w => pure (field w 0 11)
  | none => if insImm x.i then pure (insImm16 x.i).toNat else do
      let w ← x.u32 x.i.b
      pure (field w 0 11)

/-- An arrival at a barrier, a release at BLOCK scope (R219); `hold` for BAR.SYNC. -/
def barrier (hold : Bool) (x : Ctx) : Except Stop State :=
  x.forGroup (do
    let id := field x.i.mod 0 4
    let counted := x.i.mod.getLsbD 4
    let c ← if counted then x.barCount else pure 0
    x.gateWrites
    x.released 1
    let first := ((x.b.bars.get Barrier.init id).opened).isNone
    let bad := counted && first && (c = 0 || 32 * x.t.groups < c)
    let count := if counted then (if c = 0 || 32 * x.t.groups < c then 32 * x.t.groups else c) else 0
    let g := { x.g with pc := x.nextPc, hold := if hold then .bar id x.g.pc x.s.nextId else .none }
    let b := ((x.b.putGroup x.r.group.val g).arrive id (popCount 32 x.sel.toNat) count).settleBar id
    let s := { x.s with nextId := x.s.nextId + 1 }.setBlock x.r.block b
    .ok (s.raise x.b.task (clampedIf bad)))

/-- BAR.SYNC: arrives and holds the whole group until the phase completes (R123, R125). -/
def execBarSync (g : GroupRef) (i : Ins) (s : State) : Out := issue g i (barrier true) s
/-- BAR.ARRIVE: arrives without waiting. -/
def execBarArrive (g : GroupRef) (i : Ins) (s : State) : Out := issue g i (barrier false) s

/-- The address and the amount of a semaphore instruction; a bad address ends the task (Table 4-5). -/
def Ctx.semOperands (x : Ctx) : Except Stop (Nat × Home × Nat) := do
  let a ← x.u64 x.i.a
  let n ← match x.i.long with
    | some w => pure (w.toNat % 2 ^ 32)
    | none => if insImm x.i then pure (insImm16 x.i).toNat else do
        let w ← x.u32 x.i.b
        pure w.toNat
  require (addrOk 8 a.toNat)
  match x.s.locate x.t.part a.toNat with
  | some (h, true) => pure (a.toNat, h, n)
  | _ => accessFault

/-- The acquire part of an operation at a scope: PARTITION and SYSTEM invalidate the issuing core's L1 (Table 7-3). -/
def State.acquire (s : State) (core scope : Nat) : State := if 2 ≤ scope then s.l1Invalidate core else s

/-- SEM.ACQ: a wait queued at the word's home holds the group until its grant; N = 0 completes at once (R129). -/
def execSemAcq (g : GroupRef) (i : Ins) (s : State) : Out :=
  issue g i (fun x => x.forGroup (do
    let o ← x.semOperands
    x.gateAll
    let scope := field i.mod 0 2
    if o.2.2 = 0 then do
      await ((s.readSet g).isEmpty)
      x.doneIn (s.acquire x.b.core scope) x.g
    else
      let r := (s.noteAccess x.b.task x.t.part o.1 o.2.1).addReq
        ⟨.grp g.block g.group.val, x.t.part, o.1, o.2.1, .semAcq (o.1 % 128) o.2.2, scope, .flight, x.g.pc, x.held⟩
      .ok (r.2.putGroup g { x.g with pc := x.nextPc, hold := .sem r.1 s.nextId }))) s

/-- SEM.REL: an add at the word's home, which waits for a release at SCOPE (R130, R219). -/
def execSemRel (g : GroupRef) (i : Ins) (s : State) : Out :=
  issue g i (fun x => x.forGroup (do
    let o ← x.semOperands
    x.gateAll
    let s1 := (s.noteAccess x.b.task x.t.part o.1 o.2.1).l1Drop x.b.core o.2.1
    let r := s1.addReq
      ⟨.grp g.block g.group.val, x.t.part, o.1, o.2.1, .semRel (o.1 % 128) o.2.2, 0, .flight, x.g.pc, x.heldAt (field i.mod 0 2)⟩
    x.doneIn r.2 x.g)) s

/-- NOINV of a fence (Table 7-4). -/
def insNoInv (i : Ins) : Bool := i.mod.getLsbD 2

/-- FENCE.ACQ: waits for every earlier read of the group, then acts on the L1 unless NOINV (R220, R223). -/
def execFenceAcq (g : GroupRef) (i : Ins) (s : State) : Out :=
  issue g i (fun x => x.forGroup (do
    await ((s.readSet g).isEmpty)
    x.gateAll
    x.doneIn (if insNoInv i then s else s.acquire x.b.core (field i.mod 0 2)) x.g)) s

/-- FENCE.REL: holds later writes until the requests that Table 7-3 names have reached their points (R219). -/
def execFenceRel (g : GroupRef) (i : Ins) (s : State) : Out :=
  issue g i (fun x => x.forGroup
    (if field i.mod 0 2 = 3 then x.done { x.g with gateV := s.releaseSet g 3 ++ s.left x.g.gateV }
     else x.done { x.g with gateW := s.releaseSet g (field i.mod 0 2) ++ s.left x.g.gateW })) s

/-- FENCE.AR: an acquire and a release that also holds later reads for earlier writes (R221). -/
def execFenceAr (g : GroupRef) (i : Ins) (s : State) : Out :=
  issue g i (fun x => x.forGroup (do
    await ((s.readSet g).isEmpty)
    x.released (field i.mod 0 2)
    x.gateWrites
    x.doneIn (if insNoInv i then s else s.acquire x.b.core (field i.mod 0 2)) x.g)) s

/-- LBX.FENCE: holds every later access until the group's earlier writes, atomics and signals homed on another device have
been acknowledged (R222). -/
def execLbxFence (g : GroupRef) (i : Ins) (s : State) : Out :=
  issue g i (fun x => x.forGroup (
    let l := ((s.outstanding g).filter (fun q => q.2.remote && q.2.writes)).map (·.1)
    x.done { x.g with gate := l ++ s.left x.g.gate })) s

end Sys2Proof.Machine
end

