-- ==== Sys2Proof/Machine/Replies.lean ====
section
/-! DEFINITION. Snoops and their answers (R282 to R285), data and acknowledgements that return to their requesters (R82, R90, R212,
R220, R503, R504), and host-memory lines (R131, R286). -/

namespace Sys2Proof.Machine

/-! ## Snoop answers -/

/-- A transaction whose every answer has come: dirty data that returned is merged at the home as a line write, which may wait for the tile
or for room (R284, R289); then the directory takes its next state, the held request is served (R282), and semaphore waiters of the line are
evaluated (R131). -/
def State.closeTxn (s : State) (line : Nat) : State :=
  match s.txns.get? line with
  | none => s
  | some t =>
    if t.awaits ≠ 0 || t.wbDue ≠ 0 || s.tileMoving line then s
    else match (match (if t.drop then none else t.data) with
      | some d => s.lineWrite line d allBytes (.outer 1)
      | none => some s) with
    | none => s
    | some s =>
      let s := { s with txns := s.txns.erase line }.dirPut line t.next
      let s := match t.cause with
        | some id => (s.serveReq id).getD s
        | none => s
      if t.data.isSome then (s.wakeLine (.dev line)).getD s else s

/-- The transactions that hold dirty data tried again, as tiles close and queues drain. -/
def State.retryTxns (s : State) : State := s.txns.keys.foldl State.closeTxn s

/-- An agent's answer taken into a line's transaction: what it keeps decides whether the directory still records it. -/
def Txn.answer (t : Txn) (a : Nat) (keeps due : Bool) : Txn :=
  { t with
    awaits := t.awaits &&& ~~~(agentBit a)
    wbDue := if due then t.wbDue ||| agentBit a else t.wbDue
    next := if keeps then t.next else t.next.map (fun d => { d with agents := d.agents &&& ~~~(agentBit a) }) }

/-- An answer to a snoop arrives: nothing happens unless it is awaited. Its data is always accepted (R289). A WbData that has come already is
not awaited again. -/
def snoopAnswer (a line : Nat) (keeps due : Bool) (data : Option (BitVec 1024)) (s : State) : Out :=
  match s.txns.get? line with
  | none => .next s
  | some t =>
    if !(t.awaits.getLsbD a) then .next s
    else
      let u := t.answer a keeps (due && t.data.isNone)
      .next ({ s with txns := s.txns.set line { u with data := data.or t.data } }.closeTxn line)

/-- Whether an agent other than the Hithen cache answers, or the cache no longer holds the line so that it can. -/
def State.cacheGone (s : State) (a line : Nat) : Bool := a ≠ 1 || (s.cCache.get? line).isNone

/-- Whether an agent that has answered with data keeps a copy: the Hithen cache as its lines say. -/
def State.cacheKeeps (s : State) (a line : Nat) : Bool := a ≠ 1 || (s.cCache.get? line).isSome

/-- RSP_I: the agent holds the line no more. -/
def execRspI (agent : Fin 10) (line : Nat) (s : State) : Out :=
  if agent.val = 0 || !s.cacheGone agent line then .next s else snoopAnswer agent line false false none s
/-- RSP_S: the agent keeps a shared copy. -/
def execRspS (agent : Fin 10) (line : Nat) (s : State) : Out :=
  if agent.val = 0 || (agent.val = 1 && s.cCache.get? line ≠ some false) then .next s
  else snoopAnswer agent line true false none s
/-- RSP_NP: the agent does not hold the line (R283); where its WbData crosses the snoop, that is awaited too (R285). -/
def execRspNp (agent : Fin 10) (line : Nat) (crossing : Bool) (s : State) : Out :=
  if agent.val = 0 || !s.cacheGone agent line then .next s else snoopAnswer agent line false crossing none s
/-- RSP_FWD: dirty data returns with the answer (R284); the Hithen cache, once the snoop has ended its ownership, returns its own. -/
def execRspFwd (agent : Fin 10) (line : Nat) (data : BitVec 1024) (s : State) : Out :=
  if agent.val = 0 || (agent.val = 1 && s.cCache.get? line = some true) then .next s
  else snoopAnswer agent line (s.cacheKeeps agent line) false (some data) s
/-- BIRSP: the host answers a back-invalidate snoop (Table 8-9). -/
def execBirsp (line : Nat) (shared : Bool) (s : State) : Out := snoopAnswer 0 line shared false none s

/-- WB_DATA: an agent writes a dirty line back, which the home always accepts (R289): it was crossed by a snoop (R285), or it ends the agent's
ownership (Table 8-10). -/
def execWbData (agent : Fin 10) (line : Nat) (data : BitVec 1024) (s : State) : Out :=
  let a := agent.val
  match s.txns.get? line with
  | some t =>
    if !((t.awaits ||| t.wbDue).getLsbD a) then .next s
    else .next ({ s with txns := s.txns.set line { t with wbDue := t.wbDue &&& ~~~(agentBit a), data := some data } }.closeTxn line)
  | none =>
    match s.dir.get? line with
    | some d =>
      if d.excl && d.agents = agentBit a then
        let c := if a = 1 then s.cCache.erase line else s.cCache
        .next ({ s with cCache := c, txns := s.txns.set line ⟨0, 0, none, false, none, some data⟩ }.closeTxn line)
      else .next s
    | none => .next s

/-- A snoop received by the Hithen controller's cache, which answers without firmware; or one of a peer's home, to which this device,
never a caching agent of peers, answers RspNP (R283, Table 8-9). -/
def snoopReceived (peer : Option (Fin 8)) (line : Nat) (inv : Bool) (s : State) : Out :=
  match peer with
  | some d => if s.portGroup d.val = [] then .next s else .next (s.toPeer d.val line .rspNP [line] [])
  | none => match s.txns.get? line with
    | some t =>
      if t.awaits.getLsbD 1 && (s.cCache.get? line).isSome then
        .next { s with cCache := if inv then s.cCache.erase line else s.cCache.set line false }
      else .next s
    | none => .next s

/-- SNP_INV. -/
def execSnpInv (peer : Option (Fin 8)) (line : Nat) (s : State) : Out := snoopReceived peer line true s
/-- SNP_DATA. -/
def execSnpData (peer : Option (Fin 8)) (line : Nat) (s : State) : Out := snoopReceived peer line false s

/-! ## Data and acknowledgements -/

/-- A load's request ended among those of a spent load; after the last its core drops the copies that they filled (R90). -/
def State.spentStep (s : State) (core op id : Nat) : State :=
  match s.spents.get? op with
  | none => s
  | some e =>
    let w := e.waits.filter (fun k => k ≠ id)
    if w = [] then e.tiles.foldl (fun s t => s.dropCopies core t.2) { s with spents := s.spents.erase op }
    else { s with spents := s.spents.set op { e with waits := w } }

/-- A line of data delivered to the registers of its group (R82, R87, R99, R100): loaded lanes or the old values of an atomic, the
core's L1 filled or refreshed (R213), and the acquire of an atomic that performs one (R220). -/
def State.deliverData (s : State) (id : Nat) (q : MemReq) (d : BitVec 1024) : State :=
  match q.src with
  | .grp b k =>
    match s.blocks.get? b with
    | none => s.endReq id q
    | some blk =>
      let s := s.endReq id q
      let r : GroupRef := ⟨b, Fin.ofNat 32 k⟩
      let clear := fun (g : Group) => { g with busy := g.busy.filter (fun e => e.op ≠ id) }
      match q.kind with
      | .load dst w sg lanes op fill =>
        let s := s.updGroup r (fun g => clear (g.putLoaded dst w sg lanes d))
        let s := s.l1Fill blk.core q.home (mergeLine d q.via.lay q.via.layMask) q.need fill
        let s := match q.via.arr with
          | some k => s.outdate blk.core q.home k
          | none => s
        s.spentStep blk.core op id
      | .atom op w lanes ret =>
        let olds := (atomLine op w lanes d).2
        let s := s.updGroup r (fun g => clear (match ret with
          | some n => olds.foldl (fun g o => g.putLane n (regsFor w) o.1 o.2) g
          | none => g))
        if ((s.group? r).map (·.acq)).any (fun l => l.contains id) then
          (s.updGroup r (fun g => { g with acq := g.acq.filter (fun k => k ≠ id) })).l1Invalidate blk.core
        else s
      | _ => s
  | _ => s.endReq id q

/-- Whether a request waits for a peer, or for the twin's copy of a MIRRORED_STALE tile. -/
def State.awaitsPeer (s : State) (q : MemReq) : Bool :=
  q.stage = .waiting && (match q.home with
    | .peer _ _ _ => true
    | .dev n => match s.lineTile (s.forward n) with
      | some t => (s.tssAt t).state = .stale
      | none => false
    | .host _ => false)

/-- DATA: a line returns to its requester: from a home of this device, over the leaf of its transaction where it crossed, or from a peer with
its indications (R290, R303, R316). -/
def execData (id : Nat) (rep : Option PeerData) (s : State) : Out :=
  match s.reqs.get? id with
  | none => .next s
  | some q =>
    let home := fun (d : BitVec 1024) => match s.comeBack q 3 (32 * popCount 4 q.need.toNat) with
      | some s => Host.Outcome.next (s.deliverData id q d)
      | none => .next s
    let peer := fun (p : PeerData) =>
      if !s.awaitsPeer q then Host.Outcome.next s
      else if p.poison then .next (s.reqFail id q .poison)
      else if p.spent && !q.outer && !(s.part q.part).spentFlag then .next (s.reqFail id q .spentRead)
      else
        let s := if p.spent then s.reqRaise q flagSpentSeen else s
        match q.kind with
        | .load _ _ _ _ _ _ =>
          let r := if q.home.away then (q, p.data) else s.seen id q p.data
          .next (s.deliverData id r.1 r.2)
        | _ => .next (s.answered id q .data p.data false p.spent)
    match q.kind, q.stage, rep with
    | .load _ _ _ _ _ _, .back d, _ => home d
    | .atom _ _ _ _, .back d, _ => home d
    | .load _ _ _ _ _ _, .waiting, some p => peer p
    | .read _ _, .waiting, some p => peer p
    | _, _, _ => .next s

/-- ATOM_RSP: a peer home's answer to an atomic, with the line's old values (R503). -/
def execAtomRsp (id : Nat) (data : BitVec 1024) (s : State) : Out :=
  match s.reqs.get? id with
  | none => .next s
  | some q => match q.kind with
    | .atom _ _ _ _ => if q.remote && q.stage = .waiting then .next (s.deliverData id q data) else .next s
    | _ => .next s

/-- The lines of a tile of a TST that its home has accepted. -/
def TileOp.acceptTile (o : TileOp) (k : Nat) : TileOp :=
  { o with lines := o.lines ++ ((List.range 16).map (fun l => 16 * k + l)).filter (fun n => !o.lines.contains n) }

/-- CMP: a peer acknowledges a write (R504), the home of copy 1 a mirrored write (R398), or a peer the withdrawal of a semaphore wait
(R132, R418). It tells whether a SEM.REL saturated there (R130; log 100). -/
def execCmp (m : CmpMsg) (s : State) : Out :=
  let id := m.id
  match s.reqs.get? id with
  | none => .next s
  | some q =>
    match q.kind, q.stage with
    | .semAcq _ _, .recalled => match q.src with
      | .cmd c => if (s.cmd? c).any Cmd.isLaunch then .next (s.endReq id q) else .next ((s.endReq id q).cmdDone c .timeout 0)
      | _ => .next (s.stageReq id q .withdrawn)
    | .semAcq _ _, _ => .next s
    | .load _ _ _ _ _ _, _ => .next s
    | .tile true op k, .waiting => match s.tileOps.get? op with
      | some o =>
        let o := if q.remote then o.acceptTile k else { o with opened := (100 + k) :: o.opened }
        .next ({ s with tileOps := s.tileOps.set op o }.endReq id q)
      | none => match q.src with
        | .cmd c => .next (({ s with cmds := s.cmds.mapVal (fun i (x : Cmd) => if i = c && !q.remote then { x with acked := true } else x) }).endReq id q)
        | _ => .next (s.endReq id q)
    | k, .waiting => match q.home with
      | .peer _ _ _ => match k with
        | .atom _ _ _ _ => .next s
        | .semRel _ _ => .next ((match q.src with
            | .grp _ _ => s.reqRaise q (clampedIf m.sat)
            | _ => s).endReq id q)
        | _ => .next (s.endReq id q)
      | .dev n =>
        if s.mirrored n then
          let s := s.stageReq id q .acked
          .next ((s.serveReq id).getD s)
        else .next s
      | .host _ => .next s
    | _, _ => .next s

/-- SEM_GRANT: a peer home grants a wait (R131). -/
def execSemGrant (id : Nat) (s : State) : Out :=
  match s.reqs.get? id with
  | none => .next s
  | some q => match q.kind with
    | .semAcq _ _ =>
      if q.remote && (q.stage = .waiting || q.stage = .recalled) then .next (s.stageReq id q (.back 0)) else .next s
    | _ => .next s

/-- SEM_WAKE: the sync message of a grant releases its group past the SEM.ACQ, with the acquire of its scope, or completes a SEM_WAIT
command (R129, R418); between halves it crosses by the sync leaf (R338). -/
def execSemWake (id : Nat) (s : State) : Out :=
  match s.reqs.get? id with
  | none => .next s
  | some q =>
    if !s.syncOpen (s.homeHalf q) (s.halfOf q) then .next s
    else match q.kind, q.stage, q.src with
    | .semAcq _ _, .back _, .grp b k =>
      let r : GroupRef := ⟨b, Fin.ofNat 32 k⟩
      match s.blocks.get? b, s.group? r with
      | some blk, some g =>
        if blk.phase ≠ .resident then .next s
        else match g.hold with
          | .sem i _ =>
            if i = id then .next (((s.endReq id q).putGroup r { g with hold := .none }).acquire blk.core q.hint)
            else .next s
          | _ => .next s
      | _, _ => .next (s.endReq id q)
    | .semAcq _ _, .back _, .cmd c =>
      match s.cmd? c with
      | some k =>
        let k := if k.why = some .timeout && k.op = 4 then { k with why := none } else k
        if k.isLaunch then .next (s.endReq id q)
        else .next (((s.endReq id q).setCmd c k).cmdDone c .ok 0)
      | none => .next (s.endReq id q)
    | _, _, _ => .next s

/-- RSP_ERR: the export's home refuses a request, which ends its task with ACCESS_FAULT (R501). -/
def execRspErr (id : Nat) (s : State) : Out :=
  match s.reqs.get? id with
  | none => .next s
  | some q => if q.remote && q.stage = .waiting then .next (s.reqFail id q .accessFault) else .next s

/-! ## Host memory (R131, R212, R286) -/

/-- The requests that wait for a host line, oldest first; queued semaphore waiters are not among them. -/
def State.hostWaiting (s : State) (line : Nat) : List (Nat × MemReq) :=
  s.reqs.rows.filter (fun r => r.2.home == .host line && r.2.stage == .waiting && !(match r.2.kind with
    | .semAcq off _ => (s.waiters.get [] (semKey (.host line) off)).contains r.1
    | _ => false))

/-- Whether a semaphore word of a host line has waiters. -/
def State.hostWaiters (s : State) (line : Nat) : Bool :=
  (List.range 16).any (fun k => s.waiters.get [] (semKey (.host line) (8 * k)) ≠ [])

/-- The host returns a line, or ownership of it, with its bytes as they stand in host memory: the requests that wait for it are
served in the order of their arrival, and semaphore waiters evaluated again (R131, R212, R286). -/
def execHostCacheResponse (line : Nat) (own : Bool) (data : BitVec 1024) (s : State) : Out :=
  let ws := s.hostWaiting line
  if !s.host.up || (ws = [] && !(s.hostWaiters line && !s.hostHeld line own)) then .next s
  else
    let a := (ws.head?.map (fun r => r.2.access)).getD ⟨30, .engine, 0⟩
    let s0 := s.hostWrite (line * 128) (lineBytes data)
    match s0.llcFill ⟨true, line⟩ a data 0xF with
    | none => .next s
    | some s1 =>
      let s1 := { s1 with hostLines := s1.hostLines.set line (if own then .exclusive else .shared) }
      let s1 := ws.foldl (fun s r => s.setReq r.1 { r.2 with stage := .flight, via := { r.2.via with fetched := true } }) s1
      let s1 := (sortOn (fun (r : Nat × MemReq) => r.2.via.arr.getD 0) ws).foldl (fun s r => (s.serveReq r.1).getD s) s1
      .next (if own then (s1.wakeLine (.host line)).getD s1 else s1)

/-- A host snoop of a host-memory line: the slice answers itself, returning the dirty sectors; after a device-fatal error it answers as if
it held nothing (R286, R591). A way that a request waits to have filled stays. -/
def execH2dSnoop (line : Nat) (inv : Bool) (s : State) : Out :=
  match s.llcFind ⟨true, line⟩, s.hostLines.get? line with
  | some (key, e), some _ =>
    let s := (s.hostSectors line e.data e.dirty)
    let s := { s with outbox := .answer 0 line e.data false :: s.outbox }
    if !inv then .next { s with llc := s.llc.set key { e with dirty := 0 }, hostLines := s.hostLines.set line .shared }
    else if s.linePending ⟨true, line⟩ then
      .next { s with llc := s.llc.set key { e with valid := 0, dirty := 0 }, hostLines := s.hostLines.erase line }
    else .next (s.llcEvict key e true)
  | _, _ => .next { s with outbox := .answer 0 line 0 false :: s.outbox, hostLines := s.hostLines.erase line }

/-! ## The debug session at memory (R131, R567) -/

/-- The session reads or writes a byte of a listed OPERATOR partition's memory through the partition's own translation; an
unmapped address, or memory of another device, gives nothing. A write wakes the waiters of the line at its home (R131). -/
def execDebugMemoryAccess (part : Fin 16) (va : BitVec 48) (write : Option Byte) (s : State) : Out :=
  if !s.debugs part then .next s
  else match s.locate part va.toNat, write with
    | some (.dev n, _), none => .next (s.reply 0 0 (bytesOf 1 (lineNum (s.devLine n) (va.toNat % 128) 1)))
    | some (.host n, _), none => .next (s.reply 0 0 (bytesOf 1 (lineNum (s.hostView n) (va.toNat % 128) 1)))
    | some (.dev n, true), some v =>
      .next (((s.lineWrite n (lineOf (va.toNat % 128) v.toNat) (byteMask (va.toNat % 128) 1) (.outer 1)).bind
        (fun s => s.wakeLine (.dev n))).getD s)
    | some (.host n, true), some v =>
      let s := match s.llcFind ⟨true, n⟩ with
        | some (key, e) =>
          let e' := { e with data := mergeLine e.data (lineOf (va.toNat % 128) v.toNat) (byteMask (va.toNat % 128) 1) }
          { s with llc := s.llc.set key e' }
        | none => s
      let s := s.hostWrite (n * 128 + va.toNat % 128) [v]
      .next ((s.wakeLine (.host n)).getD s)
    | _, _ => .next s

end Sys2Proof.Machine
end

