-- ==== Sys2Proof/Machine/Tile.lean ====
section
/-! DEFINITION. TLD and TST as they issue (R92, R93, R97, Table 3-9). -/

namespace Sys2Proof.Machine

/-- Uniform source C, zero when it is absent (R84). -/
def Ctx.uC (x : Ctx) : Except Stop Word := if insNoC x.i then pure 0 else x.u32 x.i.c

/-- A token slot named by DST whose count can rise: at 15 the instruction waits to issue (R93). -/
def Ctx.tokenSlot (x : Ctx) : Except Stop Nat := do
  let t ← x.pField x.i.dst
  await (x.g.tokens.get 0 t < 15)
  pure t

/-- The virtual address of tile `i` of a TILE instruction (Table 3-9). -/
def tileVa (va stride i : Nat) : Nat := (va + i * stride * 2048) % 2 ^ 64

/-- A TILE instruction: its operands are checked for every tile, its token slot counts up and it goes into flight. A TST goes out although a
release holds the group's writes: its lines wait for that (R219). The units that a TLD will write are unspecified to instructions still at work
on them (R98), and not visible before its token is waited on (R151). -/
def tileIssue (store : Bool) (x : Ctx) : Except Stop State :=
  x.forGroup (do
    let slot ← x.tokenSlot
    let a ← x.u64 x.i.a
    let la ← x.uB
    let c ← x.uC
    let va := a.toNat
    let l := field la 0 19
    let count := field c 0 4 + 1
    let stride := field c 8 24
    require (addrOk 2048 va)
    require (l % 2048 = 0 && l + 2048 * count ≤ x.b.lmemSize)
    require ((List.range count).all (fun k =>
      match x.s.locate x.t.part (tileVa va stride k) with
      | some (_, rw) => addrOk 2048 (tileVa va stride k) && (!store || rw)
      | none => false))
    x.gateAll
    let hint := field x.i.mod 0 2
    let s := (List.range count).foldl (fun s k => match s.homeOf x.t.part (tileVa va stride k) with
      | some h => s.noteAccess x.b.task x.t.part (tileVa va stride k) h
      | none => s) x.s
    let s := s.raise x.b.task (clampedIf (store && hint = 3))
    let op : TileOp := ⟨store, x.r.block, x.r.group.val, slot, x.t.part, va, l, count, stride,
      if store && hint = 3 then 0 else hint, x.g.pc, [], [], x.held.after, x.held.seen, []⟩
    let units := if store then [] else unitsIn l (2048 * count)
    let s := s.smudge x.r.block units
    let s := { s with nextId := s.nextId + 1, tileOps := s.tileOps.set s.nextId op }
    let veils := units.map (fun u => ⟨u, x.r.group.val, slot, false⟩)
      ++ x.b.veils.filter (fun v => v.group ≠ x.r.group.val || !units.contains v.unit)
    .ok (s.setBlock x.r.block ({ x.b with veils := veils }.putGroup x.r.group.val
      { x.g with tokens := x.g.tokens.put 0 slot (x.g.tokens.get 0 slot + 1), pc := x.nextPc })))

/-- TLD. -/
def execTld (g : GroupRef) (i : Ins) (s : State) : Out := issue g i (tileIssue false) s
/-- TST. -/
def execTst (g : GroupRef) (i : Ins) (s : State) : Out := issue g i (tileIssue true) s

end Sys2Proof.Machine
end

