-- ==== Sys2Proof/Machine/TileIo.lean ====
section
/-! DEFINITION. Line writes as they arrive, tiles stored by TST and loaded by TLD, and whole tiles read and written by peers (R94 to
R97, R242 to R244, R309, R313, R503, Table 3-10). -/

namespace Sys2Proof.Machine

/-! ## TST (R97) -/

/-- The bytes of a line of a TST's local tile. -/
def TileOp.localLine (o : TileOp) (b : Block) (k l : Nat) : BitVec 1024 :=
  BitVec.ofNat 1024 (ofBytes (b.readL (o.laddr + 2048 * k + 128 * l) 128))

/-- How a TST's lines enter the cache. -/
def TileOp.access (o : TileOp) : Access := ⟨o.part, .tld, o.hint⟩

/-- A TILE instruction's record written. -/
def State.setTileOp (s : State) (id : Nat) (o : TileOp) : State := { s with tileOps := s.tileOps.set id o }

/-- A tile becomes ZERO with no data sent (R97): the write closes with every zero-mask bit set, and cached lines become zero where they lie
(R262). -/
def State.zeroTile (s : State) (line : Nat) : Option State :=
  match s.tileOfLine line with
  | none => none
  | some t => do
    let s ← s.beginWrite line
    let s := s.zeroCached t (List.range 16)
    let o := s.openTiles.get ⟨0, 0, false, 0⟩ t.key
    let s := { s with openTiles := s.openTiles.set t.key { o with zeroMask := 0xFFFF, poisonMask := 0 } }
    (t.lines.foldlM (fun s n => s.wakeLine (.dev n)) (s.endWrite line))

/-- The request that a line or tile of a TILE instruction stands for. -/
def TileOp.request (o : TileOp) (id va : Nat) (h : Home) (k : ReqKind) (g : ReqStage) : MemReq :=
  ⟨.grp o.block o.group, o.part, va, h, k, o.hint, g, o.pc, ⟨o.after, o.seen, 0, 0, some id, none, none, false, false⟩⟩

/-- The local memory that a TST reads: the units written before it had completed are unspecified to it (R98). -/
def State.tstBlock (s : State) (o : TileOp) (b : Block) : State × Block :=
  if o.smudged = [] then (s, b) else ({ s with freeCtr := s.freeCtr + 1 }, b.blur o.smudged s.freeCtr)

/-- The bytes of a tile of a TST, none where its unit carries the zero mark (R97). -/
def TileOp.tileData (o : TileOp) (b : Block) (k : Nat) : List Byte :=
  if b.marked ((o.laddr + 2048 * k) / 2048) then [] else b.readL (o.laddr + 2048 * k) 2048

/-- A line of a TST counted as accepted; the last line of a tile ends its write. -/
def State.tstTook (s : State) (id : Nat) (o : TileOp) (k l line : Nat) : Option State := do
  let o := { o with lines := (16 * k + l) :: o.lines, opened := if o.opened.contains k then o.opened else k :: o.opened }
  let s := if (o.lines.filter (fun n => n / 16 = k)).length = 16 then s.endWrite line else s
  let s ← s.wakeLine (.dev line)
  pure (s.setTileOp id o)

/-- A line of a TST at a tile of this device: the first line of the tile begins the full write and the last ends it (Table 9-2); a line that
comes after a spent hint to the open tile is dropped. A zero-marked unit sends no data. -/
def State.tstDev (s : State) (id : Nat) (o : TileOp) (b : Block) (base k l : Nat) : Option State :=
  let line := base / 16 * 16 + l
  if o.opened.contains k && s.spentDue line then s.tstTook id o k l line
  else if s.lineBusy 0 line then none
  else do
    let s := s.tssMeet line
    let q := o.request id (tileVa o.va o.stride k + 128 * l) (.dev line) (.store 0 allBytes) .flight
    let r ← s.access line .write none false
    if !r.1 then pure r.2
    else
      let s := r.2
      let v := s.tstBlock o b
      if s.mirrored line && !o.opened.contains (100 + k) then
        if s.pair.state = .severed || s.reqs.any (fun _ q => q.kind == .tile true id k) then none
        else
          let r := v.1.addReq (o.request id (tileVa o.va o.stride k) (.dev base) (.tile true id k) .waiting)
          pure (r.2.toPeer s.twinNum base .wrTile [r.1, base] (o.tileData v.2 k))
      else if v.2.marked ((o.laddr + 2048 * k) / 2048) && !o.opened.contains k then do
        let lines := (List.range 16).map (fun j => base / 16 * 16 + j)
        let r ← s.accessAll lines .write none false
        if !r.1 then pure r.2
        else do
          let c ← r.2.cross { q with kind := .spent }
          let s ← c.1.zeroTile line
          pure (s.setTileOp id (o.acceptTile k))
      else do
        let c ← v.1.cross q
        let s ← if o.opened.contains k then pure c.1 else c.1.beginWrite line
        let s := s.countLookup o.part .tld o.hint (s.holdsAll (.dev line) allBytes)
        let s ← s.openLine line (o.localLine v.2 k l) (.alloc o.access)
        s.tstTook id o k l line

/-- A line of a TST arrives: at a tile of this device, at host memory as a store of the line, or at a peer as a whole tile. The group's
releases hold it (R219). -/
def State.tstLine (s : State) (id k l : Nat) : Option State :=
  match s.tileOps.get? id with
  | none => none
  | some o =>
    let va := tileVa o.va o.stride k
    match s.blocks.get? o.block, s.homeOf o.part va with
    | some b, some h =>
      if !o.store || o.count ≤ k || o.lines.contains (16 * k + l) || s.anyUnplaced o.after || s.anyLeft o.seen then none
      else if s.poolFailed o.part va then some (s.endTask b.task .stateLost o.pc)
      else match s.zeroHome h with
        | .dev n => (s.tstDev id o b (s.forward n) k l).map State.retryTxns
        | .host n =>
          if !s.host.up then some (s.endTask b.task .accessFault o.pc)
          else
            let v := s.tstBlock o b
            let r := v.1.addReq (o.request id (va + 128 * l) (.host (n + l)) (.store (o.localLine v.2 k l) allBytes) .flight)
            some ((r.2.setTileOp id { o with lines := (16 * k + l) :: o.lines }).advance r.1)
        | .peer d e n =>
          if s.lbx.lost.contains d then some (s.endTask b.task .peerUnreachable o.pc)
          else if s.portsTo o.part d = [] || !s.pins.twinOut || s.reqs.any (fun _ q => q.kind == .tile true id k) then none
          else do
            let v := s.tstBlock o b
            let c ← v.1.cross (o.request id va (.peer d e n) (.tile true id k) .waiting)
            let r := c.1.addReq c.2
            pure (r.2.toPeer d n .wrTile [r.1, e, n] (o.tileData v.2 k))
    | _, _ => none

/-- One asynchronous instruction of a slot completes; a group that was at EXIT ends, and barriers are evaluated (R93, R126). -/
def State.tokenDone (s : State) (o : TileOp) (id : Nat) : State :=
  let s := { s with tileOps := s.tileOps.erase id }
  let r : GroupRef := ⟨o.block, Fin.ofNat 32 o.group⟩
  match s.blocks.get? o.block, s.group? r with
  | some b, some g => s.setBlock o.block (b.putGroup o.group (g.tokenDone o.slot)).settleBars
  | _, _ => s

/-- Whether a line or tile that a TST sent to host memory or to a peer is not yet accepted. -/
def State.tstOpen (s : State) (op : Nat) : Bool := s.reqs.any (fun _ q => q.via.op == some op)

/-- TST_TOKEN_COMPLETE: every line is accepted and every tile state updated (R97). -/
def execTstTokenComplete (op : Nat) (s : State) : Out :=
  match s.tileOps.get? op with
  | none => .next s
  | some o =>
    if !o.store || s.tstOpen op || o.lines.length < 16 * o.count then .next s else .next (s.tokenDone o op)

/-- WR: a whole line arrives: a store that covers it, a line of a TST, or a peer's (R254, R309, R312). -/
def execWr (q : WriteMsg) (s : State) : Out :=
  match q with
  | .held id => deliver id (fun q => match q.kind with
      | .store _ m => m == allBytes
      | _ => false) s
  | .tst op tile line => if s.fw.fatal then .next s else .next ((s.tstLine op tile.val line.val).getD s)
  | .peer m data mask => if mask = allBytes then arrive m 128 true (fun _ => .store data mask) s else .next s

/-- WRP: a partial write with a byte mask arrives. -/
def execWrp (q : WriteMsg) (s : State) : Out :=
  match q with
  | .held id => deliver id (fun q => match q.kind with
      | .store _ m => m != allBytes
      | _ => false) s
  | .tst _ _ _ => .next s
  | .peer m data mask => if mask = allBytes then .next s else arrive m 1 true (fun _ => .store data mask) s

/-! ## Reads of whole tiles (R242, R243, R313, Table 3-10) -/

/-- What a read of a whole tile meets once its home holds the tile's lines. -/
inductive TileMeets where
  | zero | spent | bad | stale | corrupt | unverified | sound
deriving DecidableEq, Repr

/-- The rows of Table 3-10 for a tile of this device. -/
def State.tileMeets (s : State) (t : TileAt) : TileMeets :=
  let e := s.tssAt t.key
  match e.state with
  | .zero => .zero
  | .spent => .spent
  | .poison => .bad
  | .stale => .stale
  | .opened => if (s.openTiles.get ⟨0, 0, false, 0⟩ t.key).poisonMask ≠ 0 then .bad else .unverified
  | .valid => if crc32c (s.tileBytes t) = e.crc then .sound else .corrupt

/-- The lines of a tile brought to its home for a request: each is counted, a line that the cache holds takes the request's hint, and absent
sectors are asked of memory; a tile without data asks nothing. `none` when a queue or the cache has no room; otherwise whether
every line is there (R253, R269, R271, R274). -/
def State.askTile (s : State) (id : Nat) (q : MemReq) (t : TileAt) : Option (Bool × State) :=
  let st := (s.tssAt t.key).state
  let data := st = .valid || st = .opened
  let a := q.access
  t.lines.foldlM (fun acc n =>
    let got := acc.2.heldSectors n
    let hit := data && got = 0xF
    let s := acc.2.countLookup a.part a.who a.hint hit
    if !data then some (acc.1, s)
    else if hit then do
      let s ← if q.noAlloc then some s else s.llcReserve ⟨false, n⟩ a
      pure (acc.1, s)
    else (s.askMemory id q n (0xF &&& ~~~got)).map (fun s => (false, s))) (true, s.setReq id { q with stage := .waiting })

/-- Unspecified bytes of a SPENT tile (R317). -/
def State.spentTileBytes (s : State) (t : TileAt) : List Byte × State :=
  ((t.lines.map (fun n => lineBytes (s.spentBytes n))).flatten, { s with freeCtr := s.freeCtr + 1 })

/-! ## TLD (R94 to R96) -/

/-- A tile's bytes and the zero mark written to local memory; units written before the TLD had completed are unspecified (R98). -/
def State.putTile (s : State) (o : TileOp) (k : Nat) (data : Option (List Byte)) : State :=
  match s.blocks.get? o.block with
  | none => s
  | some b =>
    let a := o.laddr + 2048 * k
    let b := match data with
      | none => b.zeroUnit (a / 2048)
      | some d => b.writeL a d
    if o.smudged.contains (a / 2048) then { s with freeCtr := s.freeCtr + 1 }.setBlock o.block (b.blur [a / 2048] s.freeCtr)
    else s.setBlock o.block b

/-- A tile of a TLD is copied and checked: it is remembered, and the spent hint marks it (R96). -/
def State.tldTook (s : State) (id k : Nat) : State :=
  match s.tileOps.get? id with
  | none => s
  | some o =>
    let s := s.setTileOp id { o with lines := (16 * k) :: o.lines }
    if o.hint = 3 then s.sendSpent (.grp o.block o.group) o.part o.pc [] (s.spentTiles o.part [tileVa o.va o.stride k]) else s

/-- What fetching one tile comes to: it is copied, the fetch waits with its state so far, or the task has ended. -/
inductive Fetch where
  | got (s : State)
  | held (s : State)
  | ended (s : State)

/-- A TLD's tile, its lines at their home, by what it meets (Table 3-10); `line` is the tile's at its present place. -/
def State.tldMeets (s : State) (id : Nat) (q : MemReq) (o : TileOp) (task k : Nat) (t : TileAt) : Fetch :=
  match s.comeBack q 3 2048 with
  | none => .held (s.endReq id q)
  | some s =>
    let done := s.endReq id q
    match s.tileMeets t with
    | .zero => .got (done.putTile o k none)
    | .spent =>
      if !(s.part o.part).spentFlag then .ended (done.endTask task .spentRead o.pc)
      else
        let d := done.spentTileBytes t
        .got ((d.2.raise task flagSpentSeen).putTile o k (some d.1))
    | .bad => if s.repairable t.line0 then .held (s.stageReq id q .waiting) else .ended (done.endTask task .poison o.pc)
    | .stale =>
      if !s.twinHere then .ended (done.endTask task .peerUnreachable o.pc)
      else if s.portGroup s.twinNum = [] then .held done
      else .held (((s.stageReq id q .waiting).raise task flagFallback).askTwin id t.line0 .rdTile)
    | .corrupt => .ended ((done.corruptTile t).endTask task .tileCorrupt o.pc)
    | .unverified => .got ((done.raise task flagUnverified).putTile o k (some (s.tileBytes t)))
    | .sound =>
      let s' := if s.codedLost t.line0 then done.raise task flagFallback else done
      .got (s'.putTile o k (some (s.tileBytes t)))

/-- A request for a whole tile of this device goes to the tile's home: nothing happens while a line is busy or copies are owned outside;
otherwise the lines are asked for, with the state, the tile and whether all are there. -/
def State.tileRead (s : State) (id : Nat) (q : MemReq) (n0 : Nat) : State × Option (MemReq × TileAt × Bool) :=
  match s.tileOfLine (s.lineOfReq q n0) with
  | none => (s, none)
  | some t =>
    let s := s.tssMeet t.line0
    if t.lines.any (fun l => s.lineBusy 0 l) then (s, none)
    else match s.accessAll t.lines (.read none) none false with
      | none => (s, none)
      | some (false, s) => (s, none)
      | some (true, s) => match s.cross q with
        | none => (s, none)
        | some (s', q) => match s'.askTile id q t with
          | none => (s, none)
          | some (all, s) => (s, some (q, t, all))

/-- A tile of this device fetched at one point (R242), by its state (Table 3-10). -/
def State.fetchDev (s : State) (id : Nat) (o : TileOp) (task k n0 : Nat) : Fetch :=
  let va := tileVa o.va o.stride k
  let q := { o.request id va (.dev n0) (.tile false id k) .waiting with hint := o.hint }
  let r := { s with nextId := s.nextId + 1 }.tileRead s.nextId q n0
  match r.2 with
  | none => .held r.1
  | some (_, _, false) => .held r.1
  | some (q, t, true) => r.1.tldMeets s.nextId q o task k t

/-- A tile of host memory: its lines are fetched through CXL.cache under the hint, then copied unverified. -/
def State.fetchHost (s : State) (id : Nat) (o : TileOp) (task k n : Nat) : Fetch :=
  if !s.host.up then .ended (s.endTask task .accessFault o.pc)
  else
    let lines := (List.range 16).map (fun l => n + l)
    let first := !o.opened.contains k
    let want := lines.filter (fun l => first || (!s.hostHeld l false
      && !s.reqs.any (fun _ q => q.home == .host l && q.via.op == some id)))
    let s := want.foldl (fun s l =>
      let q := o.request id (tileVa o.va o.stride k + 128 * (l - n)) (.host l) .prefetch .flight
      let r := s.addReq { q with via := { q.via with counted := !first } }
      r.2.advance r.1) s
    let s := match s.tileOps.get? id with
      | some o => s.setTileOp id { o with opened := k :: o.opened }
      | none => s
    if lines.all (fun l => s.hostHeld l false) then
      .got ((s.raise task flagUnverified).putTile o k (some ((lines.map (fun l => lineBytes (s.hostView l))).flatten)))
    else .held s

/-- One tile of a TLD fetched. -/
def State.fetchTile (s : State) (id : Nat) (o : TileOp) (task k : Nat) : Fetch :=
  let va := tileVa o.va o.stride k
  if s.reqs.any (fun _ q => q.kind == .tile false id k) then .held s
  else if s.poolFailed o.part va then .ended (s.endTask task .stateLost o.pc)
  else match s.homeOf o.part va with
    | none => .ended (s.endTask task .accessFault o.pc)
    | some (.dev n) => s.fetchDev id o task k n
    | some (.host n) => s.fetchHost id o task k n
    | some (.peer d e n) =>
      if s.lbx.lost.contains d then .ended (s.endTask task .peerUnreachable o.pc)
      else if s.portsTo o.part d = [] || !s.pins.twinOut || !s.replyRoom d (n / 16) then .held s
      else match s.cross { o.request id va (.peer d e n) (.tile false id k) .waiting with hint := o.hint } with
        | none => .held s
        | some (s, q) =>
          let r := s.addReq q
          .held (r.2.toPeer d n .rdTile [r.1, e, n] [])

/-- The tiles of a TLD not yet copied, fetched in turn: each that is copied is remembered. -/
def State.fetchTiles (s : State) (id : Nat) (task : Nat) : List Nat → Bool → State × Bool × Bool
  | [], waits => (s, waits, false)
  | k :: t, waits =>
    match s.tileOps.get? id with
    | none => (s, true, false)
    | some o => match s.fetchTile id o task k with
      | .got s => (s.tldTook id k).fetchTiles id task t waits
      | .held s => s.fetchTiles id task t true
      | .ended s => (s, waits, true)

/-- TLD_TOKEN_COMPLETE: the tiles are fetched, each by its state; when every one is written and checked the token completes; where one ends the
task, it never does (R94, R96). -/
def execTldTokenComplete (op : Nat) (s : State) : Out :=
  match s.tileOps.get? op with
  | none => .next s
  | some o =>
    match s.blocks.get? o.block with
    | none => .next s
    | some b =>
      if o.store || s.fw.fatal || b.phase ≠ .resident && b.phase ≠ .leaving then .next s
      else
        let left := (List.range o.count).filter (fun k => !o.lines.contains (16 * k))
        let r := s.fetchTiles op b.task left false
        if r.2.2 then .next { r.1 with tileOps := r.1.tileOps.erase op }
        else if r.2.1 then .next r.1
        else .next (r.1.tokenDone o op)

/-! ## Tiles that come for their maker (R503, R316) -/

/-- The code of a tile state (Table 9-1). -/
def TileState.code : TileState → Nat
  | .valid => 0 | .opened => 1 | .zero => 2 | .spent => 3 | .poison => 4 | .stale => 5

/-- A peer's read of a tile answered: the tile's state at the read, whether the data is good, and the lines. -/
def State.answerTile (s : State) (id : Nat) (q : MemReq) (code : Nat) (good : Bool) (data : List Byte) : State :=
  let s := (s.comeBack q 3 data.length).getD s
  let s := s.endReq id q
  match q.src with
  | .outer a tag _ => s.toPeer (a - 2) (s.peerLine q) .dataTile [tag, code, if good then 1 else 0] data
  | _ => s

/-- A tile that has come for its maker: into local memory, to the command that copies it, or on to the peer that reads it. -/
def State.takeTile (s : State) (id op k : Nat) (q : MemReq) (data : Option (List Byte)) : State :=
  match q.src with
  | .cmd c =>
    let s := s.endReq id q
    match s.cmd? c with
    | some x => s.setCmd c { x with srcTiles := x.srcTiles.set q.va (data.getD (List.replicate 2048 0)) }
    | none => s
  | .outer _ _ _ => s.answerTile id q 5 true (data.getD (List.replicate 2048 0))
  | _ =>
    let s := s.endReq id q
    match s.tileOps.get? op with
    | some o => (s.putTile o k data).tldTook op k
    | none => s

/-- A tile that stops its maker with a status: a COPY command remembers where (R314), a peer learns the tile's state. -/
def State.tileFail (s : State) (id : Nat) (q : MemReq) (st : Status) : State :=
  match q.src with
  | .cmd c => match s.cmd? c with
    | some x => (s.setCmd c { x with srcFail := some (q.va, st) }).endReq id q
    | none => s.endReq id q
  | .outer _ _ _ => s.answerTile id q (match st with
      | .tileCorrupt => 0
      | .peerUnreachable => 5
      | _ => 4) false []
  | _ => s.reqFail id q st

/-- A COPY command's source tile, its lines at their home, by what it meets (R314, Table 3-10). -/
def State.copyMeets (s : State) (id : Nat) (q : MemReq) (t : TileAt) : State :=
  let take := fun (s : State) (d : List Byte) => match s.comeBack q 3 2048 with
    | some s => s.takeTile id 0 0 q (some d)
    | none => s.endReq id q
  match s.tileMeets t with
  | .zero => s.takeTile id 0 0 q none
  | .spent =>
    if !(s.part q.part).spentFlag then s.tileFail id q .spentRead
    else
      let d := s.spentTileBytes t
      take (d.2.reqRaise q flagSpentSeen) d.1
  | .bad => if s.repairable t.line0 then s.stageReq id q .waiting else s.tileFail id q .poison
  | .stale =>
    if !s.twinHere then s.tileFail id q .peerUnreachable
    else if s.portGroup s.twinNum = [] then s.endReq id q
    else ((s.stageReq id q .waiting).reqRaise q flagFallback).askTwin id t.line0 .rdTile
  | .corrupt => (s.corruptTile t).tileFail id q .tileCorrupt
  | .unverified => take (s.reqRaise q flagUnverified) (s.tileBytes t)
  | .sound => take (if s.codedLost t.line0 then s.reqRaise q flagFallback else s) (s.tileBytes t)

/-- A peer's tile, its lines at their home: its state at the read and the CRC verdict go with it, and a tile that was repaired, or
that only the twin holds, comes once it is there (R303, R313, R320, R323). -/
def State.peerMeets (s : State) (id : Nat) (q : MemReq) (t : TileAt) : State :=
  match s.tileMeets t with
  | .zero => s.answerTile id q 2 true []
  | .spent => s.answerTile id q 3 true []
  | .bad => if s.repairable t.line0 then s.stageReq id q .waiting else s.tileFail id q .poison
  | .stale =>
    if !s.twinHere then s.tileFail id q .peerUnreachable
    else if s.portGroup s.twinNum = [] then s.stageReq id q .flight
    else (s.stageReq id q .waiting).askTwin id t.line0 .rdTile
  | .corrupt => (s.corruptTile t).tileFail id q .tileCorrupt
  | .unverified => s.answerTile id q 1 true (s.tileBytes t)
  | .sound => s.answerTile id q (if q.via.fetched then 4 else 0) true (s.tileBytes t)

/-- A request for a tile whose lines memory has returned: once the last has come, its maker acts on what the tile meets (R242). -/
def State.tileBack (s : State) (id : Nat) (q : MemReq) : State :=
  if s.inQueue id then s
  else match q.kind, q.home with
    | .tile false op k, .dev n => match s.tileOfLine (s.lineOfReq q n) with
      | none => s
      | some t => match q.src with
        | .grp b _ => match s.tileOps.get? op, s.taskOf b with
          | some o, some task => match s.tldMeets id q o task k t with
            | .got s => s.tldTook op k
            | .held s => s
            | .ended s => { s with tileOps := s.tileOps.erase op }
          | _, _ => s.endReq id q
        | .cmd _ => s.copyMeets id q t
        | .outer _ _ _ => s.peerMeets id q t
        | .fe _ => s
    | _, _ => s

/-- DATA_TILE: a tile's lines come with its state at the read and the CRC verdict, and the reader acts as Table 3-10 states; it applies its own
partition's spent policy. A home that repaired the tile, or read it from its twin, says so by the state and sends good data (R94). -/
def execDataTile (id : Nat) (state : Fin 6) (crcOk : Bool) (data : List (BitVec 1024)) (s : State) : Out :=
  match s.reqs.get? id with
  | none => .next s
  | some q => match q.kind with
    | .tile false op k =>
      let bytes := ((List.range 16).map (fun l => lineBytes (data.getD l 0))).flatten
      if !s.awaitsPeer q then .next s
      else
        let s := if q.home.away then (s.comeBack q 3 bytes.length).getD s else s
        match state.val, crcOk with
        | 0, true => .next (s.takeTile id op k q (some bytes))
        | 0, false => .next (s.tileFail id q .tileCorrupt)
        | 1, _ => .next ((s.reqRaise q flagUnverified).takeTile id op k q (some bytes))
        | 2, _ => .next (s.takeTile id op k q none)
        | 3, _ =>
          if !q.outer && !(s.part q.part).spentFlag then .next (s.tileFail id q .spentRead)
          else
            let free := ((List.range 16).map (fun l => lineBytes (Config.freeLine s.freeCtr l))).flatten
            .next (({ s with freeCtr := s.freeCtr + 1 }.reqRaise q flagSpentSeen).takeTile id op k q (some free))
        | 4, true => .next ((s.reqRaise q flagReplayed).takeTile id op k q (some bytes))
        | 4, false => .next (s.tileFail id q .poison)
        | _, true => .next ((s.reqRaise q flagFallback).takeTile id op k q (some bytes))
        | _, false => .next (s.tileFail id q .peerUnreachable)
    | _ => .next s

/-! ## Whole tiles of peers (R503) -/

/-- A peer's request for a tile served at its home, as far as it goes. -/
def State.serveTile (s : State) (id : Nat) : State :=
  match s.reqs.get? id with
  | none => s
  | some q => match q.kind, q.home with
    | .tile false _ _, .dev n =>
      if q.via.arr.isNone || q.stage ≠ .flight then s
      else
        let r := s.tileRead id q n
        match r.2 with
        | some (q, t, true) => r.1.peerMeets id q t
        | _ => r.1
    | _, _ => s

/-- RD_TILE: a peer reads a whole tile: its 16 lines, its state at the read and the CRC verdict (R242, R313). -/
def execRdTile (q : TileMsg) (s : State) : Out :=
  match q with
  | .held id => if s.fw.fatal then .next s else .next (((s.arriveReq id).getD s).serveTile id)
  | .peer m =>
    if s.portGroup m.d.val = [] || s.fw.fatal || !s.requestRoom m then .next s
    else match s.admitPeer m 2048 false with
      | none => .next (s.refusePeer m)
      | some (p, va, n) =>
        let r := s.addReq ⟨.outer (2 + m.d.val) m.tag (m.exp.map (·.val)), p, va, .dev n, .tile false 0 0, 0, .flight, 0, .free⟩
        .next (((r.2.arriveReq r.1).getD r.2).serveTile r.1)

/-- WR_TILE: a peer's full write of a tile, with no data for one of zeros (R97); it is acknowledged when the write closes. -/
def execWrTile (m : PeerMsg) (data : List (BitVec 1024)) (s : State) : Out :=
  if s.portGroup m.d.val = [] || s.fw.fatal then .next s
  else match s.admitPeer m 2048 true with
    | none => .next (s.refusePeer m)
    | some (p, _, n0) =>
      let n := s.forward n0
      match s.tileOfLine n with
      | none => .next s
      | some t =>
        if t.lines.any (fun l => s.lineBusy 0 l) then .next s
        else match s.accessAll t.lines .write none false with
          | none => .next s
          | some (false, s) => .next s
          | some (true, s) =>
            let s := t.lines.foldl (fun s l => s.countLookup p .peer 0 (s.holdsAll (.dev l) allBytes)) s
            let written := if data = [] then s.zeroTile n
              else (s.fullWrite n data (.outer 1)).bind (fun s => t.lines.foldlM (fun s l => s.wakeLine (.dev l)) s)
            match written with
            | none => .next s
            | some s => .next (s.retryTxns.toPeer m.d.val n .cmp [m.tag, 0] [])

end Sys2Proof.Machine
end

