-- ==== Sys2Proof/Machine/MemCtl.lean ====
section
/-! DEFINITION. The memory controllers: issue, reads that return, repair and resynchronisation of tiles, scrub and channel triggers
(R270 to R273, R302 to R305, R320, R321, R323, R325, R330), and CXL.mem accesses of the host (R466, R467, R591). -/

namespace Sys2Proof.Machine

/-! ## Issue (R271) -/

/-- Whether two queue entries touch one sector. -/
def McEntry.clash (a b : McEntry) : Bool :=
  a.ch = b.ch && a.row = b.row && a.line = b.line && a.sectors &&& b.sectors ≠ 0

/-- The entries that may issue, in order of arrival: none passes an older access to one of its sectors. -/
def PseudoChan.ready (p : PseudoChan) : List (Nat × McEntry) :=
  (p.entries.zipIdx.filter (fun e =>
    !e.1.issued && !((p.entries.take e.2).any (fun o => o.clash e.1)))).map (fun e => (e.2, e.1))

/-- The entry that a controller takes next: the oldest that hits the open row, otherwise the oldest; an entry that 32 younger ones
have passed goes first. -/
def PseudoChan.pick (p : PseudoChan) : Option (Nat × McEntry) :=
  match p.ready with
  | [] => none
  | e :: t =>
    match (e :: t).find? (fun r => p.openRow = some r.2.row) with
    | none => some e
    | some r => if (p.entries.take r.1).any (fun o => !o.issued && 32 ≤ o.age) then some e else some r

/-- MC_ISSUE: a controller issues a queued access of a pseudo-channel; a write is done, and a read will return. -/
def execMcIssue (pc : Fin 512) (s : State) : Out :=
  let p := s.pseudoChan pc
  if !s.memOpen (pc.val / 2) then .next s
  else match p.pick with
    | none => .next s
    | some (k, e) =>
      let aged := p.entries.zipIdx.map (fun r => if r.2 < k && !r.1.issued then { r.1 with age := r.1.age + 1 } else r.1)
      if e.writes then
        let s := s.hbmWrite e.dpaLine (tileKey e.ch e.row) e.line e.data e.mask
        .next { s with pseudo := s.pseudo.put PseudoChan.init pc ⟨aged.eraseIdx k, some e.row⟩ }.retryTxns
      else
        .next { s with pseudo := s.pseudo.put PseudoChan.init pc ⟨aged.set k { e with issued := true }, some e.row⟩ }

/-! ## Places of rows -/

/-- The tile of a set, by its channels and first row, that lies in a row of a channel (R298, inverted). -/
def tileInSet (chans : List Nat) (row0 ch row : Nat) : Nat :=
  let n := max chans.length 1
  let r := row - row0
  r * n + (chans.findIdx (fun c => c == ch) + 16 * n - setRot r) % n

/-- The DPA of the tile that a row of a channel holds now, where a set covers the row. -/
def State.dpaOf (s : State) (ch row : Nat) : Option Nat :=
  let at_ := fun (e : IntSet) =>
    let old := e.base + tileInSet e.chans e.row0 ch row * 2048
    let new := match e.shadow with
      | some sh => e.base + tileInSet sh.chans sh.row0 ch row * 2048
      | none => old
    if e.place old = (ch, row) && old < e.base + e.size then some old
    else if e.place new = (ch, row) && new < e.base + e.size then some new
    else none
  (s.sets.vals.filterMap at_).head?

/-! ## Reads that return -/

/-- Corrected sectors counted for a channel (R325, R326). -/
def State.corrected (s : State) (ch n : Nat) : State :=
  if n = 0 then s
  else
    let s := { s with chans := s.chans.upd Chan.init ch (fun c =>
      { c with ceTotal := min (c.ceTotal + n) 0xFFFFFFFF, ceHour := min (c.ceHour + n) 0xFFFFFFFF }) }
    s.event 0x200 ch

/-- On-die ECC reports counted for a channel (R301). -/
def State.onDieEcc (s : State) (ch n : Nat) : State :=
  if n = 0 then s
  else { s with chans := s.chans.upd Chan.init ch (fun c => { c with odecc := min (c.odecc + n) 0xFFFFFFFF }) }

/-- Errors not yet found, of a class, among the sectors of a line. -/
def State.latentIn (s : State) (ch row line v : Nat) : BitVec 4 :=
  BitVec.ofNat 4 (numOfBits ((List.range 4).filter (fun k => s.latent.get 0 ((tileKey ch row * 16 + line) * 4 + k) = v)))

/-- Errors that the environment reports placed among the sectors of a line. -/
def State.placeBad (s : State) (ch row line : Nat) (v : BitVec 4) : State :=
  { s with latent := (bitsOf 4 v.toNat).foldl (fun t k => t.put 0 ((tileKey ch row * 16 + line) * 4 + k) 2) s.latent }

/-- A read of a request that memory has answered: it is filled into the cache where it allocates (R253), poisoned sectors staying in memory
(R302), and the request is answered by the state of its tile, or goes on with what it was to change; `none` when the fill finds no way. -/
def State.readBack (s : State) (e : McEntry) (id : Nat) (q : MemReq) (fill : Bool) : Option State := do
  let line := e.dpaLine
  let s := s.discoverBad line e.sectors
  let s ← if fill then s.llcFill ⟨false, line⟩ q.access (s.devLine line) (e.sectors &&& ~~~(s.lineBad line)) else some s
  match q.kind with
  | .tile _ _ _ => pure (s.tileBack id q)
  | _ =>
    if q.isRead then match s.readMeets line q.need with
      | .data => pure (s.readData id q line)
      | m => s.readOther id q line m
    else
      let s := s.setReq id { q with stage := .flight, via := { q.via with fetched := true } }
      pure ((s.serveReq id).getD s)

/-- MEM_READ_COMPLETE: an issued read returns (R301 to R305): corrected sectors are counted, sectors found bad act under Table 9-2, and a
TSS line found bad loses its entries. The reports of the stack's on-die ECC are counted. -/
def execMemReadComplete (pc : Fin 512) (entry : Nat) (corrected bad : BitVec 4) (also : ReadReport) (s : State) : Out :=
  let p := s.pseudoChan pc
  match p.entries[entry]? with
  | none => .next s
  | some e =>
    if !e.issued || s.halted then .next s
    else
      let n := popCount 4 ((corrected ||| s.latentIn e.ch e.row e.line 1) &&& e.sectors).toNat
      let s1 := { s with pseudo := s.pseudo.put PseudoChan.init pc { p with entries := p.entries.eraseIdx entry } }
      let s1 := (s1.corrected e.ch n).placeBad e.ch e.row e.line (bad &&& e.sectors)
      let s1 := s1.onDieEcc e.ch also.onDie
      let s1 := if also.tssBad then s1.tssLost e.ch e.row else s1
      let back := fun (id : Nat) (fill : Bool) => match s.reqs.get? id with
        | none => some s1
        | some (q : MemReq) => if q.stage = ReqStage.waiting then s1.readBack e id q fill else some s1
      match e.kind with
      | .fill id => .next ((back id true).getD s)
      | .outerRead id => .next ((back id false).getD s)
      | _ => .next s

/-! ## Repair and resynchronisation (R320, R323) -/

/-- Reads held at a tile released: they are served again, and TLDs and copies fetch again; `f` marks their makers, and a peer's read of the tile
remembers that it was repaired. -/
def State.releaseTile (s : State) (line : Nat) (f : BitVec 16) : State :=
  s.reqs.rows.foldl (fun s r =>
    let q := r.2
    let here := match q.home with
      | .dev n => s.lineOfReq q n / 16 = line / 16
      | _ => false
    if !here || q.stage ≠ .waiting || s.inQueue r.1 then s
    else match q.kind, q.src with
      | .load _ _ _ _ _ _, _ => (s.stageReq r.1 q .flight).reqRaise q f
      | .read _ _, _ => s.stageReq r.1 q .flight
      | .tile false _ _, .outer _ _ _ =>
        s.setReq r.1 { q with stage := .flight, via := { q.via with fetched := f = flagReplayed } }
      | .tile false _ _, _ => (s.endReq r.1 q).reqRaise q f
      | _, _ => s) s

/-- HALF_REPLICA_REPAIR: the other copy of a POISON tile returns it, and the tile is rewritten (Table 9-3); where that copy is bad too,
the region is QUARANTINED and the readers fail (R321). A second repair within a scrub cycle repairs the row softly. -/
def execHalfReplicaRepair (line : Nat) (s : State) : Out :=
  match s.tileOfLine line with
  | none => .next s
  | some t =>
    let open_ := s.memOpen t.ch && ((s.otherCopy line).bind (fun o => s.placeOf (o * 128))).any (fun p => s.memOpen p.1)
    let moving := s.tileMoving line || (s.otherCopy line).any s.tileMoving
    if (s.tssAt t.key).state ≠ .poison || !s.repairable line || !open_ || moving then .next s
    else match s.repair line with
      | (s, false) =>
        let mm := { s.mm with shared := s.mm.shared.map (fun r => { r with quarantined := true }) }
        .next ({ s with mm := mm }.releaseTile line 0)
      | (s, true) =>
        let s := s.releaseTile line flagReplayed
        let n := s.repaired.get 0 t.key + 1
        let s := { s with repaired := s.repaired.put 0 t.key n }
        let s := s.rowEvent 0x202 t.ch t.row
        if n < 2 then .next s
        else
          let rec_ : SoftRepair := ⟨t.ch / 16, t.ch % 16, Config.bankRow t.row⟩
          .next { s with
            chans := s.chans.upd Chan.init t.ch (fun c => { c with softPpr := min (c.softPpr + 1) 255 })
            flash := { s.flash with repairs := s.flash.repairs ++ [rec_] } }

/-- MIRROR_RESYNC: the firmware rewrites a MIRRORED_STALE tile from the twin's copy as a full write: VALID, with the twin's CRC (R323, Table 9-2). -/
def execMirrorResync (line : Nat) (twin : TwinTile) (s : State) : Out :=
  match s.tileOfLine line with
  | none => .next s
  | some t =>
    if (s.tssAt t.key).state ≠ .stale || s.portGroup s.twinNum = [] || t.lines.any (fun l => s.tileMoving l) then .next s
    else match s.fullWrite line twin.data (.outer 1) with
      | none => .next s
      | some s =>
        let s := s.setTss t.key ⟨.valid, twin.crc, 0⟩
        let s := t.lines.foldl (fun s n => (s.wakeLine (.dev n)).getD s) s
        .next (s.releaseTile line 0).retryTxns

/-! ## Scrub (R304) -/

/-- Scrub meets a sector of a usable row with an error not yet found; it never reads a tile in state ZERO. -/
def State.scrubUsable (s : State) (key : Nat) : State :=
  let t := key / 64
  let line := key / 4 % 16
  let ch := t / 2 ^ 20
  if (s.tssAt t).state = .zero then s
  else match s.latent.get 0 key, s.dpaOf ch (t % 2 ^ 20) with
    | 1, _ => { s with latent := s.latent.erase key }.corrected ch 1
    | 2, some dpa =>
      let n := dpa / 128 + line
      (s.markBad n (BitVec.ofNat 4 (1 <<< (key % 4))) (s.mirrored n)).noteBad n
    | 2, none => s.poisonSectors ch (t % 2 ^ 20) line (BitVec.ofNat 4 (1 <<< (key % 4)))
    | _, _ => s

/-- Scrub meets a sector of a reserve row with an error not yet found: in the tile state store the line loses its entries (R305). -/
def State.scrubReserve (s : State) (key : Nat) : State :=
  let t := key / 64
  let line := key / 4 % 16
  let ch := t / 2 ^ 20
  let row := t % 2 ^ 20 - reserveRow
  match s.latent.get 0 key with
  | 1 => { s with latent := s.latent.erase key }.corrected ch 1
  | 2 =>
    if row < 4096 then { s with latent := s.latent.erase key }.tssLost ch (256 * row + 16 * line)
    else s.poisonSectors ch (t % 2 ^ 20) line (BitVec.ofNat 4 (1 <<< (key % 4)))
  | _ => s

/-- Scrub meets a sector with an error not yet found, unless its memory admits no access (R304, R330). -/
def State.scrubSector (s : State) (key : Nat) : State :=
  if !s.memOpen (key / 64 / 2 ^ 20) then s
  else if key / 64 % 2 ^ 20 < reserveRow then s.scrubUsable key
  else s.scrubReserve key

/-- SCRUB_PASS: one 24-hour cycle of every channel; the counts that cover 24 hours start again (log 29). -/
def execScrubPass (s : State) : Out :=
  if s.power.selfRefresh || !s.boot.ready then .next s
  else
    let s := s.latent.keys.foldl State.scrubSector s
    .next { s with repaired := .empty, chans := s.chans.mapVal (fun _ (c : Chan) => { c with ueRows := [], ueAfter := [] }) }

/-! ## CXL.mem (R269, R279, R466, R467, R589, R591) -/

/-- Where a host physical address of the decoder's range lies: its DPA, and whether it may be written; `none` for an unmapped
frame. -/
def State.windowAt (s : State) (base hpa : Nat) : Option (Nat × Bool) :=
  match s.host.window.get? ((hpa - base) / 2097152) with
  | none => none
  | some d =>
    let dpa := d + (hpa - base) % 2097152
    (s.setOf dpa).map (fun e => (dpa, e.2.owner ≠ .shared))

/-- A CXL.mem access that the decoder claims. -/
def cxlMem (hpa : Nat) (s : State) (body : Nat → State → State) : Out :=
  match s.host.decoder with
  | none => .next s
  | some (base, size) =>
    if !s.host.up || s.suspended 0 || !s.host.memActive || hpa < base || base + size ≤ hpa then .next s
    else .next (body base { s with power := { s.power with selfRefresh := false } })

/-- A CXL.mem access that R467 answers with all-ones or drops. -/
def State.unmappedAccess (s : State) : State :=
  { s with host := { s.host with unmapped := (s.host.unmapped + 1) % 2 ^ 64 } }

/-- A host request entered at its home, which serves it or holds it. -/
def State.hostRequest (s : State) (tag dpa : Nat) (k : ReqKind) : State :=
  let r := s.addReq ⟨.outer 0 tag none, 30, dpa, .dev (dpa / 128), k, 0, .flight, 0, .free⟩
  r.2.advance r.1

/-- CXL_MEM_READ: 64 bytes read by the host, `meta_` 1 to own the line, 2 to share it, 0 without caching it. -/
def execCxlMemRead (hpa tag : Nat) (meta_ : Fin 3) (s : State) : Out :=
  cxlMem hpa s (fun base s =>
    if s.fw.fatal then { s with outbox := .answer 0 tag 0 true :: s.outbox }
    else match s.windowAt base hpa with
      | none => { s.unmappedAccess with outbox := .answer 0 tag (BitVec.allOnes 1024) false :: s.outbox }
      | some (dpa, _) =>
        let cache := if meta_.val = 1 then some true else if meta_.val = 2 then some false else none
        s.hostRequest tag (dpa / 64 * 64) (.read (if dpa / 64 % 2 = 0 then 3 else 12) cache))

/-- CXL_MEM_WRITE: up to 64 bytes written by the host. -/
def execCxlMemWrite (hpa tag : Nat) (data : BitVec 512) (mask : BitVec 64) (s : State) : Out :=
  cxlMem hpa s (fun base s =>
    if s.fw.fatal then s
    else match s.windowAt base hpa with
      | some (dpa, true) =>
        let off := dpa / 64 % 2 * 64
        s.hostRequest tag (dpa / 64 * 64) (.store (lineOf off data.toNat) (BitVec.ofNat 128 (mask.toNat <<< off)))
      | _ => s.unmappedAccess)

end Sys2Proof.Machine
end

