-- ==== Sys2Proof/Machine/Rebind.lean ====
section
/-! DEFINITION. Moments that several commands share: batch-step boundaries and quad rebinding (R373 to R375), queues that drain and
partitions that quiesce (R370, R406), and the owner of a partition's time (R444 to R448). -/

namespace Sys2Proof.Machine

/-- A partition's record written. -/
def State.setPart (s : State) (p : Nat) (v : Part) : State := { s with parts := s.parts.put Part.init p v }

/-- The commands of a partition that have been fetched and are not complete. -/
def State.fetched (s : State) (p : Nat) : List (Nat × Cmd) :=
  s.cmds.rows.filter (fun r => r.2.part = p && r.2.stage ≠ .recorded)

/-- Whether a batch step of a partition is in progress. -/
def State.stepping (s : State) (p : Nat) : Bool :=
  s.cmds.any (fun _ c => c.part = p && c.isLaunch && (c.stage = .running || c.stage = .draining || c.stage = .killing))

/-! ## Quads (R374, R375) -/

/-- Whether a block of a core of these quads is still there. -/
def State.occupied (s : State) (quads : BitVec 40) : Bool :=
  s.blocks.any (fun _ b => b.phase ≠ .out && quads.getLsbD (b.core / 4))

/-- A slice record changed. -/
def State.updSlice (s : State) (k : Nat) (f : Slice → Slice) : State := { s with slices := s.slices.upd Slice.init k f }

/-- The save areas of a partition reserved for its quads and contexts (R455): 768 KiB for each core and context; they do not shrink while a
block saved from a quad that has left remains. -/
def State.reserveSave (s : State) (p : Nat) : State :=
  let r := s.part p
  let n := 786432 * 4 * popCount 40 (s.quadsOf p).toNat * r.contexts
  let left := s.blocks.any (fun _ b => b.phase = .out && !((s.quadsOf p).getLsbD (b.core / 4))
    && (s.tasks.get? b.task).any (fun t => t.part = p))
  s.setPart p { r with save := if left then max r.save n else n }

/-- A withdrawal completes once its quads hold no block: their L1s are invalidated, and they leave their slices (R375). -/
def State.endRebind (s : State) (p : Nat) : State :=
  let r := s.part p
  match r.rebind with
  | none => s
  | some b =>
    if !b.begun || s.occupied b.withdraw then s
    else
      let cores := (List.range 160).filter (fun c => b.withdraw.getLsbD (c / 4))
      let s := cores.foldl State.l1Invalidate s
      let s := { s with slices := s.slices.mapVal (fun _ (sl : Slice) =>
        if sl.part = some p then { sl with quads := sl.quads &&& ~~~b.withdraw } else sl) }
      (s.setPart p { s.part p with rebind := none, rebound := true }).reserveSave p

/-- A batch-step boundary of a partition: an accepted PART_REBIND_QUADS takes effect (R374). -/
def State.boundary (s : State) (p : Nat) : State :=
  let r := s.part p
  match r.rebind with
  | none => s
  | some b =>
    if b.begun then s
    else
      let s := s.updSlice b.slice (fun sl => { sl with quads := sl.quads ||| b.add })
      let s := (s.setPart p { r with rebind := some { b with begun := true } }).reserveSave p
      (s.vacate (fun c => b.withdraw.getLsbD (c / 4))).endRebind p

/-! ## Queues and quiescence -/

/-- The queues of a partition. -/
def State.queuesOf (s : State) (p : Nat) : List (Nat × Queue) := s.queues.rows.filter (fun r => r.1 / 64 = p)

/-- A quiescing partition whose last fetched command has completed is QUIESCED once its queues are DISABLED (R370, R371). -/
def State.settleQuiesce (s : State) (p : Nat) : State :=
  let r := s.part p
  if r.state = .quiescing && (s.fetched p).isEmpty && (s.queuesOf p).all (fun q => q.2.state = .disabled) then
    s.setPart p { r with state := .quiesced }
  else s

/-- Whether a function level reset of a context is in progress: its VF's, or the PF's (R476, R479). -/
def State.inFlr (s : State) (p ctx : Nat) : Bool := (s.fnRec 0).flr || s.fns.any (fun _ f => f.flr && f.ctx = some (p, ctx))

/-- A queue's state follows its indexes and INFLIGHT (Table 12-3); during a function level reset a queue counts as drained only from step
7 (Table 14-6). -/
def State.settleQueue (s : State) (q : Nat) : State :=
  match s.queue? q with
  | none => s
  | some v =>
    match v.state with
    | .idle => if v.tail ≠ v.sqHead then s.setQueue q { v with state := .active } else s
    | .active => if v.tail = v.sqHead && s.inflight q = 0 then s.setQueue q { v with state := .idle } else s
    | .draining =>
      if s.inflight q = 0 && !s.inFlr (q / 64) (q / 8 % 8) then (s.setQueue q { v with state := .disabled, enable := false }).settleQuiesce (q / 64) else s
    | _ => s

/-- A queue is told to drain: by QCTL, or because its partition quiesces (Table 12-3). -/
def State.drainQueue (s : State) (q : Nat) : State :=
  match s.queue? q with
  | none => s
  | some v =>
    match v.state with
    | .idle => (s.setQueue q { v with state := .draining, enable := false }).settleQueue q
    | .active => (s.setQueue q { v with state := .draining, enable := false }).settleQueue q
    | .stalled => s.setQueue q { v with drainPend := true, enable := false }
    | _ => s

/-! ## Owners of a partition's time (R445 to R448) -/

/-- Whether a context has a fetched command. -/
def State.hasWork (s : State) (p ctx : Nat) : Bool := (s.fetched p).any (fun r => r.2.ctx = ctx)

/-- The context that takes ownership next after a given one: the first in ascending order with work and a weight. -/
def State.nextOwner (s : State) (p : Nat) (after : Option Nat) : Option Nat :=
  let start := match after with
    | some c => c + 1
    | none => 0
  ((List.range 8).map (fun k => (start + k) % 8)).find? (fun c => s.hasWork p c && 0 < (s.part p).weights.getD c 0)

/-- Ownership moves to the next context in turn, for its weight of quanta. -/
def State.changeOwner (s : State) (p : Nat) : State :=
  let r := s.part p
  let o := s.nextOwner p r.owner
  let n := match o with
    | some c => r.weights.getD c 0
    | none => 0
  s.setPart p { r with owner := o, quantaLeft := n, preemptNow := r.preemptFull }

/-- An owner without a fetched command gives way at once, and a context becomes owner where there is none (R445, R448). -/
def State.settleOwner (s : State) (p : Nat) : State :=
  match (s.part p).owner with
  | some c => if s.hasWork p c then s else s.changeOwner p
  | none => if (s.nextOwner p none).isSome then s.changeOwner p else s

end Sys2Proof.Machine
end

