-- ==== Sys2Proof/Machine/Front.lean ====
section
/-! DEFINITION. The command front ends: queue registers, fetch, completion records and signals (R401 to R408, R419 to R434, R630,
Tables 12-1 to 12-5, 12-9). -/

namespace Sys2Proof.Machine

/-! ## Reading partition memory -/

/-- The end of the partition window (R32). -/
def windowEnd : Nat := 2 ^ 47

/-- A line of a partition's memory as a front end reads it at once; bytes of a SPENT tile are free (R315). -/
def State.frontLine (s : State) (p va : Nat) : BitVec 1024 :=
  match s.homeOf p va with
  | some (.dev n) =>
    if s.readMeets (s.forward n) 0xF = .spent then Config.freeLine s.freeCtr (va / 128) else s.devLine (s.forward n)
  | some (.host n) => s.hostView n
  | some (.peer _ _ _) => 0
  | none => 0

/-- Bytes of a partition's memory as a front end reads them. -/
def State.partBytes (s : State) (p va n : Nat) : List Byte :=
  let l0 := va / 128
  let k := (va + n + 127) / 128 - l0
  let bytes := ((List.range k).map (fun i => lineBytes (s.frontLine p ((l0 + i) * 128)))).flatten
  (bytes.drop (va % 128)).take n

/-- What a front end's read of a range meets in the tiles of this device (R91). -/
def State.frontMeets (s : State) (p va n : Nat) : List ReadMeets :=
  if n = 0 then []
  else (List.range ((va + n + 127) / 128 - va / 128)).map (fun k => match s.homeOf p ((va / 128 + k) * 128) with
    | some (.dev m) => s.readMeets (s.forward m) 0xF
    | _ => .data)

/-- The status by which a range cannot be read: poison, or a SPENT tile where the partition's policy is STOP (R315, R322). -/
def State.frontStop (s : State) (p va n : Nat) : Option Status :=
  (s.frontMeets p va n).findSome? (fun m => match m with
    | .bad => some .poison
    | .spent => if (s.part p).spentFlag then none else some .spentRead
    | _ => none)

/-- SPENT_SEEN where a range that is read has a SPENT tile (R315). -/
def State.frontFlags (s : State) (p va n : Nat) : BitVec 16 :=
  if (s.frontMeets p va n).contains .spent then flagSpentSeen else 0

/-- The first unmapped address of a range, if any. -/
def State.firstUnmapped (s : State) (p va n : Nat) : Option Nat :=
  if n = 0 then none
  else
    let steps := (va + n + 65535) / 65536 - va / 65536
    ((List.range steps).map (fun k => if k = 0 then va else (va / 65536 + k) * 65536)).find? (fun a => !s.mapped p a)

/-- The addresses of the lines of a range. -/
def lineVas (va n : Nat) : List Nat :=
  if n = 0 then [] else (List.range ((va + n + 127) / 128 - va / 128)).map (fun k => (va / 128 + k) * 128)

/-- Whether a line must be asked of its home: another device holds it, the host may own it, its tile waits for the twin's or the other
half's copy, or its home is at work on it. -/
def State.frontOdd (s : State) (p va : Nat) : Bool :=
  match s.homeOf p va with
  | some (.dev m) =>
    let n := s.forward m
    s.lineBusy 0 n || (s.dir.get? n).any (·.excl) || (match s.readMeets n 0xF with
      | .stale => true
      | .bad => s.repairable n
      | _ => false)
  | some (.host n) => !s.hostHeld n false
  | some (.peer _ _ _) => true
  | none => false

/-- A front end's reads of a range that are under way, by line address: those of a maker, for a task of it where `op` names one. -/
def State.frontReqs (s : State) (src : Src) (op : Option Nat) : List (Nat × MemReq) :=
  (s.reqs.keep (fun _ q => q.src == src && q.via.op == op && (match q.kind with
    | .read _ _ => true
    | _ => false))).rows

/-- Whether a range can be read at once: no line of it must be asked of its home, and no read of it is under way. -/
def State.frontPlain (s : State) (src : Src) (op : Option Nat) (p va n : Nat) : Bool :=
  (s.frontReqs src op).isEmpty && !(lineVas va n).any (s.frontOdd p)

/-- What a front end's read of a range comes to: it waits for its lines, cannot be made (with the address, where one is unmapped), or gives
bytes and flags. -/
inductive FrontRead where
  | wait (s : State)
  | stop (s : State) (st : Status) (addr : Nat)
  | got (s : State) (bytes : List Byte) (flags : BitVec 16)

/-- The lines of a range asked of their homes, and gathered once all have come (R54, R231, R234). -/
def State.frontGather (s : State) (src : Src) (op : Option Nat) (p va n : Nat) (pc : DWord) : FrontRead :=
  let mine := s.frontReqs src op
  let done := { s with reqs := mine.foldl (fun t r => t.erase r.1) s.reqs }
  let line := fun a => (mine.find? (fun r => r.2.va = a)).map (fun r => r.2.stage)
  let missing := (lineVas va n).filter (fun a => (line a).isNone)
  if missing ≠ [] then
    .wait (missing.foldl (fun s a => match s.homeOf p a with
      | some h => (s.addReq ⟨src, p, a, h, .read 0xF none, 0, .flight, pc, { Via.free with op := op }⟩).2
      | none => s) s)
  else match mine.findSome? (fun r => match r.2.stage with
    | .failed st => some st
    | _ => none) with
  | some st => .stop done st 0
  | none =>
    let bytes := (lineVas va n).map (fun a => match line a with
      | some (.back d) => some (lineBytes d)
      | _ => none)
    if bytes.any Option.isNone then .wait s
    else .got done (((bytes.map (·.getD [])).flatten.drop (va % 128)).take n) 0

/-- A range of partition memory read by a front end, for the maker that the requests name (R54, R105, R231, R234). -/
def State.frontRead (s : State) (src : Src) (op : Option Nat) (p va n : Nat) (pc : DWord) : FrontRead :=
  match s.firstUnmapped p va n with
  | some a => .stop s .accessFault a
  | none =>
    if s.frontPlain src op p va n then match s.frontStop p va n with
      | some st => .stop s st 0
      | none =>
        let f := s.frontFlags p va n
        .got (if f = 0 then s else { s with freeCtr := s.freeCtr + 1 }) (s.partBytes p va n) f
    else s.frontGather src op p va n pc

/-! ## Fields of commands (Tables 12-4 to 12-6) -/

/-- SIG_ADDR with its low 3 bits cleared. -/
def Cmd.sigAddr (c : Cmd) : Nat := numAt c.bytes 16 8 / 8 * 8
/-- BATCH_VA, rounded down to 64 bytes. -/
def Cmd.batchVa (c : Cmd) : Nat := numAt c.bytes 32 8 / 64 * 64
/-- POUR_VA, rounded down to 64 bytes. -/
def Cmd.pourVa (c : Cmd) : Nat := numAt c.bytes 48 8 / 64 * 64
/-- POUR_ENTRIES, clamped. -/
def Cmd.pourEntries (c : Cmd) : Nat := min (numAt c.bytes 56 4) 65536
/-- POUR_ARENA in bytes, clamped. -/
def Cmd.pourArena (c : Cmd) : Nat := 1024 * min (numAt c.bytes 60 4) 65535
/-- The source of a COPY. -/
def Cmd.copySrc (c : Cmd) : Nat := numAt c.bytes 32 8
/-- The destination of a COPY or FILL; FILL rounds down to 8 bytes. -/
def Cmd.copyDst (c : Cmd) : Nat := if c.op = 3 then numAt c.bytes 32 8 / 8 * 8 else numAt c.bytes 40 8
/-- The LENGTH of a COPY or FILL after its clamps (R417). -/
def Cmd.copyLen (c : Cmd) : Nat :=
  let n := min (min (numAt c.bytes 48 8) (2 ^ 40)) (windowEnd - min c.copyDst windowEnd)
  if c.op = 3 then n / 8 * 8 else min n (windowEnd - min c.copySrc windowEnd)
/-- SEM_VA, rounded down to 8 bytes. -/
def Cmd.semVa (c : Cmd) : Nat := numAt c.bytes 32 8 / 8 * 8
/-- SRC_VA of a graph command, rounded down to 128 bytes. -/
def Cmd.graphSrc (c : Cmd) : Nat := numAt c.bytes 32 8 / 128 * 128
/-- NODES of a graph command, clamped. -/
def Cmd.nodes (c : Cmd) : Nat := min (max (numAt c.bytes 44 4) 1) 4096
/-- GRAPH, the index in its partition. -/
def Cmd.graph (c : Cmd) : Nat := numAt c.bytes 40 1

/-- Whether a field that the command uses is clamped as it is read (R408). -/
def Cmd.clamps (c : Cmd) : Bool :=
  let t := numAt c.bytes 4 4
  let own := match c.op with
    | 1 => c.batchVa ≠ numAt c.bytes 32 8 || c.pourVa ≠ numAt c.bytes 48 8 || 65536 < numAt c.bytes 56 4
      || 65535 < numAt c.bytes 60 4
    | 2 => c.copyLen ≠ numAt c.bytes 48 8
    | 3 => c.copyLen ≠ numAt c.bytes 48 8 || c.copyDst ≠ numAt c.bytes 32 8
    | 4 => c.semVa ≠ numAt c.bytes 32 8
    | 8 => c.graphSrc ≠ numAt c.bytes 32 8 || c.nodes ≠ numAt c.bytes 44 4
    | 9 => c.graphSrc ≠ numAt c.bytes 32 8 || c.nodes ≠ numAt c.bytes 44 4
    | _ => false
  t < 10 || 600000000 < t || (c.wantsSignal && c.sigAddr ≠ numAt c.bytes 16 8) || own

/-- The opcodes of Table 12-5. -/
def opcodes : List Nat := [0, 1, 2, 3, 4, 8, 9, 10]

/-- Whether a command is a graph command. -/
def Cmd.isGraph (c : Cmd) : Bool := 8 ≤ c.op && c.op ≤ 10

/-! ## Queue registers (Tables 12-2, 12-3) -/

/-- Whether a function's BAR0 shows a queue's registers (R403). -/
def State.seesQueue (s : State) (fn q : Nat) : Bool := fn = 0 || (s.fnRec fn).ctx = some (q / 64, q / 8 % 8)

/-- Whether a write by a function reaches a queue's front end: front end 1 lies across the hinge, on the leaf of the function's bucket
(R20, R21, R290). -/
def State.feHeard (s : State) (fn : Nat) (v : Queue) : Bool :=
  let b := s.hinge.buckets.foldl (· + ·) 0
  let k := bucketLeaf s.hinge.buckets (fn % b) 0
  v.fe = 0 || (s.leafOpen k && s.leafRoom k 1 0)

/-- A write to a queue's registers by a function: nothing for a queue that the function does not see or that does not exist. A write that
cannot cross the hinge waits (log 2). -/
def queueWrite (fn : Nat) (rid : Option Nat) (doorbell : Bool) (q : Nat) (f : Queue → State) (s : State) : Out :=
  match s.queue? q with
  | none => .next s
  | some v => if s.seesQueue fn q && s.feHeard fn v then inbound fn rid doorbell s (f v) else .next s

/-- QCTL.ENABLE written 1: a DISABLED queue becomes IDLE, unless its context's VF may make no requests, or its partition is not in a
state whose queues run (R371). -/
def execQueueEnable (fn : Fin 64) (rid : Option Nat) (q : Fin 1024) (s : State) : Out :=
  queueWrite fn rid false q (fun v =>
    let st := (s.part (q / 64)).state
    if v.state = .disabled && s.mayRequest (q / 64) (q / 8 % 8) && (st = .active || st = .built) then
      (s.setQueue q { v with state := .idle, enable := true }).settleQueue q
    else s) s

/-- QCTL.ENABLE written 0. -/
def execQueueDisable (fn : Fin 64) (rid : Option Nat) (q : Fin 1024) (s : State) : Out :=
  queueWrite fn rid false q (fun _ => s.drainQueue q) s

/-- QSQ_DB.TAIL written: recorded in every state; an IDLE queue with commands becomes ACTIVE (R406). -/
def execDoorbell (fn : Fin 64) (rid : Option Nat) (q : Fin 1024) (tail : BitVec 16) (s : State) : Out :=
  queueWrite fn rid true q (fun v => (s.setQueue q { v with tail := tail.toNat % v.depth }).settleQueue q) s

/-- QCQ_DB.HEAD written: completion slots before it are free again (R421). -/
def execCqHeadWrite (fn : Fin 64) (rid : Option Nat) (q : Fin 1024) (head : BitVec 16) (s : State) : Out :=
  queueWrite fn rid true q (fun v => s.setQueue q { v with head := head.toNat % v.depth }) s

/-! ## Fetch (R404, R405, R439, R630) -/

/-- Records written and not yet consumed. -/
def Queue.unread (v : Queue) : Nat := (v.cqTail + v.depth - v.head) % v.depth

/-- Whether a queue may fetch now (R404, R464, R556, R588). -/
def State.canFetch (s : State) (q : Nat) (v : Queue) : Bool :=
  let p := s.part (q / 64)
  v.state = .active && v.tail ≠ v.sqHead && s.inflight q < 64 && s.inflight q + v.unread < v.depth
  && s.alive && s.power.retainReq = 0 && s.power.state ≠ .retain && s.mayRequest (q / 64) (q / 8 % 8)
  && (!p.confidential || (s.host.ideIo && s.host.ideCxl))
  && (v.sqLoc || s.host.up)

/-- Whether it is a queue's turn among the queues of its context in its front end (R439). -/
def State.isTurn (s : State) (q : Nat) (v : Queue) : Bool :=
  let key := q / 8
  let last := s.turns.get 7 key
  let order := (List.range 8).map (fun k => key * 8 + (last + 1 + k) % 8)
  order.find? (fun k => match s.queue? k with
    | some w => w.fe = v.fe && s.canFetch k w
    | none => false) = some q

/-- The slot at SQ_HEAD read: a queue in host memory reads what the host returns; a fetch that fails gives no bytes (R630). -/
def State.slotRead (s : State) (q : Nat) (v : Queue) (host : Option (List Byte)) : FrontRead :=
  let a := v.sqBase + 64 * v.sqHead
  if v.sqLoc then s.frontRead (.fe q) (some 0) (q / 64) a 64 0
  else match host with
    | some l => .got s (sliceBytes l 0 64) 0
    | none => .stop s .accessFault a

/-- A command as its slot gives it, with its fields read once (R404, R408): a reserved opcode is complete at once. -/
def Cmd.ofSlot (q slot : Nat) (bytes : List Byte) : Cmd :=
  let c : Cmd := ⟨q, slot, bytes, .fetched, none, .ok, 0, 0, 0, [], none, 0, false, none, false, [], .empty, none, false⟩
  let c := { c with flags := clampedIf c.clamps }
  if !opcodes.contains c.op then { c with stage := .complete, status := .accessFault } else c

/-- A command whose fetch failed (R630): it is complete, without flags, and its detail is the slot's address. -/
def Cmd.unfetched (q slot : Nat) : Cmd :=
  ⟨q, slot, List.replicate 64 0, .complete, none, .accessFault, 0, BitVec.ofNat 64 slot, 0, [], none, 0, true, none, false, [], .empty, none, false⟩

/-- The batch descriptor of a LAUNCH read with it (R404); an unmapped one, or one that cannot be read, completes the command. -/
def State.readBatch (s : State) (q : Nat) (c : Cmd) : FrontRead :=
  if c.stage ≠ .fetched || c.op ≠ 1 then .got s [] 0 else s.frontRead (.fe q) (some 1) (q / 64) c.batchVa 512 0

/-- A fetched command enters its queue. -/
def State.enterCmd (s : State) (q : Nat) (v : Queue) (c : Cmd) : State :=
  let s := s.setQueue q { v with sqHead := (v.sqHead + 1) % v.depth }
  let s := { s with turns := s.turns.put 7 (q / 8) (q % 8) }
  let id := s.newId
  let s := id.2.setCmd id.1 c
  (s.wake.settleOwner (q / 64)).trace

/-- The reads of a queue's fetch that are under way forgotten. -/
def State.fetchDone (s : State) (q : Nat) : State := { s with reqs := s.reqs.keep (fun _ r => r.src != .fe q) }

/-- COMMAND_FETCH: the command at SQ_HEAD is copied, with its batch descriptor; the fetch waits for lines that other agents hold. -/
def execCommandFetch (q : Fin 1024) (host : Option (List Byte)) (s : State) : Out :=
  match s.queue? q with
  | none => .next s
  | some v =>
    if !s.canFetch q v || !s.isTurn q v then .next s
    else
      let a := v.sqBase + 64 * v.sqHead
      match s.slotRead q v host with
      | .wait s => .next s
      | .stop s _ _ => .next ((s.fetchDone q).enterCmd q v (Cmd.unfetched q a))
      | .got s1 bytes f =>
        let c := Cmd.ofSlot q a bytes
        match s1.readBatch q c with
        | .wait s2 =>
          -- the slot is read again with the descriptor
          .next { s2 with reqs := (s.frontReqs (.fe q) (some 0)).foldl (fun t r => t.set r.1 r.2) s2.reqs }
        | .stop s2 st addr =>
          let c := { c with stage := .complete, status := st, detail := if st = .accessFault then BitVec.ofNat 64 addr else 0 }
          .next ((s2.fetchDone q).enterCmd q v c)
        | .got s2 batch g => .next ((s2.fetchDone q).enterCmd q v { c with batch := batch, flags := c.flags ||| f ||| g })

/-! ## Starting (R405) -/

/-- Whether a fetched command with an opcode may start: in fetch order, behind AFTER and graph commands. -/
def State.mayStart (s : State) (id op : Nat) : Option Cmd :=
  match s.cmd? id with
  | none => none
  | some c =>
    let earlier := s.cmds.rows.filter (fun r => r.1 < id && r.2.queue = c.queue)
    let open_ := earlier.filter (fun r => r.2.pending)
    if c.stage = .fetched && c.op = op && s.alive && open_.all (fun r => r.2.stage ≠ .fetched && !r.2.isGraph)
        && ((!c.after && !c.isGraph) || open_.isEmpty) then some c
    else none

/-- A command that starts. -/
def starts (id op : Nat) (s : State) (f : Cmd → State) : Out :=
  match s.mayStart id op with
  | none => .next s
  | some c => .next (f c)

/-- NOP: nothing, and it completes. -/
def execCmdNop (id : Nat) (s : State) : Out := starts id 0 s (fun _ => s.cmdDone id .ok 0)

/-- SEM_WAIT: a SEM.ACQ at SYSTEM scope on its word (R418). -/
def execSemWait (id : Nat) (s : State) : Out :=
  starts id 4 s (fun c =>
    let va := c.semVa
    let n := numAt c.bytes 40 4
    match (if va < 2 ^ 48 then s.locate c.part va else none) with
    | some (h, true) =>
      if n = 0 then s.cmdDone id .ok 0
      else
        let r := s.addReq ⟨.cmd id, c.part, va, h, .semAcq (va % 128) n, 0, .flight, 0, .free⟩
        r.2.setCmd id { c with stage := .running, req := some r.1 }
    | _ => s.cmdDone id .accessFault 0)

/-! ## Records (R419 to R421, R432) -/

/-- The bytes of a record that its command determines (Table 12-9). -/
def Cmd.record (c : Cmd) : List Byte :=
  (if c.failed then List.replicate 8 0 else sliceBytes c.bytes 8 8) ++ bytesOf 1 c.status.code ++ [0] ++ bytesOf 2 c.flags.toNat
    ++ [0, 0] ++ bytesOf 2 c.queue ++ bytesOf 8 c.detail.toNat ++ bytesOf 8 c.task.toNat

/-- A record as it is written: PHASE and SQ_HEAD take the queue's present values. -/
def Queue.stamp (v : Queue) (r : List Byte) : List Byte :=
  spliceBytes (spliceBytes r 9 [if v.phase then 1 else 0]) 12 (bytesOf 2 v.sqHead)

/-- A record written to the slot at CQ_TAIL with the routing ID of the queue's function (R464). -/
def State.writeRecord (s : State) (q : Nat) (v : Queue) (r : List Byte) : State :=
  let b := v.stamp r
  let s := { s with outbox := .record q v.cqTail b :: s.outbox }
  let s := s.ioWrite (s.fnOf (q / 64) (q / 8 % 8)) (v.cqBase + 32 * v.cqTail) b
  let t := (v.cqTail + 1) % v.depth
  s.setQueue q { v with cqTail := t, phase := if t = 0 then !v.phase else v.phase }

/-- Whether a command sends its signal once its record is written (R425). -/
def Cmd.signals (c : Cmd) : Bool := !c.failed && c.wantsSignal && (!c.onOk || c.status = .ok)

/-- A command's signal, as it is held. -/
def Cmd.signal (c : Cmd) : Option (DWord × DWord × Bool) :=
  if c.signals then some (BitVec.ofNat 64 c.sigAddr, BitVec.ofNat 64 (numAt c.bytes 24 8), c.flag 2) else none

/-- Whether a command's writes are not all visible: a write, atomic or addition of it is still outstanding (R232). -/
def State.writesLeft (s : State) (id : Nat) : Bool :=
  s.reqs.any (fun _ q => q.src == .cmd id && (match q.kind with
    | .load _ _ _ _ _ _ => false
    | .prefetch => false
    | .tile w _ _ => w
    | _ => true))

/-- Graph versions that are no longer live forgotten (R416). -/
def State.gcVersions (s : State) : State :=
  { s with versions := s.versions.keep (fun k _ =>
      s.graphs.any (fun _ g => g.current == some k) || s.cmds.any (fun _ c => c.version == some k && c.pending)) }

/-- What follows when a command has completed and its record is settled. -/
def State.afterRecord (s : State) (c : Cmd) : State :=
  let p := c.part
  let s := s.gcVersions.settleQueue c.queue
  let s := if c.isLaunch && !s.stepping p then s.boundary p else s
  (s.settleQuiesce p).settleOwner p

/-- COMPLETION_WRITE: once a complete command's writes are visible, its record is written; one that the host rejects goes to the shadow
and stalls the queue, as does every later completion there (R432). Without RECORD the slot is only released. During a function level
reset of the context neither record nor signal is sent (R476). -/
def execCompletionWrite (id : Nat) (rejected : Bool) (s : State) : Out :=
  match s.cmd? id with
  | none => .next s
  | some c =>
    match s.queue? c.queue with
    | none => .next s
    | some v =>
      if c.stage = .complete && !s.writesLeft id && s.inFlr c.part c.ctx then .next ({ s with cmds := s.cmds.erase id }.afterRecord c)
      else if c.stage ≠ .complete || s.writesLeft id || s.fw.fatal || !s.mayRequest c.part c.ctx || !s.host.up then .next s
      else
        let wants := c.wantsRecord || c.failed
        let drop := fun (s : State) => { s with cmds := s.cmds.erase id }
        let held : HeldRec := ⟨id, if wants then some c.record else none, c.signal⟩
        let out := if v.state = .stalled then
            if wants || c.signals then drop (s.setQueue c.queue { v with shadow := v.shadow ++ [held] }) else drop s
          else if wants && rejected then
            let v' := { v with state := .stalled, drainPend := v.drainPend || v.state = .draining, shadow := v.shadow ++ [held] }
            drop ((s.setQueue c.queue v').event 0x602 (c.queue))
          else
            let s := if wants then s.writeRecord c.queue v c.record else s
            if c.signals then s.setCmd id { c with stage := .recorded } else drop s
        .next ((out.afterRecord c).trace)

/-! ## Signals (R425 to R427) -/

/-- A signal sent: form 0 as a write or an addition at the address's home, form 1 as a bus write; one that cannot be delivered is
dropped and counted. -/
def State.sendSignal (s : State) (q id : Nat) (sig : DWord × DWord × Bool) (rejected : Bool) : State :=
  let a := sig.1.toNat
  let dropped := match s.queue? q with
    | some v => (s.setQueue q { v with sigDrops := min (v.sigDrops + 1) 255 }).event 0x603 q
    | none => s
  if a < 2 ^ 63 then
    let va := a % 2 ^ 48
    match s.locate (q / 64) va with
    | some (h, true) =>
      let lost := match h with
        | .peer d _ _ => s.lbx.lost.contains d
        | .host _ => !s.host.up
        | .dev _ => false
      if lost then dropped
      else
        let k := if sig.2.2 then ReqKind.semRel (va % 128) sig.2.1.toNat
          else ReqKind.store (lineOf (va % 128) sig.2.1.toNat) (byteMask (va % 128) 8)
        (s.addReq ⟨.cmd id, q / 64, va, h, k, 0, .flight, 0, .free⟩).2
    | _ => dropped
  else if rejected || !s.host.up then dropped
  else { s with outbox := .busWrite (a % 2 ^ 52) sig.2.1.toNat :: s.outbox }

/-- SIGNAL_SEND: a recorded command's signal is sent, once. -/
def execSignalSend (id : Nat) (rejected : Bool) (s : State) : Out :=
  match s.cmd? id with
  | none => .next s
  | some c =>
    if c.stage ≠ .recorded || s.fw.fatal || !s.mayRequest c.part c.ctx then .next s
    else match c.signal with
      | none => .next s
      | some sig => .next ({ s with cmds := s.cmds.erase id }.sendSignal c.queue id sig rejected)

/-! ## Queue mailbox commands (Table 12-1) -/

/-- The largest power of two not above a depth. -/
def depthOf (n : Nat) : Nat := 2 ^ (min (max (Nat.log2 n) 4) 16)

/-- Whether a partition exists. -/
def State.partExists (s : State) (p : Nat) : Bool := (s.part p).state ≠ .free

/-- The queue that a request names: from the PF the global number, from a VF one of its context; `none` where there is none. -/
def State.namedQueue (s : State) (fn n : Nat) : Option (Nat × Queue) :=
  let k := if fn = 0 then some n else match (s.fnRec fn).ctx with
    | some (p, c) => if n < 8 then some (64 * p + 8 * c + n) else none
    | none => none
  k.bind (fun k => (s.queue? k).map (fun v => (k, v)))

/-- The front end of the half with more of a partition's quads (R402). -/
def State.homeFe (s : State) (p : Nat) : Nat :=
  let q := (s.quadsOf p).toNat
  if popCount 20 q < popCount 20 (q >>> 20) then 1 else 0

/-- Q_CREATE. -/
def execQCreate (r : Req) (s : State) : Out :=
  serve r 0x4400 [1, 1, 4, 1, 8, 8]
    (fun s fs => if r.fn = 0 then s.partExists (fieldAt fs 0 / 8) && fieldAt fs 0 < 128
        && fieldAt fs 0 % 8 < (s.part (fieldAt fs 0 / 8)).contexts
      else s.permits r.fn true)
    (fun fs s => do
      let ctx := if r.fn = 0 then fieldAt fs 0 else match (s.fnRec r.fn).ctx with
        | some (p, c) => 8 * p + c
        | none => 0
      refuseIf (7 < fieldAt fs 1) .badLength
      let q := 8 * ctx + fieldAt fs 1
      refuseIf (s.queue? q).isSome .notInMode
      let depth := depthOf (fieldAt fs 2)
      let sq := fieldAt fs 4 / 4096 * 4096
      let cq := fieldAt fs 5 / 4096 * 4096
      let v : Queue := ⟨depth, fieldAt fs 3 = 1, s.homeFe (ctx / 8), sq, cq, false, .disabled, false, 0, 0, 0, 0, true, [], 0⟩
      pure (Ans.ok (s.setQueue q v) (depth ≠ fieldAt fs 2 || 1 < fieldAt fs 3 || sq ≠ fieldAt fs 4 || cq ≠ fieldAt fs 5))) s

/-- A queue command whose QUEUE names no queue is denied. -/
def onQueue (r : Req) : State → List Nat → Bool :=
  fun s fs => s.permits r.fn true && (s.namedQueue r.fn (fieldAt fs 0)).isSome

/-- Q_DESTROY. -/
def execQDestroy (r : Req) (s : State) : Out :=
  serve r 0x4401 [2] (onQueue r) (fun fs s =>
    match s.namedQueue r.fn (fieldAt fs 0) with
    | none => .error .denied
    | some (k, v) => do
      refuseIf (v.state ≠ .disabled) .notInMode
      pure (Ans.ok { s with queues := s.queues.erase k })) s

/-- The records of a shadow, oldest first; signals alone are not counted (R432). -/
def Queue.heldRecords (v : Queue) : List (List Byte) := v.shadow.filterMap (·.record)

/-- Q_SHADOW_READ: the record as it would be written now. -/
def execQShadowRead (r : Req) (s : State) : Out :=
  serve r 0x0402 [2, 1] (onQueue r) (fun fs s =>
    match s.namedQueue r.fn (fieldAt fs 0) with
    | none => .error .denied
    | some (_, v) => do
      refuseIf (v.heldRecords.isEmpty) .notInMode
      let k := min (fieldAt fs 1) (v.heldRecords.length - 1)
      pure (Ans.ok s (k ≠ fieldAt fs 1) (v.stamp (v.heldRecords.getD k [])))) s

/-- Held entries delivered in order: under RETRY up to the first whose write is rejected again, under DISCARD all, signals alone. -/
def State.deliverHeld (s : State) (q : Nat) (discard : Bool) (rejected sigRejected : List Nat) : List (HeldRec × Nat) → State
  | [] => s
  | (h, k) :: t =>
    match s.queue? q with
    | none => s
    | some v =>
      if !discard && h.record.isSome && rejected.contains k then s
      else
        let s := s.setQueue q { v with shadow := v.shadow.drop 1 }
        let s := match h.record, s.queue? q with
          | some b, some v => if discard then s else s.writeRecord q v b
          | _, _ => s
        let s := match h.signal with
          | some sig => s.sendSignal q h.cmd sig (sigRejected.contains k)
          | none => s
        s.deliverHeld q discard rejected sigRejected t

/-- A stalled queue of which nothing is held any more goes on, or drains where a drain was asked for meanwhile. -/
def State.endStall (s : State) (k : Nat) : State :=
  match s.queue? k with
  | some v =>
    if v.shadow.isEmpty then
      (s.setQueue k { v with state := if v.drainPend then .draining else .active, drainPend := false }).settleQueue k
    else s
  | none => s

/-- Q_STALL_ACK: the stall ends by RETRY or DISCARD (R434). -/
def execQStallAck (r : Req) (rejected sigRejected : List Nat) (s : State) : Out :=
  serve r 0x4403 [2, 1] (onQueue r) (fun fs s =>
    match s.namedQueue r.fn (fieldAt fs 0) with
    | none => .error .denied
    | some (k, v) => do
      refuseIf (v.state ≠ .stalled) .notInMode
      let s := s.setQueue k { v with sigDrops := 0 }
      let s := s.deliverHeld k (fieldAt fs 1 = 1) rejected sigRejected v.shadow.zipIdx
      let s := s.endStall k
      pure (Ans.ok s (1 < fieldAt fs 1))) s

end Sys2Proof.Machine
end

