-- ==== Sys2Proof/Machine/Graph.lean ====
section
/-! DEFINITION. Stored graphs: node images, versions and the graph commands (R38 to R43, R58, R413, R415, R416), and LAUNCH (R410,
R411). -/

namespace Sys2Proof.Machine

/-! ## Grids (Table 2-2, R40) -/

/-- A grid after the clamps of Table 2-2 and R40. -/
def clampGrid (x y z : Nat) : Nat × Nat × Nat :=
  let x := min x 16777216
  let y := min y 65536
  let z := min z 65536
  if x = 0 ∨ y = 0 ∨ z = 0 then (x, y, z)
  else
    let z := if 2 ^ 32 < x * y * z then max 1 (2 ^ 32 / (x * y)) else z
    let y := if 2 ^ 32 < x * y * z then max 1 (2 ^ 32 / (x * z)) else y
    (x, y, z)

/-! ## Node images (Table 12-8) -/

/-- An image whose image fields are clamped; its edges and affinity depend on the graph and are settled with it. -/
def Node.ofImage (l : List Byte) : Node :=
  let grid := numAt l 8 8
  let shape := numAt l 16 8
  let f := fun (w lo len : Nat) => (w >>> lo) % 2 ^ len
  let gx := f grid 0 25
  let gy := f grid 25 17
  let gz := f grid 42 17
  let g := clampGrid gx gy gz
  let groups := f shape 0 6
  let plen := f shape 6 13
  let preds := f shape 36 6
  let slot := f shape 42 5
  let acc := (numAt l 24 4 >>> 8) % 16
  let pva := numAt l 32 8
  let pourOnly := f shape 19 1 = 1
  let groups' := min (max groups 1) 32
  let plen' := min plen 4096 / 16 * 16
  let slot' := if 16 < slot then 0 else slot
  let acc' := min acc 8
  let pva' := pva / 16 * 16
  let edges := (List.range (min preds 32)).map (fun e =>
    let w := numAt l (64 + 2 * e) 2
    (⟨w % 4096, w.testBit 12⟩ : Edge))
  { kernel := BitVec.ofNat 64 (numAt l 0 8 % 2 ^ 48)
    gridX := g.1, gridY := g.2.1, gridZ := g.2.2
    groups := groups', paramLen := plen', pourOnly := pourOnly
    affKind := f shape 20 4, affArg := f shape 24 12
    gridSlot := slot', nregs := numAt l 24 4 % 256, accUnits := acc', lmem := numAt l 28 4 % 2 ^ 19
    paramVa := pva'
    edges := if pourOnly then [] else edges
    clamped := g ≠ (gx, gy, gz) || groups' ≠ groups || plen' ≠ plen || 32 < preds || slot' ≠ slot || acc' ≠ acc
      || (!pourOnly && pva' ≠ pva) }

/-! ## Edges (R42, R43, R58) -/

/-- The predecessors of a node. -/
def predsOf (ns : List Node) (k : Nat) : List Nat := (ns[k]?.map (fun n => n.edges.map (·.pred))).getD []

/-- Every node from which the listed nodes are reached through edges; `fuel` bounds the chain. -/
def ancestors (ns : List Node) : Nat → List Nat → List Nat → List Nat
  | 0, _, seen => seen
  | fuel + 1, front, seen =>
    let new := ((front.map (predsOf ns)).flatten.eraseDups).filter (fun k => !seen.contains k)
    if new = [] then seen else ancestors ns fuel new (seen ++ new)

/-- Whether node `a` lies on a chain of edges that leads to node `b`. -/
def leadsTo (ns : List Node) (a b : Nat) : Bool := (ancestors ns ns.length [b] [b]).contains a

/-- The edges of one node that close a cycle removed (R43). -/
def cutNode (acc : List Node × Bool) (k : Nat) : List Node × Bool :=
  match acc.1[k]? with
  | none => acc
  | some n =>
    let keep := n.edges.filter (fun e => !leadsTo acc.1 k e.pred)
    if keep.length = n.edges.length then acc
    else (acc.1.set k { n with edges := keep }, true)

/-- A graph whose edges obey R42 and R43, in decreasing order of successor, with whether an edge was dropped or ignored. An edge to an
absent node stays: no task of a step of this version has its node, so it holds nothing back, and a later version may have the node. -/
def settleEdges (ns : List Node) : List Node × Bool :=
  let lost := ns.any (fun n => n.edges.any (fun e => decide (ns.length ≤ e.pred)))
  let r := (List.range ns.length).reverse.foldl cutNode (ns, false)
  (r.1, lost || r.2)

/-- A node's hint under Table 2-5: a reserved kind, or an argument not valid for its kind, becomes NONE. -/
def settleHint (ns : List Node) (k : Nat) (n : Node) : Node :=
  let ok := match n.affKind with
    | 0 => true
    | 1 => decide (n.affArg < ns.length) && n.affArg ≠ k && leadsTo ns n.affArg k
    | 2 => decide (n.affArg ≤ 15)
    | 3 => true
    | 4 => true
    | _ => false
  if ok then n else { n with affKind := 0, affArg := 0, clamped := true }

/-- A new version made of node images. -/
def GraphVer.ofNodes (ns : List Node) : GraphVer :=
  let r := settleEdges ns
  let ns := r.1.zipIdx.map (fun e => settleHint r.1 e.2 e.1)
  ⟨ns, r.2 || ns.any (·.clamped)⟩

/-- Node images from bytes. -/
def nodesOf (l : List Byte) (n : Nat) : List Node := (List.range n).map (fun k => Node.ofImage (sliceBytes l (128 * k) 128))

/-! ## The graph store (R415, R416) -/

/-- The key of a graph index. -/
def graphKey (p g : Nat) : Nat := p * 256 + g

/-- A graph index. -/
def State.graph (s : State) (p g : Nat) : GraphIdx := (s.graphs.get? (graphKey p g)).getD ⟨0, none⟩

/-- Bytes of a partition's graph store that its live versions hold, when graph `g` no longer holds its current one. -/
def State.storeUsed (s : State) (p g : Nat) : Nat :=
  let cur := (s.graphs.rows.filter (fun r => r.1 / 256 = p && r.1 ≠ graphKey p g)).filterMap (fun r => r.2.current)
  let run := (s.cmds.vals.filter (fun c => c.part = p && c.pending)).filterMap (fun c => c.version)
  ((cur ++ run).eraseDups.map (fun k => 128 * ((s.versions.get? k).map (fun v => v.nodes.length)).getD 0)).foldl (· + ·) 0

/-- A new version becomes current, and its command completes with its number; without room it waits. -/
def State.newVersion (s : State) (id : Nat) (c : Cmd) (ns : List Node) : State :=
  if 33554432 < s.storeUsed c.part c.graph + 128 * ns.length then s
  else
    let v := GraphVer.ofNodes ns
    let g := s.graph c.part c.graph
    let n := (g.counter + 1) % 65536
    let k := s.newId
    let s := { k.2 with
      versions := k.2.versions.set k.1 v
      graphs := k.2.graphs.set (graphKey c.part c.graph) ⟨n, some k.1⟩ }
    let s := if (settleEdges ns).2 then s.cmdRaise id flagClamped else s
    (s.cmdDone id .ok (BitVec.ofNat 64 n)).gcVersions

/-- What a graph command's read of images met is noted: SPENT_SEEN (R315). -/
def State.imagesRead (s : State) (id : Nat) (f : BitVec 16) : State := if f = 0 then s else s.cmdRaise id f

/-- A graph command's images read from partition memory, then used: the command ends where they cannot be read, and stays fetched while
it waits for lines that other agents hold. -/
def State.withImages (s : State) (id : Nat) (c : Cmd) (n : Nat) (use : State → List Node → State) : State :=
  match s.frontRead (.cmd id) (some 0) c.part c.graphSrc (128 * n) 0 with
  | .wait s => s
  | .stop s st _ => s.cmdDone id st 0
  | .got s bytes f => use (s.imagesRead id f) (nodesOf bytes n)

/-- GRAPH_LOAD (R415). -/
def execGraphLoad (id : Nat) (s : State) : Out :=
  starts id 8 s (fun c => s.withImages id c c.nodes (fun s ns => s.newVersion id c ns))

/-- GRAPH_PATCH: nodes of the current version replaced or appended. The stored nodes keep their edges, those to absent nodes among them
(R42). -/
def execGraphPatch (id : Nat) (s : State) : Out :=
  starts id 9 s (fun c =>
    match (s.graph c.part c.graph).current.bind s.versions.get? with
    | none => s.cmdDone id .accessFault 0
    | some v =>
      let asked := numAt c.bytes 48 4
      let first := min asked v.nodes.length
      let n := min c.nodes (4096 - first)
      s.withImages id c n (fun s new =>
        let s := if first ≠ asked || n ≠ c.nodes then s.cmdRaise id flagClamped else s
        s.newVersion id c (v.nodes.take first ++ new ++ v.nodes.drop (first + n)))) 

/-- GRAPH_FREE: the index is removed and keeps its counter. -/
def execGraphFree (id : Nat) (s : State) : Out :=
  starts id 10 s (fun c =>
    let g := s.graph c.part c.graph
    if g.current.isNone then s.cmdDone id .accessFault 0
    else ({ s with graphs := s.graphs.set (graphKey c.part c.graph) { g with current := none } }.cmdDone id .ok 0).gcVersions)

/-! ## LAUNCH -/

/-- A used operand slot of a batch descriptor: its base and length (Table 12-7). -/
def batchSlot (batch : List Byte) (k : Nat) : Option (Nat × Nat) :=
  let base := numAt batch (16 * k) 8
  let len := numAt batch (16 * k + 8) 8
  if len = 0 || windowEnd ≤ base then none else some (base, len)

/-- The grid of a node in a step: its own, or the batch descriptor's, with whether the latter was clamped. -/
def stepGrid (n : Node) (batch : List Byte) : (Nat × Nat × Nat) × Bool :=
  if n.gridSlot = 0 then ((n.gridX, n.gridY, n.gridZ), false)
  else
    let o := 256 + 16 * (n.gridSlot - 1)
    let g := (numAt batch o 4, numAt batch (o + 4) 4, numAt batch (o + 8) 4)
    let c := clampGrid g.1 g.2.1 g.2.2
    (c, c ≠ g)

/-- A task of a node in a step (R51). -/
def Node.task (n : Node) (cmd : Nat) (c : Cmd) (k : Nat) (grid : Nat × Nat × Nat) (hint : Nat × Nat) : Task :=
  let seed := numAt c.bytes 44 4
  { cmd := cmd, part := c.part, ctx := c.ctx, node := k, poured := false, parent := 0
    identity := BitVec.ofNat 64 (seed * 2 ^ 32 + k), seed := BitVec.ofNat 32 seed
    gridX := grid.1, gridY := grid.2.1, gridZ := grid.2.2, groups := n.groups, nregs := n.nregs, accUnits := n.accUnits
    lmem := n.lmem, params := [], kernel := n.kernel, affKind := hint.1, affArg := hint.2, state := .waiting, status := .ok
    detail := 0, flags := 0, placed := 0, finished := 0, killed := false, quads := [], order := 0, arena := 0, tags := [] }

/-- The hint of a node in a step: NEAR_OPERAND of an unused slot is NONE (Table 2-5). -/
def stepHint (n : Node) (batch : List Byte) : Nat × Nat :=
  if n.affKind = 2 && (batchSlot batch n.affArg).isNone then (0, 0) else (n.affKind, n.affArg)

/-- The task of a node as a step starts, waiting for its predecessors; a pour-only node has none. -/
def State.startNode (s : State) (id : Nat) (c : Cmd) (e : Node × Nat) : State :=
  if e.1.pourOnly then s
  else
    let g := stepGrid e.1 c.batch
    let h := stepHint e.1 c.batch
    let t := e.1.task id c e.2 g.1 h
    let t := { t with flags := clampedIf (g.2 || h ≠ (e.1.affKind, e.1.affArg)) }
    let n := s.newId
    n.2.setTask n.1 t

/-- LAUNCH: the step of the graph's current version starts, a batch-step boundary of the partition (R373, R374); its tasks wait for
their predecessors. -/
def execLaunch (id : Nat) (s : State) : Out :=
  starts id 1 s (fun c =>
    match (s.graph c.part c.graph).current with
    | none => s.cmdDone id .accessFault 0
    | some k =>
      let v := (s.versions.get? k).getD ⟨[], false⟩
      let s := s.boundary c.part
      let c := { c with stage := CmdStage.running, version := some k }
      let s := v.nodes.zipIdx.foldl (fun s e => s.startNode id c e) (s.setCmd id c)
      s.settleStep id)

end Sys2Proof.Machine
end

