-- ==== Sys2Proof/Machine/Mx.lean ====
section
/-! DEFINITION. The matrix unit's operands: descriptors, shapes, formats, elements and accumulators (R142, R154 to R166,
R182 to R196). -/

namespace Sys2Proof.Machine

/-- The operand descriptor of Table 5-6. -/
structure Desc where
  laddr : Nat
  fmt : EFmt
  signed : Bool
  scaled : Bool
  mnMajor : Bool
  saddr : Nat
deriving DecidableEq, Repr

/-- A descriptor read from its register pair; `none` for a reserved format code. -/
def Desc.ofWord (w : DWord) : Option Desc :=
  (EFmt.ofCode (field w 19 4)).map (fun f => ⟨field w 0 19, f, w.getLsbD 23, w.getLsbD 24, w.getLsbD 25, field w 32 19⟩)

/-- The five formats that may carry block scales (Table 5-6). -/
def EFmt.scalable : EFmt → Bool
  | .flt .e4m3 => true | .flt .e5m2 => true | .flt .e3m2 => true | .flt .e2m3 => true | .flt .e2m1 => true | _ => false

/-- INT8 and INT4. -/
def EFmt.isInt : EFmt → Bool
  | .int8 => true | .int4 => true | _ => false

/-- Whether an operand pair is allowed (R159); reproducible forms accept only the first two cases. -/
def pairOk (repro : Bool) (a b : EFmt) : Bool :=
  (a.scalable && b.scalable) || (a.isInt && b.isInt)
  || (!repro && a == b && (a == .flt .bf16 || a == .flt .fp16 || a == .flt .fp32))

/-- The step depth Ks of an operand pair (Table 5-9). -/
def stepDepth (repro scaled : Bool) (a b : EFmt) : Nat :=
  let four := a.bits = 4 && b.bits = 4 && !scaled
  if repro then (if four then 16 else 8)
  else if four then 32
  else if a = .flt .fp32 then 1
  else if a.bits = 16 then 8
  else 16

/-- The shape word of Table 5-7: first unit, number of accumulators, chunks along K, anchor. -/
structure Shape where
  acc : Nat
  nt : Nat
  kc : Nat
  anchor : Nat
deriving DecidableEq, Repr

/-- A shape word read. -/
def Shape.ofWord (w : Word) : Shape := ⟨field w 0 3, field w 3 3 + 1, field w 6 6 + 1, field w 16 8⟩

/-- The units of `nt` accumulators from `acc`, four each for FX128 (R156). -/
def unitsOf (fx : Bool) (acc nt : Nat) : List Nat := (List.range (if fx then 4 * nt else nt)).map (fun k => acc + k)

/-- The units lie below 8 and below ACC_UNITS, and an FX128 accumulator starts at a multiple of 4 (R143, Table 5-7). -/
def unitsOk (fx : Bool) (acc nt accUnits : Nat) : Bool :=
  let last := acc + (if fx then 4 * nt else nt)
  last ≤ 8 && last ≤ accUnits && (!fx || acc % 4 = 0)

/-- The bytes of an operand of `tiles` column tiles and `kc` chunks (R157). -/
def operandBytes (f : EFmt) (tiles kc : Nat) : Nat := tiles * kc * (64 * f.bits)

/-- A descriptor's checks against an allocation (Table 5-6). -/
def Desc.ok (d : Desc) (tiles kc alloc : Nat) : Bool :=
  d.laddr % 128 = 0 && d.laddr + operandBytes d.fmt tiles kc ≤ alloc
  && (!d.scaled || (d.fmt.scalable && d.saddr % 16 = 0 && d.saddr + 16 * tiles * kc ≤ alloc))
  && (!d.mnMajor || 8 ≤ d.fmt.bits)

/-- The address of chunk `c` of column tile `j` (R157). -/
def Desc.chunk (d : Desc) (kc j c : Nat) : Nat := d.laddr + (j * kc + c) * (64 * d.fmt.bits)

/-- The element offset of element (i, k) in its chunk (R157). -/
def Desc.elem (d : Desc) (i k : Nat) : Nat := if d.mnMajor then 16 * (k % 32) + i else 32 * i + k % 32

/-- The address of the first byte of an element and the bytes it spans. -/
def elemSpan (bits base e : Nat) : Nat × Nat :=
  if bits = 6 then (base + 3 * (e / 4), 3) else if bits = 4 then (base + e / 2, 1) else (base + e * (bits / 8), bits / 8)

/-- An element's code, read through `rd` (R157 packing). -/
def elemCode (rd : Nat → Nat → Nat) (bits base e : Nat) : Nat :=
  let sp := elemSpan bits base e
  let v := rd sp.1 sp.2
  if bits = 6 then (v >>> (6 * (e % 4))) % 64 else if bits = 4 then (v >>> (4 * (e % 2))) % 16 else v

/-- The number in bytes of a block's local memory. -/
def Block.numL (b : Block) (a n : Nat) : Nat := ofBytes (b.readL a n)

/-- The value of element (i, k) of an operand, without its block scale (R182, R183). -/
def Desc.value (d : Desc) (b : Block) (kc j i k : Nat) : FVal :=
  mxuIn d.fmt d.signed (elemCode b.numL d.fmt.bits (d.chunk kc j (k / 32)) (d.elem i k))

/-- The block scale code of row or column i in chunk c of tile j (R158). -/
def Desc.scale (d : Desc) (b : Block) (kc j i c : Nat) : Nat := b.numL (d.saddr + 16 * (j * kc + c) + i) 1

/-- Whether every byte of an operand block of a step lies in units that carry the zero mark (R174). -/
def Desc.blockMarked (d : Desc) (b : Block) (kc j k0 ks : Nat) : Bool :=
  (List.range 16).all (fun i => (List.range ks).all (fun dk =>
    let sp := elemSpan d.fmt.bits (d.chunk kc j ((k0 + dk) / 32)) (d.elem i (k0 + dk))
    b.marked (sp.1 / 2048) && b.marked ((sp.1 + sp.2 - 1) / 2048)))

/-! ## Accumulators -/

/-- The FP32 element (r, c) of unit u (Table 5-1). -/
def Foot.fp (f : Foot) (u r c : Nat) : Nat := (f.acc.get 0 (u * 256 + 16 * r + c)).toNat

/-- The FX128 element (r, c) of the accumulator at unit u, as a number of 128 bits. -/
def Foot.fxAt (f : Foot) (u r c : Nat) : Nat :=
  (List.range 4).foldr (fun j a => (f.acc.get 0 (u * 256 + 4 * (16 * r + c) + j)).toNat + 2 ^ 32 * a) 0

/-- An FP32 element written. -/
def Foot.setFp (f : Foot) (u r c v : Nat) : Foot :=
  { f with acc := f.acc.put 0 (u * 256 + 16 * r + c) (BitVec.ofNat 32 v) }

/-- An FX128 element written. -/
def Foot.setFx (f : Foot) (u r c v : Nat) : Foot :=
  let k := u * 256 + 4 * (16 * r + c)
  { f with acc := f.acc.putAll 0 ((List.range 4).map (fun j => (k + j, BitVec.ofNat 32 (v >>> (32 * j))))) }

/-- Whether a unit's kind is FX128. -/
def Foot.isFx (f : Foot) (u : Nat) : Bool := f.fx.contains u

/-- Units cleared to zero, their kind kept. -/
def Foot.clear (f : Foot) (us : List Nat) : Foot :=
  { f with acc := f.acc.keep (fun k _ => !us.contains (k / 256)) }

/-- Units given a kind. -/
def Foot.setKind (f : Foot) (us : List Nat) (fx : Bool) : Foot :=
  { f with fx := f.fx.filter (fun u => !us.contains u) ++ (if fx then us else []) }

/-- The row and column of each of 256 elements. -/
def elements : List (Nat × Nat) := (List.range 256).map (fun e => (e / 16, e % 16))

/-- The value of an accumulator element for readout (R198). -/
def Foot.value (f : Foot) (fx : Bool) (u r c : Nat) : FVal :=
  if fx then
    let x := signedOf 128 (f.fxAt u r c)
    .fin (decide (x < 0)) x.natAbs (-32)
  else FFmt.fp32.decode (f.fp u r c)

/-! ## One step (R141, R150, R185 to R196) -/

/-- The operands of a step as functions: A's and B's element values and scale codes. -/
structure StepIn where
  a : Nat → Nat → FVal
  b : Nat → Nat → FVal
  sa : Nat → Nat → Nat
  sb : Nat → Nat → Nat
  scaled : Bool
  k0 : Nat
  ks : Nat
  anchor : Int

/-- One FP32 step of unit u: each element becomes the step sum over its Ks rounded products (R187, R188). -/
def StepIn.runFp (x : StepIn) (f : Foot) (u : Nat) : Foot :=
  elements.foldl (fun g rc =>
    let prods := (List.range x.ks).map (fun dk =>
      let k := x.k0 + dk
      let p := (x.a rc.1 k).mul (x.b rc.2 k)
      if x.scaled then
        if x.sa rc.1 k = 255 || x.sb rc.2 k = 255 then FVal.nan
        else product32 (p.scale ((x.sa rc.1 k : Int) - 127 + ((x.sb rc.2 k : Int) - 127)))
      else product32 p)
    g.setFp u rc.1 rc.2 (stepSum (FFmt.fp32.decode (f.fp u rc.1 rc.2) :: prods))) f

/-- Whether a pair's combined scale lies outside the anchor window, or a scale is NaN (Table 6-6). -/
def StepIn.outside (x : StepIn) (r c k : Nat) : Bool :=
  x.scaled && (x.sa r k = 255 || x.sb c k = 255 ||
    (let d := (x.sa r k : Int) - 127 + ((x.sb c k : Int) - 127) - x.anchor
     decide (d < -16 ∨ 16 < d)))

/-- Whether a value is finite. -/
def FVal.isFin : FVal → Bool
  | .fin _ _ _ => true
  | _ => false

/-- One reproducible step of the accumulator at unit u (R191 to R196): the footprint after, and whether any event of Table
6-6 arose. -/
def StepIn.runFx (x : StepIn) (f : Foot) (u : Nat) : Foot × Bool :=
  elements.foldl (fun acc rc =>
    let ks := (List.range x.ks).map (fun dk => x.k0 + dk)
    let sum := ks.foldl (fun (t : Int) k =>
      let va := x.a rc.1 k
      let vb := x.b rc.2 k
      if va.isFin && vb.isFin && !(x.scaled && (x.sa rc.1 k = 255 || x.sb rc.2 k = 255)) then
        let sh : Int := if x.scaled then
          (x.sa rc.1 k : Int) - 127 + ((x.sb rc.2 k : Int) - 127) - x.anchor + 16 else 0
        t + fx128Of (va.mul vb) sh
      else t) 0
    let ev := ks.any (fun k => x.outside rc.1 rc.2 k || !(x.a rc.1 k).isFin || !(x.b rc.2 k).isFin)
    (acc.1.setFx u rc.1 rc.2 (wrapInt 128 ((f.fxAt u rc.1 rc.2 : Int) + sum)), acc.2 || ev)) (f, false)

end Sys2Proof.Machine
end

