-- ==== Sys2Proof/Machine/Mxi.lean ====
section
/-! DEFINITION. MXI and MXF instructions as they issue: operand checks, footprints, queue entry (R136 to R139, R143 to
R149, R154 to R167). -/

namespace Sys2Proof.Machine

/-- The MXU of a group. -/
def Ctx.mxuNo (x : Ctx) : Nat := x.b.subCore x.r.group.val

/-- An MXU's record. -/
def State.mxu (s : State) (u : Nat) : Mxu := s.mxus.get Mxu.init u

/-- An MXU's record written. -/
def State.setMxu (s : State) (u : Nat) (m : Mxu) : State := { s with mxus := s.mxus.put Mxu.init u m }

/-- Whether an entry releases its group's footprint on completion: FREE of an ARD (R145). -/
def MxEntry.frees (e : MxEntry) : Bool :=
  match e.op with
  | .ard _ _ _ m => m.getLsbD 1
  | .ard128 _ _ m => m.getLsbD 1
  | .ardf _ _ m => m.getLsbD 3
  | _ => false

/-- The local units that an accumulator readout writes. -/
def MxOp.writes (o : MxOp) : List Nat :=
  match o with
  | .ard _ _ _ _ => (o.ranges.map (fun r => unitsIn r.1 r.2)).flatten
  | .ard128 _ _ _ => (o.ranges.map (fun r => unitsIn r.1 r.2)).flatten
  | _ => []

/-- Whether an accumulator will be FX128 when an instruction of the group that issues now comes to it: the footprint's kinds after what the
group has queued (R142, R147). -/
def Ctx.kindAhead (x : Ctx) (acc : Nat) : Bool :=
  let f := (x.s.mxu x.mxuNo).queue.foldl (fun f e =>
    if e.block ≠ x.r.block || e.group ≠ x.r.group.val then f
    else match e.op with
      | .aclr _ m => f.setKind e.units (m.getLsbD 0)
      | .ald _ _ m => f.setKind e.units (m.getLsbD 0)
      | _ => f) x.g.foot
  f.isFx acc

/-- An MXU instruction enters its queue. A group that holds no footprint first waits for one, in the order of first tries
(R144); a full queue or a footprint about to be released makes it wait (R145, R148). Units that
a TLD has written and that are not visible to the group are unspecified to it (R151), and units that it will write are so to instructions
still at work on them (R98). -/
def Ctx.enqueue (x : Ctx) (op : MxOp) (units : List Nat) (slot : Option Nat) (g : Group) : Except Stop State := do
  let u := x.mxuNo
  let m := x.s.mxu u
  await (!m.fenced)
  await (!m.queue.any (fun e => e.block = x.r.block && e.group = x.r.group.val && e.frees))
  match x.g.foot.st with
  | .none =>
    .ok { x.s.putGroup x.r { x.g with foot := { x.g.foot with st := .waiting x.s.nextId } } with
      nextId := x.s.nextId + 1 }
  | .evicted =>
    .ok { x.s.putGroup x.r { x.g with foot := { x.g.foot with st := .waiting x.s.nextId } } with
      nextId := x.s.nextId + 1 }
  | .waiting _ => waits
  | .held => do
    await (m.queue.length < 16 && x.b.saved.all (fun e => e.group % 4 ≠ x.r.group.val % 4))
    let smudged := (x.b.veiled x.r.group.val).filter (fun v => op.ranges.any (fun r => touches r v))
    let e : MxEntry := ⟨x.s.nextId, x.r.block, x.r.group.val, x.g.pc, slot, units, op, false, 0, smudged⟩
    let s := x.s.smudge x.r.block op.writes
    let s := { s with nextId := x.s.nextId + 1 }.setMxu u { s.mxu u with queue := (s.mxu u).queue ++ [e] }
    let g := match slot with
      | some t => { g with tokens := g.tokens.put 0 t (g.tokens.get 0 t + 1) }
      | none => g
    x.doneIn s g

/-- MXI.MMA and MXI.MMA.R. -/
def mxiMma (repro : Bool) (x : Ctx) : Except Stop State :=
  x.forGroup (do
    let slot ← x.tokenSlot
    let da ← x.u64 x.i.a
    let db ← x.u64 x.i.b
    let w ← x.u32 x.i.c
    let sh := Shape.ofWord w
    match Desc.ofWord da, Desc.ofWord db with
    | some a, some b =>
      require (pairOk repro a.fmt b.fmt && a.scaled == b.scaled)
      require (a.ok 1 sh.kc x.b.lmemSize && b.ok sh.nt sh.kc x.b.lmemSize)
      require (unitsOk repro sh.acc sh.nt x.t.accUnits)
      x.enqueue (.mma repro da db w x.i.mod) (unitsOf repro sh.acc sh.nt) (some slot) x.g
    | _, _ => accessFault)

/-- MXI.MMA. -/
def execMxiMma (g : GroupRef) (i : Ins) (s : State) : Out := issue g i (mxiMma false) s
/-- MXI.MMA.R. -/
def execMxiMmaR (g : GroupRef) (i : Ins) (s : State) : Out := issue g i (mxiMma true) s

/-- MXI.ACLR: clears the shape's accumulators to KIND (R142). -/
def execMxiAclr (g : GroupRef) (i : Ins) (s : State) : Out :=
  issue g i (fun x => x.forGroup (do
    let slot ← x.tokenSlot
    let w ← x.u32 i.c
    let sh := Shape.ofWord w
    let fx := i.mod.getLsbD 0
    require (unitsOk fx sh.acc sh.nt x.t.accUnits)
    x.enqueue (.aclr w i.mod) (unitsOf fx sh.acc sh.nt) (some slot) x.g)) s

/-- The units an ARD names, by the kind that it meets (R149, R631). -/
def ardUnits (fx : Bool) (acc nt : Nat) : List Nat := (unitsOf fx acc nt).filter (fun u => u < 8)

/-- MXI.ARD: a reserved or unreadable output format, RND 3, or a bad address ends the task (Table 5-9a, R161). -/
def execMxiArd (g : GroupRef) (i : Ins) (s : State) : Out :=
  issue g i (fun x => x.forGroup (do
    let slot ← x.tokenSlot
    let a ← x.u32 i.a
    let q ← x.u32 i.b
    let w ← x.u32 i.c
    let sh := Shape.ofWord w
    let fmt := field i.mod 4 4
    require (fmt ≤ 4 || fmt = 8 || fmt = 10)
    require (field i.mod 8 2 ≠ 3)
    require (unitsOk false sh.acc sh.nt x.t.accUnits)
    let size := match EFmt.ofCode fmt with
      | some f => f.bits / 8
      | none => 0
    require (a.toNat % 128 = 0 && a.toNat + sh.nt * 256 * size ≤ x.b.lmemSize)
    x.enqueue (.ard a.toNat q.toNat w i.mod) (ardUnits (x.kindAhead sh.acc) sh.acc sh.nt) (some slot) x.g)) s

/-- MXI.ARD128. -/
def execMxiArd128 (g : GroupRef) (i : Ins) (s : State) : Out :=
  issue g i (fun x => x.forGroup (do
    let slot ← x.tokenSlot
    let a ← x.u32 i.a
    let w ← x.u32 i.c
    let sh := Shape.ofWord w
    require (unitsOk true sh.acc sh.nt x.t.accUnits)
    require (a.toNat % 128 = 0 && a.toNat + sh.nt * 4096 ≤ x.b.lmemSize)
    x.enqueue (.ard128 a.toNat w i.mod) (unitsOf true sh.acc sh.nt) (some slot) x.g)) s

/-- MXI.ALD. -/
def execMxiAld (g : GroupRef) (i : Ins) (s : State) : Out :=
  issue g i (fun x => x.forGroup (do
    let slot ← x.tokenSlot
    let a ← x.u32 i.a
    let w ← x.u32 i.c
    let sh := Shape.ofWord w
    let fx := i.mod.getLsbD 0
    require (unitsOk fx sh.acc sh.nt x.t.accUnits)
    require (a.toNat % 128 = 0 && a.toNat + sh.nt * (if fx then 4096 else 1024) ≤ x.b.lmemSize)
    x.enqueue (.ald a.toNat w i.mod) (unitsOf fx sh.acc sh.nt) (some slot) x.g)) s

/-- An MXF multiply form: with no selected lane nothing happens; a collective form under a partial mask ends the task at
issue (R137, R138); registers are read at issue, unselected lanes' operands as zero in the masked forms (R167). -/
def mxfMma (repro masked : Bool) (x : Ctx) : Except Stop State :=
  x.forGroup (
    if !masked && x.i.mod.getLsbD 14 && x.sel ≠ 0xFFFFFFFF then .error (.fault .diverged)
    else do
      require (!insImm x.i)
      match EFmt.ofCode (field x.i.mod 3 4), EFmt.ofCode (field x.i.mod 7 4) with
      | some fa, some fb =>
        let scaled := x.i.mod.getLsbD 13
        require (pairOk repro fa fb && (!scaled || (fa.scalable && fb.scalable)))
        let acc := field x.i.mod 0 3
        require (unitsOk repro acc 1 x.t.accUnits)
        let na ← x.vTuple 4 x.i.a
        let nb ← x.vTuple 4 x.i.b
        let ns ← x.vTuple 1 x.i.c
        let pick := fun (n : Nat) => (List.range 4).map (fun j =>
          if masked then lanesOf (fun l => if x.sel.getLsbD l then laneAt (x.g.vreg (n + j)) l else 0)
          else x.g.vreg (n + j))
        let scale := if masked then lanesOf (fun l => if x.sel.getLsbD l then laneAt (x.g.vreg ns) l else 0) else x.g.vreg ns
        x.enqueue (.frag repro (pick na) (pick nb) scale x.sel x.i.mod) (unitsOf repro acc 1) none x.g
      | _, _ => accessFault)

/-- MXF.MMA. -/
def execMxfMma (g : GroupRef) (i : Ins) (s : State) : Out := issue g i (mxfMma false false) s
/-- MXF.MMA.R. -/
def execMxfMmaR (g : GroupRef) (i : Ins) (s : State) : Out := issue g i (mxfMma true false) s
/-- MXF.MMA.MASKED. -/
def execMxfMmaMasked (g : GroupRef) (i : Ins) (s : State) : Out := issue g i (mxfMma false true) s
/-- MXF.MMA.R.MASKED. -/
def execMxfMmaRMasked (g : GroupRef) (i : Ins) (s : State) : Out := issue g i (mxfMma true true) s

/-- MXF.ARD: the tuple of 8 registers that DST names will be written (R167); until then it is interlocked (R82). -/
def execMxfArd (g : GroupRef) (i : Ins) (s : State) : Out :=
  issue g i (fun x => x.forGroup (do
    require (!insImm i)
    let n ← x.vTuple 8 i.dst
    let acc := field i.mod 0 3
    require (unitsOk false acc 1 x.t.accUnits)
    x.enqueue (.ardf n x.sel i.mod) (ardUnits (x.kindAhead acc) acc 1) none
      { x.g with busy := ⟨n, 8, s.nextId⟩ :: x.g.busy })) s

end Sys2Proof.Machine
end

