-- ==== Sys2Proof/Machine/Mxu.lean ====
section
/-! DEFINITION. The matrix unit at work: start of a queued instruction, steps, token completion, footprints and sub-core
fencing (R141 to R153, R161 to R176, R188 to R201, R631, Table 5-11). -/

namespace Sys2Proof.Machine

/-- An MXU counter raised for a partition and the device (R609). -/
def State.countMxu (s : State) (part n k : Nat) : State :=
  { s with mxuCtr := bump (bump s.mxuCtr (part * 8 + n) k) (31 * 8 + n) k }

/-- A queue without one entry. -/
def Mxu.without (m : Mxu) (id : Nat) : Mxu := { m with queue := m.queue.filter (fun e => !(e.id == id)) }

/-- A queue with one entry changed. -/
def Mxu.upd (m : Mxu) (id : Nat) (f : MxEntry → MxEntry) : Mxu :=
  { m with queue := m.queue.map (fun e => if e.id = id then f e else e) }

/-- The step depth, number of accumulators and K of an MMA instruction; `none` for an accumulator-port instruction. -/
def MxOp.size : MxOp → Option (Nat × Nat × Nat)
  | .mma repro da db w _ =>
    match Desc.ofWord da, Desc.ofWord db with
    | some a, some b =>
      let sh := Shape.ofWord w
      some (stepDepth repro a.scaled a.fmt b.fmt, sh.nt, 32 * sh.kc)
    | _, _ => none
  | .frag repro _ _ _ _ m =>
    match EFmt.ofCode (field m 3 4), EFmt.ofCode (field m 7 4) with
    | some a, some b =>
      let k := fun (f : EFmt) => if f = .flt .fp32 then 8 else if f.bits = 16 then 16 else if f.bits = 4 then 64 else 32
      some (stepDepth repro (m.getLsbD 13) a b, 1, min (k a) (k b))
    | _, _ => none
  | _ => none

/-- Whether an instruction multiplies, that is, runs on the datapath. -/
def MxOp.isMma (o : MxOp) : Bool := o.size.isSome

/-- The number of steps of an instruction (R150). -/
def MxOp.steps (o : MxOp) : Nat :=
  match o.size with
  | some (ks, nt, k) => k / ks * nt
  | none => 0

/-- The entry's units and those of another collide: same group, a unit in common. -/
def MxEntry.shares (e f : MxEntry) : Bool :=
  e.block = f.block && e.group = f.group && e.units.any (fun u => f.units.contains u)

/-- Whether an entry may start (R149): an MMA after every earlier MMA has run its steps, an accumulator-port instruction
after every earlier instruction that names its units, and nothing before an earlier port instruction on its units. -/
def MxEntry.mayStart (e : MxEntry) (before : List MxEntry) : Bool :=
  before.all (fun f =>
    (!(e.op.isMma && f.op.isMma) || f.step = f.op.steps)
    && (!(e.shares f) || (e.op.isMma && f.op.isMma)))

/-- The kind check of an entry against its group's footprint (R147, R631); `none` when it ends the task. -/
def MxEntry.kindOk (e : MxEntry) (f : Foot) (accUnits : Nat) : Bool :=
  let ard := fun (acc nt : Nat) (fmt : Nat) =>
    if f.isFx acc then
      unitsOk true acc nt accUnits && (unitsOf true acc nt).all f.isFx
    else (unitsOf false acc nt).all (fun u => !f.isFx u) && fmt ≤ 4
  match e.op with
  | .mma repro _ _ _ _ => if repro then e.units.all f.isFx else e.units.all (fun u => !f.isFx u)
  | .frag repro _ _ _ _ _ => if repro then e.units.all f.isFx else e.units.all (fun u => !f.isFx u)
  | .ard128 _ _ _ => e.units.all f.isFx
  | .ard _ _ w m => ard (Shape.ofWord w).acc (Shape.ofWord w).nt (field m 4 4)
  | .ardf _ _ m => ard (field m 0 3) 1 0
  | .aclr _ _ => true
  | .ald _ _ _ => true

/-- The footprint released (R145). -/
def Group.freeFoot (g : Group) : Group := { g with foot := Foot.empty }

/-- MXF.ARD: the tuple of 8 registers written, the accumulator cleared and the footprint freed as asked (R167). -/
def Group.ardFrag (g : Group) (id dst : Nat) (sel : Mask) (m : BitVec 16) : Group :=
  let acc := field m 0 3
  let fx := g.foot.isFx acc
  let g := (List.range 8).foldl (fun g j =>
    g.putV (dst + j) sel (fun l =>
      BitVec.ofNat 32 (convertTo .fp32 .rne false false (g.foot.value fx acc (l / 2) (8 * (l % 2) + j))))) g
  let g := { g with busy := g.busy.filter (fun b => !(b.op == id)) }
  let g := if m.getLsbD 4 then { g with foot := g.foot.clear (unitsOf fx acc 1) } else g
  if m.getLsbD 3 then g.freeFoot else g

/-- Whether a footprint with queued work waits to come back after a switch (R144, R452). -/
def Foot.away (f : Foot) : Bool :=
  match f.st with
  | .waiting _ => true
  | .evicted => true
  | _ => false

/-- A group's footprint whose storage check has failed (R169). -/
def State.spoil (s : State) (blk k : Nat) : State :=
  s.updGroup ⟨blk, Fin.ofNat 32 k⟩ (fun g => { g with foot := { g.foot with bad := true } })

/-- A sub-core fenced (Table 5-11): its MXU takes no further instruction, the task that owns the instruction ends, the core
closes and its other blocks are switched out, and the firmware records the fence. -/
def State.fenceSubCore (s : State) (mxu task : Nat) (pc : DWord) : State :=
  let s := s.setMxu mxu { s.mxu mxu with fenced := true, inject := 0 }
  let s := s.endTask task .residueFault pc
  let core := mxu / 4
  let s := { s with blocks := s.blocks.mapVal (fun _ (b : Block) => if b.core = core && b.task != task then b.leave else b) }
  (s.closeCore core 5).event 0x104 mxu

/-- A queued MXU instruction starts (R149). A kind mismatch ends the task (R147); MXF.ARD, which carries no token, has its
effect here (R152, R167); the entry's `storage` tells that its readout fails the storage check (R169, R171). -/
def execMxuInstructionStart (mxu : Fin 640) (entry : MxuEntry) (s : State) : Out :=
  let m := s.mxu mxu
  match m.queue.find? (fun e => e.id = entry.id) with
  | none => .next s
  | some e =>
    let before := m.queue.takeWhile (fun f => !(f.id == entry.id))
    match s.blocks.get? e.block with
    | none => .next s
    | some b =>
      match b.group? e.group, s.tasks.get? b.task with
      | some g, some t =>
        if e.started || m.fenced || b.phase ≠ .resident || g.foot.away || !(e.mayStart before) then .next s
        else if !(e.kindOk g.foot t.accUnits) then .next (s.endTask b.task .accessFault e.pc)
        else match e.op with
          | .ardf dst sel md =>
            if entry.storage || g.foot.bad then .next ((s.spoil e.block e.group).fenceSubCore mxu b.task e.pc)
            else .next ((s.setMxu mxu (m.without entry.id)).setBlock e.block (b.putGroup e.group (g.ardFrag entry.id dst sel md))).refill
          | _ => .next (s.setMxu mxu (m.upd entry.id (fun e => { e with started := true })))
      | _, _ => .next s

/-! ## Steps -/

/-- What a step of an MXI multiply reads (R150, R154 to R162): its accumulator's first unit, its operands, whether it is
skipped (R174), and STRICT. -/
def mmaStep (b : Block) (repro : Bool) (a d : Desc) (sh : Shape) (ks t : Nat) (strict : Bool) : Nat × StepIn × Bool × Bool :=
  let j := t % sh.nt
  let k0 := t / sh.nt * ks
  let skip := a.blockMarked b sh.kc 0 k0 ks || d.blockMarked b sh.kc j k0 ks
  (if repro then sh.acc + 4 * j else sh.acc + j,
    { a := fun i k => a.value b sh.kc 0 i k
      b := fun i k => d.value b sh.kc j i k
      sa := fun i k => a.scale b sh.kc 0 i (k / 32)
      sb := fun i k => d.scale b sh.kc j i (k / 32)
      scaled := a.scaled
      k0 := k0
      ks := ks
      anchor := (sh.anchor : Int) - 127 },
    skip, strict)

/-- The code of element k of row or column i of a fragment (R164). -/
def fragCode (regs : List Lanes) (bits kTotal i k : Nat) : Nat :=
  let half := kTotal / 2
  let l := 2 * i + k / half
  let v := (List.range 4).foldr (fun j a => (laneAt (regs.getD j []) l).toNat + 2 ^ 32 * a) 0
  elemCode (fun p n => (v >>> (8 * p)) % 2 ^ (8 * n)) bits 0 (k % half)

/-- What a step of an MXF multiply reads (R163 to R167). -/
def fragStep (repro : Bool) (ra rb : List Lanes) (scale : Lanes) (sel : Mask) (m : BitVec 16) (fa fb : EFmt) (ks kTotal t : Nat) :
    Nat × StepIn × Bool × Bool :=
  let scaled := m.getLsbD 13
  let low := laneAt scale (lowestLane sel)
  let lane := fun (i k : Nat) => 2 * i + (if kTotal / 2 ≤ k / 32 * 32 then 1 else 0)
  (field m 0 3,
    { a := fun i k => mxuIn fa (m.getLsbD 11) (fragCode ra fa.bits kTotal i k)
      b := fun i k => mxuIn fb (m.getLsbD 12) (fragCode rb fb.bits kTotal i k)
      sa := fun i k => field (laneAt scale (lane i k)) 0 8
      sb := fun i k => field (laneAt scale (lane i k)) 8 8
      scaled := scaled
      k0 := t * ks
      ks := ks
      anchor := (field low 16 8 : Int) - 127 },
    false, repro && scaled && low.getLsbD 24)

/-- The step that an entry runs next. -/
def MxEntry.stepIn (e : MxEntry) (b : Block) : Option (Nat × StepIn × Bool × Bool) :=
  match e.op.size with
  | none => none
  | some (ks, _, k) =>
    match e.op with
    | .mma repro da db w m =>
      match Desc.ofWord da, Desc.ofWord db with
      | some a, some d => some (mmaStep b repro a d (Shape.ofWord w) ks e.step (m.getLsbD 3))
      | _, _ => none
    | .frag repro ra rb sc sel m =>
      match EFmt.ofCode (field m 3 4), EFmt.ofCode (field m 7 4) with
      | some fa, some fb => some (fragStep repro ra rb sc sel m fa fb ks k e.step)
      | _, _ => none
    | _ => none

/-- Whether an entry accumulates reproducibly. -/
def MxOp.repro : MxOp → Bool
  | .mma r _ _ _ _ => r
  | .frag r _ _ _ _ _ => r
  | _ => false

/-- The entry advanced by one step: an MXF entry leaves the queue after its last (R152, R167). -/
def Mxu.advance (m : Mxu) (e : MxEntry) : Mxu :=
  if e.slot.isNone && e.step + 1 = e.op.steps then m.without e.id
  else m.upd e.id (fun e => { e with step := e.step + 1 })

/-- One step of the MXU datapath (R141, R169 to R176): the MMA in progress takes its next step. A skipped step changes no
accumulator and is not checked. A mismatch is replayed once; one that persists, or a storage mismatch, fences the sub-core. Units that are
unspecified to the instruction are read as free bytes (R98, R151). A step that ends the task with INEXACT_ABORT raises no INEXACT (DESIGN
CHOICE, log 108). -/
def execMxuStep (mxu : Fin 640) (check : Residue) (s : State) : Out :=
  let m := s.mxu mxu
  match m.queue.find? (fun e => e.started && e.op.isMma && e.step < e.op.steps) with
  | none => .next s
  | some e =>
    match s.blocks.get? e.block with
    | none => .next s
    | some b =>
      match b.group? e.group, s.tasks.get? b.task, e.stepIn (b.blur e.smudged s.freeCtr) with
      | some g, some t, some (u, x, skip, strict) =>
        if m.fenced || b.phase ≠ .resident || g.foot.away then .next s
        else if skip then .next ((s.setMxu mxu (m.advance e)).countMxu t.part 1 1).refill
        else
          let check := match m.inject, check with
            | 1, .pass => Residue.replay
            | 2, _ => Residue.fail
            | _, c => c
          if check = .fail then .next (s.fenceSubCore mxu b.task e.pc)
          else if check = .storage || g.foot.bad then .next ((s.spoil e.block e.group).fenceSubCore mxu b.task e.pc)
          else
            let s := if e.smudged = [] then s else { s with freeCtr := s.freeCtr + 1 }
            let s := if check = .replay then
                ((s.raise b.task flagReplayed).countMxu t.part 2 1).event 0x103 mxu
              else s
            let m := if m.inject = 1 then { m with inject := 0 } else m
            let r := if e.op.repro then x.runFx g.foot u else (x.runFp g.foot u, false)
            if r.2 && strict then .next ((s.setMxu mxu m).endTask b.task .inexactAbort e.pc)
            else
              let s := if r.2 then s.raise b.task flagInexact else s
              let s := (s.setMxu mxu (m.advance e)).countMxu t.part 0 1
              .next (s.updGroup ⟨e.block, Fin.ofNat 32 e.group⟩ (fun g => { g with foot := r.1 })).refill
      | _, _, _ => .next s

/-! ## Completion -/

/-- The rounding mode of an ARD for an element (R199, R204). -/
def ardRnd (m : BitVec 16) (identity : DWord) (q n r c : Nat) : Rnd :=
  match field m 8 2 with
  | 0 => .rne
  | 1 => .rtz
  | _ => .sr (srBits identity (siteArd q n r c))

/-- One element of a readout in its output format (R198, R201, Table 6-7). -/
def ardElem (f : EFmt) (md : Rnd) (sat : Bool) (v : FVal) : Nat :=
  match f with
  | .flt .fp32 => convertTo .fp32 md sat false v
  | .flt .bf16 => convertTo .bf16 md sat false v
  | .flt g => convertTo g md sat true v
  | .int8 => wrapInt 8 (convertInt md (-128) 127 v)
  | .int4 => 0
  | .int32 => wrapInt 32 (convertInt md (-2147483648) 2147483647 v)

/-- The bytes of an ARD output for accumulators from unit `acc` (R161). -/
def Foot.readout (f : Foot) (fx : Bool) (acc nt : Nat) (fmt : EFmt) (m : BitVec 16) (identity : DWord) (q : Nat) : List Byte :=
  ((List.range nt).map (fun n =>
    let u := if fx then acc + 4 * n else acc + n
    (elements.map (fun rc => bytesOf (fmt.bits / 8)
      (ardElem fmt (ardRnd m identity q n rc.1 rc.2) (m.getLsbD 10) (f.value fx u rc.1 rc.2)))).flatten)).flatten

/-- The image of whole accumulator units (Table 5-1). -/
def Foot.image (f : Foot) (us : List Nat) : List Byte :=
  (us.map (fun u => ((List.range 256).map (fun k => bytesOf 4 (f.acc.get 0 (u * 256 + k)).toNat)).flatten)).flatten

/-- Units loaded from an image in local memory. -/
def Foot.loadImage (f : Foot) (b : Block) (a : Nat) (us : List Nat) : Foot :=
  us.zipIdx.foldl (fun f ui =>
    { f with acc := f.acc.putAll 0 ((List.range 256).map (fun k =>
      (ui.1 * 256 + k, BitVec.ofNat 32 (b.numL (a + 1024 * ui.2 + 4 * k) 4)))) }) f

/-- The effect of an accumulator-port instruction at its completion (Table 5-4); `n` is the number of its free value. -/
def MxEntry.finish (e : MxEntry) (b : Block) (n : Nat) (f : Foot) (identity : DWord) : Block × Foot :=
  match e.op with
  | .aclr w m =>
    let sh := Shape.ofWord w
    let us := unitsOf (m.getLsbD 0) sh.acc sh.nt
    (b, (f.clear us).setKind us (m.getLsbD 0))
  | .ald a w m =>
    let sh := Shape.ofWord w
    let us := unitsOf (m.getLsbD 0) sh.acc sh.nt
    (b, (f.loadImage (b.blur e.smudged n) a us).setKind us (m.getLsbD 0))
  | .ard a q w m =>
    let sh := Shape.ofWord w
    let fx := f.isFx sh.acc
    let f' := if m.getLsbD 2 then f.clear (unitsOf fx sh.acc sh.nt) else f
    match EFmt.ofCode (field m 4 4) with
    | some fmt => ((b.writeL a (f.readout fx sh.acc sh.nt fmt m identity q)).blur e.smudged n, f')
    | none => (b, f')
  | .ard128 a w m =>
    let sh := Shape.ofWord w
    let us := unitsOf true sh.acc sh.nt
    ((b.writeL a (f.image us)).blur e.smudged n, if m.getLsbD 2 then f.clear us else f)
  | _ => (b, f)

/-- Whether an instruction reads accumulators out. -/
def MxOp.reads : MxOp → Bool
  | .ard _ _ _ _ => true
  | .ard128 _ _ _ => true
  | .ardf _ _ _ => true
  | _ => false

/-- An MXI instruction reaches its token completion point (R152): an MMA once every step is committed, an accumulator-port
instruction with its effect; FREE releases the footprint (R145). The entry's `storage` tells that a readout fails the storage check
(R169, R171). Units that are unspecified to the instruction are read, and left by a readout, as free bytes (R98, R151). -/
def execMxiTokenComplete (mxu : Fin 640) (entry : MxuEntry) (s : State) : Out :=
  let m := s.mxu mxu
  match m.queue.find? (fun e => e.id = entry.id) with
  | none => .next s
  | some e =>
    match s.blocks.get? e.block with
    | none => .next s
    | some b =>
      match b.group? e.group, s.tasks.get? b.task, e.slot with
      | some g, some t, some slot =>
        if !e.started || b.phase ≠ .resident || g.foot.away || e.step < e.op.steps then .next s
        else if e.op.reads && (entry.storage || g.foot.bad) then .next ((s.spoil e.block e.group).fenceSubCore mxu b.task e.pc)
        else
          let r := e.finish b s.freeCtr g.foot t.identity
          let s := if e.smudged = [] then s else { s with freeCtr := s.freeCtr + 1 }
          let g := { g with foot := r.2 }
          let g := if e.frees then g.freeFoot else g
          .next ((s.setMxu mxu (m.without entry.id)).setBlock e.block
            ((r.1.putGroup e.group (g.tokenDone slot)).settleBars)).refill
      | _, _, _ => .next s

/-! ## Footprints -/

/-- Every group of a sub-core: block, index and group; with those of blocks that are being switched out, whose state is not yet
saved, where `all` says so. -/
def State.groupsOn (s : State) (sub : Nat) (all : Bool) : List (Nat × Nat × Group × Nat) :=
  (s.blocks.rows.map (fun r =>
    if (if all then r.2.phase ≠ .out else r.2.phase = .resident) && r.2.core = sub / 4 then
      (r.2.groups.zipIdx.filter (fun g => g.2 % 4 = sub % 4)).map (fun g => (r.1, g.2, g.1, r.2.task))
    else [])).flatten

/-- ACC_UNITS of a task. -/
def State.unitsDecl (s : State) (t : Nat) : Nat := ((s.tasks.get? t).map (·.accUnits)).getD 0

/-- The accumulator units free on a sub-core (R140, R144). -/
def State.freeUnits (s : State) (sub : Nat) : Nat :=
  8 - (((s.groupsOn sub true).filter (fun g => g.2.2.1.foot.st = .held)).map (fun g => s.unitsDecl g.2.2.2)).foldl (· + ·) 0

/-- The group of a sub-core that has waited longest for a footprint (R144). -/
def State.firstWaiter (s : State) (sub : Nat) : Option (Nat × Nat × Group × Nat) :=
  let key := fun (g : Nat × Nat × Group × Nat) => match g.2.2.1.foot.st with
    | .waiting k => some k
    | _ => none
  (s.groupsOn sub false).foldl (fun best g => match key g, best with
    | none, _ => best
    | some _, none => some g
    | some k, some h => match key h with
      | some j => if k < j then some g else best
      | none => some g) none

/-- A waiting group acquires its footprint once its units are free, in the order of first tries; an evicted footprint comes
back as it was (R144, R146). -/
def execAccFootprintAcquire (g : GroupRef) (s : State) : Out :=
  match s.blocks.get? g.block with
  | none => .next s
  | some b =>
    let sub := b.subCore g.group.val
    match s.firstWaiter sub with
    | none => .next s
    | some (blk, k, grp, task) =>
      if blk = g.block ∧ k = g.group.val ∧ s.unitsDecl task ≤ s.freeUnits sub then
        .next (s.putGroup g { grp with foot := { grp.foot with st := .held } })
      else .next s

/-- When a group was held at BAR.SYNC or SEM.ACQ. -/
def Hold.heldSince : Hold → Option Nat
  | .bar _ _ k => some k
  | .sem _ k => some k
  | _ => Option.none

/-- The footprints that may be evicted on a sub-core, with the time their groups were held (R146). -/
def State.evictable (s : State) (sub : Nat) : List (Nat × Nat × Nat × Nat) :=
  (s.groupsOn sub false).filterMap (fun g =>
    match g.2.2.1.hold.heldSince with
    | some k =>
      if g.2.2.1.foot.st = .held && !((s.mxu sub).queue.any (fun e => e.block = g.1 && e.group = g.2.1))
          && !(s.blocks.get? g.1).any (fun b => b.saved.any (fun e => e.group = g.2.1)) then
        some (g.1, g.2.1, k, s.unitsDecl g.2.2.2)
      else none
    | none => none)

/-- The MXU evicts held groups' footprints for the group that waits: the longest held first, until the waiting footprint
fits, and none while all of them would not suffice (R146). The command names the waiting group, and the group whose footprint fails the
storage check as it is written, if one does; no instruction owns that failure, so the address reported is 0 (R171; DESIGN CHOICE, log 103). -/
def execAccFootprintEvict (w : Eviction) (s : State) : Out :=
  let g := w.group
  match s.blocks.get? g.block with
  | none => .next s
  | some b =>
    let sub := b.subCore g.group.val
    match s.firstWaiter sub with
    | none => .next s
    | some (blk, k, _, task) =>
      let need := s.unitsDecl task
      let l := s.evictable sub
      let total := (l.map (fun e => e.2.2.2)).foldl (· + ·) 0
      if !(blk = g.block ∧ k = g.group.val) || need ≤ s.freeUnits sub || s.freeUnits sub + total < need then .next s
      else
        let sorted := sortOn (fun x => x.2.2.1) l
        .next (sorted.foldl (fun s e =>
          if need ≤ s.freeUnits sub then s
          else
            let r : GroupRef := ⟨e.1, Fin.ofNat 32 e.2.1⟩
            let task := ((s.blocks.get? e.1).map (·.task)).getD 0
            let part := ((s.tasks.get? task).map (·.part)).getD 0
            -- the transfer passes the storage check first (R169)
            if w.bad = some r || (s.group? r).any (fun g => g.foot.bad) then (s.spoil e.1 e.2.1).fenceSubCore sub task 0
            else (s.updGroup r (fun g => { g with foot := { g.foot with st := .evicted } })).countMxu part 3 1) s)

end Sys2Proof.Machine
end

