-- ==== Sys2Proof/Machine/Steps.lean ====
section
/-! DEFINITION. Batch steps at work: pours, tasks that become ready, blocks that end or are stuck, and drain and kill (R44 to R47, R65,
R104 to R106, R134, R412, R414, R428 to R431, Tables 12-14 and 12-15). -/

namespace Sys2Proof.Machine

/-! ## What a block needs of a core (R65, R67, R78) -/

/-- Group slots that a block reserves on each sub-core. -/
def Task.slots (t : Task) : Nat := (t.groups + 3) / 4
/-- Units of 1 KiB of registers that a block reserves on each sub-core. -/
def Task.regs (t : Task) : Nat := t.slots * regUnits t.nregs
/-- The local memory allocation of a block. -/
def Task.lmemAlloc (t : Task) : Nat := roundUp t.lmem 2048

/-- Whether a core with an L1 of a size could hold a block of a task while empty. -/
def Task.fitsCore (t : Task) (l1KiB : Nat) : Bool := t.lmemAlloc + 1024 * l1KiB ≤ 524288 && t.regs ≤ 64

/-- The open cores of a partition. -/
def State.openCores (s : State) (p : Nat) : List Nat :=
  (List.range 160).filter (fun c => (s.quadsOf p).getLsbD (c / 4) && s.coreOpen c)

/-- The valid lines of a region in a half's slices, by the residency tags. -/
def State.tagsIn (s : State) (region half : Nat) : Nat :=
  (((s.resTags.keep (fun k t => k / 512 / 48 == half && t.region == region)).rows).map (fun r => r.2.count)).foldl (· + ·) 0

/-- What a scheduler reads of the residency tags: each region with its valid lines in either half (R442). -/
def State.readTags (s : State) : List (Nat × Nat × Nat) :=
  ((s.resTags.rows.map (fun r => r.2.region)).eraseDups).map (fun r => (r, s.tagsIn r 0, s.tagsIn r 1))

/-- A task whose predecessors are done becomes ready: one with an empty grid ends at once, and one
that no open core could hold ends with ACCESS_FAULT; with no open core at all its blocks wait (R39, R65, R173). -/
def State.readyTask (s : State) (id : Nat) (t : Task) : State :=
  if t.blocks = 0 then s.endTask id .ok 0
  else if s.openCores t.part ≠ [] && (s.openCores t.part).all (fun c => !t.fitsCore (s.quadL1.get 64 (c / 4))) then
    s.endTask id .accessFault 0
  else { s with nextId := s.nextId + 1 }.setTask id { t with state := TaskState.ready, order := s.nextId, tags := s.readTags }

/-- A task whose parameter block was read becomes ready, with SPENT_SEEN where the block has a SPENT tile (R315). -/
def State.paramsRead (s : State) (id : Nat) (t : Task) (f : BitVec 16) : State :=
  if f = 0 then s.readyTask id t else (s.raise id f).readyTask id { t with flags := t.flags ||| f }

/-- TASK_READY: a waiting task of a running step whose predecessors have all ended OK; it reads its parameter block, unless its grid is
empty and it ends OK with no block (R39, R414). -/
def execTaskReady (task : Nat) (s : State) : Out :=
  match s.tasks.get? task with
  | none => .next s
  | some t =>
    match s.cmd? t.cmd with
    | none => .next s
    | some c =>
      if t.state ≠ .waiting || c.stage ≠ .running || !s.alive || !s.predsDone t || s.predFailed t then .next s
      else
        let n := (s.stepVer t.cmd).nodes[t.node]?
        let len := if t.blocks = 0 then 0 else (n.map (·.paramLen)).getD 0
        let va := (n.map (·.paramVa)).getD 0
        match s.frontRead (.cmd t.cmd) (some task) t.part va len 0 with
        | .wait s => .next s
        | .stop s st a =>
          .next (((s.endTask task st (if st = .accessFault then BitVec.ofNat 64 a else 0)).settleStep t.cmd).trace)
        | .got s bytes f => .next (((s.paramsRead task { t with params := bytes } f).settleStep t.cmd).trace)

/-! ## POUR (R44 to R47, R104 to R106, R412) -/

/-- Whether every byte of a range lies on a page that may be written. -/
def State.writable (s : State) (p va n : Nat) : Bool :=
  n = 0 || ((List.range ((va + n + 65535) / 65536 - va / 65536)).map (fun k => if k = 0 then va else (va / 65536 + k) * 65536)).all
    (fun a => match s.locate p a with
      | some (_, rw) => rw
      | none => false)

/-- The poured tasks of a step. -/
def State.poursOf (s : State) (cmd : Nat) : List Task := ((s.tasksOf cmd).map (·.2)).filter (·.poured)

/-- Whether the pour area of a command has an entry free, and room in its arena. -/
def State.pourRoom (s : State) (id : Nat) (c : Cmd) (len : Nat) : Bool :=
  let ts := s.poursOf id
  let used := (ts.filter (fun t => t.placed = 0 && !t.over)).length
  let arena := ((ts.filter (fun t => !(t.over && t.finished = t.placed))).map (·.arena)).foldl (· + ·) 0
  used < c.pourEntries && arena + len ≤ c.pourArena

/-- The parameter block that a POUR names, read as it executes (R105). -/
def Ctx.pourParams (x : Ctx) (len : Nat) : Except Stop FrontRead :=
  if len = 0 then pure (.got x.s [] 0)
  else do
    let a ← x.u64 x.i.a
    require (addrOk 16 a.toNat)
    pure (x.s.frontRead (.grp x.r.block x.r.group.val) (some 0) x.t.part a.toNat len x.g.pc)

/-- The task that a POUR appends. -/
def Ctx.pouredTask (x : Ctx) (n : Node) (c : Cmd) (node key : Nat) (grid : Nat × Nat × Nat) (params : List Byte) : Task :=
  let h := stepHint n c.batch
  let t := n.task x.t.cmd c node grid h
  { t with
    poured := true
    parent := x.b.task
    identity := childIdentity x.t.identity x.b.linear key
    params := params
    arena := params.length
    flags := clampedIf (h ≠ (n.affKind, n.affArg)) }

/-- The grid operand of a POUR: the three registers from SRC_B, or the immediate in their place, sign-extended to 96 bits (R84; log 97). -/
def Ctx.pourGrid (x : Ctx) : Except Stop (Word × Word × Word) :=
  match insImmValue x.i with
  | some w => pure (w.setWidth 32, (w >>> 32).setWidth 32, if w.msb then 0xFFFFFFFF else 0)
  | none => do
    let gx ← x.u32 x.i.b
    let gy ← x.u32 (x.i.b + 1)
    let gz ← x.u32 (x.i.b + 2)
    pure (gx, gy, gz)

/-- POUR: a release at SYSTEM scope, then its parameter block is read (R231), and one task appended to the step's pour queue. -/
def execPour (g : GroupRef) (i : Ins) (s : State) : Out :=
  issue g i (fun x => x.forGroup (do
    let g3 ← x.pourGrid
    let w ← x.uC
    let node := field w 0 12
    match s.cmd? x.t.cmd, (s.stepVer x.t.cmd).nodes[node]? with
    | some c, some n => do
      require n.pourOnly
      x.gateWrites
      x.released 3
      require (s.writable x.t.part c.pourVa (64 * c.pourEntries + c.pourArena))
      if !s.pourRoom x.t.cmd c n.paramLen then .error (.fault .queueOverflow)
      else match ← x.pourParams n.paramLen with
        | .wait s => .ok s
        | .stop _ st _ => .error (.fault st)
        | .got s params f =>
          let grid := clampGrid g3.1.toNat g3.2.1.toNat g3.2.2.toNat
          let s := s.raise x.b.task (clampedIf (grid ≠ (g3.1.toNat, g3.2.1.toNat, g3.2.2.toNat)) ||| f)
          let r := s.newId
          let t := x.pouredTask n c node (field w 16 16) grid params
          x.doneIn ((r.2.setTask r.1 t).readyTask r.1 t) x.g
    | _, _ => accessFault)) s

/-! ## Ends of blocks -/

/-- Whether an access of a block is not complete; a prefetch holds no block. -/
def State.blockBusy (s : State) (b : Nat) : Bool :=
  s.reqs.any (fun _ q => q.kind ≠ .prefetch && (match q.src with
    | .grp x _ => x == b
    | _ => false))

/-- The half of the front end that owns a command (Table 10-3). -/
def State.cmdHalf (s : State) (cmd : Nat) : Nat := (((s.cmd? cmd).bind (fun c => s.queue? c.queue)).map (·.fe)).getD 0

/-- Whether a synchronisation message passes between a core and the front end that owns a command (R338). -/
def State.coreHeard (s : State) (core cmd : Nat) : Bool := s.syncOpen (halfOfCore core) (s.cmdHalf cmd)

/-- BLOCK_END: a block whose groups have all ended and whose accesses are complete leaves its core; a task whose last block ends has
ended OK (R41, R67). -/
def execBlockEnd (b : Nat) (s : State) : Out :=
  match s.blocks.get? b with
  | none => .next s
  | some k =>
    match s.tasks.get? k.task with
    | none => .next s
    | some t =>
      if (k.phase ≠ .resident && k.phase ≠ .leaving) || k.groups.any (fun g => decide (g.hold ≠ .ended)) || s.blockBusy b || s.fw.fatal
          || !s.coreHeard k.core t.cmd then
        .next s
      else
        let t := { t with finished := t.finished + 1 }
        let s := (s.dropBlock b).setTask k.task t
        let s := if t.finished = t.blocks then s.endTask k.task .ok 0 else s
        .next (((s.endRebind t.part).settleStep t.cmd).trace)

/-- The address of the BAR.SYNC that a group is held at. -/
def Group.heldAt (g : Group) : Option DWord := match g.hold with
  | .bar _ a _ => some a
  | _ => none

/-- BLOCK_STUCK: every live thread of a resident block belongs to a group held at BAR.SYNC (R133, R134). -/
def execBlockStuck (b : Nat) (s : State) : Out :=
  match s.blocks.get? b with
  | none => .next s
  | some k =>
    let live := k.groups.filter (fun g => g.live ≠ 0)
    let heard := (s.tasks.get? k.task).all (fun t => s.coreHeard k.core t.cmd)
    if k.phase ≠ .resident || s.fw.fatal || !heard || live.any (fun g => g.heldAt.isNone) then .next s
    else match (live.filterMap Group.heldAt).head? with
      | none => .next s
      | some a => .next ((s.endTask k.task .deadlock a).trace)

/-! ## Withdrawal of semaphore waits (R132, R418) -/

/-- A semaphore wait withdrawn: from the queue of a word of this device or of host memory at once, from a peer's by a message whose
acknowledgement ends it, for which Table 15-5 names none (DESIGN CHOICE, log 105). A wait already granted stands. -/
def State.withdrawSem (s : State) (id : Nat) (q : MemReq) : State :=
  match q.kind, q.stage, q.home with
  | .semAcq _ _, .waiting, .peer d _ n => (s.stageReq id q .recalled).toPeer d n .recall [id] []
  | .semAcq off _, .waiting, h =>
    let k := semKey h off
    ({ s with waiters := s.waiters.put [] k ((s.waiters.get [] k).filter (fun i => i ≠ id)) }).stageReq id q .withdrawn
  | .semAcq _ _, .flight, _ => s.stageReq id q .withdrawn
  | _, _, _ => s

/-! ## Kill (Table 12-14) -/

/-- A request of a killed block: a write already issued still reaches its home, and the command's record waits for it (R232); a
semaphore wait is withdrawn; anything else is dropped. -/
def State.dropReq (s : State) (cmd id : Nat) (q : MemReq) : State :=
  let back := match q.stage with
    | .back _ => true
    | _ => false
  let tileWrite := match q.kind with
    | .tile w _ _ => w
    | _ => false
  if !back && (q.writes || tileWrite) then s.setReq id { q with src := .cmd cmd }
  else
    let s := s.withdrawSem id q
    match s.reqs.get? id with
    | some r => if r.stage = .recalled then s.setReq id { r with src := .cmd cmd } else s.endReq id r
    | none => s

/-- The full writes that a TST has begun and not ended close with what they hold. -/
def State.closeWrites (s : State) (o : TileOp) : State :=
  ((o.opened.filter (fun k => k < 16)).filter (fun k => (o.lines.filter (fun n => n / 16 = k)).length < 16)).foldl (fun s k =>
    match s.homeOf o.part (tileVa o.va o.stride k) with
    | some (.dev n) => s.endWrite (s.forward n)
    | _ => s) s

/-- A block killed: its queued work and everything it held are discarded. -/
def State.killBlock (s : State) (cmd b : Nat) : State :=
  let mine := s.reqs.rows.filter (fun r => match r.2.src with
    | .grp x _ => x == b
    | _ => false)
  let s := (mine.foldl (fun s r => s.dropReq cmd r.1 r.2) s).wakeAfter mine
  let ops := s.tileOps.rows.filter (fun r => r.2.block = b)
  let s := ops.foldl (fun s r => if r.2.store then s.closeWrites r.2 else s) s
  let s := { s with
    tileOps := s.tileOps.keep (fun _ o => o.block != b)
    spents := s.spents.keep (fun _ e => e.waits.any (fun k => (s.reqs.get? k).isSome)) }
  s.dropBlock b

/-- Whether every core that holds a block of a task can take its TASK_KILL: it can be reached, and where the step is drained and killed it
took the DRAIN sent before (R338, R339). -/
def State.killHeard (s : State) (task cmd : Nat) (c : Cmd) : Bool :=
  !s.blocks.any (fun _ b => b.task = task && b.phase ≠ .out
    && (!s.coreHeard b.core cmd || (c.stage = .killing && !c.drained.contains b.core)))

/-- TASK_KILL: the blocks of a task that has ended, or of a step that is being killed, are discarded wherever they are. -/
def execTaskKill (task : Nat) (s : State) : Out :=
  match s.tasks.get? task with
  | none => .next s
  | some t =>
    match s.cmd? t.cmd with
    | none => .next s
    | some c =>
      if (t.state ≠ .ended && c.stage ≠ .killing) || !s.killHeard task t.cmd c then .next s
      else
        let s := (s.blocksOf task).foldl (fun s b => s.killBlock t.cmd b) s
        let s := s.setTask task { t with finished := t.placed, killed := t.killed || t.state ≠ .ended }
        .next ((s.endRebind t.part).settleStep t.cmd)

/-! ## Drain (R429 to R431) -/

/-- A command stopped with a status: one that holds no core completes, with the bytes it moved; a batch step is drained; a semaphore
wait is withdrawn, unless its home has granted it. -/
def State.stopCmd (s : State) (id : Nat) (c : Cmd) (why : Status) : State :=
  if !c.pending || c.why.isSome then s
  else
    let s' := s.setCmd id { c with why := some why }
    if c.isLaunch && c.stage ≠ .fetched then
      ((s.setCmd id { c with why := some why, stage := CmdStage.draining }).settleStep id)
    else match (if c.op = 4 then c.req.bind (fun k => (s.reqs.get? k).map (fun q => (k, q))) else none) with
      | none => s'.cmdDone id why 0
      | some (k, q) => match q.stage with
        | .back _ => if why = .timeout then s else (s'.endReq k q).cmdDone id why 0
        | _ =>
          let s' := s'.withdrawSem k q
          match s'.reqs.get? k with
          | some r => if r.stage = .recalled then s' else ((s'.endReq k r).cmdDone id why 0).wakeAfter [(k, q)]
          | none => s'.cmdDone id why 0

/-- COMMAND_TIMEOUT: the timer is ignored once the command is complete, or a task of its step has failed (Table 12-15). -/
def execCommandTimeout (cmd : Nat) (s : State) : Out :=
  match s.cmd? cmd with
  | none => .next s
  | some c =>
    if s.fw.fatal || (s.tasksOf cmd).any (fun t => t.2.failed) then .next s
    else .next ((s.stopCmd cmd c .timeout).trace)

/-- ABORT: QCTL.ABORT written 1 drains and kills every fetched command of the queue, and the queue drains (R431). -/
def execAbort (fn : Fin 64) (rid : Option Nat) (q : Fin 1024) (s : State) : Out :=
  queueWrite fn rid false q (fun _ =>
    let s := (s.cmds.rows.filter (fun r => r.2.queue = q.val)).foldl (fun s r => s.stopCmd r.1 r.2 .killed) s
    s.drainQueue q) s

/-- DRAIN: a core that holds a block of a drained command receives it, and the drain bound runs; a core across the hinge may receive it
when the bound has passed, before its TASK_KILL (R339). -/
def execDrain (cmd : Nat) (core : Fin 160) (s : State) : Out :=
  match s.cmd? cmd with
  | none => .next s
  | some c =>
    let here := (s.onCore core).any (fun r => (s.tasks.get? r.2.task).any (fun t => t.cmd = cmd))
    if (c.stage ≠ .draining && c.stage ≠ .killing) || !here || !s.coreHeard core cmd then .next s
    else .next (s.setCmd cmd { c with boundStarted := true, drained := core.val :: c.drained.filter (fun k => k ≠ core.val) })

/-- DRAIN_BOUND_EXPIRY: after 50 µs the blocks that are left are to be killed. -/
def execDrainBoundExpiry (cmd : Nat) (s : State) : Out :=
  match s.cmd? cmd with
  | none => .next s
  | some c =>
    let resident := s.blocks.any (fun _ b => b.phase ≠ .out && (s.tasks.get? b.task).any (fun t => t.cmd = cmd))
    if c.stage ≠ .draining || (resident && !c.boundStarted) then .next s
    else .next ((s.setCmd cmd { c with stage := CmdStage.killing }).settleStep cmd)

/-! ## Traps of instruction issue (R83, R86) -/

/-- RESERVED_OPCODE: a group issues a word whose class or opcode is reserved. -/
def execReservedOpcode (g : GroupRef) (s : State) : Out :=
  issue g ⟨none, 0, false, 0, 0, 0, 0, 0⟩ (fun _ => accessFault) s

/-- INSTRUCTION_FETCH_FAULT: a group's next instruction lies at a misaligned, unmapped or out-of-window address. -/
def execInstructionFetchFault (g : GroupRef) (s : State) : Out :=
  issue g ⟨none, 0, false, 0, 0, 0, 0, 0⟩ (fun x =>
    if addrOk 8 x.g.pc.toNat && s.mapped x.t.part x.g.pc.toNat then waits else accessFault) s

end Sys2Proof.Machine
end

