-- ==== Sys2Proof/Machine/Sched.lean ====
section
/-! DEFINITION. The step schedulers: placement, switching, restores, owners of time and their commands (R437 to R458, Tables 13-1 to
13-6). -/

namespace Sys2Proof.Machine

/-! ## Room on cores (R78) -/

/-- The tasks of the blocks that a core holds. -/
def State.coreTasks (s : State) (c : Nat) : List Task := (s.onCore c).filterMap (fun r => s.tasks.get? r.2.task)

/-- A sum over a list. -/
def sumOf {α : Type} (f : α → Nat) (l : List α) : Nat := (l.map f).foldl (· + ·) 0

/-- Whether a block of a task fits beside the tasks of the blocks on a core. -/
def Task.fitsWith (t : Task) (ts : List Task) (l1KiB : Nat) : Bool :=
  ts.length < 32 && sumOf Task.slots ts + t.slots ≤ 16 && sumOf Task.regs ts + t.regs ≤ 64
  && sumOf Task.lmemAlloc ts + t.lmemAlloc + 1024 * l1KiB ≤ 524288

/-- Whether a block of a task fits on a core now. -/
def State.fits (s : State) (c : Nat) (t : Task) : Bool := t.fitsWith (s.coreTasks c) (s.core c).l1KiB

/-- The free group slots of a core. -/
def State.freeSlots (s : State) (c : Nat) : Nat := 64 - 4 * sumOf Task.slots (s.coreTasks c)

/-- The cores that may take blocks of a partition: open, and on no quad whose withdrawal is pending (R443). -/
def State.candidates (s : State) (p : Nat) : List Nat :=
  (s.openCores p).filter (fun c => match (s.part p).rebind with
    | some b => !(b.begun && b.withdraw.getLsbD (c / 4))
    | none => true)

/-! ## The preferred half (R441, R442) -/

/-- The device tiles of a virtual range: for each, its 2 MiB region, its half and its lines within the range. -/
def State.shareTiles (s : State) (p lo hi : Nat) : List (Nat × Nat × Nat) :=
  ((s.part p).pages.rows.map (fun r =>
    let base := r.1 * 65536
    let size := if r.2.large then 2097152 else 65536
    let a := max lo base
    let b := min hi (base + size)
    let frame := match r.2.backing with
      | .dev d => some d
      | .shared d => some d
      | _ => none
    match frame with
    | none => []
    | some d =>
      if b ≤ a then []
      else
        let x := d + (a - base)
        let y := d + (b - base)
        (List.range ((y + 2047) / 2048 - x / 2048)).map (fun k =>
          let t := x / 2048 + k
          let from_ := max (t * 2048) x
          let to_ := min ((t + 1) * 2048) y
          let half := ((s.placeOf (t * 2048)).map (fun w => halfOfChan w.1)).getD 0
          (t / 1024, half, (to_ + 127) / 128 - from_ / 128)))).flatten

/-- The valid lines of a region in a half's slices, as the scheduler last read the tags. -/
def Task.tagsIn (t : Task) (region half : Nat) : Nat :=
  ((t.tags.find? (fun r => r.1 = region)).map (fun r => if half = 0 then r.2.1 else r.2.2)).getD 0

/-- The score of a half for the `b`-th block of a task, over its operand slots. -/
def State.score (s : State) (k : Task) (slots : List (Nat × Nat)) (b half : Nat) : Nat :=
  sumOf (fun (o : Nat × Nat) =>
    let ts := s.shareTiles k.part (o.1 + o.2 * b / k.blocks) (o.1 + o.2 * (b + 1) / k.blocks)
    sumOf (fun r => k.tagsIn r half + sumOf (fun (t : Nat × Nat × Nat) => t.2.2) (ts.filter (fun t => t.1 = r && t.2.1 = half)) / 4)
      ((ts.map (·.1)).eraseDups)) slots

/-- The half preferred for a block: the higher score, then the half with more free group slots, then half 0. -/
def State.preferred (s : State) (t : Task) (b : Nat) : Nat :=
  let batch := ((s.cmd? t.cmd).map (·.batch)).getD []
  let ks := if t.affKind = 2 then [t.affArg] else List.range 16
  let slots := ks.filterMap (batchSlot batch)
  let s0 := s.score t slots b 0
  let s1 := s.score t slots b 1
  if s0 ≠ s1 then (if s0 < s1 then 1 else 0)
  else
    let free := fun h => sumOf s.freeSlots ((s.openCores t.part).filter (fun c => halfOfCore c = h))
    if free 0 < free 1 then 1 else 0

/-! ## The core (Table 13-1) -/

/-- The core of a list, in ascending order, with the most of a measure, the lowest number among equals. -/
def mostOf (f : Nat → Nat) : List Nat → Option Nat
  | [] => none
  | c :: t => some (t.foldl (fun b k => if f b < f k then k else b) c)

/-- The quads where the blocks of the task that WITH_TASK names ran in this step, the latest first; of a POUR_ONLY node, those of every task
poured to it (R58). -/
def State.withQuads (s : State) (t : Task) : List Nat :=
  (((s.tasksOf t.cmd).filter (fun r => r.2.node = t.affArg)).reverse.map (·.2.quads)).flatten

/-- The core on which a block of a task is placed, if any candidate holds it (R443). -/
def State.chooseCore (s : State) (t : Task) (b : Nat) : Option Nat :=
  let cand := (s.candidates t.part).filter (fun c => s.fits c t)
  let quads := (s.quadsOf t.part).toNat
  let near := if t.affKind = 1 then s.withQuads t else []
  let half := match t.affKind, near with
    | 1, q :: _ => q / 20
    | 3, _ => if b % max (popCount 40 quads) 1 < popCount 20 quads then 0 else 1
    | _, _ => s.preferred t b
  let inHalf := fun h => cand.filter (fun c => halfOfCore c = h)
  let l := if inHalf half = [] then inHalf (1 - half) else inHalf half
  let with_ := l.filter (fun c => near.contains (c / 4))
  if t.affKind = 4 then mostOf (fun c => 64 - s.freeSlots c) l
  else mostOf s.freeSlots (if with_ = [] then l else with_)

/-! ## Ready blocks in order (R439) -/

/-- A ready block: one switched out, or the next new block of a task. -/
inductive Ready where
  | out (b : Nat)
  | new (task : Nat)
deriving DecidableEq, Repr

/-- The task and linear index of a ready block. -/
def State.readyOf (s : State) : Ready → Option (Task × Nat)
  | .out b => (s.blocks.get? b).bind (fun k => (s.tasks.get? k.task).map (fun t => (t, k.linear)))
  | .new i => (s.tasks.get? i).map (fun t => (t, t.placed))

/-- Whether a front end's scheduler places the blocks of a task (R437). -/
def State.schedules (s : State) (fe : Nat) (t : Task) : Bool :=
  match (s.cmd? t.cmd).bind (fun c => s.queue? c.queue) with
  | some q => q.fe = fe
  | none => false

/-- Whether a task's command still lets its blocks be placed. -/
def State.placing (s : State) (t : Task) : Bool :=
  t.state ≠ .ended && !t.killed && (s.cmd? t.cmd).any (fun c => c.stage = .running)

/-- The ready blocks of a context at a front end's scheduler, in order. -/
def State.readyBlocks (s : State) (fe p ctx : Nat) : List Ready :=
  let mine := fun (i : Nat) => (s.tasks.get? i).any (fun t => t.part = p && t.ctx = ctx && s.schedules fe t)
  let outs := sortOn (fun (r : Nat × Block) => r.2.outSeq)
    (s.blocks.rows.filter (fun r => r.2.phase = .out && mine r.2.task))
  let goes := fun (r : Nat × Block) => (s.tasks.get? r.2.task).any s.placing
  let out := ((outs.filter (fun r => !r.2.displaced)) ++ (outs.filter (fun r => r.2.displaced))).filter goes
  if outs ≠ [] then out.map (fun r => .out r.1)
  else
    let ts := s.tasks.rows.filter (fun r => mine r.1 && r.2.state = .ready && r.2.placed < r.2.blocks && s.placing r.2)
    (sortOn (fun (r : Nat × Task) => r.2.order) ts).map (fun r => .new r.1)

/-- A ready block with the core that takes it. -/
def State.fitReady (s : State) (r : Ready) : Option (Ready × Nat) :=
  (s.readyOf r).bind (fun t => (s.chooseCore t.1 t.2).map (fun c => (r, c)))

/-- The key of a partition's backfill turn at a scheduler (R448). -/
def backfillKey (fe p : Nat) : Nat := 1000 + 2 * p + fe

/-- The backfill block placed next: contexts other than the owner in turn, the first ready block of each (R447, R448). -/
def State.backfill (s : State) (fe p : Nat) : Option (Nat × Ready × Nat) :=
  let last := s.turns.get 7 (backfillKey fe p)
  let order := ((List.range 8).map (fun k => (last + 1 + k) % 8)).filter (fun c => (s.part p).owner ≠ some c)
  order.findSome? (fun c => ((s.readyBlocks fe p c).head?.bind s.fitReady).map (fun r => (c, r.1, r.2)))

/-! ## Victims (R449) -/

/-- The live state of a block in bytes (R453). -/
def State.liveBytes (s : State) (b : Block) : Nat :=
  match s.tasks.get? b.task with
  | none => 0
  | some t =>
    let groups := b.groups.filter (fun g => g.hold ≠ .ended)
    let units := (b.unmarked.rows.filter (fun r => r.2)).length
    let acc := (groups.filter (fun g => g.foot.st = .held)).length * t.accUnits
    groups.length * (1024 * regUnits t.nregs + 512) + 2048 * units + 1024 * acc

/-- The block of another context whose removal lets a block of a task fit, with the smallest live state. -/
def State.victimFor (s : State) (t : Task) : Option Nat :=
  let ok := fun (r : Nat × Block) => r.2.phase = .resident && (s.candidates t.part).contains r.2.core
    && (match s.tasks.get? r.2.task with
      | some u => u.part = t.part && u.ctx ≠ t.ctx && s.placing u
          && t.fitsWith (((s.onCore r.2.core).filter (fun x => x.1 ≠ r.1)).filterMap (fun x => s.tasks.get? x.2.task))
            (s.core r.2.core).l1KiB
      | none => false)
  ((sortOn (fun (r : Nat × Block) => s.liveBytes r.2) (s.blocks.rows.filter ok)).head?).map (·.1)

/-- Under PREEMPT FULL, a block switched out for a ready block of the owner that fits on no core, one at a time. -/
def State.preempt (s : State) (fe p : Nat) : Option State :=
  match (s.part p).owner with
  | none => none
  | some c =>
    let busy := s.blocks.any (fun _ b => (b.phase = .leaving || b.phase = .stored)
      && (s.tasks.get? b.task).any (fun t => t.part = p))
    if !(s.part p).preemptNow || busy then none
    else match (s.readyBlocks fe p c).head?.bind s.readyOf with
      | none => none
      | some t => match s.victimFor t.1 with
        | none => none
        | some b => (s.blocks.get? b).map (fun k => s.setBlock b { k with phase := BlockPhase.leaving, displaced := false })

/-! ## Placement and restore (R441 to R443, R454, Table 13-6) -/

/-- A task that ran on a core's quad. -/
def Task.ranOn (t : Task) (c : Nat) : Task := { t with quads := (c / 4) :: t.quads.filter (fun q => q ≠ c / 4) }

/-- A new block of a task on a core (R36, R71, R76, R95). -/
def Task.newBlock (t : Task) (task c : Nat) : Block :=
  { task := task, linear := t.placed, core := c, phase := .resident, groups := List.replicate t.groups (Group.init t.kernel)
    lmemSize := t.lmemAlloc, lmem := .empty, unmarked := .empty, bars := .empty, outSeq := 0, displaced := false, saved := [],
    veils := [] }

/-- A task with one more block placed; the tags are read again after every 64 (R442). -/
def State.countPlaced (s : State) (t : Task) : Task :=
  { t with placed := t.placed + 1, tags := if (t.placed + 1) % 64 = 0 then s.readTags else t.tags }

/-- A new block placed: it starts with an acquire at PARTITION scope (R230). -/
def State.placeNew (s : State) (task c : Nat) (t : Task) : State :=
  let r := s.newId
  ((r.2.setBlock r.1 (t.newBlock task c)).setTask task (s.countPlaced (t.ranOn c))).l1Invalidate c

/-- A restored group's footprint: one with queued work is held where its units are free and nobody waits before it, and otherwise waits; any other comes
back before its next use (R144, R146). -/
def State.restoreFoot (s : State) (b : Nat) (k : Nat) : State :=
  match s.blocks.get? b with
  | none => s
  | some blk =>
    match blk.group? k with
    | none => s
    | some g =>
      let r : GroupRef := ⟨b, Fin.ofNat 32 k⟩
      let queued := blk.saved.any (fun e => e.group = k)
      let sub := blk.subCore k
      if g.foot.st = .none then s
      else if !queued then
        s.putGroup r { g with foot := { g.foot with st := match g.foot.st with
          | .waiting n => .waiting n
          | _ => .evicted } }
      else if (s.firstWaiter sub).isNone && s.unitsDecl blk.task ≤ s.freeUnits sub then s.putGroup r { g with foot := { g.foot with st := .held } }
      else
        let s := s.putGroup r { g with foot := { g.foot with st := .waiting s.nextId } }
        { s with nextId := s.nextId + 1 }

/-- A switched-out block restored on a core: it takes its saved MXU work with it, acquires at PARTITION scope, and re-issues each
withdrawn semaphore wait (R132, R178, R454). -/
def State.restore (s : State) (b c : Nat) : State :=
  match s.blocks.get? b with
  | none => s
  | some k =>
    match s.tasks.get? k.task with
    | none => s
    | some t =>
      -- footprints are out of their units until each is taken up again
      let away := k.groups.map (fun g => if g.foot.st = .held then { g with foot := { g.foot with st := FootState.evicted } } else g)
      let s := (s.setBlock b { k with core := c, phase := BlockPhase.resident, groups := away }).setTask k.task (t.ranOn c)
      let s := (List.range k.groups.length).foldl (fun s g => s.restoreFoot b g) s
      let s := s.refill
      let s := { s with reqs := s.reqs.mapVal (fun _ (q : MemReq) => match q.src with
        | .grp x _ => if x = b && q.stage = ReqStage.withdrawn then { q with stage := ReqStage.flight } else q
        | _ => q) }
      let p := s.part t.part
      ((s.l1Invalidate c).setPart t.part { p with restores := p.restores + 1 }).reserveSave t.part

/-- A block restored after the check of its save tiles (Table 13-6). -/
def State.restoreChecked (s : State) (b c : Nat) (save : SaveCheck) : State :=
  let task := ((s.blocks.get? b).map (·.task)).getD 0
  match save with
  | .sound => s.restore b c
  | .corrupt => (s.event 0x106 c).endTask task .tileCorrupt 0
  | .poisoned => (s.event 0x106 c).endTask task .poison 0

/-- A ready block placed on a core. -/
def State.placeReady (s : State) (r : Ready) (c : Nat) (save : SaveCheck) : State :=
  match r with
  | .out b => s.restoreChecked b c save
  | .new i => match s.tasks.get? i with
    | some t => s.placeNew i c t
    | none => s

/-- BLOCK_PLACE: a front end's scheduler places the next block of a partition: the owner's first ready block that fits, otherwise, with no
switch-out to be made for the owner, a backfill block. -/
def execBlockPlace (fe : Fin 2) (part : Fin 16) (save : SaveCheck) (s : State) : Out :=
  if !s.alive || s.power.state = .retain then .next s
  else
    let own := match (s.part part).owner with
      | some c => (s.readyBlocks fe part c).findSome? s.fitReady
      | none => none
    match own with
    | some r => .next (s.placeReady r.1 r.2 save)
    | none => match s.preempt fe part with
      | some s => .next s
      | none => match s.backfill fe part with
        | none => .next s
        | some (c, r, core) =>
          .next ({ s with turns := s.turns.put 7 (backfillKey fe part) c }.placeReady r core save)

/-! ## Switching out (R451, R452, Table 13-4) -/

/-- Whether a block has accesses that a switch-out lets complete. -/
def State.stillBusy (s : State) (b : Nat) : Bool :=
  s.tileOps.any (fun _ o => o.block == b)
  || s.reqs.any (fun _ q => (match q.src with
      | .grp x _ => x == b
      | _ => false) && (match q.kind, q.stage with
      | .prefetch, _ => false
      | .semAcq _ _, .withdrawn => false
      | .semAcq _ _, .back _ => false
      | _, _ => true))

/-- The requests of a block that its switch-out may withdraw. -/
def State.reqsOfBlock (s : State) (b : Nat) : List (Nat × MemReq) :=
  s.reqs.rows.filter (fun r => match r.2.src with
    | .grp x _ => x == b && r.2.stage != .recalled
    | _ => false)

/-- SWITCH_OUT: a leaving block withdraws its semaphore waits; once its accesses are complete its accumulators pass the storage check, which
`bad` says fails for a group, and its live state is written. -/
def execSwitchOut (b : Nat) (bad : Option (Fin 32)) (s : State) : Out :=
  match s.blocks.get? b with
  | none => .next s
  | some k =>
    if k.phase ≠ .leaving || s.fw.fatal then .next s
    else
      let s := ((s.reqsOfBlock b).foldl (fun s r => s.withdrawSem r.1 r.2) s).wakeAfter (s.reqsOfBlock b)
      if s.stillBusy b then .next s
      else
        let fails := k.groups.zipIdx.find? (fun g =>
          g.1.foot.st = .held && (g.1.foot.bad || bad.any (fun x => x.val = g.2)))
        match fails with
        | some g => .next ((s.spoil b g.2).fenceSubCore (k.subCore g.2) k.task 0)
        | none => .next (s.setBlock b { k with phase := .stored })

/-- SAVED: the block's place on its core is free; it waits among its context's switched-out blocks. -/
def execSaved (b : Nat) (s : State) : Out :=
  match s.blocks.get? b with
  | none => .next s
  | some k =>
    if k.phase ≠ .stored then .next s
    else
      let task := s.tasks.get? k.task
      let es := ((List.range 4).map (fun j => (s.mxu (4 * k.core + j)).queue.filter (fun e => e.block = b))).flatten
      let s := (s.mxuDrop b).setBlock b { k with phase := BlockPhase.out, outSeq := s.nextId, saved := es ++ k.saved }
      let s := ({ s with nextId := s.nextId + 1 }.refill.coreIdle k.core)
      match task with
      | none => .next s
      | some t =>
        let p := s.part t.part
        .next ((s.setPart t.part { p with switchOuts := p.switchOuts + 1 }).endRebind t.part)

/-! ## Owners (R445, R449, R450) -/

/-- QUANTUM_EXPIRY: a quantum of the owner ends; after its last, ownership moves on, and under PREEMPT FULL each scheduler switches out a
block for a block of the new owner that fits nowhere. -/
def execQuantumExpiry (part : Fin 16) (s : State) : Out :=
  let p := s.part part
  if p.owner.isNone || !s.alive then .next s
  else if 1 < p.quantaLeft then .next (s.setPart part { p with quantaLeft := p.quantaLeft - 1 })
  else
    let s := s.changeOwner part
    let stuck := fun (fe : Nat) => match (s.part part).owner with
      | some c => ((s.readyBlocks fe part c).findSome? s.fitReady).isNone
      | none => false
    match (if stuck 0 then s.preempt 0 part else none) with
    | some s => .next s
    | none => .next ((if stuck 1 then s.preempt 1 part else none).getD s)

/-- SCHED_SET (Table 13-2). -/
def execSchedSet (r : Req) (s : State) : Out :=
  serve r 0x4500 [1, 4, 1, 1, 1, 1, 1, 1, 1, 1, 1] (pfOnly r) (fun fs s => do
    let k := fieldAt fs 0
    let p := s.part k
    refuseIf (p.state ≠ .active && p.state ≠ .quiesced) .notInMode
    let q := clampTo 100 100000 (fieldAt fs 1)
    let ws := (List.range 8).map (fun c => fieldAt fs (2 + c))
    let s := s.setPart k { p with quantum := q.1, weights := ws.map (min 15), preemptFull := 1 ≤ fieldAt fs 10 }
    let s := if (s.part k).owner.isNone then s.settleOwner k else s
    pure (Ans.ok s (q.2 || ws.any (fun w => 15 < w) || 1 < fieldAt fs 10))) s

/-- SCHED_STATUS: owner (255 for none), quanta left, switched-out blocks per context, bytes of saved state, switch-outs and restores. -/
def execSchedStatus (r : Req) (s : State) : Out :=
  serve r 0x0501 [1, 1] (fun s fs => s.permits r.fn false || (s.permits r.fn true && fieldAt fs 0 = s.vfPart r.fn)) (fun fs s =>
    let k := partArg (fieldAt fs 0)
    let p := s.part k
    let mine := s.blocks.vals.filter (fun b => (s.tasks.get? b.task).any (fun t => t.part = k))
    let outs := mine.filter (fun b => b.phase = .out)
    let count := fun c => (outs.filter (fun b => (s.tasks.get? b.task).any (fun t => t.ctx = c))).length
    let evicted := mine.map (fun b => (b.groups.filter (fun g => g.foot.st = .evicted)).length * s.unitsDecl b.task)
    let bytes := sumOf s.liveBytes outs + 1024 * sumOf id evicted
    let image := encodeFields ([(1, p.owner.getD 255), (1, p.quantaLeft)] ++ (List.range 8).map (fun c => (2, count c))
      ++ [(8, bytes), (4, p.switchOuts), (4, p.restores)])
    pageAns s r.fn image (fieldAt fs 1) (15 < fieldAt fs 0)) s

end Sys2Proof.Machine
end

