-- ==== Sys2Proof/Machine/Compose.lean ====
section
/-! DEFINITION. Interleave sets, frames and scrubs (R294 to R299, R310, R372, R455, R551), slices (R366, R367), the shared read-only region
(R318 to R321), core memory splits (R73), LLC commands (R262, R277, R278) and channel status (R326, R332, R333). -/

namespace Sys2Proof.Machine

/-! ## Forming interleave sets (R297, R299, log 30) -/

/-- The rows of a channel that sets may use: 2 GiB less its reserve share and the re-placed rows at its top (R295). -/
def Chan.rows (c : Chan) : Nat := 1042432 - c.reserved

/-- The rows of a set of channels: the fewest that any of them has, with N × ROWS a multiple of 1,024. -/
def State.rowsFor (s : State) (chans : List Nat) : Nat :=
  let n := max chans.length 1
  let r := chans.foldl (fun m c => min m (s.chan c).rows) 1042432
  let step := 1024 / Nat.gcd n 1024
  r / step * step

/-- The lowest DPA at which `size` bytes overlap no set. -/
def State.freeBase (s : State) (size : Nat) : Nat :=
  let es := s.sets.vals
  let ok := fun (b : Nat) => es.all (fun e => decide (e.base + e.size ≤ b ∨ b + size ≤ e.base))
  ((sortOn id (0 :: es.map (fun e => e.base + e.size))).find? ok).getD 0

/-- A set formed of channels with a number of rows; the table holds 128. -/
def State.addSet (s : State) (owner : Owner) (copy : Nat) (chans : List Nat) (rows : Nat) : State :=
  let k := ((List.range 128).find? (fun k => (s.sets.get? k).isNone))
  match k with
  | none => s
  | some k =>
    if rows = 0 || chans = [] then s
    else
      let base := s.freeBase (chans.length * rows * 2048)
      let mark := fun (t : Tab Chan) (c : Nat) => t.upd Chan.init c (fun v => { v with state := ChanState.inService, owner := owner })
      { s with sets := s.sets.set k ⟨base, chans, 0, rows, owner, copy, none⟩, chans := chans.foldl mark s.chans }

/-- A list cut into pieces of at most `n`; `fuel` bounds the pieces. -/
def pieces {α : Type} (n : Nat) : Nat → List α → List (List α)
  | 0, _ => []
  | _, [] => []
  | fuel + 1, l => l.take n :: pieces n fuel (l.drop n)

/-- The channels of each set that channels form: within a half, or the same number of each half (R299). -/
def setGroups (whole : Bool) (chans : List Nat) : List (List Nat) :=
  let h := fun (k : Nat) => chans.filter (fun c => halfOfChan c = k)
  if whole then
    let n := min (h 0).length (h 1).length
    ((pieces 8 16 ((h 0).take n)).zip (pieces 8 16 ((h 1).take n))).map (fun p => p.1 ++ p.2)
  else pieces 16 8 (h 0) ++ pieces 16 8 (h 1)

/-- The sets of a partition's channels formed. -/
def State.formSets (s : State) (owner : Owner) (whole : Bool) (chans : List Nat) : State :=
  (setGroups whole chans).foldl (fun s g => s.addSet owner 0 g (s.rowsFor g)) s

/-! ## Scrubs (R310, R527, R551) -/

/-- The tile place of a device line. -/
def State.lineIn (s : State) (p : Nat → Nat → Bool) (line : Nat) : Bool :=
  match s.placeOf (line * 128) with
  | some (ch, row) => p ch row
  | none => false

/-- Every tile in rows for which `p` holds set to ZERO; cached lines are discarded and pins released, wherever they are held. -/
def State.scrub (s : State) (p : Nat → Nat → Bool) : State :=
  let at_ := fun (t : Nat) => p (t / 2 ^ 20) (t % 2 ^ 20)
  let ls := s.llc.rows.filter (fun r => !r.2.host && s.lineIn p r.2.line)
  let l1 := fun (k : Nat) => k % 3 = 0 && s.lineIn p (k / 3)
  let s' := ls.foldl (fun s r => s.llcEvict r.1 r.2 true) s
  { s' with
    tss := s'.tss.keep (fun t _ => !at_ t)
    openTiles := s'.openTiles.keep (fun t _ => !at_ t)
    repaired := s'.repaired.keep (fun t _ => !at_ t)
    dir := s'.dir.keep (fun n _ => !s.lineIn p n)
    cores := s'.cores.mapVal (fun _ (c : Core) => { c with l1 := c.l1.keep (fun k _ => !l1 k) }) }

/-- The rows that a set uses. -/
def IntSet.covers (e : IntSet) (ch row : Nat) : Bool := e.chans.contains ch && e.row0 ≤ row && row < e.row0 + e.rows

/-- The tiles of a range of DPAs scrubbed. -/
def State.scrubRange (s : State) (dpa n : Nat) : State :=
  s.scrub (fun ch row => match s.dpaOf ch row with
    | some d => decide (dpa ≤ d ∧ d < dpa + n)
    | none => false)

/-- Copies that agents outside hold of lines recalled: true once none is left (R278, R468). -/
def State.recall (s : State) (p : Nat → Bool) : Bool × State :=
  let busy := s.txns.any (fun n _ => p n)
  let ls := (s.dir.keys.filter p).filter (fun n => (s.txns.get? n).isNone)
  match s.accessAll ls .write none false with
  | some (true, s) => (!busy, s)
  | some (false, s) => (false, s)
  | none => (false, s)

/-- Whether a request that has not been answered concerns a line. -/
def State.inFlight (s : State) (p : Nat → Bool) : Bool :=
  s.reqs.any (fun _ q => match q.home with
    | .dev n => p n
    | _ => false)

/-- A set taken out of service: its tiles are scrubbed, and its channels become UNBOUND. -/
def State.removeSet (s : State) (k : Nat) (e : IntSet) : State :=
  let s := s.scrub e.covers
  let free := fun (t : Tab Chan) (c : Nat) => t.upd Chan.init c (fun v =>
    if v.state = .inService then { v with state := ChanState.unbound, owner := Owner.free } else { v with owner := Owner.free })
  { s with
    sets := s.sets.erase k
    chans := e.chans.foldl free s.chans
    host := { s.host with window := s.host.window.keep (fun _ d => !(e.base ≤ d && d < e.base + e.size)) } }

/-! ## Frames (R64, R455) -/

/-- Whether a set belongs to one of its partition's own pools. -/
def State.inPool (s : State) (e : IntSet) : Bool :=
  s.pools.any (fun _ p => !p.onTwin && e.chans.all (fun c => p.chans.getLsbD c))

/-- A page's size in bytes. -/
def Page.bytes (g : Page) : Nat := if g.large then 2097152 else 65536

/-- Ranges of DPAs in use as frames: pages, both ends of moves, and the shared region. -/
def State.framesUsed (s : State) : List (Nat × Nat) :=
  let pages := (s.parts.vals.map (fun p => p.pages.vals.filterMap (fun g => match g.backing with
    | .dev d => some (d, g.bytes)
    | _ => none))).flatten
  let moves := (s.mm.migs.map (fun m => match m with
    | .page _ _ src dst tiles _ _ => [(src, tiles * 2048), (dst, tiles * 2048)]
    | .recall _ _ dst tiles _ => [(dst, tiles * 2048)]
    | _ => [])).flatten
  let region := match s.mm.shared with
    | some g => g.parts.map (fun e => (e.base, e.size))
    | none => []
  pages ++ moves ++ region

/-- The lowest free frame of a size in a set. -/
def freeFrame (used : List (Nat × Nat)) (e : IntSet) (size : Nat) : Option Nat :=
  let mine := used.filter (fun u => e.base ≤ u.1 && u.1 < e.base + e.size)
  let starts := sortOn id (e.base :: mine.map (fun u => e.base + roundUp (u.1 + u.2 - e.base) size))
  starts.find? (fun d => d + size ≤ e.base + e.size && mine.all (fun u => decide (u.1 + u.2 ≤ d ∨ d + size ≤ u.1)))

/-- Whether a set takes new pages: no channel of it is leaving (Table 9-5b step 1). -/
def State.takesPages (s : State) (e : IntSet) : Bool :=
  e.shadow.isNone && e.chans.all (fun c => (s.chan c).state = .inService && !s.mm.unbind.contains c)

/-- The half that holds more of a partition's quads, half 0 on a tie (R64). -/
def State.quadHalf (s : State) (p : Nat) : Nat :=
  let q := (s.quadsOf p).toNat
  if popCount 20 q < popCount 20 (q >>> 20) then 1 else 0

/-- The sets of a partition that hold its ordinary pages, in the order in which PAGE_MAP takes them. -/
def State.pageSets (s : State) (p : Nat) : List IntSet :=
  let es := s.sets.vals.filter (fun e => e.owner = .part p && !s.inPool e && s.takesPages e)
  let h := s.quadHalf p
  if (s.part p).wholeDevice then es
  else es.filter (fun e => halfOfChan (e.chans.headD 0) = h) ++ es.filter (fun e => halfOfChan (e.chans.headD 0) ≠ h)

/-- A free frame of sets, in order. -/
def State.frameIn (s : State) (es : List IntSet) (size : Nat) : Option Nat :=
  let used := s.framesUsed
  es.findSome? (fun e => freeFrame used e size)

/-- Bytes of a partition's ordinary sets that are neither mapped nor reserved for save areas (R455). -/
def State.freeBytes (s : State) (p : Nat) : Nat :=
  let es := s.sets.vals.filter (fun e => e.owner = .part p && !s.inPool e)
  let mapped := (s.part p).pages.vals.filterMap (fun g => match g.backing with
    | .dev d => if es.any (fun e => e.base ≤ d && d < e.base + e.size) then some g.bytes else none
    | _ => none)
  sumOf IntSet.size es - (sumOf id mapped + (s.part p).save)

/-- A frame for an ordinary page of a partition. -/
def State.pageFrame (s : State) (p size : Nat) : Option Nat :=
  if s.freeBytes p < size then none else s.frameIn (s.pageSets p) size

/-! ## Whole tiles -/

/-- A tile given its bytes in memory as a full write: ZERO where they are all zero, otherwise VALID with its CRC (Table 9-2). -/
def State.putWhole (s : State) (line : Nat) (data : List (BitVec 1024)) : State :=
  match s.tileOfLine line with
  | none => s
  | some t =>
    let s := s.dropTile t
    let s := { s with openTiles := s.openTiles.erase t.key }
    if data.all (fun d => d = 0) then s.tileTo t.key .zero
    else
      let s := (List.range 16).foldl (fun s k => s.memWrite (t.line0 + k) t.ch t.row k (data.getD k 0) allBytes) s
      let s := s.setTss t.key ⟨.valid, 0, 0⟩
      s.setTss t.key ⟨.valid, crc32c (s.tileBytes t), 0⟩

/-! ## Slices (Table 11-1) -/

/-- Whether the device is paired (R368). -/
def State.paired (s : State) : Bool := s.pair.state = .paired || s.pair.state = .severed || s.pair.state = .attaching

/-- The union of a field over the slice records but one. -/
def State.otherSlices {n : Nat} (s : State) (k : Nat) (f : Slice → BitVec n) : BitVec n :=
  s.slices.rows.foldl (fun m r => if r.1 = k then m else m ||| f r.2) 0

/-- The quads of dies that are not fenced and that the fuses leave. -/
def State.quadsLeft (s : State) : BitVec 40 :=
  BitVec.ofNat 40 (numOfBits ((List.range 40).filter (fun q =>
    s.fuses.quads.getLsbD q && !(s.hinge.fenced.get false (q / 5)))))

/-- The channels in state UNBOUND. -/
def State.unboundChans (s : State) : BitVec 256 :=
  BitVec.ofNat 256 (numOfBits ((List.range 256).filter (fun c => (s.chan c).state = .unbound)))

/-- A slice record, by its number. -/
def State.slice (s : State) (k : Nat) : Slice := s.slices.get Slice.init k

/-- SLICE_DEFINE: the record is written, and returned as stored. -/
def execSliceDefine (r : Req) (s : State) : Out :=
  serve r 0x4300 [1, 8, 32, 2] (pfOnly r) (fun fs s => do
    let k := fieldAt fs 0
    refuseIf (63 < k) .badLength
    let old := s.slice k
    let built := match old.part with
      | none => true
      | some p => (s.part p).state = .built
    refuseIf (!built) .notInMode
    let quads := BitVec.ofNat 40 (fieldAt fs 1) &&& s.quadsLeft &&& ~~~(s.otherSlices k Slice.quads)
    let chans := BitVec.ofNat 256 (fieldAt fs 2) &&& s.unboundChans &&& ~~~(s.otherSlices k Slice.chans)
    let trunk : BitVec 12 := if s.paired then 0x3F else 0
    let ports := BitVec.ofNat 12 (fieldAt fs 3) &&& ~~~trunk &&& ~~~(s.otherSlices k Slice.ports)
    refuseIf (ports ≠ 0 && (match old.part with
      | some p => (s.part p).confidential
      | none => false)) .denied
    let s := { s with slices := s.slices.set k ⟨quads, chans, ports, old.part⟩ }
    pure (Ans.ok s (quads.toNat ≠ fieldAt fs 1 || chans.toNat ≠ fieldAt fs 2 || ports.toNat ≠ fieldAt fs 3)
      (encodeFields [(1, k), (8, quads.toNat), (32, chans.toNat), (2, ports.toNat)]))) s

/-! ## Core memory splits (R73, R74) -/

/-- L1_SIZE as Table 3-3 rounds it. -/
def l1Size (v : Nat) : Nat := if v < 128 then 64 else if v < 192 then 128 else if v < 256 then 192 else 256

/-- QUAD_SET_L1: the setting of each quad; cores that hold no block take it at once. -/
def execQuadSetL1 (r : Req) (s : State) : Out :=
  serve r 0x4205 [8, 2] (pfOnly r) (fun fs s =>
    let quads := BitVec.ofNat 40 (fieldAt fs 0) &&& s.fuses.quads
    let v := l1Size (fieldAt fs 1)
    let s := { s with quadL1 := (bitsOf 40 quads.toNat).foldl (fun t q => t.put 64 q v) s.quadL1 }
    let s := ((List.range 160).filter (fun c => quads.getLsbD (c / 4))).foldl State.coreIdle s
    pure (Ans.ok s (quads.toNat ≠ fieldAt fs 0 || v ≠ fieldAt fs 1))) s

/-! ## The shared read-only region (R318 to R321, Table 16-6) -/

/-- The sets of a copy of the region, in order. -/
def State.sharedSets (s : State) (copy : Nat) : List IntSet :=
  s.sets.vals.filter (fun e => e.owner = .shared && e.copy = copy)

/-- The channels that a new region may take: UNBOUND and listed in no slice. -/
def State.spareChans (s : State) (half : Nat) : List Nat :=
  let taken := s.otherSlices 64 Slice.chans
  (List.range 256).filter (fun c => halfOfChan c = half && (s.chan c).state = .unbound && !(taken.getLsbD c))

/-- The sets that a copy of the region would have, with their rows: of `n` channels of each half of a replicated region, or of the first `n`
channels of the device. -/
def State.sharedPlan (s : State) (half : Bool) (n : Nat) : List (Nat × List Nat × Nat) :=
  if half then
    let a := pieces 16 8 ((s.spareChans 0).take n)
    let b := pieces 16 8 ((s.spareChans 1).take n)
    ((a.zip b).map (fun p =>
      let rows := min (s.rowsFor p.1) (s.rowsFor p.2)
      [(0, p.1, rows), (1, p.2, rows)])).flatten
  else (setGroups false ((s.spareChans 0 ++ s.spareChans 1).take n)).map (fun g => (0, g, s.rowsFor g))

/-- The bytes of copy 0 of a plan. -/
def planBytes (plan : List (Nat × List Nat × Nat)) : Nat :=
  sumOf (fun p => p.2.1.length * p.2.2 * 2048) (plan.filter (fun p => p.1 = 0))

/-- The first `n` bytes of sets in order, as pieces of a copy. -/
def takeParts (copy : Nat) : Nat → List IntSet → List SharedPart
  | _, [] => []
  | n, e :: t => if n = 0 then [] else ⟨copy, e.base, min n e.size⟩ :: takeParts copy (n - e.size) t

/-- SHARED_CREATE: the region takes as few of the lowest-numbered spare channels as hold it. -/
def execSharedCreate (r : Req) (s : State) : Out :=
  serve r 0x4203 [8, 1] (pfOnly r) (fun fs s => do
    refuseIf s.mm.shared.isSome .notInMode
    let half := fieldAt fs 1 = 1
    let most := if half then min (s.spareChans 0).length (s.spareChans 1).length
      else (s.spareChans 0).length + (s.spareChans 1).length
    let want := roundUp (fieldAt fs 0) 2097152
    let len := min want (planBytes (s.sharedPlan half most))
    let n := ((List.range (most + 1)).find? (fun n => len ≤ planBytes (s.sharedPlan half n))).getD most
    let s := (s.sharedPlan half n).foldl (fun s p => s.addSet .shared p.1 p.2.1 p.2.2) s
    let s := (s.sets.vals.filter (fun e => e.owner = .shared)).foldl (fun s e => s.scrub e.covers) s
    let parts := (if half then [0, 1] else [0]).map (fun c => takeParts c len (s.sharedSets c))
    let s := { s with mm := { s.mm with shared := some ⟨len, half, false, parts.flatten⟩ } }
    pure (Ans.ok s (len ≠ fieldAt fs 0 || 1 < fieldAt fs 1))) s

/-- Whether a device line lies in the shared region. -/
def State.isShared (s : State) (line : Nat) : Bool := match s.setOfLine line with
  | some (_, e) => e.owner = .shared
  | none => false

/-- SHARED_DESTROY: refused while a partition maps the region; copies held outside are recalled first. -/
def execSharedDestroy (r : Req) (s : State) : Out :=
  serve r 0x4204 [] (pfOnly r) (fun _ s => do
    let mapped := s.parts.any (fun _ p => p.pages.any (fun _ g => match g.backing with
      | .shared _ => true
      | _ => false))
    refuseIf (s.mm.shared.isNone || mapped) .notInMode
    match s.recall s.isShared with
    | (false, s) => pure { Ans.ok s with later := true }
    | (true, s) =>
      let s := (s.sets.rows.filter (fun e => e.2.owner = .shared)).foldl (fun s e => s.removeSet e.1 e.2) s
      pure (Ans.ok { s with mm := { s.mm with shared := none } })) s

/-- The tiles of a byte range of the region. -/
def sharedTiles (off len : Nat) : List Nat :=
  (List.range (if len = 0 then 0 else (off + len + 2047) / 2048 - off / 2048)).map (fun k => off / 2048 + k)

/-- The copies of the region. -/
def SharedRegion.copies (g : SharedRegion) : List Nat := if g.half then [0, 1] else [0]

/-- Tiles of the region given, in every copy, the bytes that the source returned; a region whose every POISON tile is rewritten is QUARANTINED
no longer (R319, R321). -/
def State.loadShared (s : State) (g : SharedRegion) (ts : List Nat) (host : List Byte) : State :=
  let s := ts.foldl (fun s t =>
    let data := (List.range 16).map (fun k => BitVec.ofNat 1024 (numAt host ((t - ts.headD 0) * 2048 + 128 * k) 128))
    g.copies.foldl (fun s c => match s.sharedDpa c (t * 2048) with
      | some d => s.putWhole (s.forward (d / 128)) data
      | none => s) s) s
  let bad := s.tss.any (fun k e => e.state = .poison
    && s.sets.any (fun _ e => e.owner = .shared && e.covers (k / 2 ^ 20) (k % 2 ^ 20)))
  { s with mm := { s.mm with shared := some { g with quarantined := g.quarantined && bad } } }

/-- The device physical address that a host physical address of the decoder's range names (R466). -/
def State.windowDpa (s : State) (hpa : Nat) : Option Nat :=
  match s.host.decoder with
  | none => none
  | some (base, _) => (s.host.window.get? ((hpa - base) / 2097152)).map (fun d => d + (hpa - base) % 2097152)

/-- Whether a source lies in device memory: in the range of host physical addresses that the decoder claims (log 113). -/
def State.inWindow (s : State) (a : Nat) : Bool := s.host.decoder.any (fun d => d.1 ≤ a && a < d.1 + d.2)

/-- A source moved down so that it covers a length: within the decoder's range, or within 64-bit addresses. -/
def State.coverSource (s : State) (a len : Nat) : Nat :=
  match s.host.decoder with
  | some (base, size) => if s.inWindow a then max base (min a (base + size - len)) else min a (2 ^ 64 - len)
  | none => min a (2 ^ 64 - len)

/-- The bytes of device memory at a source; an unmapped frame reads as ones (R467). -/
def State.windowBytes (s : State) (a len : Nat) : List Byte :=
  (List.range len).map (fun k => match s.windowDpa (a + k) with
    | some d => BitVec.ofNat 8 (lineNum (s.devLine (s.forward (d / 128))) (d % 128) 1)
    | none => 0xFF)

/-- SHARED_LOAD: each tile of the range becomes the bytes of the source, once no copy of it is left outside and no tile of it is being moved
(R319, R380); `host` is what host memory returned. -/
def execSharedLoad (r : Req) (host : List Byte) (s : State) : Out :=
  serve r 0x8705 [8, 8, 8] (pfOnly r) (fun fs s =>
    match s.mm.shared with
    | none => .error .notInMode
    | some g =>
      let off := min (fieldAt fs 0) g.length
      let len := min (fieldAt fs 1) (g.length - off)
      let ts := sharedTiles off len
      let src := s.coverSource (fieldAt fs 2) (ts.length * 2048)
      let lines := (g.copies.map (fun c => ts.filterMap (fun t => (s.sharedDpa c (t * 2048)).map (fun d => s.forward (d / 128))))).flatten
      if lines.any s.tileMoving then pure { Ans.ok s with later := true }
      else match s.recall (fun n => lines.contains (n / 16 * 16)) with
      | (false, s) => pure { Ans.ok s with later := true }
      | (true, s) =>
        let bytes := if s.inWindow src then s.windowBytes src (ts.length * 2048) else host
        pure (Ans.ok (s.loadShared g ts bytes)
          (off ≠ fieldAt fs 0 || len ≠ fieldAt fs 1 || off % 2048 ≠ 0 || (off + len) % 2048 ≠ 0 || src ≠ fieldAt fs 2))) s

/-! ## Virtual ranges (Table 8-4) -/

/-- The cache lines that pages of a partition map in a virtual range, as ranges: whether of host memory, first line, count. -/
def State.rangeLines (s : State) (p base len : Nat) : List (Bool × Nat × Nat) :=
  (s.part p).pages.rows.filterMap (fun r =>
    let va := r.1 * 65536
    let a := max va base
    let b := min (va + r.2.bytes) (base + len)
    if b ≤ a then none
    else match r.2.backing with
      | .dev d => some (false, (d + (a - va)) / 128, (b - a) / 128)
      | .shared d => some (false, (d + (a - va)) / 128, (b - a) / 128)
      | .host h => some (true, (h + (a - va)) / 128, (b - a) / 128)
      | .peer _ _ _ => none)

/-- Whether a line lies in such ranges. -/
def inLines (l : List (Bool × Nat × Nat)) (host : Bool) (n : Nat) : Bool :=
  l.any (fun x => x.1 = host && x.2.1 ≤ n && n < x.2.1 + x.2.2)

/-- BASE and LENGTH of an LLC command, widened to tiles and clamped to the window; LENGTH 0 means all of the partition. -/
def llcRange (base len : Nat) : Nat × Nat × Bool :=
  if len = 0 then (0, windowEnd, false)
  else
    let a := min base (windowEnd - 1) / 2048 * 2048
    let b := max (a + 2048) (min (roundUp (base + len) 2048) windowEnd)
    (a, b - a, a ≠ base || b ≠ base + len)

/-- A partition that a command names exists; the field's rule is a fault, so it is never clamped (R482). -/
def namesPart (r : Req) (k : Nat) : State → List Nat → Bool :=
  fun s fs => s.permits r.fn false && s.partExists (fieldAt fs k)

/-- LLC_SET_KEEP_QUOTA. -/
def execLlcSetKeepQuota (r : Req) (s : State) : Out :=
  serve r 0x4600 [1, 1] (namesPart r 0) (fun fs s =>
    let p := fieldAt fs 0
    let s := s.setPart p { s.part p with keepQuota := min (fieldAt fs 1) 12 }
    pure (Ans.ok s (12 < fieldAt fs 1))) s

/-- LLC_KEEP_RELEASE: pins recorded to the partition are released in the range (R262, R263). -/
def execLlcKeepRelease (r : Req) (s : State) : Out :=
  serve r 0x8601 [1, 8, 8] (namesPart r 0) (fun fs s =>
    let p := fieldAt fs 0
    let w := llcRange (fieldAt fs 1) (fieldAt fs 2)
    let ls := s.rangeLines p w.1 w.2.1
    let all := fieldAt fs 2 = 0
    let s := { s with llc := s.llc.mapVal (fun _ (e : LlcLine) =>
      if e.keep = some p && (all || inLines ls e.host e.line) then { e with keep := none } else e) }
    pure (Ans.ok s w.2.2)) s

/-- One step of a flush of lines: outside copies recalled, and lines written back and invalidated as far as the queues have room (R278);
true once nothing of the range is left to write. -/
def State.flush (s : State) (p : Bool → Nat → Bool) : Bool × State :=
  match s.recall (p false) with
  | (false, s) => (false, s)
  | (true, s) =>
    let ls := s.llc.rows.filter (fun r => p r.2.host r.2.line)
    let s := ls.foldl (fun s r =>
      let e := r.2
      let room := e.dirty = 0 || e.host || (match s.linePlace e.line with
        | some (ch, _, k) => s.mcRoom (pseudoOf ch k) true
        | none => true)
      if room && !s.linePending ⟨e.host, e.line⟩ then s.llcEvict r.1 e false else s) s
    let left := s.llc.any (fun _ e => p e.host e.line)
    let queued := s.pseudo.any (fun _ q => q.entries.any (fun e => e.kind = .writeBack && p false e.dpaLine))
    (!left && !queued, s)

/-- LLC_FLUSH. -/
def execLlcFlush (r : Req) (s : State) : Out :=
  serve r 0x8602 [1, 8, 8] (namesPart r 0) (fun fs s =>
    let p := fieldAt fs 0
    let w := llcRange (fieldAt fs 1) (fieldAt fs 2)
    let ls := s.rangeLines p w.1 w.2.1
    let f := s.flush (inLines ls)
    pure { Ans.ok f.2 w.2.2 with later := !f.1 }) s

/-! ## Memory commands (Table 9-5) -/

/-- MEM_SET_SPENT_POLICY. -/
def execMemSetSpentPolicy (r : Req) (s : State) : Out :=
  serve r 0x4700 [1, 1] (namesPart r 0) (fun fs s =>
    let p := fieldAt fs 0
    let s := s.setPart p { s.part p with spentFlag := fieldAt fs 1 = 1 }
    pure (Ans.ok s (1 < fieldAt fs 1))) s

/-- A TSS entry's 64 bits (Table 9-1); the CRC of a tile in ZERO, SPENT or POISON is a free value (log 4). -/
def Tss.word (e : Tss) (free : DWord) : Nat :=
  let crc := if e.state = .zero || e.state = .spent || e.state = .poison then free.toNat % 2 ^ 32 else e.crc.toNat
  crc + e.state.code * 2 ^ 32 + min e.openCount 255 * 2 ^ 36

/-- MEM_TILE_STATE (R306). -/
def execMemTileState (r : Req) (s : State) : Out :=
  serve r 0x0701 [1, 8] (fun s _ => s.permits r.fn true) (fun fs s =>
    let p := if r.fn = 0 then partArg (fieldAt fs 0) else s.vfPart r.fn
    let va := min (fieldAt fs 1) (windowEnd - 1)
    let f := s.takeFree
    let hidden := (s.part p).confidential && r.fn = 0
    let w := match s.locate p va with
      | some (.dev n, _) => match s.lineTile (s.forward n) with
        | some t => (s.tssAt t).word f.1
        | none => 0
      | _ => 0
    pure (Ans.ok f.2 ((r.fn = 0 && 15 < fieldAt fs 0) || va ≠ fieldAt fs 1) (bytesOf 8 (if hidden then 0 else w)))) s

/-- The code of a channel state (Table 16-14). -/
def ChanState.code : ChanState → Nat
  | .unbound => 0 | .inService => 1 | .failing => 2 | .migrating => 3 | .mappedOut => 4

/-- The code of an owner (Table 16-14). -/
def Owner.code : Owner → Nat
  | .part p => p | .shared => 0x10 | .free => 0xFF

/-- MEM_CHANNEL_STATUS (Table 16-14). -/
def execMemChannelStatus (r : Req) (s : State) : Out :=
  serve r 0x0702 [1, 1] (pfOnly r) (fun fs s =>
    let k := fieldAt fs 0
    let c := s.chan k
    let set := ((s.sets.find (fun _ e => e.chans.contains k)).map (·.1)).getD 0xFF
    let image := [c.state.code, s.temps.stackLevel.get 0 (k / 16), signedByte (s.temps.stack.get 0 (k / 16)), c.owner.code, set].map
        (BitVec.ofNat 8) ++ List.replicate 3 0
      ++ bytesOf 4 c.ceTotal ++ bytesOf 4 c.ceHour ++ bytesOf 4 c.ueTotal ++ bytesOf 4 c.odecc
      ++ [BitVec.ofNat 8 (min c.ueRows.length 255), BitVec.ofNat 8 c.softPpr] ++ List.replicate 6 0
      ++ [BitVec.ofNat 8 c.trigger] ++ List.replicate 7 0
    pageAns s r.fn image (fieldAt fs 1) false) s

/-- A share that returns to its own channel: the rows that held it in the half's channels are given back, highest channels first (log
30). -/
def State.reserveBack (s : State) (half : Nat) : State :=
  let hs := ((List.range 256).filter (fun c => halfOfChan c = half && (s.chan c).reserved ≠ 0)).reverse
  (hs.foldl (fun (acc : Nat × State) c =>
    let n := min acc.1 (acc.2.chan c).reserved
    (acc.1 - n, { acc.2 with chans := acc.2.chans.upd Chan.init c (fun v => { v with reserved := v.reserved - n }) })) (6144, s)).2

/-- MEM_CHANNEL_ADMIT (Table 9-5a). -/
def execMemChannelAdmit (r : Req) (s : State) : Out :=
  serve r 0x4704 [1] (pfOnly r) (fun fs s => do
    let k := fieldAt fs 0
    let c := s.chan k
    refuseIf (c.state ≠ .mappedOut || !c.passed) .notInMode
    let s := s.reserveBack (halfOfChan k)
    pure (Ans.ok { s with chans := s.chans.put Chan.init k { c with state := .unbound, owner := .free } })) s

/-- MEM_SET_MODE: in effect from the next start (R324). -/
def execMemSetMode (r : Req) (s : State) : Out :=
  serve r 0x4706 [1] (pfOnly r) (fun fs s =>
    pure (Ans.ok { s with flash := { s.flash with memMode := if fieldAt fs 0 = 1 then 1 else 0 } } (1 < fieldAt fs 0))) s

/-! ## Repair commands (R333, Table 9-6) -/

/-- Goes on when a channel may be repaired: UNBOUND or MAPPED_OUT, in ACTIVE or IDLE, or in minimal mode. -/
def State.repairOk (s : State) (ch : Nat) : Bool :=
  ((s.chan ch).state = .unbound || (s.chan ch).state = .mappedOut)
  && (s.boot.minimal || s.power.state = .active || s.power.state = .idle)

/-- An IEEE 1500 session opened on a stack. -/
def State.openSession (s : State) (stack : Nat) : State := { s with mm := { s.mm with session := s.mm.session.put false stack true } }

/-- The session on a stack closed. -/
def State.closeSession (s : State) (stack : Nat) : State := { s with mm := { s.mm with session := s.mm.session.put false stack false } }

/-- A command that works through a stack's test port: its session is opened first, and closed as the command answers (R333). -/
def State.inSession (s : State) (stack : Nat) (body : State → Serve) : Serve :=
  if s.mm.session.get false stack then body (s.closeSession stack) else pure { Ans.ok (s.openSession stack) with later := true }

/-- Whether a repair address is in range: pseudo-channel, bank and row (Table 9-6, log 112). -/
def repairAddr (fs : List Nat) : Bool := fieldAt fs 1 ≤ 1 && Config.rowExists (fieldAt fs 2) (fieldAt fs 3)

/-- A repair address as one number. -/
def repairRow (fs : List Nat) : Nat := fieldAt fs 3 + 2 ^ 16 * (fieldAt fs 2 + 256 * fieldAt fs 1)

/-- A repair of a row: soft, or hard, whose answer is the stack's remaining repair resources, a free value. -/
def repair (r : Req) (code : Nat) (soft : Bool) (s : State) : Out :=
  serve r code [1, 1, 1, 2] (pfOnly r) (fun fs s => do
    let ch := fieldAt fs 0
    refuseIf (!repairAddr fs) .badLength
    refuseIf (!s.repairOk ch) .notInMode
    s.inSession (ch / 16) (fun s =>
      if soft then
        pure (Ans.ok { s with
          chans := s.chans.upd Chan.init ch (fun c => { c with softPpr := min (c.softPpr + 1) 255 })
          flash := { s.flash with repairs := s.flash.repairs ++ [⟨ch / 16, ch % 16, repairRow fs⟩] } })
      else
        let f := s.takeFree
        pure (Ans.ok { f.2 with mm := { f.2.mm with hardPpr := f.2.mm.hardPpr ++ [⟨ch / 16, ch % 16, repairRow fs⟩] } } false
          (bytesOf 1 (f.1.toNat % 256))))) s

/-- HBM_PPR_SOFT. -/
def execHbmPprSoft (r : Req) (s : State) : Out := repair r 0x4800 true s
/-- HBM_PPR_HARD. -/
def execHbmPprHard (r : Req) (s : State) : Out := repair r 0x4801 false s

/-- HBM_LANE_MAP_READ. -/
def execHbmLaneMapRead (r : Req) (s : State) : Out :=
  serve r 0x0802 [1, 1] (pfOnly r) (fun fs s => do
    let k := min (fieldAt fs 0) 15
    refuseIf (s.power.state = .retain) .notInMode
    s.inSession k (fun s => pageAns s r.fn (bytesOf 8 (s.mm.laneMap.get 0 k)) (fieldAt fs 1) (15 < fieldAt fs 0))) s

/-- HBM_LANE_MAP_WRITE. -/
def execHbmLaneMapWrite (r : Req) (s : State) : Out :=
  serve r 0x4803 [1, 8] (pfOnly r) (fun fs s => do
    let k := fieldAt fs 0
    refuseIf (15 < k || !Config.laneMapFits (fieldAt fs 1)) .badLength
    refuseIf (!((List.range 16).any (fun j => s.repairOk (16 * k + j)))) .notInMode
    s.inSession k (fun s => pure (Ans.ok { s with mm := { s.mm with laneMap := s.mm.laneMap.put 0 k (fieldAt fs 1) } }))) s

/-- HBM_ROW_TEST: a pattern written over a row and read back; the number of failing bits is a free value, at most the 8,192 bits of the row's
DRAM page. What the row held is lost, but which channel row that is the spec does not say (R293). -/
def execHbmRowTest (r : Req) (s : State) : Out :=
  serve r 0x4804 [1, 1, 1, 2, 8] (pfOnly r) (fun fs s => do
    refuseIf (!repairAddr fs) .badLength
    refuseIf (!s.repairOk (fieldAt fs 0)) .notInMode
    s.inSession (fieldAt fs 0 / 16) (fun s =>
      let f := s.takeFree
      pure (Ans.ok f.2 false (bytesOf 2 (f.1.toNat % 8193))))) s

end Sys2Proof.Machine
end

