-- ==== Sys2Proof/Machine/Migrate.lean ====
section
/-! DEFINITION. Migrations: the move of one tile, sets rebuilt without a channel, pages moved to new frames and spilled pages recalled (R295, R327
to R329, R378 to R382, R399). -/

namespace Sys2Proof.Machine

/-! ## One tile (Table 11-4) -/

/-- A tile copied to another place and, where it is to lie at another DPA, under the key and tweak of that place (R300): its lines, its TSS
state and its poisoned sectors; a tile without lines moves its state alone. Places are DPA line, channel and row. -/
def State.copyRow (s : State) (src dst : TileAt) (lines : Bool) : State :=
  let bad := if lines then (List.range 64).filter (fun j => (s.badSectors src.ch src.row (j / 4)).getLsbD (j % 4)) else []
  let s := if lines then
      (List.range 16).foldl (fun s k =>
        s.memWrite (dst.line0 + k) dst.ch dst.row k (s.memLine (src.line0 + k) src.ch src.row k) allBytes) s
    else s
  { s with
    tss := s.tss.put Tss.init dst.key (s.tssAt src.key)
    poisoned := bad.foldl (fun t j => t.put false (dst.key * 64 + j) true) s.poisoned }

/-- The copy engine's buffer emptied. -/
def State.clearRow (s : State) (t : TileAt) : State :=
  let s := (List.range 16).foldl (fun s k => s.memWrite (t.line0 + k) t.ch t.row k 0 allBytes) s
  { s with tss := s.tss.erase t.key }

/-- A tile's cached lines written back and invalidated, pins released (Table 11-4 step 2). -/
def State.flushTile (s : State) (t : TileAt) : State :=
  t.lines.foldl (fun s n => match s.llcFind ⟨false, n⟩ with
    | some (key, e) =>
      let s := if e.dirty = 0 then s else (s.memWrite n t.ch t.row (n % 16) e.data (maskOfSectors e.dirty)).countEvent e.owner 4
      s.llcEvict key e true
    | none => s) s

/-- Steps 1 and 2 of a move: `none` while the tile waits; `false` while snoops are awaited. -/
def State.moveReady (s : State) (t : TileAt) : Option (Bool × State) :=
  if (s.tssAt t.key).state = .opened || t.lines.any (fun l => s.lineBusy 0 l) then none
  else s.accessAll t.lines .write none false

/-- A VALID source that yields an uncorrectable sector or fails its CRC (R329): repaired in a half-replicated region, MIRRORED_STALE in a
mirrored one, POISON otherwise; the tile is logged. -/
def State.leaveCheck (s : State) (t : TileAt) : State :=
  if (s.tssAt t.key).state ≠ .valid then s
  else
    let s := t.lines.foldl (fun s n => s.discoverBad n 0xF) s
    let s := if (s.tssAt t.key).state = .valid && crc32c (s.tileBytes t) ≠ (s.tssAt t.key).crc then
        if s.mirrored t.line0 then (s.tileStale t).rowEvent 0x205 t.ch t.row else s.corruptTile t
      else s
    if (s.tssAt t.key).state = .poison && s.repairable t.line0 then
      let r := s.repair t.line0
      if r.2 then r.1.rowEvent 0x202 t.ch t.row
      else { r.1 with mm := { r.1.mm with shared := r.1.mm.shared.map (fun g => { g with quarantined := true }) } }
    else s

/-- Whether a tile moves with its lines: ZERO and SPENT tiles move without them. -/
def State.carriesLines (s : State) (t : TileAt) : Bool :=
  (s.tssAt t.key).state ≠ .zero && (s.tssAt t.key).state ≠ .spent

/-- Steps 1 to 3 up to the source: the tile ready to leave, its lines in memory; otherwise the state in which it waits. It waits too for a
stack that admits no traffic (R330). -/
def State.lift (s : State) (line : Nat) : Except State (State × TileAt) :=
  match s.tileOfLine line with
  | none => .error s
  | some t => if !s.memOpen t.ch then .error s else match s.moveReady t with
    | none => .error s
    | some (false, s) => .error s
    | some (true, s) => .ok ((s.leaveCheck t).flushTile t, t)

/-- Where a line goes when ranges of lines move, each given by its first line, its new first line and its length. -/
def movedLine (l : List (Nat × Nat × Nat)) (m : Nat) : Option Nat :=
  (l.find? (fun x => x.1 ≤ m && m < x.1 + x.2.2)).map (fun x => x.2.1 + (m - x.1))

/-- The homes of requests, of spent hints to come and of semaphore waiters moved with their lines (Table 11-4 step 5). -/
def State.rehome (s : State) (l : List (Nat × Nat × Nat)) : State :=
  let f := fun (h : Home) => match h with
    | .dev m => Home.dev ((movedLine l m).getD m)
    | _ => h
  let dest := fun (k : Nat) => if k / 128 % 3 = 0 then (movedLine l (k / 384)).map (fun n => 384 * n + k % 384) else none
  let kept := s.waiters.keep (fun k _ => (dest k).isNone)
  { s with
    reqs := s.reqs.mapVal (fun _ (q : MemReq) => { q with home := f q.home })
    spents := s.spents.mapVal (fun _ (e : SpentLoad) => { e with tiles := e.tiles.map (fun t => (t.1, f t.2)) })
    waiters := s.waiters.rows.foldl (fun t r => match dest r.1 with
      | some k => t.put [] k r.2
      | none => t) kept }

/-! ## Sets (Table 9-5b) -/

/-- The tiles that a shadow entry covers. -/
def Shadow.tiles (h : Shadow) : Nat := h.chans.length * h.rows

/-- A set's record written. -/
def State.setSet (s : State) (k : Nat) (e : IntSet) : State := { s with sets := s.sets.set k e }

/-- Table 11-4 steps 1 to 3 for a tile of a set that has a shadow entry: it goes to the copy engine's buffer. -/
def State.moveInSet (s : State) (k : Nat) (e : IntSet) (h : Shadow) (t : Nat) : State :=
  if h.tiles ≤ t || h.moved.contains t || h.held.contains t then s
  else match s.lift ((e.base + t * 2048) / 128) with
    | .error s => s
    | .ok (s, at_) =>
      let b := bufferPlace h.leaving t
      let s := s.copyRow at_ ⟨at_.line0, b.1, b.2⟩ (s.carriesLines at_)
      s.setSet k { e with shadow := some { h with held := t :: h.held } }

/-- A channel taken out of every slice record. -/
def State.dropChan (s : State) (ch : Nat) : State :=
  { s with
    slices := s.slices.mapVal (fun _ (sl : Slice) => { sl with chans := sl.chans &&& ~~~(BitVec.ofNat 256 (1 <<< ch)) })
    pools := s.pools.mapVal (fun _ (p : Pool) =>
      if p.onTwin then p else { p with chans := p.chans &&& ~~~(BitVec.ofNat 256 (1 <<< ch)) })
    mm := { s.mm with unbind := s.mm.unbind.filter (fun c => c ≠ ch) } }

/-- The rows of a channel's reserve that are to be re-placed: its own share, and the units of other shares that it holds (R295). -/
def Chan.share (c : Chan) : Nat := 6144 + c.reserved

/-- The rows that a set gives up in each of its channels for `rows` rows of a half, so that it still covers whole 2 MiB frames (R295 item
3, R297). -/
def IntSet.cut (e : IntSet) (half rows : Nat) : Nat :=
  let n := max (e.chans.filter (fun c => halfOfChan c = half)).length 1
  let step := 1024 / Nat.gcd e.chans.length 1024
  e.rows - (e.rows - (rows + n - 1) / n) / step * step

/-- The pages of any partition in a range of DPAs, by partition, key, DPA and bytes; partitions 16 and 17 stand for the 2 MiB frames of the
shared region's copies. -/
def State.pagesIn (s : State) (lo hi : Nat) : List (Nat × Nat × Nat × Nat) :=
  let pages := (s.parts.rows.map (fun r => r.2.pages.rows.filterMap (fun g => match g.2.backing with
    | .dev d => if d < hi && lo < d + g.2.bytes then some (r.1, g.1, d, g.2.bytes) else none
    | _ => none))).flatten
  let frames := ((s.mm.shared.map (·.parts)).getD []).map (fun e =>
    ((List.range (e.size / 2097152)).map (fun k => (16 + e.copy, 0, e.base + k * 2097152, 2097152))).filter (fun g =>
      g.2.2.1 < hi && lo < g.2.2.1 + 2097152))
  pages ++ frames.flatten

/-- Whether a move or recall in progress brings a page into a range of DPAs. -/
def State.coming (s : State) (lo hi : Nat) : Bool :=
  s.mm.migs.any (fun m => match m with
    | .page _ _ _ dst _ _ _ => lo ≤ dst && dst < hi
    | .recall _ _ dst _ _ => lo ≤ dst && dst < hi
    | _ => false)

/-- The sets with channels of a half that may give their top rows to a channel's share, the lowest owner's first (R295 item 3); a set of any
channels has more rows than a share. -/
def State.donors (s : State) (ch : Nat) : List (Nat × IntSet) :=
  let es := s.sets.rows.filter (fun r =>
    r.2.shadow.isNone && !r.2.chans.contains ch && r.2.chans.any (fun c => halfOfChan c = halfOfChan ch))
  sortOn (fun (r : Nat × IntSet) => match r.2.owner with
    | .part p => p
    | _ => 16) es

/-- The UNBOUND channels that may take a channel's share, highest number first (R295 item 2). -/
def State.takers (s : State) (ch : Nat) : List Nat := (s.unboundOf (halfOfChan ch)).filter (fun c => c ≠ ch)

/-- The rows of a channel's share for which UNBOUND channels have no room. -/
def State.shareLeft (s : State) (ch : Nat) : Nat := (s.putUnits (s.takers ch) (s.chan ch).share).1

/-- The DPAs at the top of a donor that it gives up for a channel's share. -/
def State.donorTop (s : State) (ch : Nat) (e : IntSet) : Nat × Nat :=
  (e.base + e.size - e.chans.length * e.cut (halfOfChan ch) (s.shareLeft ch) * 2048, e.base + e.size)

/-- Whether nothing is mapped or moves into a range of DPAs. -/
def State.rangeFree (s : State) (r : Nat × Nat) : Bool := (s.pagesIn r.1 r.2).isEmpty && !s.coming r.1 r.2

/-- Rows of the reserve put on channels in turn, at most `given` on each. -/
def State.giveRows (s : State) (chans : List Nat) (given rows : Nat) : State :=
  (chans.foldl (fun (acc : Nat × State) c =>
    let n := min acc.1 given
    (acc.1 - n, { acc.2 with chans := acc.2.chans.upd Chan.init c (fun v => { v with reserved := v.reserved + n }) })) (rows, s)).2

/-- A channel's share re-placed outside its set: on UNBOUND channels of its half, then at the top of a donor with nothing mapped there. -/
def State.placeShare (s : State) (ch : Nat) : State :=
  let left := s.shareLeft ch
  let d := if left = 0 then none else (s.donors ch).find? (fun d => s.rangeFree (s.donorTop ch d.2))
  let r := s.putUnits (s.takers ch) (s.chan ch).share
  match d with
  | none => r.2
  | some (k, e) =>
    let rows := e.rows - e.cut (halfOfChan ch) left
    let s := r.2.scrub (fun c row => e.chans.contains c && e.row0 + rows ≤ row && row < e.row0 + e.rows)
    (s.setSet k { e with rows := rows }).giveRows (e.chans.filter (fun c => halfOfChan c = halfOfChan ch)).reverse (e.rows - rows) left

/-- A channel's share put in the highest rows that its rebuilt set gave up, `given` in each of the channels that remain, those of its half
first (R295 item 1); what they do not hold is placed outside the set. -/
def State.shareInSet (s : State) (ch given : Nat) (chans : List Nat) : State :=
  let h := fun (c : Nat) => halfOfChan c = halfOfChan ch
  let own := (chans.filter (fun c => h c)).reverse ++ (chans.filter (fun c => !h c)).reverse
  if (s.chan ch).share ≤ own.length * given then s.giveRows own given (s.chan ch).share else s.placeShare ch

/-- A channel that has left its set, its share re-placed where it is mapped out: its rows are scrubbed, and it is UNBOUND when it was removed
under R378, otherwise MAPPED_OUT. -/
def State.chanLeft (s : State) (ch : Nat) : State :=
  let unbind := s.mm.unbind.contains ch
  let s := (s.dropChan ch).scrub (fun c _ => c = ch)
  { s with chans := s.chans.upd Chan.init ch (fun c =>
    { c with
      state := if unbind then .unbound else .mappedOut
      owner := .free
      passed := c.passed && unbind
      reserved := if unbind then c.reserved else 0 }) }

/-- Every tile of a set has moved: the old entry is retired (Table 9-5b step 5). -/
def State.retire (s : State) (k : Nat) (e : IntSet) (h : Shadow) : State :=
  let s := s.setSet k { e with chans := h.chans, row0 := h.row0, rows := h.rows, shadow := none }
  let s := s.scrub (fun c row => h.chans.contains c && e.row0 + h.rows ≤ row && row < e.row0 + e.rows)
  let s := if h.chans.length < e.chans.length && !s.mm.unbind.contains h.leaving then s.shareInSet h.leaving (e.rows - h.rows) h.chans
    else s
  let s := s.chanLeft h.leaving
  { s with mm := { s.mm with migs := s.mm.migs.filter (fun m => match m with
    | .set _ j => j ≠ k
    | _ => true) } }

/-- Table 11-4 step 4 for a tile of a set: the destination takes it from the buffer, once no other tile of the set lies there. -/
def State.commitInSet (s : State) (k : Nat) (e : IntSet) (h : Shadow) (t : Nat) : State :=
  if !h.held.contains t then s
  else
    let dst := setPlace h.chans h.row0 t
    let src := bufferPlace h.leaving t
    let taken := match s.dpaOf dst.1 dst.2 with
      | some d => e.base ≤ d && (d - e.base) / 2048 < h.tiles
      | none => false
    if taken || !s.memOpen dst.1 then s
    else
      let line := (e.base + t * 2048) / 128
      let src : TileAt := ⟨line, src.1, src.2⟩
      let st := (s.tssAt src.key).state
      let s := (s.copyRow src ⟨line, dst.1, dst.2⟩ (st ≠ .zero && st ≠ .spent)).clearRow src
      let h := { h with moved := t :: h.moved, held := h.held.filter (fun x => x ≠ t) }
      if h.moved.length < h.tiles then s.setSet k { e with shadow := some h } else s.retire k e h

/-! ## Pages (R381) -/

/-- A migration replaced by another, or ended. -/
def State.setMig (s : State) (m : Migration) (m' : Option Migration) : State :=
  { s with mm := { s.mm with migs := (s.mm.migs.map (fun x => if x = m then m' else some x)).filterMap id } }

/-- Window frames that showed an old frame show the new one. -/
def State.reframe (s : State) (src dst n : Nat) : State :=
  { s with host := { s.host with window := s.host.window.mapVal (fun _ d => if src ≤ d && d < src + n then dst + (d - src) else d) } }

/-- A page's entry rewritten to a device frame. -/
def State.rebase (s : State) (p key src dst : Nat) : State :=
  let r := s.part p
  match r.pages.get? key with
  | none => s
  | some g => (s.setPart p { r with pages := r.pages.set key { g with backing := .dev dst, spill := false } }).reframe src dst g.bytes

/-- A frame of a piece of the region moved: the piece cut where the frame lies, and the frame's new place between the rest. -/
def SharedPart.move (e : SharedPart) (src dst n : Nat) : List SharedPart :=
  if e.base ≤ src && src + n ≤ e.base + e.size then
    [⟨e.copy, e.base, src - e.base⟩, ⟨e.copy, dst, n⟩, ⟨e.copy, src + n, e.base + e.size - (src + n)⟩].filter (fun x => x.size ≠ 0)
  else [e]

/-- A frame of the shared region moved (R327): the region's pieces, the entries of the pages that map it, and the window. -/
def State.rebaseShared (s : State) (src dst n : Nat) : State :=
  let page := fun (g : Page) => match g.backing with
    | .shared d => if src ≤ d && d < src + n then ({ g with backing := .shared (dst + (d - src)) } : Page) else g
    | _ => g
  let region := fun (g : SharedRegion) => { g with parts := (g.parts.map (fun (e : SharedPart) => e.move src dst n)).flatten }
  { s with
    parts := s.parts.mapVal (fun _ (p : Part) => { p with pages := p.pages.mapVal (fun _ g => page g) })
    mm := { s.mm with shared := s.mm.shared.map region } }.reframe src dst n

/-- Steps 1 to 3 for a tile of a page that moves to a new frame. -/
def State.moveInPage (s : State) (m : Migration) (p key src dst tiles : Nat) (held moved : List Nat) (t : Nat) : State :=
  if tiles ≤ t || moved.contains t || held.contains t then s
  else match s.lift ((src + t * 2048) / 128) with
    | .error s => s
    | .ok (s, _) => s.setMig m (some (.page p key src dst tiles (t :: held) moved))

/-- Step 4 for a tile of a page; after the last the page's entry is rewritten and the old frame scrubbed. -/
def State.commitInPage (s : State) (m : Migration) (p key src dst tiles : Nat) (held moved : List Nat) (t : Nat) : State :=
  if !held.contains t then s
  else match s.tileOfLine ((src + t * 2048) / 128), s.placeOf (dst + t * 2048) with
    | some a, some d =>
    if !s.memOpen a.ch || !s.memOpen d.1 then s
    else
      let s := (s.copyRow a ⟨(dst + t * 2048) / 128, d.1, d.2⟩ (s.carriesLines a)).rehome [((src + t * 2048) / 128, (dst + t * 2048) / 128, 16)]
      let moved := t :: moved
      if moved.length < tiles then s.setMig m (some (.page p key src dst tiles (held.filter (fun x => x ≠ t)) moved))
      else
        let s := (s.setMig m none).rehome [(src / 128, dst / 128, tiles * 16)]
        (s.rebase p key src dst).scrubRange src (tiles * 2048)
    | _, _ => s

/-- A tile of a spilled page brought back from host memory, or from the twin that returned `data` (R387). -/
def State.moveBack (s : State) (m : Migration) (p key dst tiles : Nat) (moved : List Nat) (t : Nat) (data : List (BitVec 1024)) : State :=
  if tiles ≤ t || moved.contains t then s
  else match (s.part p).pages.get? key with
    | none => s.setMig m none
    | some g =>
      let base := match g.backing with
        | .host a => some (Home.host (a / 128))
        | .peer d e o => some (Home.peer d e (o / 128))
        | _ => none
      let lineAt := fun (h : Home) (k : Nat) => match h with
        | .host n => Home.host (n + k)
        | .peer d e n => .peer d e (n + k)
        | h => h
      match base with
      | none => s.setMig m none
      | some h =>
        let busy := s.reqs.any (fun _ q => (List.range 16).any (fun k => q.home == lineAt h (16 * t + k)))
        if busy then s
        else
          let from_ := match h with
            | .host n => (List.range 16).map (fun k => s.hostView (n + 16 * t + k))
            | _ => data
          let s := s.putWhole ((dst + t * 2048) / 128) from_
          let moved := t :: moved
          if moved.length < tiles then s.setMig m (some (.recall p key dst tiles moved))
          else (s.setMig m none).rebase p key (2 ^ 64) dst

/-! ## A channel leaves (R325 to R328, R378, R399) -/

/-- The channels and rows of a set without a channel: rows fewer by the channel and its reserve share when it is mapped out (R327), the same rows
when it is unbound (R378), rounded so that the set covers whole 2 MiB frames (R297). -/
def IntSet.without (e : IntSet) (ch : Nat) (unbind : Bool) : List Nat × Nat :=
  let cs := e.chans.filter (fun c => c ≠ ch)
  let n := cs.length
  if n = 0 then ([], 0)
  else
    let r := if unbind then e.rows else (e.chans.length * e.rows - 1048576) / n
    let step := 1024 / Nat.gcd n 1024
    (cs, r / step * step)

/-- The pool whose own sets hold a set's channels. -/
def State.poolOfSet (s : State) (e : IntSet) : Option (Nat × Pool) :=
  s.pools.find (fun _ p => !p.onTwin && e.chans.all (fun c => p.chans.getLsbD c))

/-- An UNBOUND channel that can stand in for a channel of a set: of the same half, with as many rows, listed in no other owner's
slice. -/
def State.standIn (s : State) (e : IntSet) (ch : Nat) : Option Nat :=
  let mine := match e.owner with
    | .part p => s.chansOf p
    | _ => 0
  let taken := s.otherSlices 64 Slice.chans &&& ~~~mine
  (List.range 256).find? (fun c => halfOfChan c = halfOfChan ch && (s.chan c).state = .unbound && e.rows ≤ (s.chan c).rows && !(taken.getLsbD c))

/-- Whether a page is already being moved. -/
def State.pageMoving (s : State) (g : Nat × Nat × Nat × Nat) : Bool :=
  s.mm.migs.any (fun m => match m with
    | .page q k src _ _ _ _ => q = g.1 && k = g.2.1 && src = g.2.2.1
    | _ => false)

/-- The UNBOUND channels of which a further set for the owner of a set is formed (R327): one of its half, else of the other; one of each half
for a WHOLE_DEVICE partition (R299); only of its half for a copy of a half-replicated region (R318). -/
def State.moreChans (s : State) (e : IntSet) : List Nat :=
  let h := halfOfChan (e.chans.headD 0)
  let both := match s.spareChans 0, s.spareChans 1 with
    | a :: _, b :: _ => [a, b]
    | _, _ => []
  match e.owner with
  | .part p => if (s.part p).wholeDevice then both else (s.spareChans h ++ s.spareChans (1 - h)).take 1
  | _ => if s.mm.shared.any (·.half) then (s.spareChans h).take 1 else (s.spareChans h ++ s.spareChans (1 - h)).take 1

/-- A further set for the owner of a set, from UNBOUND channels. -/
def State.moreRoom (s : State) (e : IntSet) : Option State :=
  let cs := s.moreChans e
  if cs = [] then none
  else
    let s := match s.poolOfSet e with
      | some (k, p) =>
        { s with pools := s.pools.set k { p with chans := cs.foldl (fun m c => m ||| BitVec.ofNat 256 (1 <<< c)) p.chans } }
      | none => s
    some (s.addSet e.owner e.copy cs (s.rowsFor cs))

/-- A page of a set given a frame elsewhere and its move accepted: in the pool's, the partition's or the region's other sets, else in channels
that were UNBOUND. -/
def State.relocate (s : State) (e : IntSet) (g : Nat × Nat × Nat × Nat) : Option State :=
  let sets := fun (s : State) => match s.poolOfSet e with
    | some (_, p) => s.sets.vals.filter (fun x => s.takesPages x && x.chans.all (fun c => p.chans.getLsbD c))
    | none => if 16 ≤ g.1 then (s.sharedSets (g.1 - 16)).filter s.takesPages else s.pageSets g.1
  let go := fun (s : State) => (s.frameIn (sets s) g.2.2.2).map (fun d =>
    { s with mm := { s.mm with migs := s.mm.migs ++ [.page g.1 g.2.1 g.2.2.1 d (g.2.2.2 / 2048) [] []] } })
  match go s with
  | some s => some s
  | none => (s.moreRoom e).bind go

/-- Room kept for what a partition holds when its sets lose `loss` bytes (R455). -/
def State.roomFor (s : State) (e : IntSet) (loss : Nat) : Option State :=
  match e.owner, s.poolOfSet e with
  | .part p, none => if loss ≤ s.freeBytes p then some s else s.moreRoom e
  | _, _ => some s

/-- A set's shadow entry programmed: its channel enters MIGRATING (Table 9-5b step 3). -/
def State.shadowed (s : State) (k : Nat) (e : IntSet) (ch : Nat) (chans : List Nat) (rows : Nat) : State :=
  let p := match e.owner with
    | .part p => p
    | _ => 16
  let s := s.setSet k { e with shadow := some ⟨chans, e.row0, rows, [], [], ch⟩ }
  { s with
    chans := s.chans.upd Chan.init ch (fun c => { c with state := .migrating })
    mm := { s.mm with migs := s.mm.migs ++ [.set p k] } }

/-- An UNBOUND channel brought into a channel's place in its slice, its pool and its coded group (R399). -/
def State.bringIn (s : State) (ch new : Nat) : State :=
  let bit := BitVec.ofNat 256 (1 <<< new)
  { s with
    chans := s.chans.upd Chan.init new (fun c => { c with state := .inService, owner := (s.chan ch).owner })
    slices := s.slices.mapVal (fun _ (sl : Slice) => if sl.chans.getLsbD ch then { sl with chans := sl.chans ||| bit } else sl)
    pools := s.pools.mapVal (fun _ (p : Pool) =>
      if !p.onTwin && p.chans.getLsbD ch then
        { p with chans := p.chans ||| bit, groups := p.groups.map (fun (g : List Nat) => g.map (fun c => if c = ch then new else c)) }
      else p) }

/-- A channel that no set holds any more is to leave: it enters MIGRATING with its share re-placed, and leaves in the order of the
migrations (Table 9-5a, R379). -/
def State.leaveSoon (s : State) (ch : Nat) : State :=
  if s.mm.migs.contains (.leave ch) then s
  else
    let s := if s.mm.unbind.contains ch then s else s.placeShare ch
    { s with
      chans := s.chans.upd Chan.init ch (fun c => { c with state := .migrating })
      mm := { s.mm with migs := s.mm.migs ++ [.leave ch] } }

/-- Pages moved away, and what follows once a range of DPAs is free of them; `none` where there is no room. -/
def State.clearRange (s : State) (e : IntSet) (lo hi : Nat) (loss : Nat) (go : State → Option State) : Option State :=
  let pages := s.pagesIn lo hi
  let todo := pages.filter (fun g => !s.pageMoving g)
  if todo ≠ [] then (s.roomFor e loss).bind (fun s => todo.foldlM (fun s g => s.relocate e g) s)
  else if pages ≠ [] || s.coming lo hi then some s
  else go s

/-- What follows once a channel's share has room outside its set: the top of the donor that gives it is cleared first (R295 item 3). -/
def State.withShare (s : State) (ch : Nat) (go : State → Option State) : Option State :=
  if s.mm.unbind.contains ch || s.shareLeft ch = 0 then go s
  else match (s.donors ch).head? with
    | none => go s
    | some (_, d) => s.clearRange d (s.donorTop ch d).1 (s.donorTop ch d).2 ((s.donorTop ch d).2 - (s.donorTop ch d).1) go

/-- A channel that is alone in its set, or that no set took, leaves: its pages are moved, and the set goes with it (R328). A parity channel is
rebuilt onto an UNBOUND one (R399). -/
def State.leaveAlone (s : State) (ch : Nat) (set : Option IntSet) : Option State :=
  match set with
  | some e =>
    let s := if (s.chan ch).state = .migrating then some s
      else (s.clearRange e e.base (e.base + e.size) e.size some).map (fun s =>
        { s with chans := s.chans.upd Chan.init ch (fun c => { c with state := .migrating }) })
    s.bind (fun s => s.clearRange e e.base (e.base + e.size) e.size (fun s => s.withShare ch (fun s => some (s.leaveSoon ch))))
  | none =>
    if s.pools.any (fun _ p => p.groups.any (fun (g : List Nat) => g.contains ch)) then
      (s.standIn ⟨0, [ch], 0, 0, (s.chan ch).owner, 0, none⟩ ch).bind (fun new =>
        s.withShare ch (fun s => some ((s.bringIn ch new).leaveSoon ch)))
    else s.withShare ch (fun s => some (s.leaveSoon ch))

/-- The next thing that happens to a channel that is to leave: the pages of the range that its set gives up are moved first, then the set is
rebuilt without it, or onto an UNBOUND channel in a coded group (R327, R328, R399); `none` where there is no room. -/
def State.leaveStep (s : State) (ch : Nat) : Option State :=
  match s.sets.find (fun _ e => e.chans.contains ch) with
  | none => s.leaveAlone ch none
  | some (k, e) =>
    if e.shadow.isSome then some s
    else if (s.poolOfSet e).any (fun p => p.2.coded) then
      (s.standIn e ch).bind (fun new => s.withShare ch (fun s =>
        let s := if s.mm.unbind.contains ch then s else s.placeShare ch
        some ((s.bringIn ch new).shadowed k e ch (e.chans.map (fun c => if c = ch then new else c)) e.rows)))
    else
      let w := e.without ch (s.mm.unbind.contains ch)
      let size := w.1.length * w.2 * 2048
      if size = 0 then s.leaveAlone ch (some e)
      else s.clearRange e (e.base + size) (e.base + e.size) (e.size - size) (fun s =>
        (s.roomFor e (e.size - size)).map (fun s => s.shadowed k e ch w.1 w.2))

/-- The channels that are to leave and whose set has not been rebuilt. -/
def State.leavers (s : State) : List Nat :=
  (List.range 256).filter (fun c => (s.chan c).state = .failing || ((s.chan c).state = .migrating && !s.mm.migs.contains (.leave c))
    || (s.mm.unbind.contains c && (s.chan c).state = .inService))

/-- Every channel that is to leave takes its next step, where there is room (R327). -/
def State.advanceMigs (s : State) : State := s.leavers.foldl (fun s c => (s.leaveStep c).getD s) s

/-- A record of CHANNEL_NO_SPACE, whose event code the spec does not give (log 4). -/
def State.logNoSpace (s : State) (ch : Nat) : State :=
  let f := s.takeFree
  { f.2 with flash := f.2.flash.append ⟨s.flash.nextSeq, s.boot.starts, s.fw.ms, f.1.toNat % 65536, ch, 0⟩ }

/-- A channel with no tile left leaves in its turn: its set, where it is alone in one, is removed (R328). -/
def State.leaveNow (s : State) (ch : Nat) : State :=
  let s := { s with mm := { s.mm with migs := s.mm.migs.filter (fun m => m != Migration.leave ch) } }
  let s := match s.sets.find (fun _ (e : IntSet) => e.chans = [ch]) with
    | some (k, e) => s.removeSet k e
    | none => s
  (s.chanLeft ch).advanceMigs

/-- A channel FAILING on a trigger: its set takes no new page, and it leaves as soon as there is room (Table 9-5b step 1, R327). -/
def State.failChan (s : State) (ch trigger : Nat) : State :=
  let s := { s with
    chans := s.chans.upd Chan.init ch (fun c => { c with state := .failing, trigger := trigger })
    mm := { s.mm with unbind := s.mm.unbind.filter (fun c => c ≠ ch) } }
  match s.leaveStep ch with
  | some s => s
  | none => s.logNoSpace ch

/-- DEV_SET_MIG_RATE. -/
def execDevSetMigRate (r : Req) (s : State) : Out :=
  serve r 0x430C [2] (pfOnly r) (fun fs s =>
    let v := clampTo 10 400 (fieldAt fs 0)
    pure (Ans.ok { s with mm := { s.mm with migRate := v.1 } } v.2)) s

end Sys2Proof.Machine
end

