-- ==== Sys2Proof/Machine/Pages.lean ====
section
/-! DEFINITION. PAGE_MAP and PAGE_UNMAP (R64, R527, R554, Table 16-6). -/

namespace Sys2Proof.Machine

/-- The 64 KiB units of a page. -/
def pageUnits (large : Bool) : Nat := if large then 32 else 1

/-- Pages of device memory mapped one after another from a key, as far as frames are free (R64): the number mapped. -/
def State.mapFrames (p : Nat) (large rw : Bool) : Nat → Nat → State → Nat × State
  | 0, _, s => (0, s)
  | n + 1, key, s => match s.pageFrame p (pageUnits large * 65536) with
    | none => (0, s)
    | some d =>
      let r := State.mapFrames p large rw n (key + pageUnits large) (s.putPage p key ⟨large, .dev d, rw, false⟩)
      (r.1 + 1, r.2)

/-- A change to a partition's pages backed by host memory counted (R554). -/
def State.hostMapped (s : State) (p : Nat) : State :=
  s.setPart p { s.part p with hostEpoch := ((s.part p).hostEpoch + 1) % 2 ^ 32 }

/-- Whether a partition may change its pages backed by host memory (R554). -/
def Part.hostChanges (p : Part) : Bool := !p.confidential || p.state = .built || p.state = .quiesced

/-- PAGE_MAP. -/
def execPageMap (r : Req) (s : State) : Out :=
  serve r 0x4200 [1, 8, 4, 1, 1, 1, 8] (pfOnly r) (fun fs s => do
    let p := partArg (fieldAt fs 0)
    let large := fieldAt fs 3 = 1
    let u := pageUnits large
    let size := u * 65536
    let back := if 2 < fieldAt fs 4 then 0 else fieldAt fs 4
    let key := min (fieldAt fs 1 / size * u) (windowUnits - u)
    let n := min (fieldAt fs 2) ((windowUnits - key) / u)
    let region := (s.mm.shared.map (·.length)).getD 0
    let target := if back = 1 then min (fieldAt fs 6 / size * size) (region / size * size) else fieldAt fs 6 / size * size
    let n := if back = 1 then min n ((region - target) / size) else n
    let rw := fieldAt fs 5 = 1 && back ≠ 1
    refuseIf ((s.part p).state = .free || (s.part p).mappedAny key (n * u)) .notInMode
    refuseIf (back = 1 && s.mm.shared.isNone) .notInMode
    refuseIf (back = 2 && !(s.part p).hostChanges) .notInMode
    let d : Nat × State :=
      if back = 0 then State.mapFrames p large rw n key s
      else if back = 1 then
        (n, (List.range n).foldl (fun s k => match s.sharedDpa 0 (target + k * size) with
          | some a => s.putPage p (key + k * u) ⟨large, .shared a, false, false⟩
          | none => s) s)
      else (n, ((List.range n).foldl (fun s k =>
        s.putPage p (key + k * u) ⟨large, .host (target + k * size), rw, false⟩) s).hostMapped p)
    pure (Ans.ok d.2 (15 < fieldAt fs 0 || key * 65536 ≠ fieldAt fs 1 || d.1 ≠ fieldAt fs 2 || 1 < fieldAt fs 3 || 2 < fieldAt fs 4
      || (if rw then 1 else 0) ≠ fieldAt fs 5 || (back ≠ 0 && target ≠ fieldAt fs 6)))) s

/-- A page taken out of its partition: its frame is scrubbed, the window shows it no more, and its migration ends (R527, R468). -/
def State.unmapPage (s : State) (p key : Nat) (g : Page) : State :=
  let mine := s.mm.migs.filter (fun m => match m with
    | .page q k _ _ _ _ _ => q = p && k = key
    | .recall q k _ _ _ => q = p && k = key
    | _ => false)
  let s := { s with mm := { s.mm with migs := s.mm.migs.filter (fun m => !mine.contains m) } }
  let s := mine.foldl (fun s m => match m with
    | .page _ _ _ dst tiles _ _ => s.scrubRange dst (tiles * 2048)
    | .recall _ _ dst tiles _ => s.scrubRange dst (tiles * 2048)
    | _ => s) s
  let s := s.dropPage p key
  match g.backing with
  | .dev d =>
    let s := s.scrubRange d g.bytes
    { s with host := { s.host with window := s.host.window.keep (fun _ x => !(x < d + g.bytes && d < x + 2097152)) } }
  | _ => s

/-- Whether a line lies in the frames of pages of a partition, or in frames that they are moving to. -/
def State.inFrames (s : State) (p : Nat) (pages : List (Nat × Page)) (line : Nat) : Bool :=
  pages.any (fun r => match r.2.backing with
    | .dev d => d / 128 ≤ line && line < (d + r.2.bytes) / 128
    | _ => false)
  || s.mm.migs.any (fun m =>
    let at_ := fun (q k dst tiles : Nat) => q = p && pages.any (fun r => r.1 = k) && dst / 128 ≤ line && line < dst / 128 + 16 * tiles
    match m with
    | .page q k _ dst tiles _ _ => at_ q k dst tiles
    | .recall q k dst tiles _ => at_ q k dst tiles
    | _ => false)

/-- Semaphore waits on lines that go away end with ACCESS_FAULT (log 33). -/
def State.failWaits (s : State) (p : Nat → Bool) : State :=
  s.reqs.rows.foldl (fun s r => match r.2.kind, r.2.home with
    | .semAcq off _, .dev n =>
      if p n && r.2.stage = .waiting then
        let k := semKey r.2.home off
        ({ s with waiters := s.waiters.put [] k ((s.waiters.get [] k).filter (fun i => i ≠ r.1)) }).reqFail r.1 r.2 .accessFault
      else s
    | _, _ => s) s

/-- Whether a request other than a queued semaphore wait is still to be served at lines. -/
def State.servesLines (s : State) (p : Nat → Bool) : Bool :=
  s.reqs.any (fun _ q => match q.kind, q.home with
    | .semAcq _ _, .dev n => p n && q.stage = .flight
    | _, .dev n => p n
    | _, _ => false)

/-- Pages unmapped once no copy outside and no request of their frames is left: `false` while they wait (R527). -/
def State.unmapPages (s : State) (p : Nat) (pages : List (Nat × Page)) : Bool × State :=
  match s.recall (s.inFrames p pages) with
  | (false, s) => (false, s)
  | (true, s) =>
    if s.servesLines (s.inFrames p pages) then (false, s)
    else
      let s := s.failWaits (s.inFrames p pages)
      (true, pages.foldl (fun s r => s.unmapPage p r.1 r.2) s)

/-- PAGE_UNMAP: answered once every agent's use of the frames has ended (R527). -/
def execPageUnmap (r : Req) (s : State) : Out :=
  serve r 0x4201 [1, 8, 4] (pfOnly r) (fun fs s => do
    let p := partArg (fieldAt fs 0)
    let key := min (fieldAt fs 1 / 65536) (windowUnits - 1)
    let n := min (fieldAt fs 2) (windowUnits - key)
    let met := (s.part p).pages.rows.filter (fun r => r.1 < key + n && key < r.1 + pageUnits r.2.large)
    let pages := met.filter (fun r => key ≤ r.1 && r.1 + pageUnits r.2.large ≤ key + n)
    let host := pages.any (fun r => match r.2.backing with
      | .host _ => true
      | _ => false)
    refuseIf ((s.part p).state = .free || (host && !(s.part p).hostChanges)) .notInMode
    let clamped := 15 < fieldAt fs 0 || key * 65536 ≠ fieldAt fs 1 || n ≠ fieldAt fs 2 || pages.length ≠ met.length
    match s.unmapPages p pages with
    | (false, s) => pure { Ans.ok s with later := true }
    | (true, s) =>
      let s := if host then s.hostMapped p else s
      pure (Ans.ok s.advanceMigs clamped)) s

end Sys2Proof.Machine
end

