-- ==== Sys2Proof/Machine/Pools.lean ====
section
/-! DEFINITION. State pools, the handoff ledger, and channels lost in service (R325, R384 to R393, R399, Tables 11-6 to 11-8 and 11-13). -/

namespace Sys2Proof.Machine

/-! ## The handoff ledger (R388 to R392) -/

/-- A ledger record (Table 11-6); `state` is 0 FREE, 1 OWNED, 2 OFFERED, 3 LOST. -/
structure LedgerRec where
  epoch : Nat
  owner : Nat
  target : Nat
  state : Nat
  tag : Nat
deriving DecidableEq, Repr

/-- The record that 16 bytes hold. -/
def LedgerRec.ofNat (v : Nat) : LedgerRec :=
  ⟨v % 2 ^ 32, v / 2 ^ 32 % 2 ^ 16, v / 2 ^ 48 % 2 ^ 16, v / 2 ^ 64 % 2 ^ 8, v / 2 ^ 96 % 2 ^ 32⟩

/-- The 16 bytes of a record. -/
def LedgerRec.toNat (r : LedgerRec) : Nat :=
  r.epoch + r.owner * 2 ^ 32 + r.target * 2 ^ 48 + r.state * 2 ^ 64 + r.tag * 2 ^ 96

/-- No pool (R384). -/
def noPool : Nat := 0xFFFF

/-- The firmware's rows of Table 11-7: what a scan makes of a record, where pools have failed and some of them have mirrors. -/
def LedgerRec.scan (fails : Nat → Bool) (mirror : Nat → Option Nat) (r : LedgerRec) : LedgerRec :=
  let e := (r.epoch + 1) % 2 ^ 32
  if (r.state = 1 || r.state = 2) && fails r.owner then
    match mirror r.owner with
    | some m => { r with epoch := e, owner := m, target := noPool, state := 1 }
    | none => { r with epoch := e, owner := noPool, target := noPool, state := 3 }
  else if r.state = 2 && fails r.target then { r with epoch := e, target := noPool, state := 1 }
  else r

/-- The ID of a pool (R384). -/
def State.poolId (s : State) (n : Nat) (p : Pool) : Nat := n + 64 * (if p.onTwin then s.twinNum else s.lbx.d)

/-- The pool of an ID, where this device knows it. -/
def State.poolOfId (s : State) (id : Nat) : Option Pool := (s.pools.find (fun n p => s.poolId n p = id)).map (·.2)

/-- The mirror of a pool (R385): the same number on the other device. -/
def State.mirrorOf (s : State) (id : Nat) : Option Nat :=
  let n := id % 64
  let there := id / 64 = s.twinNum
  let known := (s.poolOfId id).any (fun p => p.mirror)
  if there then (if known || s.pair.mirrors.getLsbD n then some (n + 64 * s.lbx.d) else none)
  else if known then some (n + 64 * s.twinNum) else none

/-- Masked bytes of a line that the firmware writes at its home: outside copies are invalidated and the tile's state follows (R312, R389), also
where a further line write would wait; waits at the line are granted (R131), and copy 1 of a mirrored line is sent on. -/
def State.directWrite (s : State) (line : Nat) (d : BitVec 1024) (m : BitVec 128) : State :=
  match s.tileOfLine line with
  | none => s
  | some t =>
    let s := match s.dir.get? line with
      | some x => (s.sendSnoops line true x.agents).dirPut line none
      | none => s
    let s := { s with cCache := s.cCache.erase line }
    let s := match s.lineWrite line d m (.outer 1) with
      | some s => s
      | none => s.memWrite line t.ch t.row (line % 16) d m
    let s := (s.wakeLine (.dev line)).getD s
    if s.mirrored line then s.toPeer s.twinNum line .wr [0, line] (lineBytes (s.devLine line)) else s

/-- One record scanned. -/
def State.scanRecord (s : State) (fails : Nat → Bool) (mirror : Nat → Option Nat) (part va : Nat) : State :=
  match s.homeOf part va with
  | some (.dev n) =>
    let line := s.forward n
    let off := va % 128
    let v := LedgerRec.ofNat (lineNum (s.devLine line) off 16)
    let w := v.scan fails mirror
    if w = v then s else s.directWrite line (lineOf off w.toNat) (byteMask off 16)
  | _ => s

/-- Every record of the ledger regions of this device scanned, with the mirrors given. -/
def State.scanWith (s : State) (fails : Nat → Bool) (mirror : Nat → Option Nat) : State :=
  s.ledgers.foldl (fun s l =>
    (List.range (l.length / 16)).foldl (fun s k => s.scanRecord fails mirror l.part (l.base + 16 * k)) s) s

/-- Every record of the ledger regions of this device scanned (R392). -/
def State.scanLedgers (s : State) (fails : Nat → Bool) : State := s.scanWith fails s.mirrorOf

/-- A pool fails (Table 11-8): accesses to it end with STATE_LOST, and the ledgers are scanned. -/
def State.failPool (s : State) (n : Nat) : State :=
  match s.pools.get? n with
  | none => s
  | some p =>
    let id := s.poolId n p
    { s with pools := s.pools.set n { p with failed := true } }.scanLedgers (fun x => x = id)

/-! ## Channels lost in service (R325, R327, R399) -/

/-- A channel that meets a trigger of R325: logged in LANE_SPARE mode, FAILING in NATIVE mode; a second loss in a coded group fails its
pool. -/
def State.loseChan (s : State) (ch trigger : Nat) : State :=
  if s.mm.laneSpare then { s with chans := s.chans.upd Chan.init ch (fun c => { c with trigger := trigger }) }.event 0x207 ch
  else
    let group := fun (p : Pool) => (p.groups.find? (fun (g : List Nat) => g.contains ch)).getD []
    match s.pools.find (fun _ p => p.coded && group p ≠ []) with
    | none => (s.event 0x206 ch).failChan ch trigger
    | some (n, p) =>
      let others := (group p).filter (fun c => c ≠ ch)
      if others.any (fun c => (s.chan c).state ≠ .inService) then (((s.event 0x209 ch).failChan ch trigger).failPool n)
      else (s.event 0x208 ch).failChan ch trigger

/-- CHANNEL_TRIGGER: 2 a data lane failed with no spare, 3 uncorrectable errors in 3 rows after their soft repair, 4 the rate of correctable errors (R325). -/
def execChannelTrigger (ch : Fin 256) (trigger : Fin 5) (s : State) : Out :=
  let c := s.chan ch
  let met := match trigger.val with
    | 2 => true
    | 3 => 3 ≤ c.ueAfter.length
    | 4 => 10000 < c.ceHour
    | _ => false
  if !s.boot.ready || c.state ≠ .inService || !met then .next s else .next (s.loseChan ch trigger)

/-- MEM_CHANNEL_MAP_OUT. -/
def execMemChannelMapOut (r : Req) (s : State) : Out :=
  serve r 0x4703 [1] (pfOnly r) (fun fs s => do
    refuseIf ((s.chan (fieldAt fs 0)).state ≠ .inService) .notInMode
    pure (Ans.ok (s.loseChan (fieldAt fs 0) 5))) s

/-! ## Pools (R384 to R387, Table 11-13) -/

/-- A pool number of a command. -/
def poolArg (v : Nat) : Nat := min v 63

/-- Whether the ledger that a new pool names satisfies R393: it is mirrored where the pool is, or where it governs pools on both devices (log
34). -/
def State.ledgerOk (s : State) (id ledger : Nat) (onTwin mirror : Bool) : Bool :=
  let both := s.pools.any (fun _ p => p.ledger = ledger && p.onTwin ≠ onTwin) && ledger ≠ noPool
  let mirrored := if ledger = id then mirror else (s.poolOfId ledger).any (fun p => p.mirror)
  !(mirror || both) || mirrored

/-- The channels of a partition that carry no mapped page: those of sets without one, and those that no set took. -/
def State.poolable (s : State) (p : Nat) : List Nat :=
  (bitsOf 256 (s.chansOf p).toNat).filter (fun c => match s.sets.find (fun _ e => e.chans.contains c) with
    | some (_, e) => s.takesPages e && !s.inPool e && (s.pagesIn e.base (e.base + e.size)).isEmpty
        && s.framesUsed.all (fun u => !(u.1 < e.base + e.size && e.base < u.1 + u.2))
    | none => (s.chan c).state = .unbound || (s.chan c).owner = .part p)

/-- The coded groups of channels: five of one half, the last for parity (R399). -/
def codedGroups (chans : List Nat) : List (List Nat) :=
  let h := fun (k : Nat) => pieces 5 52 (chans.filter (fun c => halfOfChan c = k))
  (h 0 ++ h 1).filter (fun g => g.length = 5)

/-- Channels of a partition taken out of its ordinary sets, whose other channels form sets again. -/
def State.takeChans (s : State) (p : Nat) (chans : List Nat) : State :=
  let hit := s.sets.rows.filter (fun r => r.2.chans.any (fun c => chans.contains c))
  let rest := (hit.map (fun r => r.2.chans.filter (fun c => !chans.contains c))).flatten
  let s := hit.foldl (fun s r => s.removeSet r.1 r.2) s
  s.formSets (.part p) (s.part p).wholeDevice (sortOn id rest)

/-- The sets of a local pool formed, and its parity channels put in service. -/
def State.formPool (s : State) (p : Nat) (chans : List Nat) (groups : List (List Nat)) (coded : Bool) : State :=
  let s := s.takeChans p chans
  if coded then
    groups.foldl (fun s g =>
      let s := s.addSet (.part p) 0 (g.take 4) (s.rowsFor (g.take 4))
      { s with chans := s.chans.upd Chan.init (g.getD 4 0) (fun c => { c with state := .inService, owner := .part p }) }) s
  else s.formSets (.part p) (s.part p).wholeDevice chans

/-- POOL_CREATE. -/
def execPoolCreate (r : Req) (s : State) : Out :=
  serve r 0x4A00 [1, 1, 1, 32, 8, 8, 1, 1, 2]
    (fun s fs =>
      let n := poolArg (fieldAt fs 0)
      let twin := fieldAt fs 2 = 1
      let mirror := fieldAt fs 6 = 1
      s.permits r.fn false && (s.pools.get? n).isNone
        && s.ledgerOk (n + 64 * (if twin then s.twinNum else s.lbx.d)) (fieldAt fs 8) twin mirror
        && !((s.part (partArg (fieldAt fs 1))).confidential && (twin || mirror)))
    (fun fs s => do
      let n := poolArg (fieldAt fs 0)
      let p := partArg (fieldAt fs 1)
      let twin := fieldAt fs 2 = 1
      let mirror := fieldAt fs 6 = 1
      let coded := fieldAt fs 7 = 1
      refuseIf ((s.part p).state = .free) .notInMode
      refuseIf ((twin || mirror) && !(s.paired && s.pair.pairs.any (fun x => x.1 = p))) .notInMode
      let asked := bitsOf 256 (fieldAt fs 3)
      let ok := if twin then asked else asked.filter (fun c => (s.poolable p).contains c)
      let k := ok.length
      let ok := if coded then ok.take (k / 5 * 5) else ok
      let groups := if coded && !twin then codedGroups ok else []
      let ok := if coded && !twin then sortOn id groups.flatten else ok
      let base := min (fieldAt fs 4 / 65536 * 65536) windowEnd
      let len := min (fieldAt fs 5 / 65536 * 65536) (windowEnd - base)
      let mask := BitVec.ofNat 256 (numOfBits ok)
      let pool : Pool := ⟨p, twin, mask, base, len, mirror, coded, fieldAt fs 8, false, groups⟩
      let s := if twin then s else s.formPool p ok groups coded
      let s := { s with pools := s.pools.set n pool }
      let s := if mirror then s.toPeer s.twinNum 0 .pairing [n, p, s.partnerOf p] [] else s
      pure (Ans.ok s (63 < fieldAt fs 0 || 15 < fieldAt fs 1 || ok.length ≠ asked.length || base ≠ fieldAt fs 4 || len ≠ fieldAt fs 5
        || 1 < fieldAt fs 2 || 1 < fieldAt fs 6 || 1 < fieldAt fs 7))) s

/-- OFFSET and COUNT of a pool command clamped to the pool: the first key, the number of pages, and whether a field changed. -/
def Pool.range (p : Pool) (off count : Nat) : Nat × Nat × Bool :=
  let o := min (off / 65536 * 65536) p.length
  let n := min count ((p.length - o) / 65536)
  ((p.base + o) / 65536, n, o ≠ off || n ≠ count)

/-- A free frame of a pool's own sets. -/
def State.poolFrame (s : State) (p : Pool) : Option Nat :=
  s.frameIn (s.sets.vals.filter (fun e => s.takesPages e && e.chans.all (fun c => p.chans.getLsbD c))) 65536

/-- The backing of a pool page from the first tier that has a frame (R386): with whether it spills, and the frames left on the twin. -/
def State.poolBacking (s : State) (p : Pool) (va host twinFree : Nat) : Option (Backing × Bool × Nat) :=
  let there := Backing.peer s.twinNum (pairExport (s.partnerOf p.part)) va
  let own : Option (Backing × Bool × Nat) :=
    if !p.onTwin then (s.poolFrame p).map (fun d => (.dev d, false, twinFree))
    else if twinFree = 0 then none
    else if p.mirror then (s.pageFrame p.part 65536).map (fun d => (.dev d, false, twinFree - 1))
    else some (there, false, twinFree - 1)
  match own with
  | some b => some b
  | none =>
    let spill := (s.part p.part).spill
    if spill % 2 = 1 && s.paired && !p.onTwin && twinFree ≠ 0 then some (there, true, twinFree - 1)
    else if 2 ≤ spill then some (.host host, true, twinFree)
    else none

/-- Pool pages mapped in order until no tier has a frame: the number mapped. -/
def State.mapPool (p : Pool) : Nat → Nat → Nat → Nat → State → Nat × State
  | 0, _, _, _, s => (0, s)
  | n + 1, key, host, twinFree, s => match s.poolBacking p (key * 65536) host twinFree with
    | none => (0, s)
    | some (b, spill, left) =>
      let r := State.mapPool p n (key + 1) (host + 65536) left (s.putPage p.part key ⟨false, b, true, spill⟩)
      (r.1 + 1, r.2)

/-- POOL_MAP: `twinFree` is the number of free frames of the partner partition, as the twin reports it. -/
def execPoolMap (r : Req) (twinFree : Nat) (s : State) : Out :=
  serve r 0x4A01 [1, 8, 4, 8] (pfOnly r) (fun fs s =>
    match s.pools.get? (poolArg (fieldAt fs 0)) with
    | none => .error .notInMode
    | some p => do
      let w := p.range (fieldAt fs 1) (fieldAt fs 2)
      refuseIf ((s.part p.part).mappedAny w.1 w.2.1) .notInMode
      let m := State.mapPool p w.2.1 w.1 (fieldAt fs 3 / 65536 * 65536) twinFree s
      pure (Ans.ok m.2 (63 < fieldAt fs 0 || w.2.2 || m.1 ≠ w.2.1 || fieldAt fs 3 % 65536 ≠ 0) (bytesOf 4 m.1))) s

/-- The pages of a pool in a range. -/
def State.poolPages (s : State) (p : Pool) (key n : Nat) : List (Nat × Page) :=
  (s.part p.part).pages.rows.filter (fun r => key ≤ r.1 && r.1 < key + n)

/-- POOL_UNMAP. -/
def execPoolUnmap (r : Req) (s : State) : Out :=
  serve r 0x4A02 [1, 8, 4, 8] (pfOnly r) (fun fs s =>
    match s.pools.get? (poolArg (fieldAt fs 0)) with
    | none => .error .notInMode
    | some p =>
      let w := p.range (fieldAt fs 1) (fieldAt fs 2)
      match s.unmapPages p.part (s.poolPages p w.1 w.2.1) with
      | (false, s) => .ok { Ans.ok s with later := true }
      | (true, s) => .ok (Ans.ok s.advanceMigs (63 < fieldAt fs 0 || w.2.2))) s

/-- Whether a spilled page is being recalled. -/
def State.recalling (s : State) (p key : Nat) : Bool :=
  s.mm.migs.any (fun m => match m with
    | .recall q k _ _ _ => q = p && k = key
    | _ => false)

/-- The moves of spilled pages back to a pool's sets accepted, as far as those have frames; there are none to a pool on the twin. -/
def State.recallPages (s : State) (p : Pool) (pages : List (Nat × Page)) : State :=
  pages.foldl (fun s g =>
    if p.onTwin || s.recalling p.part g.1 then s
    else match s.poolFrame p with
      | some d => { s with mm := { s.mm with migs := s.mm.migs ++ [.recall p.part g.1 d 32 []] } }
      | none => s) s

/-- POOL_RECALL: spilled pages move back as far as the pool's sets have frames; MB_OK follows the last move (R387, R517). -/
def execPoolRecall (r : Req) (s : State) : Out :=
  serve r 0x8A03 [1, 8, 4, 8] (pfOnly r) (fun fs s =>
    match s.pools.get? (poolArg (fieldAt fs 0)) with
    | none => .error .notInMode
    | some p =>
      let w := p.range (fieldAt fs 1) (fieldAt fs 2)
      let spilled := (s.poolPages p w.1 w.2.1).filter (fun g => g.2.spill)
      let s := s.recallPages p spilled
      let busy := spilled.any (fun g => s.recalling p.part g.1)
      .ok { Ans.ok s (63 < fieldAt fs 0 || w.2.2 || !spilled.isEmpty) with later := busy }) s

/-- POOL_LEDGER: a ledger region registered (R388). -/
def execPoolLedger (r : Req) (s : State) : Out :=
  serve r 0x4A04 [1, 8, 8] (pfOnly r) (fun fs s =>
    let n := poolArg (fieldAt fs 0)
    match s.pools.get? n with
    | none => .error .notInMode
    | some p =>
      let base := min (fieldAt fs 1 / 65536 * 65536) windowEnd
      let len := min (fieldAt fs 2 / 65536 * 65536) (windowEnd - base)
      .ok (Ans.ok { s with ledgers := s.ledgers ++ [⟨n, p.part, base, len⟩] }
        (63 < fieldAt fs 0 || base ≠ fieldAt fs 1 || len ≠ fieldAt fs 2))) s

/-- POOL_STATUS: 0 no pool, 1 in use, 2 failed; a VF's for its own partition. -/
def execPoolStatus (r : Req) (s : State) : Out :=
  serve r 0x0A05 [1, 1]
    (fun s fs => s.permits r.fn true && (r.fn = 0 || (match s.pools.get? (poolArg (fieldAt fs 0)) with
      | some p => p.part = s.vfPart r.fn
      | none => false)))
    (fun fs s =>
      let code := match s.pools.get? (poolArg (fieldAt fs 0)) with
        | none => 0
        | some p => if p.failed then 2 else 1
      pageAns s r.fn (bytesOf 1 code) (fieldAt fs 1) (63 < fieldAt fs 0)) s

/-- LEDGER_SCAN: the scan of R392 for a pool that has failed, or that is no more. -/
def execLedgerScan (r : Req) (s : State) : Out :=
  serve r 0x8A06 [1] (pfOnly r) (fun fs s =>
    let n := poolArg (fieldAt fs 0)
    let ids := match s.pools.get? n with
      | none => [n + 64 * s.lbx.d]
      | some p => if p.failed then [s.poolId n p] else []
    let ids := if s.pair.state = .solo then (n + 64 * s.twinNum) :: ids else ids
    .ok (Ans.ok (s.scanLedgers (fun x => ids.contains x)) (63 < fieldAt fs 0))) s

end Sys2Proof.Machine
end

