-- ==== Sys2Proof/Machine/Parts.lean ====
section
/-! DEFINITION. Partitions: creation, activation, quiescence, destruction, reconfiguration, rebinding and status (R366 to R383, R400, R549 to
R559, Tables 11-2 to 11-5, 11-13 and 16-13). -/

namespace Sys2Proof.Machine

/-! ## Shared operations -/

/-- A partition's counters reset (R275). -/
def State.clearCounters (s : State) (p : Nat) : State :=
  { s with
    lookups := s.lookups.keep (fun k _ => k / 32 != p)
    hits := s.hits.keep (fun k _ => k / 32 != p)
    events := s.events.keep (fun k _ => k / 8 != p)
    mxuCtr := s.mxuCtr.keep (fun k _ => k / 8 != p) }

/-- Whether a line lies in a set of a partition. -/
def State.inPart (s : State) (p line : Nat) : Bool := match s.setOfLine line with
  | some (_, e) => e.owner = .part p
  | none => false

/-- Both IDE streams secure (R556). -/
def State.ideSecure (s : State) : Bool := s.host.ideIo && s.host.ideCxl

/-- A partition's graph store freed, every version (R416). -/
def State.dropGraphs (s : State) (p : Nat) : State :=
  { s with graphs := s.graphs.keep (fun k _ => k / 256 != p) }.gcVersions

/-- The rows of a set with those of its shadow entry and the copy engine's buffer, so that tiles moved after a scrub move as ZERO (Table
17-10). -/
def IntSet.coversAll (e : IntSet) (ch row : Nat) : Bool :=
  e.covers ch row || (match e.shadow with
    | some h => (h.chans.contains ch && h.row0 ≤ row && row < h.row0 + h.rows)
      || (256 + 16 * h.leaving ≤ ch && ch < 272 + 16 * h.leaving)
    | none => false)

/-- A scrub of a partition (Table 17-3). -/
def State.scrubPart (s : State) (p : Nat) : State :=
  let sets := s.sets.vals.filter (fun e => e.owner = .part p)
  let s := sets.foldl (fun s e => s.scrub e.coversAll) s
  let quads := s.quadsOf p
  let s := ((List.range 160).filter (fun c => quads.getLsbD (c / 4))).foldl State.l1Invalidate s
  let s := (s.queuesOf p).foldl (fun s q => s.setQueue q.1 { q.2 with shadow := [] }) s
  (s.dropGraphs p).clearCounters p

/-- A partition's key generation raised by one (R559). -/
def State.nextGeneration (s : State) (p : Nat) : State :=
  s.setPart p { s.part p with generation := ((s.part p).generation + 1) % 2 ^ 32 }

/-- The PF names a partition; the state that it must be in. -/
def inState (s : State) (p : Nat) (l : List PartState) : Except MbStatus Unit :=
  refuseIf (!l.contains (s.part p).state) .notInMode

/-! ## Creation and slices (R369, R370) -/

/-- PART_CREATE. -/
def execPartCreate (r : Req) (s : State) : Out :=
  serve r 0x4301 [1, 1, 1, 1, 1]
    (fun s fs => s.permits r.fn false && fieldAt fs 0 ≤ 15 && (s.part (fieldAt fs 0)).state = .free
      && !(fieldAt fs 3 % 2 = 1 && fieldAt fs 4 % 4 ≠ 0))
    (fun fs s =>
      let p := fieldAt fs 0
      let old := s.part p
      let c := clampTo 1 8 (fieldAt fs 1)
      let v : Part := { Part.init with
        state := .built, contexts := c.1, wholeDevice := fieldAt fs 2 % 2 = 1, confidential := fieldAt fs 3 % 2 = 1
        spill := fieldAt fs 4 % 4, generation := old.generation, hostEpoch := old.hostEpoch }
      pure (Ans.ok ((s.setPart p v).clearCounters p)
        (c.2 || 1 < fieldAt fs 2 || 1 < fieldAt fs 3 || 3 < fieldAt fs 4))) s

/-- PART_ADD_SLICE and PART_REMOVE_SLICE. -/
def sliceChange (r : Req) (code : Nat) (add : Bool) (s : State) : Out :=
  serve r code [1, 1]
    (fun s fs => s.permits r.fn false
      && !(add && (s.part (fieldAt fs 0)).confidential && (s.slice (fieldAt fs 1)).ports ≠ 0))
    (fun fs s => do
      let p := fieldAt fs 0
      let k := fieldAt fs 1
      refuseIf (63 < k) .badLength
      inState s p [.built]
      let owner := (s.slice k).part
      refuseIf (if add then owner.isSome && owner ≠ some p else owner ≠ some p) .notInMode
      pure (Ans.ok (s.updSlice k (fun sl => { sl with part := if add then some p else none })))) s

/-- PART_ADD_SLICE. -/
def execPartAddSlice (r : Req) (s : State) : Out := sliceChange r 0x4302 true s
/-- PART_REMOVE_SLICE. -/
def execPartRemoveSlice (r : Req) (s : State) : Out := sliceChange r 0x4303 false s

/-- PART_ACTIVATE (R372, R556). -/
def execPartActivate (r : Req) (s : State) : Out :=
  serve r 0x4304 [1] (pfOnly r) (fun fs s => do
    let p := fieldAt fs 0
    inState s p [.built]
    refuseIf (s.quadsOf p = 0 || s.chansOf p = 0) .notInMode
    refuseIf ((s.part p).confidential && !s.ideSecure) .notInMode
    let free := (bitsOf 256 (s.chansOf p).toNat).filter (fun c => (s.chan c).state = .unbound)
    let s' := s.formSets (.part p) (s.part p).wholeDevice free
    refuseIf (!(s'.sets.any (fun _ e => e.owner = .part p))) .denied
    let s := (s'.sets.vals.filter (fun e => e.owner = .part p)).foldl (fun s e => s.scrub e.covers) s'
    let s := s.nextGeneration p
    let s := s.setPart p { s.part p with state := .active, locked := true, switchOuts := 0, restores := 0 }
    pure (Ans.ok ((s.reserveSave p).clearCounters p))) s

/-! ## Quiescence (R371) -/

/-- A partition told to quiesce: its queues drain (R371). -/
def State.quiesce (s : State) (p : Nat) : State :=
  let s := s.setPart p { s.part p with state := .quiescing }
  ((s.queuesOf p).foldl (fun s q => s.drainQueue q.1) s).settleQuiesce p

/-- PART_QUIESCE. -/
def execPartQuiesce (r : Req) (s : State) : Out :=
  serve r 0x4305 [1] (pfOnly r) (fun fs s => do
    let p := fieldAt fs 0
    inState s p [.active]
    pure (Ans.ok (s.quiesce p))) s

/-- PART_RESUME: each queue returns to IDLE, those of a context whose VF does not exist excepted (R371, R464, R556). -/
def execPartResume (r : Req) (s : State) : Out :=
  serve r 0x4306 [1] (pfOnly r) (fun fs s => do
    let p := fieldAt fs 0
    inState s p [.quiesced]
    refuseIf ((s.part p).confidential && !s.ideSecure) .notInMode
    let s := s.setPart p { s.part p with state := .active }
    let s := (s.queuesOf p).foldl (fun s q =>
      if s.mayRequest p (q.1 / 8 % 8) then (s.setQueue q.1 { q.2 with state := .idle, enable := true }).settleQueue q.1 else s) s
    pure (Ans.ok s)) s

/-! ## Destruction (R370, R549) -/

/-- A set given up with its partition; a channel of it that was to be mapped out still leaves, with no tile left to move. -/
def State.giveUpSet (s : State) (k : Nat) (e : IntSet) : State :=
  let s := s.removeSet k e
  { s with mm := { s.mm with migs := s.mm.migs.filter (fun m => match m with
    | .set _ j => j ≠ k
    | _ => true) } }

/-- Everything of a partition removed, once no copy and no request of its memory is left outside (Table 11-3). -/
def State.destroyPart (s : State) (p : Nat) : State :=
  let old := s.part p
  let s := s.leaveMask p
  let s := { s with host := { s.host with window := s.host.window.keep (fun _ d => !s.inPart p (d / 128)) } }
  let pools := (s.pools.rows.filter (fun x => x.2.part = p)).map (·.1)
  let s := pools.foldl State.failPool s
  let parity := ((s.pools.vals.filter (fun (x : Pool) => x.part = p)).map (fun (x : Pool) => x.groups.map (fun (g : List Nat) => g.getD 4 0))).flatten
  let freed := fun (v : Chan) => { v with state := if v.state = ChanState.inService then ChanState.unbound else v.state, owner := Owner.free }
  let s := if old.confidential then s.scrubPart p else s
  let s := (s.sets.rows.filter (fun e => e.2.owner = .part p)).foldl (fun s e => s.giveUpSet e.1 e.2) s
  let s := (s.dropGraphs p).clearCounters p
  let s := { s with
    chans := parity.foldl (fun t c => t.upd Chan.init c freed) s.chans
    queues := s.queues.keep (fun k _ => k / 64 != p)
    pools := s.pools.keep (fun _ x => x.part != p)
    ledgers := s.ledgers.filter (fun l => l.part ≠ p)
    pair := { s.pair with pairs := s.pair.pairs.filter (fun x => x.1 ≠ p) }
    lbx := { s.lbx with exports := s.lbx.exports.keep (fun _ x => x.part != p) }
    slices := s.slices.mapVal (fun _ (sl : Slice) => if sl.part = some p then { sl with part := none } else sl)
    fns := s.fns.mapVal (fun _ (f : Fn) => if f.ctx.map (fun (c : Nat × Nat) => c.1) = some p then { f with ctx := none } else f)
    mm := { s.mm with migs := s.mm.migs.filter (fun m => m.part ≠ p) } }
  s.setPart p { Part.init with
    generation := (old.generation + (if old.confidential then 1 else 0)) % 2 ^ 32, hostEpoch := old.hostEpoch }

/-- PART_DESTROY. -/
def execPartDestroy (r : Req) (s : State) : Out :=
  serve r 0x4307 [1] (pfOnly r) (fun fs s => do
    let p := fieldAt fs 0
    inState s p [.built, .quiesced]
    refuseIf ((s.queuesOf p).any (fun q => q.2.state ≠ .disabled)) .notInMode
    match s.recall (s.inPart p) with
    | (false, s) => pure { Ans.ok s with later := true }
    | (true, s) =>
      if s.servesLines (s.inPart p) then pure { Ans.ok s with later := true }
      else pure (Ans.ok ((s.failWaits (s.inPart p)).destroyPart p).advanceMigs)) s

/-! ## Rebinding (R373 to R379) -/

/-- Whether a quad of a mask has an open core. -/
def State.anyOpen (s : State) (quads : BitVec 40) : Bool :=
  (List.range 160).any (fun c => quads.getLsbD (c / 4) && s.coreOpen c)

/-- PART_REBIND_QUADS. -/
def execPartRebindQuads (r : Req) (s : State) : Out :=
  serve r 0x4309 [1, 1, 8, 8] (pfOnly r) (fun fs s => do
    let p := fieldAt fs 0
    let k := fieldAt fs 1
    refuseIf (63 < k) .badLength
    let add := BitVec.ofNat 40 (fieldAt fs 2) &&& s.quadsLeft &&& ~~~(s.otherSlices k Slice.quads)
    let wd := BitVec.ofNat 40 (fieldAt fs 3) &&& s.quadsOf p
    inState s p [.active, .quiescing, .quiesced]
    refuseIf ((s.slice k).part ≠ some p || (s.part p).rebind.isSome) .notInMode
    refuseIf (!s.anyOpen ((s.quadsOf p ||| add) &&& ~~~wd)) .denied
    let s := s.setPart p { s.part p with rebind := some ⟨k, add, wd, false⟩, rebound := false }
    let s := if s.stepping p then s else s.boundary p
    pure (Ans.ok s (add.toNat ≠ fieldAt fs 2 || wd.toNat ≠ fieldAt fs 3))) s

/-- PART_REBIND_CHANNELS: added channels form sets at once, removed ones leave by migration (R378). -/
def execPartRebindChannels (r : Req) (s : State) : Out :=
  serve r 0x430A [1, 1, 32, 32] (pfOnly r) (fun fs s => do
    let p := fieldAt fs 0
    let k := fieldAt fs 1
    refuseIf (63 < k) .badLength
    inState s p [.active]
    refuseIf ((s.slice k).part ≠ some p) .notInMode
    let add := BitVec.ofNat 256 (fieldAt fs 2) &&& s.unboundChans &&& ~~~(s.otherSlices 64 Slice.chans)
    let rem := BitVec.ofNat 256 (fieldAt fs 3) &&& s.chansOf p
    let s := s.updSlice k (fun sl => { sl with chans := sl.chans ||| add })
    let s := s.formSets (.part p) (s.part p).wholeDevice (bitsOf 256 add.toNat)
    let out := bitsOf 256 rem.toNat
    let s := { s with mm := { s.mm with
      unbind := s.mm.unbind ++ out.filter (fun c => (s.chan c).state = .inService && !s.mm.unbind.contains c) } }
    -- a channel that no set took leaves at once
    let s := (out.filter (fun c => (s.chan c).state = .unbound)).foldl State.dropChan s
    pure (Ans.ok s.advanceMigs (add.toNat ≠ fieldAt fs 2 || rem.toNat ≠ fieldAt fs 3))) s

/-! ## Reconfiguration (R383) -/

/-- The channels of a partition outside its pools. -/
def State.plainChans (s : State) (p : Nat) (chans : BitVec 256) : List Nat :=
  (bitsOf 256 chans.toNat).filter (fun c => !(s.pools.any (fun _ x => !x.onTwin && x.part = p && x.chans.getLsbD c)))

/-- Bytes of a partition's pages in its ordinary sets. -/
def State.plainBytes (s : State) (p : Nat) : Nat :=
  let es := s.sets.vals.filter (fun e => e.owner = .part p && !s.inPool e)
  sumOf (fun (g : Page) => match g.backing with
    | .dev d => if es.any (fun e => e.base ≤ d && d < e.base + e.size) then g.bytes else 0
    | _ => 0) (s.part p).pages.vals

/-- Whether channels under an interleave hold a partition's pages and save areas, and keep its pools (R383). -/
def State.holds (s : State) (p : Nat) (whole : Bool) (chans : BitVec 256) (quads : BitVec 40) (contexts : Nat) : Bool :=
  let groups := setGroups whole (s.plainChans p chans)
  let cap := sumOf (fun (g : List Nat) => g.length * s.rowsFor g * 2048) groups
  let pools := s.pools.all (fun _ x => x.onTwin || x.part ≠ p || x.chans &&& ~~~chans = 0)
  pools && s.plainBytes p + 786432 * 4 * popCount 40 quads.toNat * contexts ≤ cap

/-- A partition takes the attributes and slices of a reconfiguration, and its memory follows as a migration (R383). -/
def State.takeAttributes (s : State) (p contexts : Nat) (whole conf : Bool) (spill : Nat) (ks : List Nat) : State :=
  let secret := conf || (s.part p).confidential
  let s := if conf then s.leaveMask p else s
  let s := { s with slices := s.slices.mapVal (fun _ (sl : Slice) => if sl.part = some p then { sl with part := none } else sl) }
  let s := ks.foldl (fun s k => s.updSlice k (fun sl => { sl with part := some p })) s
  let s := if secret then s.scrubPart p else s
  let s := if conf then { s with
      host := { s.host with window := s.host.window.keep (fun _ d => !s.inPart p (d / 128)) }
      lbx := { s.lbx with exports := s.lbx.exports.keep (fun _ x => x.part != p) } } else s
  let s := s.setPart p { s.part p with
    state := .reconfiguring, locked := false, contexts := contexts, wholeDevice := whole, confidential := conf, spill := spill }
  { s with mm := { s.mm with migs := s.mm.migs ++ [.rekey p] } }

/-- PART_RECONFIGURE: accepted, it takes the new attributes and slices, and its memory follows as a migration (R383). -/
def execPartReconfigure (r : Req) (s : State) : Out :=
  serveList r 0x4308 [1, 1, 1, 1, 1] 1
    (fun s fs => s.permits r.fn false
      && !(fieldAt fs 3 % 2 = 1 && (fieldAt fs 4 % 4 ≠ 0 || (fs.drop 6).any (fun k => (s.slice k).ports ≠ 0))))
    (fun fs ks s => do
      let p := fieldAt fs 0
      refuseIf (ks.any (fun k => 63 < k)) .badLength
      inState s p [.quiesced]
      refuseIf (ks.any (fun k => match (s.slice k).part with
        | some q => q ≠ p
        | none => false)) .notInMode
      let c := clampTo 1 8 (fieldAt fs 1)
      let whole := fieldAt fs 2 % 2 = 1
      let conf := fieldAt fs 3 % 2 = 1
      let chans := ks.foldl (fun m k => m ||| (s.slice k).chans) 0
      let quads := ks.foldl (fun m k => m ||| (s.slice k).quads) 0
      refuseIf (!s.holds p whole chans quads c.1) .denied
      let clamped := c.2 || 1 < fieldAt fs 2 || 1 < fieldAt fs 3 || 3 < fieldAt fs 4
      match s.recall (s.inPart p) with
      | (false, s) => pure { Ans.ok s with later := true }
      | (true, s) =>
        pure (Ans.ok (s.takeAttributes p c.1 whole conf (fieldAt fs 4 % 4) ks) clamped)) s

/-- A buffer place of a reconfiguration. -/
def rekeyPlace (k : Nat) : Nat × Nat := (65536, k)

/-- The tiles of pages put in the buffer, or brought from it, in order. -/
def State.bufferTiles (s : State) (out : Bool) (tiles : List Nat) : State :=
  tiles.zipIdx.foldl (fun s t =>
    match s.placeOf t.1 with
    | none => s
    | some pl =>
      let here : TileAt := ⟨t.1 / 128, pl.1, pl.2⟩
      let there : TileAt := ⟨t.1 / 128, (rekeyPlace t.2).1, (rekeyPlace t.2).2⟩
      let st := (s.tssAt (if out then here else there).key).state
      if st = .zero then s
      else if out then s.copyRow here there (st ≠ .spent)
      else (s.copyRow there here (st ≠ .spent)).clearRow there) s

/-- The tiles of frames, by DPA. -/
def frameTiles (fs : List (Nat × Nat)) : List Nat :=
  (fs.map (fun f => (List.range (f.2 / 2048)).map (fun t => f.1 + t * 2048))).flatten

/-- New frames for pages of a partition's ordinary sets, large pages first. -/
def State.placePages (s : State) (p : Nat) : List (Nat × Page × Nat) → State × List (Nat × Nat × Nat)
  | [] => (s, [])
  | (key, g, src) :: t =>
    match s.frameIn (s.pageSets p) g.bytes with
    | none => s.placePages p t
    | some d =>
      let s := s.putPage p key { g with backing := .dev d }
      let r := s.placePages p t
      (r.1, (src, d, g.bytes) :: r.2)

/-- The sectors of a partition's tiles that stay in place encrypted again under its present generation (R383 step 3); SPENT tiles move
without their lines and keep what they hold. -/
def State.reseal (s : State) (p : Nat) : State :=
  let now := (s.part p).generation
  { s with seals := s.seals.mapVal (fun k z =>
      if z.owner = .part p && (z.gen + 1) % 2 ^ 32 = now && (s.tssAt (k / 64)).state ≠ .spent then { z with gen := now } else z) }

/-- The relocation of a partition's memory under its new attributes and slices (R383 steps 3 and 4), once its lines are flushed; `none` while
they are in use or memory admits no access. -/
def State.rekey (s : State) (p : Nat) : Option State :=
  let plain := s.sets.rows.filter (fun r => r.2.owner = .part p && !s.inPool r.2)
  let inside := fun (d : Nat) => plain.any (fun r => r.2.base ≤ d && d < r.2.base + r.2.size)
  let busy := s.servesLines (s.inPart p) || s.tss.any (fun k t => t.state = .opened && (s.sets.any (fun _ e =>
    e.owner = .part p && e.covers (k / 2 ^ 20) (k % 2 ^ 20)))) || (bitsOf 256 (s.chansOf p).toNat).any (fun c => !s.memOpen c)
  if busy then none
  else
    let pages := (s.part p).pages.rows.filterMap (fun r => match r.2.backing with
      | .dev d => if inside d then some (r.1, r.2, d) else none
      | _ => none)
    let pages := sortOn (fun (g : Nat × Page × Nat) => if g.2.1.large then 0 else 1) pages
    let tiles := frameTiles (pages.map (fun g => (g.2.2, g.2.1.bytes)))
    let s := tiles.foldl (fun s d => match s.tileOfLine (d / 128) with
      | some t => (s.leaveCheck t).flushTile t
      | none => s) s
    let s := (s.bufferTiles true tiles).nextGeneration p
    let s := s.reseal p
    -- the pages give up their frames before they take new ones
    let s := pages.foldl (fun s g => s.putPage p g.1 { g.2.1 with backing := .peer 0 0 0 }) s
    let s := plain.foldl (fun s r => s.giveUpSet r.1 r.2) s
    let free := (s.plainChans p (s.chansOf p)).filter (fun c => (s.chan c).state = .unbound)
    let s := s.formSets (.part p) (s.part p).wholeDevice free
    let r := s.placePages p pages
    let s := r.1.bufferTiles false (frameTiles (r.2.map (fun x => (x.2.1, x.2.2))))
    let s := s.rehome (r.2.map (fun x => (x.1 / 128, x.2.1 / 128, x.2.2 / 128)))
    let s := s.setPart p { s.part p with state := .quiesced, locked := true }
    some (((s.reserveSave p).clearCounters p).advanceMigs)

/-! ## Status -/

/-- Bytes that a migration has still to move. -/
def State.migLeft (s : State) (m : Migration) : Nat :=
  match m with
  | .set _ k => match (s.sets.get? k).bind (·.shadow) with
    | some h => (h.tiles - h.moved.length) * 2048
    | none => 0
  | .page _ _ _ _ tiles _ moved => (tiles - moved.length) * 2048
  | .recall _ _ _ tiles moved => (tiles - moved.length) * 2048
  | .rekey p => s.plainBytes p
  | .detach p _ moved => s.plainBytes p - moved.length * 2048
  | .attach _ _ => 0
  | .leave _ => 0

/-- The image of PART_STATUS (Table 16-13). -/
def State.partImage (s : State) (p : Nat) : List Byte :=
  let a := s.part p
  let bound := s.chansOf p
  let unused := (bitsOf 256 bound.toNat).filter (fun c => !(s.sets.any (fun _ e => e.chans.contains c))
    && !(s.pools.any (fun _ x => x.groups.any (fun (g : List Nat) => g.contains c))))
  let rebinding := (bitsOf 256 bound.toNat).any (fun c => s.mm.unbind.contains c)
  let progress := (if a.rebind.isSome then 1 else 0) + (if a.rebound then 2 else 0) + (if rebinding then 4 else 0)
    + (if s.migrating p then 8 else 0)
  bytesOf 1 a.state.code ++ bytesOf 1 (if a.confidential then 1 else 0) ++ bytesOf 1 a.contexts
    ++ bytesOf 1 (if a.wholeDevice then 1 else 0) ++ bytesOf 1 a.spill ++ bytesOf 1 progress ++ bytesOf 2 0
    ++ bytesOf 8 (s.quadsOf p).toNat ++ bytesOf 8 (numOfBits ((s.slices.rows.filter (fun r => r.2.part = some p)).map (·.1)))
    ++ bytesOf 2 (s.portsOf p).toNat ++ bytesOf 2 0 ++ bytesOf 4 a.generation ++ bytesOf 32 bound.toNat
    ++ bytesOf 32 (numOfBits unused) ++ bytesOf 8 (s.usable p) ++ bytesOf 8 a.save
    ++ bytesOf 8 (sumOf s.migLeft (s.mm.migs.filter (fun m => m.part = p)))

/-- PART_STATUS: a VF's for its own partition. -/
def execPartStatus (r : Req) (s : State) : Out :=
  serve r 0x030B [1, 1]
    (fun s fs => s.permits r.fn true && (r.fn = 0 || partArg (fieldAt fs 0) = s.vfPart r.fn))
    (fun fs s => pageAns s r.fn (s.partImage (partArg (fieldAt fs 0))) (fieldAt fs 1) (15 < fieldAt fs 0)) s

/-! ## Eviction (R553, Table 17-4) -/

/-- Every fetched command of a partition killed at once, with the blocks of its tasks wherever they are. -/
def State.killPart (s : State) (p : Nat) : State :=
  (s.fetched p).foldl (fun (s : State) c =>
    let s : State := match s.cmd? c.1 with
      | some k => s.stopCmd c.1 k .killed
      | none => s
    let ts := s.tasksOf c.1
    let s := match s.cmd? c.1 with
      | some k => if k.stage = CmdStage.draining then s.setCmd c.1 { k with stage := .killing } else s
      | none => s
    let s := ts.foldl (fun (s : State) (t : Nat × Task) =>
      let s := (s.blocksOf t.1).foldl (fun (s : State) b => s.killBlock c.1 b) s
      match s.tasks.get? t.1 with
      | some k => s.setTask t.1 { k with finished := k.placed, killed := k.killed || k.state ≠ .ended }
      | none => s) s
    s.settleStep c.1) s

/-- Whether a request of a partition's commands is still outstanding (R232). -/
def State.evicting (s : State) (p : Nat) : Bool :=
  s.reqs.any (fun _ q => match q.src with
    | .cmd c => (s.cmd? c).any (fun k => k.part = p)
    | _ => false)

/-- SEC_PART_EVICT: answered once the killed commands' accesses are complete (R232, R553). -/
def execSecPartEvict (r : Req) (s : State) : Out :=
  serve r 0x4D01 [1] (pfOnly r) (fun fs s => do
    let p := fieldAt fs 0
    refuseIf (15 < p) .badLength
    inState s p [.active, .quiescing, .quiesced]
    let s := s.leaveMask p
    let s := (s.queuesOf p).foldl (fun (s : State) q => s.drainQueue q.1) s
    let s := (s.killPart p).endRebind p
    match (if (s.part p).confidential then s.recall (s.inPart p) else (true, s)) with
    | (false, s) => pure { Ans.ok s with later := true }
    | (true, s) =>
      if s.evicting p then pure { Ans.ok s with later := true }
      else
        let s := if (s.part p).confidential then (s.scrubPart p).nextGeneration p else s
        pure (Ans.ok (s.setPart p { s.part p with state := .quiesced }))) s

end Sys2Proof.Machine
end

