-- ==== Sys2Proof/Machine/Twins.lean ====
section
/-! DEFINITION. Twins and lost peers: pairing, failover, detach and attach (R394 to R400, Tables 11-9 to 11-12), and the loss of a peer (R506
to R508). -/

namespace Sys2Proof.Machine

/-! ## A device that is gone -/

/-- Whether the trunk has trained: a trunk port to the twin runs. -/
def State.trunkUp (s : State) : Bool := s.lbx.twin && (s.portGroup s.twinNum).any (fun k => k < 6)

/-- A peer's semaphore waiters removed from this device's homes (R508). -/
def State.dropWaiters (s : State) (d : Nat) : State :=
  let gone := (s.reqs.rows.filter (fun r => match r.2.kind, r.2.src with
    | .semAcq _ _, .outer a _ _ => a = 2 + d
    | _, _ => false))
  let ids := gone.map (·.1)
  let s := { s with waiters := (s.waiters.mapVal (fun _ (l : List Nat) => l.filter (fun k => !ids.contains k))).keep (fun _ l => l ≠ []) }
  (gone.foldl (fun s r => s.endReq r.1 r.2) s).wakeAfter gone

/-- An agent's directory bits treated as answered with RspNP (R283, R508). -/
def State.dropAgent (s : State) (agent : Nat) : State :=
  let bit := agentBit agent
  let lines := s.txns.keys.filter (fun n => (s.txns.get? n).any (fun t => (t.awaits ||| t.wbDue) &&& bit ≠ 0))
  let s := { s with txns := s.txns.mapVal (fun _ (t : Txn) =>
    { t with awaits := t.awaits &&& ~~~bit, wbDue := t.wbDue &&& ~~~bit, next := t.next.map (fun (e : DirEntry) =>
      if t.awaits &&& bit ≠ 0 then { e with agents := e.agents &&& ~~~bit } else e) }) }
  let s := (s.dir.keys.filter (fun n => (s.txns.get? n).isNone)).foldl (fun s n =>
    match s.dir.get? n with
    | some e => if e.agents &&& bit = 0 then s else s.dirPut n (some { e with agents := e.agents &&& ~~~bit })
    | none => s) s
  lines.foldl State.closeTxn s

/-- The ports of a peer's group discard their replay buffers, what waits at them, and their sequence and credit state (R508). -/
def State.dropSessions (s : State) (d : Nat) : State :=
  { s with lbx := { s.lbx with ports := s.lbx.ports.mapVal (fun _ (p : LbxPort) =>
    if p.peer.map (fun (x : Nat × Nat) => x.1) = some d then
      { p with rx := FlitDir.init, tx := FlitDir.init, credits := lbxBuffers, wait := [] } else p) } }

/-- The device a request is bound for. -/
def MemReq.dest (q : MemReq) : Option Nat := match q.home with
  | .peer d _ _ => some d
  | _ => none

/-- Requests to a lost device end their tasks and commands (R507), with STATE_LOST where their page belongs to a failed pool (Table 11-10
step 5). -/
def State.dropRequests (s : State) (d : Nat) : State :=
  s.reqs.rows.foldl (fun s r => match s.reqs.get? r.1 with
    | some q => if q.dest = some d then s.reqFail r.1 q (if s.poolFailed q.part q.va then .stateLost else .peerUnreachable) else s
    | none => s) s

/-- A device is lost: both its roles end (R507, R508). -/
def State.loseDevice (s : State) (d : Nat) : State :=
  let s := { s with lbx := { s.lbx with lost := d :: s.lbx.lost.filter (fun x => x ≠ d) } }
  (((s.dropRequests d).dropWaiters d).dropAgent (2 + d)).dropSessions d

/-- Whether a peer is unreachable from every partition that has a page backed by it, or from the device where none has (R506). -/
def State.unreachable (s : State) (d : Nat) : Bool :=
  let users := (s.parts.rows.filter (fun r => r.2.pages.any (fun _ g => match g.backing with
    | .peer e _ _ => e = d
    | _ => false))).map (·.1)
  if users = [] then s.portGroup d = [] else users.all (fun p => s.portsTo p d = [])

/-- PEER_LOST: a peer other than the twin has been unreachable for 1 ms. -/
def execPeerLost (dest : Fin 8) (s : State) : Out :=
  let d := dest.val
  if d = s.lbx.d || s.lbx.lost.contains d || (s.lbx.twin && d = s.twinNum) || !s.unreachable d then .next s
  else .next ((s.loseDevice d).event 0x505 d)

/-! ## Failover (Table 11-10) -/

/-- The bytes of a write that were sent to a peer or still wait at a port for a request, its parts in order. -/
def State.heldData (s : State) (id : Nat) : List Byte :=
  let sent := s.outbox.reverse ++ (s.lbx.ports.vals.map (·.wait)).flatten
  (sent.filterMap (fun m => match m with
    | .lbx _ kind (k :: _) d => if k = id && (kind = LbxKind.wr.code || kind = LbxKind.wrTile.code) then some d else none
    | _ => none)).flatten

/-- What a state is after a command that answers with one. -/
def nextOf (s : State) : Out → State
  | .next t => t
  | _ => s

/-- One request settled at failover step 2: a write to a mirrored line that the trunk still holds takes effect at the local copy; `held` says
that the line was mirrored from here. -/
def State.settleMirror (s : State) (held : Bool) (id : Nat) (q : MemReq) : State :=
  match q.home, q.kind with
  | .dev _, .semAcq _ _ => s
  | .dev _, .load _ _ _ _ _ _ => s
  | .dev _, .prefetch => s
  | .dev _, .read _ _ => s
  | .dev _, .tile true _ _ => if held then nextOf s (execCmp ⟨id, false⟩ s) else s
  | .dev _, .tile false _ _ => s
  | .dev _, _ => if held && q.stage = .waiting then
      (s.stageReq id q .flight).advance id
    else s
  | .peer _ _ _, k => match s.homeOf q.part q.va with
    | some (.dev n) => match k, q.src with
      | .tile true _ _, .cmd _ =>
        let d := s.heldData id
        let s := s.endReq id q
        let n := s.forward n
        let lines := (List.range 16).map (fun j => BitVec.ofNat 1024 (ofBytes ((d.drop (128 * j)).take 128)))
        let s := (s.fullWrite n lines (.outer 1)).getD s
        (List.range 16).foldl (fun s k => (s.wakeLine (.dev (n + k))).getD s) s
      | .tile _ _ _, _ => s.endReq id q
      | _, _ =>
        (s.stageReq id { q with home := .dev n, via := { q.via with arr := none, leaf := none } } .flight).advance id
    | _ => s
  | _, _ => s

/-- Reads that waited for the twin's copy of a MIRRORED_STALE tile are served again, and fail (Table 9-2). -/
def State.releaseStale (s : State) : State :=
  s.reqs.rows.foldl (fun s r => match r.2.home with
    | .dev n =>
      let line := s.forward n
      (match s.tileOfLine line with
       | some t => if (s.tssAt t.key).state = .stale && r.2.stage = .waiting then s.releaseTile line 0 else s
       | none => s)
    | _ => s) s

/-- Failover: this device is the sole home of every local copy, and the lost twin's pools fail; `mirrors` are the twin's pools whose mirrors
this device holds. -/
def State.failover (s : State) (mirrors : BitVec 64) : State :=
  let d := s.twinNum
  let mine := s.reqs.rows.filter (fun r => match r.2.home with
    | .dev n => s.mirrored (s.forward n)
    | .peer e x _ => e = d && 256 ≤ x
    | _ => false)
  let s := s.event 0x506 0
  let s := { s with
    pair := { s.pair with
      state := .solo, lowCount := false, naming := [], ret := false, lastFailover := s.fw.ms, mirrors := s.pair.mirrors ||| mirrors }
    mm := { s.mm with migs := s.mm.migs.filter (fun m => match m with
      | .detach _ _ _ => false
      | .attach _ _ => false
      | _ => true) }
    pools := s.pools.mapVal (fun _ (p : Pool) => if p.onTwin && !p.mirror then { p with failed := true } else p) }
  let s := mine.foldl (fun s r => match s.reqs.get? r.1 with
    | some q => s.settleMirror true r.1 q
    | none => s) s
  let s := (s.loseDevice d).releaseStale
  s.scanLedgers (fun id => id / 64 = d)

/-- TWIN_ALIVE_IN falls (R624). In PEER mode the input is ignored. -/
def execTwinAliveInLow (s : State) : Out :=
  .next { s with
    pins := { s.pins with twinIn := false }
    pair := { s.pair with lowCount := s.lbx.twin && (s.pair.state = .paired || s.pair.state = .severed) } }

/-- TWIN_ALIVE_IN rises. -/
def execTwinAliveInHigh (s : State) : Out :=
  .next { s with pins := { s.pins with twinIn := true }, pair := { s.pair with lowCount := false } }

/-- TWIN_ALIVE_TIMEOUT: the input has been low for 10 µs (Table 11-9); `reserved` names the twin's pools that have their mirrors here
(R385). -/
def execTwinAliveTimeout (reserved : BitVec 64) (s : State) : Out :=
  if !s.pair.lowCount || !(s.pair.state = .paired || s.pair.state = .severed) || !s.alive then .next s
  else .next (s.failover reserved)

/-- TRUNK_SEVERED: all six trunk ports have been down for 1 ms while TWIN_ALIVE in is high (R396, R397). -/
def execTrunkSevered (s : State) : Out :=
  if s.pair.state ≠ .paired || s.trunkUp || !s.pins.twinIn then .next s
  else .next ({ s with pair := { s.pair with state := .severed } }.event 0x506 0)

/-- TWIN_FORCE_SOLO. -/
def execTwinForceSolo (r : Req) (reserved : BitVec 64) (s : State) : Out :=
  serve r 0x0A0A [] (pfOnly r) (fun _ s => do
    refuseIf (s.pair.state ≠ .severed) .notInMode
    pure (Ans.ok (s.failover reserved))) s

/-! ## Pairing and status -/

/-- The pairs of a request's list, each a local partition and its partner, and whether one was clamped. -/
def pairList : List Nat → List (Nat × Nat) × Bool
  | a :: b :: t =>
    let r := pairList t
    ((partArg a, partArg b) :: r.1, r.2 || 15 < a || 15 < b)
  | _ => ([], false)

/-- A command whose list is one of partition pairs, with the fields that follow it (R515). -/
def servePairs (r : Req) (code : Nat) (after : List Nat) (perm : State → List (Nat × Nat) → Bool)
    (body : List (Nat × Nat) × Bool → List Nat → State → Serve) (s : State) : Out :=
  let n := numAt ((s.fnRec r.fn).slot r.slot).payload 0 2
  serve r code ([2] ++ List.replicate (2 * n) 1 ++ after)
    (fun s fs => perm s (pairList ((fs.drop 1).take (2 * n))).1)
    (fun fs s => body (pairList ((fs.drop 1).take (2 * n))) (fs.drop (1 + 2 * n)) s) s

/-- The pair table with pairs added in place of earlier ones of the same local partitions. -/
def State.withPairs (s : State) (l : List (Nat × Nat)) : State :=
  { s with pair := { s.pair with pairs := s.pair.pairs.filter (fun x => !(l.any (fun y => y.1 = x.1))) ++ l } }

/-- The twin is a device that can be reached again. -/
def State.twinBack (s : State) : State :=
  { s with lbx := { s.lbx with lost := s.lbx.lost.filter (fun d => d ≠ s.twinNum) } }

/-- TWIN_PAIR: the pairs are told to the twin, whose own TWIN_PAIR is taken as given (R394). -/
def execTwinPair (r : Req) (s : State) : Out :=
  servePairs r 0x4A07 [] (fun s l => s.permits r.fn false && l.all (fun x => !(s.part x.1).confidential))
    (fun l _ s => do
      refuseIf (!s.trunkUp || !s.pins.twinIn || s.pair.state ≠ .unpaired) .notInMode
      let s := ((s.withPairs l.1).twinBack).toPeer s.twinNum 0 .pairing (l.1.map (fun x => x.1 + 16 * x.2)) []
      pure (Ans.ok { s with pair := { s.pair with state := .paired } } l.2)) s

/-- The code of a pair state, in the order of Table 11-9. -/
def PairState.code : PairState → Nat
  | .unpaired => 0 | .paired => 1 | .solo => 2 | .severed => 3 | .detached => 4 | .attaching => 5

/-- The image of TWIN_STATUS: pair state, trunk ports up, pools with a mirror, and the time of the last failover. -/
def State.twinImage (s : State) : List Byte :=
  encodeFields [(1, s.pair.state.code), (1, numOfBits ((s.portGroup s.twinNum).filter (fun k => s.lbx.twin && k < 6))),
    (8, numOfBits ((s.pools.rows.filter (fun r => r.2.mirror)).map (·.1))), (4, s.pair.lastFailover)]

/-- TWIN_STATUS: a VF's where its own partition is paired. -/
def execTwinStatus (r : Req) (s : State) : Out :=
  serve r 0x0A0B [1]
    (fun s _ => s.permits r.fn true && (r.fn = 0 || s.pair.pairs.any (fun x => x.1 = s.vfPart r.fn)))
    (fun fs s => pageAns s r.fn s.twinImage (fieldAt fs 0) false) s

/-! ## Detach and attach (Tables 11-11 and 11-12) -/

/-- The tiles of a partition that a detach copies, by virtual address divided by 2 KiB: those of the unmirrored pages in this device's
memory. -/
def State.detachTiles (s : State) (p : Nat) : List Nat :=
  ((s.part p).pages.rows.map (fun r => match r.2.backing with
    | .dev d =>
      if (s.poolOfLine (d / 128)).any (fun x => x.mirror) || (s.regionOf (d / 128)).isSome then []
      else (List.range (r.2.bytes / 2048)).map (fun t => r.1 * 32 + t)
    | _ => [])).flatten

/-- Steps 1 to 3 of a detach begun for the named partitions: each quiesces, and its copy is accepted. -/
def State.beginDetach (s : State) : State :=
  let s := s.pair.naming.foldl (fun s p => if (s.part p).state = .active then s.quiesce p else s) s
  s.pair.naming.foldl (fun s p =>
    if s.detachTiles p = [] then s else { s with mm := { s.mm with migs := s.mm.migs ++ [.detach p [] []] } }) s

/-- Whether the named partitions have quiesced and been copied. -/
def State.detachDone (s : State) : Bool :=
  s.pair.naming.all (fun p => (s.part p).state ≠ .quiescing && (s.part p).state ≠ .active)
    && !(s.mm.migs.any (fun m => match m with
      | .detach p _ _ => s.pair.naming.contains p
      | _ => false))

/-- The named partitions in a state. -/
def State.setNamed (s : State) (from_ to_ : PartState) : State :=
  s.pair.naming.foldl (fun s p => if (s.part p).state = from_ then s.setPart p { s.part p with state := to_ } else s) s

/-- TWIN_DETACH: `lacks` says that a partner has too few free frames. MB_OK follows the last step. -/
def execTwinDetach (r : Req) (lacks : Bool) (s : State) : Out :=
  serveList r 0x4A08 [] 1 (fun s _ => s.permits r.fn false && !lacks) (fun _ l s => do
    let ps := l.map partArg
    refuseIf (s.pair.state ≠ .paired || (s.pair.naming = [] && ps.any (fun p => !(s.pair.pairs.any (fun x => x.1 = p))))) .notInMode
    let s := if s.pair.naming = [] then { s with pair := { s.pair with naming := ps } }.beginDetach else s
    if !s.detachDone then pure { Ans.ok s with later := true }
    else
      let s := s.setNamed .quiesced .detached
      pure (Ans.ok { s with pair := { s.pair with state := .detached, naming := [] } } (l.any (fun p => 15 < p)))) s

/-- The firmware of the returning device makes its copies sole, as if every pool of the serving device had failed with a mirror (Table 11-12
step 5). -/
def State.takeBack (s : State) : State :=
  let d := s.twinNum
  (s.setNamed .detached .quiesced).scanWith (fun id => id / 64 = d) (fun id => some (id % 64 + 64 * s.lbx.d))

/-- TWIN_ATTACH: ATTACHING, then PAIRED when every chunk is done, then with RETURN the detach steps of the serving device toward the
other. MB_OK follows the last step. -/
def execTwinAttach (r : Req) (s : State) : Out :=
  servePairs r 0x4A09 [1] (fun s _ => s.permits r.fn false) (fun l fs s => do
    let clamped := l.2 || 1 < fieldAt fs 0
    if s.pair.naming = [] then
      refuseIf (s.pair.state ≠ .solo && s.pair.state ≠ .detached) .notInMode
      if !s.trunkUp then pure { Ans.ok s with later := true }
      else
        let ps := l.1.map (·.1)
        let s := (s.withPairs l.1).twinBack
        let s := { s with
          pair := { s.pair with state := .attaching, naming := ps, ret := fieldAt fs 0 = 1 }
          mm := { s.mm with migs := s.mm.migs ++ ps.map (fun p => .attach p 0) } }
        if ps = [] then pure (Ans.ok { s with pair := { s.pair with state := .paired, ret := false } } clamped)
        else pure { Ans.ok s with later := true }
    else if s.pair.state = .attaching then pure { Ans.ok s with later := true }
    else if s.pair.ret && !s.detachDone then pure { Ans.ok s with later := true }
    else
      let s := if s.pair.ret then s.takeBack else s
      pure (Ans.ok { s with pair := { s.pair with naming := [], ret := false } } clamped)) s

/-- The device tiles of a 2 MiB chunk of a partition's addresses. -/
def State.chunkTiles (s : State) (p chunk : Nat) : List TileAt :=
  (List.range 1024).filterMap (fun t => match s.homeOf p (chunk * 2097152 + t * 2048) with
    | some (.dev n) => s.tileOfLine n
    | _ => none)

/-- Whether a migration is the attach of a partition. -/
def Migration.isAttach : Migration → Bool
  | .attach _ _ => true
  | _ => false

/-- ATTACH_CHUNK: the next chunk of the migration in turn: on the returning device its tiles become MIRRORED_STALE once the chunk before
is resynchronised; on the serving device its writes are mirrored from now on. After the last chunk the attach of the partition is
done, and after the last partition the pair is PAIRED. -/
def execAttachChunk (s : State) : Out :=
  match s.mm.migs with
  | .attach p n :: rest =>
    let chunks := s.mirrorChunks p
    let back := (s.part p).state = .detached
    let before := if n = 0 then [] else s.chunkTiles p (chunks.getD (n - 1) 0)
    let now := if n < chunks.length then s.chunkTiles p (chunks.getD n 0) else []
    let stale := before.any (fun t => (s.tssAt t.key).state = .stale)
    let busy := now.any (fun t => (s.tssAt t.key).state = .opened || t.lines.any (fun l => s.lineBusy 0 l))
    if back && (stale || busy) then .next s
    else
      let s := if back then now.foldl (fun s t => (s.dropTile t).tileStale t) s else s
      if n < chunks.length then .next { s with mm := { s.mm with migs := .attach p (n + 1) :: rest } }
      else
        let s := { s with mm := { s.mm with migs := rest } }
        if rest.any Migration.isAttach then .next s
        else
          let s := { s with pair := { s.pair with state := .paired } }
          .next (if s.pair.ret && !back then s.beginDetach else s)
  | _ => .next s

end Sys2Proof.Machine
end

