-- ==== Sys2Proof/Machine/Host.lean ====
section
/-! DEFINITION. The host link: bindings, tumbler grants, the CXL.mem window, dirty-page logging, function level resets, link-down and IDE
(R459 to R489, R552, R556, Tables 14-1 to 14-8). -/

namespace Sys2Proof.Machine

/-! ## Bindings (R461 to R463, R552) -/

/-- Whether a number names a VF. -/
def isVf (f : Nat) : Bool := 1 ≤ f && f ≤ 63

/-- VF_BIND. -/
def execVfBind (r : Req) (s : State) : Out :=
  serve r 0x4B00 [1, 1, 1]
    (fun s fs =>
      let p := fieldAt fs 1
      s.permits r.fn false && (s.part p).state ≠ .free && fieldAt fs 2 < (s.part p).contexts
        && !(s.fns.any (fun f v => v.ctx = some (p, fieldAt fs 2) && f ≠ fieldAt fs 0)))
    (fun fs s => do
      let f := fieldAt fs 0
      refuseIf (!isVf f) .badLength
      refuseIf ((s.fnRec f).ctx.isSome || !s.host.vfEnable) .notInMode
      pure (Ans.ok (s.setFn f { s.fnRec f with ctx := some (fieldAt fs 1, fieldAt fs 2) }))) s

/-- The queues of a context. -/
def State.ctxQueues (s : State) (p ctx : Nat) : List (Nat × Queue) := s.queues.rows.filter (fun r => r.1 / 8 = p * 8 + ctx)

/-- VF_UNBIND: of a CONFIDENTIAL partition's context only in QUIESCED, with a scrub of the whole partition (R552). -/
def execVfUnbind (r : Req) (s : State) : Out :=
  serve r 0x4B01 [1] (pfOnly r) (fun fs s =>
    let f := fieldAt fs 0
    if !isVf f then .error .badLength
    else match (s.fnRec f).ctx with
      | none => .error .notInMode
      | some (p, c) => do
        let secret := (s.part p).confidential
        refuseIf ((s.ctxQueues p c).any (fun q => q.2.state ≠ .disabled) || (s.fnRec f).flr || (s.fnRec 0).flr) .notInMode
        refuseIf (secret && (s.part p).state ≠ .quiesced) .notInMode
        match (if secret then s.recall (s.inPart p) else (true, s)) with
        | (false, s) => pure { Ans.ok s with later := true }
        | (true, s) =>
          let s := if secret then (s.scrubPart p).nextGeneration p else s
          pure (Ans.ok (s.setFn f { s.fnRec f with ctx := none }))) s

/-- The code of a queue state (Table 12-2). -/
def QState.code : QState → Nat
  | .idle => 0 | .active => 1 | .stalled => 2 | .draining => 3 | .disabled => 4

/-- The image of VF_STATUS: bound, partition and context, the state of each queue, LOG_MISSES, and whether logging is on. -/
def State.vfImage (s : State) (f : Nat) : List Byte :=
  let v := s.fnRec f
  let b := v.ctx.getD (0, 0)
  let st := fun (k : Nat) => match v.ctx with
    | some (p, c) => ((s.queue? (p * 64 + c * 8 + k)).map (fun q => q.state.code)).getD 4
    | none => 4
  encodeFields ([(1, if v.ctx.isSome then 1 else 0), (1, b.1), (1, b.2)] ++ (List.range 8).map (fun k => (1, st k))
    ++ [(8, (v.log.map (·.misses)).getD 0), (1, if v.log.isSome then 1 else 0)])

/-- VF_STATUS: a VF's for itself, bound or not (R462). -/
def execVfStatus (r : Req) (s : State) : Out :=
  serve r 0x0B02 [1, 1] (fun _ fs => r.fn = 0 || min (fieldAt fs 0) 63 = r.fn.val)
    (fun fs s => pageAns s r.fn (s.vfImage (min (fieldAt fs 0) 63)) (fieldAt fs 1) (63 < fieldAt fs 0)) s

/-! ## The tumbler (R469 to R471) -/

/-- TUMBLER_ALLOW. -/
def execTumblerAllow (r : Req) (s : State) : Out :=
  serve r 0x4B03 [1, 2]
    (fun s fs =>
      let g := (s.fnRec (min (fieldAt fs 0) 63)).grants
      s.permits r.fn false && (g.contains (fieldAt fs 1) || g.length < 16))
    (fun fs s =>
      let f := min (fieldAt fs 0) 63
      let v := s.fnRec f
      let g := if v.grants.contains (fieldAt fs 1) then v.grants else v.grants ++ [fieldAt fs 1]
      pure (Ans.ok (s.setFn f { v with grants := g }) (63 < fieldAt fs 0))) s

/-- TUMBLER_REVOKE. -/
def execTumblerRevoke (r : Req) (s : State) : Out :=
  serve r 0x4B04 [1, 2] (pfOnly r) (fun fs s =>
    let f := min (fieldAt fs 0) 63
    let v := s.fnRec f
    pure (Ans.ok (s.setFn f { v with grants := v.grants.filter (fun g => g ≠ fieldAt fs 1) }) (63 < fieldAt fs 0))) s

/-- TUMBLER_READ_REJECT: a read of a BAR by a requester other than the host's upstream port completes Unsupported Request; a grant admits no
read (R470). -/
def execTumblerReadReject (fn : Fin 64) (rid : BitVec 16) (s : State) : Out :=
  if !s.host.up || !s.fnExists fn then .next s
  else .next ((s.tumblerDrop fn 2 rid.toNat).event 0x601 fn)

/-! ## The CXL.mem window (R466 to R468) -/

/-- The frames that the window has. -/
def State.windowFrames (s : State) : Nat := (s.host.decoder.map (fun d => d.2 / 2097152)).getD 0

/-- HDM_DECODER_COMMIT: a window of 256 MiB to 509 GiB in multiples of 256 MiB (Table 14-1); the firmware rebuilds the mapping that it
holds, as far as the window reaches (R481). -/
def execHdmDecoderCommit (base size : Nat) (s : State) : Out :=
  let ok := base % 2 ^ 28 = 0 && size % 2 ^ 28 = 0 && 2 ^ 28 ≤ size && size ≤ 509 * 2 ^ 30 && base + size ≤ 2 ^ 52
  if !s.host.up || !ok then .next s
  else .next { s with host := { s.host with
    decoder := some (base, size), window := s.host.window.keep (fun k _ => decide (k < size / 2097152)), memActive := s.boot.ready } }

/-- The device frame of a 2 MiB page at an address, by DPA. -/
def State.frameAt (s : State) (p va : Nat) : Option Nat :=
  match (s.part p).page? va with
  | some (base, g) => if g.large && base = va then (match g.backing with
      | .dev d => some d
      | .shared d => some d
      | _ => none) else none
  | none => none

/-- OFFSET and COUNT of a window command: the first frame, the number of frames, and whether a field changed. -/
def State.windowRange (s : State) (off count : Nat) : Nat × Nat × Bool :=
  let k := min (off / 2097152) s.windowFrames
  let n := min count (s.windowFrames - k)
  (k, n, k * 2097152 ≠ off || n ≠ count)

/-- HOST_WINDOW_MAP: every frame is a large page in device memory, and the frame shows nothing yet (log 35). -/
def execHostWindowMap (r : Req) (s : State) : Out :=
  serve r 0x4B05 [8, 1, 8, 4] (fun s fs => s.permits r.fn false && !(s.part (partArg (fieldAt fs 1))).confidential) (fun fs s => do
    let p := partArg (fieldAt fs 1)
    let w := s.windowRange (fieldAt fs 0) (fieldAt fs 3)
    let va := min (fieldAt fs 2 / 2097152 * 2097152) (windowEnd - 2097152)
    let n := min w.2.1 ((windowEnd - va) / 2097152)
    let fr := (List.range n).map (fun k => s.frameAt p (va + k * 2097152))
    refuseIf ((s.part p).state = .free || fr.any (fun d => d.isNone)) .notInMode
    refuseIf ((List.range n).any (fun k => (s.host.window.get? (w.1 + k)).isSome)) .notInMode
    let win := fr.zipIdx.foldl (fun (t : Tab Nat) d => t.set (w.1 + d.2) (d.1.getD 0)) s.host.window
    pure (Ans.ok { s with host := { s.host with window := win } }
      (w.2.2 || n ≠ w.2.1 || va ≠ fieldAt fs 2 || 15 < fieldAt fs 1))) s

/-- Host copies of lines recalled by back-invalidate snoops: true once none is left (R279, R468). -/
def State.recallHost (s : State) (p : Nat → Bool) : Bool × State :=
  let ls := s.dir.rows.filter (fun r => p r.1 && r.2.agents &&& agentBit 0 ≠ 0)
  let busy := s.txns.any (fun n _ => p n)
  let s := ls.foldl (fun s r => if (s.txns.get? r.1).isSome then s
    else s.openTxn r.1 ⟨agentBit 0, true, some { r.2 with agents := r.2.agents &&& ~~~(agentBit 0) }⟩ none false) s
  (ls.isEmpty && !busy, s)

/-- HOST_WINDOW_UNMAP: answered once the host holds no copy of the frames' lines. -/
def execHostWindowUnmap (r : Req) (s : State) : Out :=
  serve r 0x4B06 [8, 4] (pfOnly r) (fun fs s =>
    let w := s.windowRange (fieldAt fs 0) (fieldAt fs 1)
    let mine := fun (k : Nat) => decide (w.1 ≤ k ∧ k < w.1 + w.2.1)
    let frames := (s.host.window.keep (fun k _ => mine k)).vals
    match s.recallHost (fun line => frames.any (fun d => d / 128 ≤ line && line < (d + 2097152) / 128)) with
    | (false, s) => .ok { Ans.ok s with later := true }
    | (true, s) => .ok (Ans.ok { s with host := { s.host with window := s.host.window.keep (fun k _ => !mine k) } } w.2.2)) s

/-! ## Dirty-page logging (R472 to R474) -/

/-- DIRTY_LOG_START. -/
def execDirtyLogStart (r : Req) (s : State) : Out :=
  serve r 0x4B07 [1, 8, 8, 8, 8] (pfOnly r) (fun fs s => do
    let f := fieldAt fs 0
    refuseIf (!isVf f) .badLength
    refuseIf (s.fnRec f).log.isSome .notInMode
    let down := fun (k : Nat) => fieldAt fs k / 4096 * 4096
    let n := clampTo 1 (2 ^ 36) (fieldAt fs 2)
    pure (Ans.ok (s.setFn f { s.fnRec f with log := some ⟨down 1, n.1, down 3, down 4, false, 0⟩ })
      (n.2 || down 1 ≠ fieldAt fs 1 || down 3 ≠ fieldAt fs 3 || down 4 ≠ fieldAt fs 4))) s

/-- A dirty log changed: refused where logging is off. -/
def logChange (r : Req) (code : Nat) (f : DirtyLog → Option DirtyLog) (s : State) : Out :=
  serve r code [1] (pfOnly r) (fun fs s =>
    let v := s.fnRec (fieldAt fs 0)
    if !isVf (fieldAt fs 0) then .error .badLength
    else match v.log with
      | none => .error .notInMode
      | some l => .ok (Ans.ok (s.setFn (fieldAt fs 0) { v with log := f l }))) s

/-- DIRTY_LOG_SWAP: the buffers change places; every earlier mark is in the outgoing one. -/
def execDirtyLogSwap (r : Req) (s : State) : Out := logChange r 0x4B08 (fun l => some { l with second := !l.second }) s
/-- DIRTY_LOG_STOP: a final swap, and logging is off. -/
def execDirtyLogStop (r : Req) (s : State) : Out := logChange r 0x4B09 (fun _ => none) s

/-! ## VF Enable and function level resets (R464, R476 to R480) -/

/-- VF_ENABLE_WRITE. -/
def execVfEnableWrite (on : Bool) (s : State) : Out :=
  if !s.host.up then .next s else .next { s with host := { s.host with vfEnable := on } }

/-- Steps 1 to 3 of Table 14-5 for a context: its queues drain with their shadows discarded, its fetched commands are drained and killed, and
records and signals not yet issued are squashed. -/
def State.flrContext (s : State) (p ctx : Nat) : State :=
  let s := (s.ctxQueues p ctx).foldl (fun s q =>
    if q.2.state = .disabled then s
    else s.setQueue q.1 { q.2 with state := .draining, enable := false, drainPend := false, shadow := [] }) s
  let s : State := { s with cmds := s.cmds.keep (fun _ c => !(c.part = p && c.ctx = ctx && c.stage = CmdStage.recorded)) }
  (s.cmds.rows.filter (fun (r : Nat × Cmd) => r.2.part = p && r.2.ctx = ctx)).foldl (fun (s : State) r => s.stopCmd r.1 r.2 .killed) s

/-- A function's outstanding mailbox requests discarded and its response area zeroed (Table 14-5 step 6). -/
def Fn.dropRequests (v : Fn) : Fn :=
  { v with slots := v.slots.mapVal (fun _ (k : Slot) => { k with state := SlotState.free, resp := [], busy := false }) }

/-- FLR of a VF. -/
def execFlr (fn : Fin 64) (s : State) : Out :=
  let v := s.fnRec fn
  if fn.val = 0 || !s.host.up || !s.fnExists fn || v.flr || (s.fnRec 0).flr then .next s
  else
    let s := s.setFn fn { v.dropRequests with flr := true }
    .next (match v.ctx with
      | some (p, c) => s.flrContext p c
      | none => s)

/-- The FLR of the PF up to its waits (R479): every context, every mailbox, VF Enable, dirty logs and tumbler counters. -/
def State.flrAll (s : State) : State :=
  let s := { s with
    fns := s.fns.mapVal (fun _ (v : Fn) => { v.dropRequests with flr := false, log := none, drops := 0, lastKind := 0, lastRid := 0 })
    host := { s.host with vfEnable := false } }
  let s := s.setFn 0 { (s.fnRec 0) with flr := true, slots := .empty }
  (s.queues.keys.map (fun q => q / 8)).foldl (fun s k => s.flrContext (k / 8) (k % 8)) s

/-- PF_FLR. -/
def execPfFlr (s : State) : Out := if !s.host.up || (s.fnRec 0).flr then .next s else .next s.flrAll

/-- Whether a transfer of a context is still to be drained: a fetched command, or a peer write or signal that is not acknowledged (Table
14-5 steps 2 and 5). -/
def State.flrBusy (s : State) (here : Nat → Nat → Bool) : Bool :=
  s.cmds.any (fun _ c => here c.part c.ctx)
  || s.reqs.any (fun _ q => q.remote && (match q.src with
    | .cmd id => (match s.cmd? id with
      | some c => here c.part c.ctx
      | none => (List.range 8).any (fun c => here q.part c))
    | .grp b _ => (match (s.blocks.get? b).bind (fun k => s.tasks.get? k.task) with
      | some t => here t.part t.ctx
      | none => false)
    | .fe k => here (k / 64) (k / 8 % 8)
    | .outer _ _ _ => false))

/-- FLR_COMPLETE: step 7 of Table 14-5: the queues are DISABLED with their indexes zero, and Transactions Pending clears. -/
def execFlrComplete (fn : Fin 64) (s : State) : Out :=
  let v := s.fnRec fn
  let here := fun (p c : Nat) => fn.val = 0 || v.ctx = some (p, c)
  if !v.flr || s.flrBusy here then .next s
  else
    let s := s.setFn fn { v with flr := false }
    let s := { s with queues := s.queues.mapVal (fun k (q : Queue) =>
      if here (k / 64) (k / 8 % 8) then
        { q with state := .disabled, enable := false, drainPend := false, sqHead := 0, tail := 0, head := 0, cqTail := 0, phase := true }
      else q) }
    .next ((List.range 16).foldl State.settleQuiesce s)

/-! ## Link-down (R481, R556) -/

/-- Requests for host memory, and of the host, end with the link. -/
def State.dropHostRequests (s : State) : State :=
  let hosted := fun (h : Home) => match h with
    | .host _ => true
    | _ => false
  let s := { s with waiters := s.waiters.keep (fun k _ => k / 128 % 3 != 1) }
  s.reqs.rows.foldl (fun s r => match s.reqs.get? r.1 with
    | none => s
    | some q => match q.src with
      | .outer 0 _ _ => match q.kind with
        | .read _ _ => s.endReq r.1 q
        | _ => s
      | _ => if hosted q.home then (match q.stage with
          | .back _ => s
          | _ => s.reqFail r.1 q .accessFault) else s) s

/-- The host link goes down: the FLR of the PF, with every transfer toward the host squashed at once, host lines discarded without
write-back, and the window and decoder as after a CXL reset. -/
def State.linkDown (s : State) : State :=
  let s := if (s.fnRec 0).flr then s else s.flrAll
  let s := (s.dropHostRequests.dropHostLines).dropAgent 0
  { s with host := { s.host with up := false, memActive := false, ideIo := false, ideCxl := false, decoder := none } }.event 0x604 0

/-- HOST_LINK_DOWN. -/
def execHostLinkDown (s : State) : Out := if !s.host.up then .next s else .next s.linkDown

/-- HOST_LINK_UP: the link retrains, once start-up has trained it first and while its PLL is locked. -/
def execHostLinkUp (s : State) : Out :=
  if s.host.up || !(s.boot.ready || s.boot.minimal || 4 < s.boot.stage) || s.clocks.plls.get .unlocked 0 ≠ .locked then .next s
  else .next { s with host := { s.host with up := true } }

/-- IDE_INSECURE: a stream leaves the secure state: 0 PCIe IDE, 1 CXL IDE. -/
def execIdeInsecure (stream : Fin 2) (s : State) : Out :=
  let was := if stream = 0 then s.host.ideIo else s.host.ideCxl
  if !was || !s.host.up then .next s else .next s.linkDown

/-- IDE_SECURE: both streams are secure, with the keys that IDE_KM programmed. -/
def execIdeSecure (s : State) : Out :=
  if !s.host.up || s.sec.ideKeys ≠ 3 then .next s
  else .next { s with host := { s.host with ideIo := true, ideCxl := true } }

end Sys2Proof.Machine
end

