-- ==== Sys2Proof/Machine/Clocks.lean ====
section
/-! DEFINITION. References and PLLs lost in service (R24, R26, R361, R362, Table 10-15). -/

namespace Sys2Proof.Machine

/-- A PLL's state set. -/
def State.setPll (s : State) (site : Nat) (p : Pll) : State :=
  { s with clocks := { s.clocks with plls := s.clocks.plls.put .unlocked site p } }

/-- The host link-down that a clock fault causes. -/
def State.clockDown (s : State) : State :=
  let s := s.event 0x40C 0
  if s.host.up then s.linkDown else s

/-- REFERENCE_LOST: the host reference takes the host link down, the board reference is device-fatal (R26); a start that has not reached
READY fails with CLOCK. The PLLs that a lost reference feeds do not stay locked (Table 1-4): the CXL site from the host's, every other
site from the board's. -/
def execReferenceLost (host : Bool) (s : State) : Out :=
  let had := if host then s.clocks.hostRef else s.clocks.boardRef
  if !had then .next s
  else
    let s := { s with clocks := { s.clocks with
      hostRef := s.clocks.hostRef && !host, boardRef := s.clocks.boardRef && host } }
    if !host then .next ((((List.range 31).foldl (fun s k => s.setPll (k + 1) .failed) s).event 0x40B 0).fatalError 2 (some 7))
    else if s.boot.running && !s.boot.ready then .next ((s.setPll 0 .failed).failStart 7)
    else .next ((s.setPll 0 .failed).clockDown)

/-- FORWARDED_PAIR_LOST: a correctable error (R24). DESIGN CHOICE (log 109): the loss of the second pair too is recorded so, and the PLLs of
half 1 stay locked; R24 speaks of one. -/
def execForwardedPairLost (pair : Fin 2) (s : State) : Out :=
  if !s.clocks.pairs.getLsbD pair then .next s
  else .next ({ s with clocks := { s.clocks with pairs := s.clocks.pairs &&& ~~~(BitVec.ofNat 2 (1 <<< pair.val)) } }.event 0x409 pair)

/-- PLL_LOCK_LOST: the domain is suspended while its PLL relocks (R362). -/
def execPllLockLost (site : Fin 32) (s : State) : Out :=
  if s.clocks.plls.get .unlocked site ≠ .locked then .next s else .next (s.setPll site .relocking)

/-- The unit that an event of a PLL site names (Table 1-2; log 115): the first of the site's two LBX ports, its stack, or its leaf. -/
def siteUnit (site : Nat) : Nat :=
  if site = 0 then 0 else if site ≤ 6 then 2 * (site - 1) else if site ≤ 22 then site - 7 else if site ≤ 30 then (site - 23) / 2 else 0

/-- The PHYs of a site retrain after its relock (R362): LBX ports train, and a hinge leaf end resets. -/
def State.retrainSite (s : State) (site : Nat) : State :=
  if 1 ≤ site && site ≤ 6 then
    [2 * (site - 1), 2 * (site - 1) + 1].foldl (fun s k => if (s.port k).runs then s.setPort k (s.port k).train else s) s
  else if 23 ≤ site && site ≤ 30 then s.stepLeaf ((site - 23) / 2) (fun l => l.reset ((site - 23) % 2 = 1))
  else s

/-- What a failed relock of a site leads to (Table 10-15); the spec names nothing for xSPI. -/
def State.relockFailed (s : State) (site : Nat) : State :=
  if site = 0 then s.clockDown
  else if site ≤ 6 then
    [2 * (site - 1), 2 * (site - 1) + 1].foldl (fun s k => s.setPort k { s.port k with state := .down }) (s.event 0x40E (siteUnit site))
  else if site ≤ 22 then (s.event 0x40D (siteUnit site)).fatalError 4 (some 7)
  else if site ≤ 30 then (s.event 0x40E (siteUnit site)).stepLeaf ((site - 23) / 2) (fun l => { l.scratch with state := .failed })
  else s

/-- PLL_RELOCK_END: the one relock of R362 succeeds or fails. -/
def execPllRelockEnd (site : Fin 32) (ok : Bool) (s : State) : Out :=
  if s.clocks.plls.get .unlocked site ≠ .relocking then .next s
  else if ok then .next (((s.setPll site .locked).event 0x40A (siteUnit site)).retrainSite site)
  else .next ((s.setPll site .failed).relockFailed site)

end Sys2Proof.Machine
end

