-- ==== Sys2Proof/Machine/Copy.lean ====
section
/-! DEFINITION. COPY, FILL and the copy engines (R314, R417, R440, R507). -/

namespace Sys2Proof.Machine

/-! ## Start -/

/-- A transfer starts; one of no bytes is done. -/
def startCopy (id op : Nat) (s : State) : Out :=
  starts id op s (fun c => if c.copyLen = 0 then s.cmdDone id .ok 0 else s.setCmd id { c with stage := .running })

/-- COPY. -/
def execCopy (id : Nat) (s : State) : Out := startCopy id 2 s
/-- FILL. -/
def execFill (id : Nat) (s : State) : Out := startCopy id 3 s

/-! ## Source tiles (R314, Table 3-10) -/

/-- What reading a source tile comes to: its 2 KiB, a wait with the state so far, or the end of the command. -/
inductive Piece where
  | got (s : State) (bytes : List Byte)
  | held (s : State)
  | failed (s : State) (st : Status)

/-- SRC_HINT. -/
def Cmd.srcHint (c : Cmd) : Nat := numAt c.bytes 56 1 % 4
/-- DST_HINT: spent acts as DEFAULT. -/
def Cmd.dstHint (c : Cmd) : Nat :=
  let h := numAt c.bytes 56 1 / 4 % 4
  if h = 3 then 0 else h

/-- A request of a command for a source tile. -/
def Cmd.tileReq (c : Cmd) (id va : Nat) (h : Home) : MemReq := ⟨.cmd id, c.part, va, h, .tile false 0 0, c.srcHint, .waiting, 0, .free⟩

/-- What has come of a source tile: its bytes, a stop, or nothing yet. -/
def State.pieceNow (s : State) (id va : Nat) : Piece :=
  match s.cmd? id with
  | none => .held s
  | some c => match c.srcTiles.get? va, c.srcFail with
    | some b, _ => .got s b
    | none, some (a, st) => if a = va then .failed s st else .held s
    | none, none => .held s

/-- A source tile of this device asked for, by its state (R242, Table 3-10). -/
def State.pieceDev (s : State) (id : Nat) (c : Cmd) (va n0 : Nat) : State :=
  let r := { s with nextId := s.nextId + 1 }.tileRead s.nextId (c.tileReq id va (.dev n0)) n0
  match r.2 with
  | some (q, t, true) => r.1.copyMeets s.nextId q t
  | _ => r.1

/-- A source tile of host memory: its lines are fetched through CXL.cache under the hint. -/
def State.pieceHost (s : State) (id : Nat) (c : Cmd) (va n : Nat) : Piece :=
  if !s.host.up then .failed s .accessFault
  else
    let lines := (List.range 16).map (fun l => n + l)
    let first := (c.srcTiles.get? (va + 1)).isNone
    let want := lines.filter (fun l => first || (!s.hostHeld l false && !s.reqs.any (fun _ q => q.home == .host l && q.src == .cmd id)))
    let s := want.foldl (fun s l =>
      let r := s.addReq ⟨.cmd id, c.part, va + 128 * (l - n), .host l, .prefetch, c.srcHint, .flight, 0,
        { Via.free with counted := !first }⟩
      r.2.advance r.1) s
    let c := (s.cmd? id).getD c
    let s := s.setCmd id { c with srcTiles := c.srcTiles.set (va + 1) [] }
    if lines.all (fun l => s.hostHeld l false) then .got s ((lines.map (fun l => lineBytes (s.hostView l))).flatten) else .held s

/-- The source tile at an aligned address. -/
def State.piece (s : State) (id : Nat) (c : Cmd) (va : Nat) : Piece :=
  match s.pieceNow id va with
  | .held s =>
    if s.reqs.any (fun _ q => q.src == .cmd id && q.va == va && (match q.kind with
      | .tile w _ _ => !w
      | _ => false)) then .held s
    else if s.poolFailed c.part va then .failed s .stateLost
    else match s.homeOf c.part va with
      | none => .failed s .accessFault
      | some (.dev n) => (s.pieceDev id c va n).pieceNow id va
      | some (.host n) => s.pieceHost id c va n
      | some (.peer d e n) =>
        if s.lbx.lost.contains d then .failed s .peerUnreachable
        else if s.portsTo c.part d = [] || !s.pins.twinOut || !s.replyRoom d (n / 16) then .held s
        else match s.cross (c.tileReq id va (.peer d e n)) with
          | none => .held s
          | some (s, q) =>
            let r := s.addReq q
            .held (r.2.toPeer d n .rdTile [r.1, e, n] [])
  | p => p

/-- The tiles that a range touches: the address of each and the part of the range in it, as an offset and a length. -/
def tileParts (a n : Nat) : List (Nat × Nat × Nat) :=
  (List.range ((a + n + 2047) / 2048 - a / 2048)).map (fun k =>
    let t := (a / 2048 + k) * 2048
    let from_ := max t a
    (t, from_ - t, min (t + 2048) (a + n) - from_))

/-- The bytes of a source range gathered tile by tile. A tile that fails behind others ends the range before it, and
the next range with its status (R314). -/
def State.gather (s : State) (id : Nat) (c : Cmd) : List (Nat × Nat × Nat) → List Byte → Piece
  | [], acc => .got s acc
  | (t, o, n) :: rest, acc =>
    match s.piece id c t with
    | .got s b => s.gather id ((s.cmd? id).getD c) rest (acc ++ (b.drop o).take n)
    | .held s => .held s
    | .failed s st => if acc = [] then .failed s st else .got s acc

/-! ## Destination (R417, R398) -/

/-- The lines of a tile that `n` bytes from an offset touch. -/
def linesOf (off n : Nat) : List Nat := (List.range 16).filter (fun k => 128 * k < off + n && off < 128 * (k + 1))

/-- Bytes written to lines of a device tile: a full write, a multi-line write, or a line write (Table 9-2). -/
def State.writePart (s : State) (n off : Nat) (b : List Byte) (w : WritePath) : Option State :=
  let lines := linesOf off b.length
  let whole := List.replicate off 0 ++ b
  let data := fun k => BitVec.ofNat 1024 (numAt whole (128 * k) 128)
  let mask := fun k => byteMask (max off (128 * k) - 128 * k) (min (off + b.length) (128 * (k + 1)) - max off (128 * k))
  match lines with
  | [k] => s.lineWrite (n + k) (data k) (mask k) w
  | _ => do
    let s ← s.beginWrite n
    let s ← lines.foldlM (fun s k =>
      if mask k = allBytes then s.openLine (n + k) (data k) w else s.lineWrite (n + k) (data k) (mask k) w) s
    pure (s.endWrite n)

/-- Bytes sent as stores of lines, which the record waits for. -/
def State.sendLines (s : State) (id : Nat) (c : Cmd) (dst : Nat) (b : List Byte) : State :=
  (List.range ((dst + b.length + 127) / 128 - dst / 128)).foldl (fun s k =>
    let l := dst / 128 + k
    let from_ := max (128 * l) dst
    let n := min (128 * (l + 1)) (dst + b.length) - from_
    match s.homeOf c.part (128 * l) with
    | some h => (s.addReq ⟨.cmd id, c.part, from_, h,
        .store (lineOf (from_ % 128) (ofBytes ((b.drop (from_ - dst)).take n))) (byteMask (from_ % 128) n), c.dstHint, .flight, 0, .free⟩).2
    | none => s) s

/-- A chunk of a transfer written to its destination tile; `none` when it waits, with the state that it waits in. -/
def State.writeChunk (s : State) (id : Nat) (c : Cmd) (dst : Nat) (h : Home) (b : List Byte) : Option (Bool × State) :=
  let off := dst % 2048
  let full := off = 0 && b.length = 2048
  match s.zeroHome h with
  | .dev n0 =>
    let n := s.forward (n0 / 16 * 16)
    let s := s.tssMeet n
    match s.tileOfLine n with
    | none => none
    | some t =>
      if t.lines.any (fun l => s.lineBusy 0 l) then none
      else match s.accessAll t.lines .write none false with
        | none => none
        | some (false, s) => some (false, s)
        | some (true, s) =>
          if s.mirrored n && !c.acked then
            if s.pair.state = .severed || s.reqs.any (fun _ q => q.src == .cmd id && q.kind == .tile true 0 0) then none
            else
              let r := s.addReq ⟨.cmd id, c.part, dst, .dev n, .tile true 0 0, 0, .waiting, 0, .free⟩
              some (false, r.2.toPeer s.twinNum n (if full then .wrTile else .wr) [r.1, n, off] b)
          else
            let ls := (linesOf off b.length).map (fun k => n + k)
            let s := ls.foldl (fun s l => s.countLookup c.part .copy c.dstHint (s.holdsAll (.dev l) allBytes)) s
            (((ls.foldlM (fun (s : State) l => (s.cross ⟨.cmd id, c.part, dst, .dev l, .store 0 allBytes, 0, .flight, 0, .free⟩).map (·.1)) s).bind
              (fun s => s.writePart n off b (.alloc ⟨c.part, .copy, c.dstHint⟩))).bind
              (fun s => t.lines.foldlM (fun s l => s.wakeLine (.dev l)) s)).map (fun s => (true, s.retryTxns))
  | .host _ => some (true, s.sendLines id c dst b)
  | .peer d e n =>
    if s.portsTo c.part d = [] || !s.pins.twinOut then none
    else if full then (s.cross ⟨.cmd id, c.part, dst, .peer d e n, .tile true 0 0, 0, .waiting, 0, .free⟩).map (fun r =>
      let k := r.1.addReq r.2
      (true, k.2.toPeer d n .wrTile [k.1, e, n] b))
    else some (true, s.sendLines id c dst b)

/-! ## The copy engines (R440) -/

/-- A chunk written: the bytes moved are counted, source tiles read under the spent hint are given up, and the command completes with its
last byte. -/
def State.chunkDone (s : State) (id : Nat) (c : Cmd) (n : Nat) : State :=
  let moved := c.moved + n
  let last := decide (c.copyLen ≤ moved)
  let s := if c.op = 2 && c.srcHint = 3 then
      let ts := (tileParts (c.copySrc + c.moved) n).filter (fun t => last || t.1 + 2048 ≤ c.copySrc + moved)
      (s.spentTiles c.part (ts.map (·.1))).foldl (fun s t =>
        (s.addReq ⟨.cmd id, c.part, t.1, t.2, .spent, 3, .flight, 0, .free⟩).2) s
    else s
  let c := (s.cmd? id).getD c
  let s := s.setCmd id { c with
    moved := moved, acked := false, srcTiles := c.srcTiles.keep (fun k _ => decide (c.copySrc + moved < k + 2048)) }
  if last then s.cmdDone id .ok (BitVec.ofNat 64 moved) else s

/-- The flags that a chunk's tiles raise (R382, R387). -/
def State.chunkFlags (s : State) (c : Cmd) (dst n : Nat) : BitVec 16 :=
  let ts := tileParts dst n ++ (if c.op = 2 then tileParts (c.copySrc + c.moved) n else [])
  ts.foldl (fun f t => match s.homeOf c.part t.1 with
    | some h => f ||| s.accessFlags c.part t.1 h
    | none => f) 0

/-- One chunk of a transfer: the bytes up to the next tile of the destination (R417). -/
def State.copyStep (s : State) (id : Nat) (c : Cmd) : State :=
  let dst := c.copyDst + c.moved
  let n := min (c.copyLen - c.moved) (2048 - dst % 2048)
  let fail := fun (s : State) (st : Status) => s.cmdDone id st (BitVec.ofNat 64 c.moved)
  match s.locate c.part dst with
  | some (h, true) =>
    let lost := match h with
      | .peer d _ _ => s.lbx.lost.contains d
      | _ => false
    if lost then fail s .peerUnreachable
    else if s.poolFailed c.part dst then fail s .stateLost
    else
      let src := if c.op = 3 then
          let p := sliceBytes c.bytes 40 8
          Piece.got s ((List.range n).map (fun k => p.getD ((c.moved + k) % 8) 0))
        else s.gather id c (tileParts (c.copySrc + c.moved) n) []
      match src with
      | .held s => s
      | .failed s st => fail s st
      | .got s b =>
        let c := (s.cmd? id).getD c
        match s.writeChunk id c dst h b with
        | none => s
        | some (false, s) => s
        | some (true, s) =>
          let f := s.chunkFlags c dst b.length
          let s := if f = 0 then s else s.cmdRaise id f
          s.chunkDone id ((s.cmd? id).getD c) b.length
  | _ => fail s .accessFault

/-- The transfer that a half's copy engines serve next: partitions in turn, the oldest of the partition. -/
def State.nextCopy (s : State) (half : Nat) : Option (Nat × Nat × Cmd) :=
  let mine := s.cmds.rows.filter (fun r => r.2.stage = .running && (r.2.op = 2 || r.2.op = 3)
    && (s.queue? r.2.queue).any (fun q => q.fe = half))
  let last := s.copyTurn.get 15 half
  ((List.range 16).map (fun k => (last + 1 + k) % 16)).findSome? (fun p =>
    (mine.find? (fun r => r.2.part = p)).map (fun r => (p, r.1, r.2)))

/-- COPY_ENGINE_TILE: the copy engines of a half serve one tile of the next partition's oldest transfer. -/
def execCopyEngineTile (half : Fin 2) (s : State) : Out :=
  if !s.alive then .next s
  else match s.nextCopy half with
    | none => .next s
    | some (p, id, c) => .next ({ s with copyTurn := s.copyTurn.put 15 half p }.copyStep id c)

end Sys2Proof.Machine
end

