-- ==== Sys2Proof/Machine/Ctrl.lean ====
section
/-! DEFINITION. Control instructions and the reconvergence stack (R107, R111 to R121, R86). -/

namespace Sys2Proof.Machine

/-- The stack with an entry pushed; a push onto 32 entries ends the task (R120). -/
def Ctx.push (x : Ctx) (e : StackEntry) : Except Stop (List StackEntry) := do
  require (x.g.stack.length < 32)
  pure (e :: x.g.stack)

/-- The target of a branch or call by the 24-bit offset, counted from the next instruction (R84). -/
def Ctx.target (x : Ctx) : DWord := x.nextPc + insOff24 x.i

/-- A group changed without a plain advance of its program counter. -/
def Ctx.goto (x : Ctx) (g : Group) : Except Stop State := .ok (x.s.putGroup x.r g)

/-- BRA and BRX (Table 4-2), with the merge of R118. -/
def Ctx.branch (x : Ctx) (tgt : DWord) : Except Stop State :=
  if x.sel = 0 then x.done x.g
  else if x.sel = x.g.active then x.goto { x.g with pc := tgt }
  else do
    let st ← match x.g.stack with
      | e :: t =>
        if e.kind = .div ∧ e.addr = tgt then pure ({ e with mask := e.mask ||| x.sel } :: t)
        else x.push ⟨.div, tgt, x.sel⟩
      | [] => x.push ⟨.div, tgt, x.sel⟩
    x.done { x.g with stack := st, active := x.g.active &&& ~~~x.sel }

/-- A popped DIV entry's lanes become active at its address; lanes that have exited stay out (R116). -/
def Ctx.resumeDiv (x : Ctx) (e : StackEntry) (t : List StackEntry) : Except Stop State :=
  x.goto (x.g.unwind (e :: t))

/-- NOP. -/
def execNop (g : GroupRef) (i : Ins) (s : State) : Out := issue g i (fun x => x.done x.g) s

/-- BRA: branch by the 24-bit offset, under the guard. -/
def execBra (g : GroupRef) (i : Ins) (s : State) : Out := issue g i (fun x => x.branch x.target) s

/-- BRX: branch to the address in the uniform register pair that SRC_A names (DEDUCED, log 13). -/
def execBrx (g : GroupRef) (i : Ins) (s : State) : Out :=
  issue g i (fun x =>
    if x.sel = 0 then x.done x.g
    else do
      let a ← x.u64 i.a
      x.branch a) s

/-- CALL: pushes the next instruction with the active mask and goes to the target with the selected lanes. -/
def execCall (g : GroupRef) (i : Ins) (s : State) : Out :=
  issue g i (fun x => x.forGroup (do
    let st ← x.push ⟨.call, x.nextPc, x.g.active⟩
    x.goto { x.g with stack := st, active := x.sel, pc := x.target })) s

/-- RET: its guard is ignored (R119); an empty stack or a JOIN on top ends the task (R120). -/
def execRet (g : GroupRef) (i : Ins) (s : State) : Out :=
  issue g i (fun x =>
    match x.g.stack with
    | [] => accessFault
    | e :: t => match e.kind with
      | .join => accessFault
      | .div => x.resumeDiv e t
      | .call => x.goto (x.g.unwind (e :: t))) s

/-- JOIN.PUSH: its guard is ignored (R115, R119). -/
def execJoinPush (g : GroupRef) (i : Ins) (s : State) : Out :=
  issue g i (fun x => do
    let st ← x.push ⟨.join, x.target, x.g.active⟩
    x.done { x.g with stack := st }) s

/-- JOIN: pops a DIV entry, or the JOIN entry of its own address; anything else ends the task (R120). -/
def execJoin (g : GroupRef) (i : Ins) (s : State) : Out :=
  issue g i (fun x =>
    match x.g.stack with
    | [] => accessFault
    | e :: t => match e.kind with
      | .call => accessFault
      | .div => x.resumeDiv e t
      | .join => if e.addr = x.g.pc then x.goto (x.g.unwind (e :: t)) else accessFault) s

/-- EXIT: the selected lanes leave the live mask; with no active lane left the group unwinds (R117), and the exit is
evaluated at the block's barriers (R125, R126). -/
def execExit (g : GroupRef) (i : Ins) (s : State) : Out :=
  issue g i (fun x => x.forGroup (
    let live := x.g.live &&& ~~~x.sel
    let g' :=
      if x.sel = x.g.active then Group.unwind { x.g with live := live } x.g.stack
      else { x.g with live := live, active := x.g.active &&& ~~~x.sel, pc := x.nextPc }
    .ok (x.s.setBlock x.r.block (x.b.putGroup x.r.group.val g').settleBars))) s

/-- WAIT: holds the group until the token slot in DST is empty (R93); the writes of its TLDs are then visible to the group
(R151). -/
def execWait (g : GroupRef) (i : Ins) (s : State) : Out :=
  issue g i (fun x => x.forGroup (do
    let t ← x.pField i.dst
    await (x.g.tokens.get 0 t = 0)
    let veils := x.b.veils.map (fun v => if v.group = x.r.group.val && v.slot = t then { v with waited := true } else v)
    .ok (x.s.setBlock x.r.block ({ x.b with veils := veils }.putGroup x.r.group.val { x.g with pc := x.nextPc })))) s

end Sys2Proof.Machine
end

