-- ==== Sys2Proof/Machine/Moves.lean ====
section
/-! DEFINITION. The copy engine moves tiles for the migration in turn (R379 to R382, R387, Tables 11-4 and 11-11). -/

namespace Sys2Proof.Machine

/-- The migration in turn is over, or has nothing left to act on: the next thing of every waiting channel follows (R327, R379). -/
def State.endMig (s : State) (m : Migration) : State := (s.setMig m none).advanceMigs

/-- A migration that finished leaves room for what waits. -/
def State.afterMove (before s : State) : State :=
  if s.mm.migs.length < before.mm.migs.length then s.advanceMigs else s

/-- A tile of a detaching partition sent to the partner (Table 11-11 step 3). -/
def State.sendTile (s : State) (m : Migration) (p : Nat) (held moved : List Nat) (t : Nat) : State :=
  if (s.part p).state = .quiescing || !s.trunkUp || !(s.detachTiles p).contains t || held.contains t || moved.contains t then s
  else match s.homeOf p (t * 2048) with
    | some (.dev n) => match s.lift (s.forward n) with
      | .error s => s
      | .ok (s, a) =>
        (s.toPeer s.twinNum n .wrTile [0, pairExport (s.partnerOf p), t * 16] (s.tileBytes a)).setMig m (some (.detach p (t :: held) moved))
    | _ => s

/-- TILE_MOVE: steps 1 to 3 of Table 11-4 for a tile of the migration in turn. A tile is numbered from the start of its set or page, and in a
detach by its virtual address; `data` is what the twin returns for a page spilled there. -/
def execTileMove (tile : Nat) (data : List (BitVec 1024)) (s : State) : Out :=
  match s.mm.migs.head? with
  | none => .next s
  | some m => match m with
    | .set _ k => match s.sets.get? k with
      | none => .next (s.endMig m)
      | some e => match e.shadow with
        | none => .next (s.endMig m)
        | some h => .next (s.moveInSet k e h tile)
    | .page p key src dst tiles held moved => .next (s.moveInPage m p key src dst tiles held moved tile)
    | .recall p key dst tiles moved => .next (s.afterMove (s.moveBack m p key dst tiles moved tile data))
    | .detach p held moved => .next (s.sendTile m p held moved tile)
    | .rekey _ => .next s
    | .attach _ _ => .next s
    | .leave _ => .next s

/-- TILE_MOVE_COMMIT: step 4 of Table 11-4: the destination has the tile. The last tile of a migration ends it. -/
def execTileMoveCommit (tile : Nat) (s : State) : Out :=
  match s.mm.migs.head? with
  | none => .next s
  | some m => match m with
    | .set _ k => match s.sets.get? k with
      | none => .next (s.endMig m)
      | some e => match e.shadow with
        | none => .next (s.endMig m)
        | some h => .next (s.afterMove (s.commitInSet k e h tile))
    | .page p key src dst tiles held moved => .next (s.afterMove (s.commitInPage m p key src dst tiles held moved tile))
    | .recall _ _ _ _ _ => .next s
    | .rekey p =>
      match s.flush (inLines (s.rangeLines p 0 windowEnd)) with
      | (false, s) => .next s
      | (true, s) =>
        let rest := { s with mm := { s.mm with migs := s.mm.migs.filter (fun x => x.part ≠ p) } }
        .next ((rest.rekey p).getD s)
    | .detach p held moved =>
      if !held.contains tile then .next s
      else
        let moved := tile :: moved
        if (s.detachTiles p).all (fun t => moved.contains t) then .next (s.endMig m)
        else .next (s.setMig m (some (.detach p (held.filter (fun t => t ≠ tile)) moved)))
    | .attach _ _ => .next s
    | .leave ch => .next (s.leaveNow ch)

end Sys2Proof.Machine
end

