-- ==== Sys2Proof/Machine/Registers.lean ====
section
/-! DEFINITION. The register map: what a read returns, and writes to registers with no command of their own (R14 to R16, R274 to R276, R460,
R471, R511 to R513, R528, R596 to R611, Tables 19-1 to 19-7). -/

namespace Sys2Proof.Machine

/-! ## Identity and capabilities (Tables 19-4, 19-5) -/

/-- DEV_ID. -/
def State.devId (s : State) : Nat := 0x5A32 + s.fuses.grade.toNat * 2 ^ 16 + s.fuses.serial.toNat * 2 ^ 32

/-- DEV_CAPS0. -/
def State.devCaps0 (s : State) : Nat :=
  let c := s.caps
  4 * popCount 40 s.fuses.quads.toNat + c.eff * 2 ^ 8 + s.fuses.speedClass * 2 ^ 16 + c.gen * 2 ^ 24
    + sumOf (fun d => c.fence.get 0 d % 16 * 2 ^ (32 + 4 * d)) (List.range 8)

/-! ## Counters (Tables 8-5 to 8-7, 19-6) -/

/-- The partition that a function's selector selects; a VF's is held at its own. -/
def State.selected (s : State) (fn : Nat) (sel : Word) : Nat :=
  if fn = 0 then sel.toNat % 32 else match (s.fnRec fn).ctx with
    | some (p, _) => p
    | none => 31

/-- Whether a function reads a partition's counters (R276); an unbound VF reads zero. -/
def State.countsFor (s : State) (fn part : Nat) : Bool :=
  if part = 31 then fn = 0 && !s.anyConfidential
  else !(s.part part).confidential || (match (s.fnRec fn).ctx with
    | some (p, _) => p = part
    | none => false)

/-- The key of the lookup counter that LLC_CSEL selects. -/
def State.lookupSel (s : State) (fn : Nat) : Nat :=
  let v := (s.fnRec fn).csel
  (s.selected fn v * 8 + v.toNat / 32 % 8) * 4 + v.toNat / 256 % 4

/-- A value of LLC_CSEL as it is stored (Table 8-5): clamped, and 31 in a VF's, whose partition is its own. -/
def clampCsel (fn : Nat) (v : Nat) : Word :=
  let p := if fn ≠ 0 || 16 ≤ v % 32 then 31 else v % 32
  let q := min (v / 32 % 8) 5
  BitVec.ofNat 32 (p + 32 * q + (if 4 ≤ q then 0 else v / 256 % 4 * 256))

/-- A value of MXU_CSEL as it is stored (Table 19-6). -/
def clampMxuCsel (fn : Nat) (v : Nat) : Word := BitVec.ofNat 32 (if fn ≠ 0 || 16 ≤ v % 32 then 31 else v % 32)

/-! ## Mailbox and queue registers (Tables 12-2, 14-4, 16-2) -/

/-- MB_STATE. -/
def State.mbState (s : State) (fn : Nat) : Nat :=
  let f := s.fnRec fn
  let mask := fun (st : SlotState) => numOfBits ((List.range 8).filter (fun k => (f.slot k).state = st))
  mask .pending + mask .done * 2 ^ 8 + (if fn = 0 then 7 else f.limit) * 2 ^ 16 + (if s.fw.hung then 2 ^ 19 else 0)

/-- MB_LOAD; UTIL is a free value. -/
def State.mbLoad (s : State) : Nat :=
  let pend := fun (c : Nat) => min (sumOf (fun (f : Fn) =>
    (f.slots.vals.filter (fun k => k.state = .pending && classOf k.code = c)).length) s.fns.vals) 255
  let lowered := s.fw.halving || s.fns.any (fun _ f => f.limit < f.setLimit)
  (Config.freeLine s.freeCtr 1).toNat % 101 + pend 1 * 2 ^ 8 + pend 2 * 2 ^ 16 + (if lowered then 10000 * 2 ^ 32 else 0)

/-- TUMBLER_STAT of a function (Table 14-4). -/
def State.tumblerStat (s : State) (fn : Nat) : Nat :=
  let f := s.fnRec fn
  f.drops + f.lastKind * 2 ^ 32 + f.lastRid * 2 ^ 48

/-- QCTL of a queue. -/
def Queue.ctl (q : Queue) : Nat :=
  (if q.enable then 1 else 0) + (Nat.log2 q.depth - 4) * 4 + (if q.sqLoc then 2 ^ 6 else 0) + q.fe * 2 ^ 7

/-- QSTAT of a queue: one snapshot (R603). -/
def State.qstat (s : State) (k : Nat) (q : Queue) : Nat :=
  q.state.code + (if q.drainPend then 8 else 0) + s.inflight k * 2 ^ 8 + q.sqHead * 2 ^ 16 + q.cqTail * 2 ^ 32
    + (q.shadow.filter (fun h => h.record.isSome)).length * 2 ^ 48 + q.sigDrops * 2 ^ 56

/-- The register of a queue block at an offset; a queue that does not exist reads DISABLED (R602). -/
def State.queueReg (s : State) (k off : Nat) : Nat :=
  match s.queue? k with
  | none => if off = 0x18 then 4 else 0
  | some q => match off with
    | 0 => q.ctl
    | 8 => q.tail
    | 0x10 => q.head
    | 0x18 => s.qstat k q
    | _ => 0

/-- The global queue whose block lies at an offset of a function's BAR0, with the offset in the block. -/
def State.queueBlock (s : State) (fn off : Nat) : Option (Nat × Nat) :=
  if fn = 0 then
    if 0x1000000 ≤ off && off < 0x1400000 then some ((off - 0x1000000) / 4096, off % 4096) else none
  else if 0x20000 ≤ off && off < 0x28000 then (s.fnRec fn).ctx.map (fun c => (c.1 * 64 + c.2 * 8 + (off - 0x20000) / 4096, off % 4096))
  else none

/-! ## Reads (R596 to R603) -/

/-- The 64-bit register at an 8-byte offset of a function's BAR0; an offset that no table lists reads as zero (R598). -/
def State.reg (s : State) (fn off : Nat) : Nat :=
  let sel := s.selected fn (s.fnRec fn).csel
  let msel := s.selected fn (s.fnRec fn).mxuCsel
  let own := fun (p : Nat) => (s.fnRec fn).ctx.any (fun (c : Nat × Nat) => c.1 = p)
  match s.queueBlock fn off with
  | some (k, o) => s.queueReg k o
  | none =>
    if off = 0 then s.devId
    else if off = 8 then ofBytes s.fuses.cstep
    else if off = 0x10 then ofBytes s.fuses.bstep
    else if off = 0x20 then s.devCaps0
    else if off = 0x28 then s.caps.quadMask.toNat
    else if off = 0x30 then s.fuses.quads.toNat
    else if off = 0x38 then s.caps.level.toNat
    else if 0x40 ≤ off && off ≤ 0x50 then s.caps.open_.toNat / 2 ^ (64 * ((off - 0x40) / 8)) % 2 ^ 64
    else if off = 0x1000 then s.bootStatus
    else if off = 0x1008 then s.fw.version.toNat
    else if off = 0x1010 then s.fw.heartbeat.toNat
    else if off = 0x1018 then s.devHealth
    else if 0x1100 ≤ off && off < 0x1180 then
      if fn = 0 then s.partMirror ((off - 0x1100) / 8)
      else if off = 0x1100 then (match (s.fnRec fn).ctx with
        | some (p, _) => s.partMirror p
        | none => 0)
      else 0
    else if off = 0x2008 then s.mbState fn
    else if off = 0x2010 then s.mbLoad
    else if 0x8000 ≤ off && off < 0x8200 then
      if fn = 0 then s.tumblerStat ((off - 0x8000) / 8) else if off = 0x8000 then s.tumblerStat fn else 0
    else if off = 0x8200 && fn = 0 then s.host.unmapped
    else if off = 0x10000 then (if own sel && fn ≠ 0 then (s.fnRec fn).csel.toNat / 32 * 32 + sel else (s.fnRec fn).csel.toNat)
    else if off = 0x10008 then (if s.countsFor fn sel then s.lookups.get 0 (s.lookupSel fn) else 0)
    else if off = 0x10010 then (if s.countsFor fn sel then s.hits.get 0 (s.lookupSel fn) else 0)
    else if 0x10040 ≤ off && off < 0x10080 then
      if s.countsFor fn sel then s.events.get 0 (sel * 8 + (off - 0x10040) / 8) else 0
    else if off = 0x11000 then (if own msel && fn ≠ 0 then msel else (s.fnRec fn).mxuCsel.toNat)
    else if 0x11008 ≤ off && off < 0x11048 then
      let n := (off - 0x11008) / 8
      if s.countsFor fn msel && (n < 4 || s.caps.level.getLsbD 40) then s.mxuCtr.get 0 (msel * 8 + n) else 0
    else 0

/-- The mailbox slot that an access lies in, with the offset in it: the request area, or the response area (R597). -/
def areaAt (fn base off n : Nat) : Option (Nat × Nat) :=
  let z := slotSize fn
  if base ≤ off && off + n ≤ base + 8 * z && 1 ≤ n && n ≤ 64 && (off - base) / z = (off - base + n - 1) / z then
    some ((off - base) / z, (off - base) % z)
  else none

/-- What a read of `n` bytes at an offset of a function's BAR0 returns (R596, R597). -/
def State.readReg (s : State) (fn off n : Nat) : List Byte :=
  let f := s.fnRec fn
  match areaAt fn 0x4000 off n, areaAt fn 0x5000 off n with
  | some (k, o), _ => sliceBytes (f.slot k).area o n
  | _, some (k, o) => sliceBytes (f.slot k).resp o n
  | none, none =>
    if n = 8 && off % 8 = 0 then bytesOf 8 (s.reg fn off)
    else if n = 4 && off % 4 = 0 then bytesOf 4 (s.reg fn (off / 8 * 8) / 2 ^ (8 * (off % 8)))
    else List.replicate n 0

/-! ## Writes -/

/-- The 32-bit word at an offset written where it is a register with no command of its own. -/
def State.writeWord (s : State) (fn off v : Nat) : State :=
  let f := s.fnRec fn
  if off = 0x10000 then s.setFn fn { f with csel := clampCsel fn v }
  else if off = 0x11000 then s.setFn fn { f with mxuCsel := clampMxuCsel fn v }
  else s

/-- REGISTER_WRITE: bytes of a FREE slot's request area (R513), a counter selector; every other write is ignored (R16, R596). -/
def execRegisterWrite (fn : Fin 64) (rid : Option Nat) (off : BitVec 26) (data : List Byte) (s : State) : Out :=
  inbound fn rid false s (match areaAt fn 0x4000 off.toNat data.length with
    | some (k, o) =>
      let f := s.fnRec fn
      let w := f.slot k
      if w.state ≠ .free then s
      else s.setFn fn (f.setSlot k { w with area := spliceBytes (sliceBytes w.area 0 (slotSize fn)) o data })
    | none =>
      let o := off.toNat
      if data.length = 8 && o % 8 = 0 then (s.writeWord fn o (numAt data 0 4)).writeWord fn (o + 4) (numAt data 4 4)
      else if data.length = 4 && o % 4 = 0 then s.writeWord fn o (numAt data 0 4)
      else s)

end Sys2Proof.Machine
end

