-- ==== Sys2Proof/Machine/Dispatch.lean ====
section
/-! DEFINITION. The dispatch of a command to its meaning: one arm per constructor of Instr. -/

namespace Sys2Proof.Machine

/-- The effect of a command on everything but the queue of waiting commands. -/
def exec (i : Instr) (s : State) : Host.Outcome State Fault Refusal :=
  match i with
  | .iadd g ins => Sys2Proof.Machine.execIadd g ins s
  | .isub g ins => Sys2Proof.Machine.execIsub g ins s
  | .imul g ins => Sys2Proof.Machine.execImul g ins s
  | .imulhiS g ins => Sys2Proof.Machine.execImulhiS g ins s
  | .imulhiU g ins => Sys2Proof.Machine.execImulhiU g ins s
  | .imad g ins => Sys2Proof.Machine.execImad g ins s
  | .iminS g ins => Sys2Proof.Machine.execIminS g ins s
  | .iminU g ins => Sys2Proof.Machine.execIminU g ins s
  | .imaxS g ins => Sys2Proof.Machine.execImaxS g ins s
  | .imaxU g ins => Sys2Proof.Machine.execImaxU g ins s
  | .iabs g ins => Sys2Proof.Machine.execIabs g ins s
  | .iadd64 g ins => Sys2Proof.Machine.execIadd64 g ins s
  | .isub64 g ins => Sys2Proof.Machine.execIsub64 g ins s
  | .imadwU g ins => Sys2Proof.Machine.execImadwU g ins s
  | .imadwS g ins => Sys2Proof.Machine.execImadwS g ins s
  | .fadd g ins => Sys2Proof.Machine.execFadd g ins s
  | .fsub g ins => Sys2Proof.Machine.execFsub g ins s
  | .fmul g ins => Sys2Proof.Machine.execFmul g ins s
  | .ffma g ins => Sys2Proof.Machine.execFfma g ins s
  | .fmin g ins => Sys2Proof.Machine.execFmin g ins s
  | .fmax g ins => Sys2Proof.Machine.execFmax g ins s
  | .fabs g ins => Sys2Proof.Machine.execFabs g ins s
  | .fneg g ins => Sys2Proof.Machine.execFneg g ins s
  | .frint g ins => Sys2Proof.Machine.execFrint g ins s
  | .ftrunc g ins => Sys2Proof.Machine.execFtrunc g ins s
  | .ffloor g ins => Sys2Proof.Machine.execFfloor g ins s
  | .fceil g ins => Sys2Proof.Machine.execFceil g ins s
  | .hadd2 g ins => Sys2Proof.Machine.execHadd2 g ins s
  | .hsub2 g ins => Sys2Proof.Machine.execHsub2 g ins s
  | .hmul2 g ins => Sys2Proof.Machine.execHmul2 g ins s
  | .hfma2 g ins => Sys2Proof.Machine.execHfma2 g ins s
  | .hmin2 g ins => Sys2Proof.Machine.execHmin2 g ins s
  | .hmax2 g ins => Sys2Proof.Machine.execHmax2 g ins s
  | .isetp g ins => Sys2Proof.Machine.execIsetp g ins s
  | .isetp64 g ins => Sys2Proof.Machine.execIsetp64 g ins s
  | .fsetp g ins => Sys2Proof.Machine.execFsetp g ins s
  | .sel g ins => Sys2Proof.Machine.execSel g ins s
  | .plop g ins => Sys2Proof.Machine.execPlop g ins s
  | .p2v g ins => Sys2Proof.Machine.execP2v g ins s
  | .v2p g ins => Sys2Proof.Machine.execV2p g ins s
  | .and g ins => Sys2Proof.Machine.execAnd g ins s
  | .or g ins => Sys2Proof.Machine.execOr g ins s
  | .xor g ins => Sys2Proof.Machine.execXor g ins s
  | .not g ins => Sys2Proof.Machine.execNot g ins s
  | .shl g ins => Sys2Proof.Machine.execShl g ins s
  | .shrU g ins => Sys2Proof.Machine.execShrU g ins s
  | .shrS g ins => Sys2Proof.Machine.execShrS g ins s
  | .bfeU g ins => Sys2Proof.Machine.execBfeU g ins s
  | .bfeS g ins => Sys2Proof.Machine.execBfeS g ins s
  | .bfi g ins => Sys2Proof.Machine.execBfi g ins s
  | .popc g ins => Sys2Proof.Machine.execPopc g ins s
  | .clz g ins => Sys2Proof.Machine.execClz g ins s
  | .brev g ins => Sys2Proof.Machine.execBrev g ins s
  | .mov g ins => Sys2Proof.Machine.execMov g ins s
  | .mov64 g ins => Sys2Proof.Machine.execMov64 g ins s
  | .s2v g ins => Sys2Proof.Machine.execS2v g ins s
  | .cvt g ins => Sys2Proof.Machine.execCvt g ins s
  | .cvt2 g ins => Sys2Proof.Machine.execCvt2 g ins s
  | .rcp g ins => Sys2Proof.Machine.execRcp g ins s
  | .rsq g ins => Sys2Proof.Machine.execRsq g ins s
  | .sqrt g ins => Sys2Proof.Machine.execSqrt g ins s
  | .ex2 g ins => Sys2Proof.Machine.execEx2 g ins s
  | .lg2 g ins => Sys2Proof.Machine.execLg2 g ins s
  | .sin g ins => Sys2Proof.Machine.execSin g ins s
  | .cos g ins => Sys2Proof.Machine.execCos g ins s
  | .shflIdx g ins => Sys2Proof.Machine.execShflIdx g ins s
  | .shflUp g ins => Sys2Proof.Machine.execShflUp g ins s
  | .shflDown g ins => Sys2Proof.Machine.execShflDown g ins s
  | .shflXor g ins => Sys2Proof.Machine.execShflXor g ins s
  | .voteAll g ins => Sys2Proof.Machine.execVoteAll g ins s
  | .voteAny g ins => Sys2Proof.Machine.execVoteAny g ins s
  | .voteBallot g ins => Sys2Proof.Machine.execVoteBallot g ins s
  | .uadd g ins => Sys2Proof.Machine.execUadd g ins s
  | .usub g ins => Sys2Proof.Machine.execUsub g ins s
  | .umul g ins => Sys2Proof.Machine.execUmul g ins s
  | .uminS g ins => Sys2Proof.Machine.execUminS g ins s
  | .uminU g ins => Sys2Proof.Machine.execUminU g ins s
  | .umaxS g ins => Sys2Proof.Machine.execUmaxS g ins s
  | .umaxU g ins => Sys2Proof.Machine.execUmaxU g ins s
  | .uand g ins => Sys2Proof.Machine.execUand g ins s
  | .uor g ins => Sys2Proof.Machine.execUor g ins s
  | .uxor g ins => Sys2Proof.Machine.execUxor g ins s
  | .ushl g ins => Sys2Proof.Machine.execUshl g ins s
  | .ushrU g ins => Sys2Proof.Machine.execUshrU g ins s
  | .ushrS g ins => Sys2Proof.Machine.execUshrS g ins s
  | .umov g ins => Sys2Proof.Machine.execUmov g ins s
  | .uadd64 g ins => Sys2Proof.Machine.execUadd64 g ins s
  | .umov64 g ins => Sys2Proof.Machine.execUmov64 g ins s
  | .usetp g ins => Sys2Proof.Machine.execUsetp g ins s
  | .usel g ins => Sys2Proof.Machine.execUsel g ins s
  | .s2u g ins => Sys2Proof.Machine.execS2u g ins s
  | .laneToUniform g ins => Sys2Proof.Machine.execLaneToUniform g ins s
  | .ldp g ins => Sys2Proof.Machine.execLdp g ins s
  | .ld g ins => Sys2Proof.Machine.execLd g ins s
  | .st g ins => Sys2Proof.Machine.execSt g ins s
  | .prefetch g ins => Sys2Proof.Machine.execPrefetch g ins s
  | .lds g ins => Sys2Proof.Machine.execLds g ins s
  | .sts g ins => Sys2Proof.Machine.execSts g ins s
  | .atomsAdd g ins => Sys2Proof.Machine.execAtomsAdd g ins s
  | .atomsMin g ins => Sys2Proof.Machine.execAtomsMin g ins s
  | .atomsMax g ins => Sys2Proof.Machine.execAtomsMax g ins s
  | .atomsExch g ins => Sys2Proof.Machine.execAtomsExch g ins s
  | .atomsCas g ins => Sys2Proof.Machine.execAtomsCas g ins s
  | .tld g ins => Sys2Proof.Machine.execTld g ins s
  | .tst g ins => Sys2Proof.Machine.execTst g ins s
  | .tldTokenComplete op => Sys2Proof.Machine.execTldTokenComplete op s
  | .tstTokenComplete op => Sys2Proof.Machine.execTstTokenComplete op s
  | .mxiMma g ins => Sys2Proof.Machine.execMxiMma g ins s
  | .mxiMmaR g ins => Sys2Proof.Machine.execMxiMmaR g ins s
  | .mxiAclr g ins => Sys2Proof.Machine.execMxiAclr g ins s
  | .mxiArd g ins => Sys2Proof.Machine.execMxiArd g ins s
  | .mxiArd128 g ins => Sys2Proof.Machine.execMxiArd128 g ins s
  | .mxiAld g ins => Sys2Proof.Machine.execMxiAld g ins s
  | .mxuInstructionStart mxu entry => Sys2Proof.Machine.execMxuInstructionStart mxu entry s
  | .mxuStep mxu check => Sys2Proof.Machine.execMxuStep mxu check s
  | .mxiTokenComplete mxu entry => Sys2Proof.Machine.execMxiTokenComplete mxu entry s
  | .accFootprintAcquire g => Sys2Proof.Machine.execAccFootprintAcquire g s
  | .accFootprintEvict g => Sys2Proof.Machine.execAccFootprintEvict g s
  | .mxfMma g ins => Sys2Proof.Machine.execMxfMma g ins s
  | .mxfMmaR g ins => Sys2Proof.Machine.execMxfMmaR g ins s
  | .mxfMmaMasked g ins => Sys2Proof.Machine.execMxfMmaMasked g ins s
  | .mxfMmaRMasked g ins => Sys2Proof.Machine.execMxfMmaRMasked g ins s
  | .mxfArd g ins => Sys2Proof.Machine.execMxfArd g ins s
  | .barSync g ins => Sys2Proof.Machine.execBarSync g ins s
  | .barArrive g ins => Sys2Proof.Machine.execBarArrive g ins s
  | .semAcq g ins => Sys2Proof.Machine.execSemAcq g ins s
  | .semRel g ins => Sys2Proof.Machine.execSemRel g ins s
  | .fenceAcq g ins => Sys2Proof.Machine.execFenceAcq g ins s
  | .fenceRel g ins => Sys2Proof.Machine.execFenceRel g ins s
  | .fenceAr g ins => Sys2Proof.Machine.execFenceAr g ins s
  | .lbxFence g ins => Sys2Proof.Machine.execLbxFence g ins s
  | .atomAddU32 g ins => Sys2Proof.Machine.execAtomAddU32 g ins s
  | .atomAddU64 g ins => Sys2Proof.Machine.execAtomAddU64 g ins s
  | .atomMinS32 g ins => Sys2Proof.Machine.execAtomMinS32 g ins s
  | .atomMinU32 g ins => Sys2Proof.Machine.execAtomMinU32 g ins s
  | .atomMaxS32 g ins => Sys2Proof.Machine.execAtomMaxS32 g ins s
  | .atomMaxU32 g ins => Sys2Proof.Machine.execAtomMaxU32 g ins s
  | .atomMinS64 g ins => Sys2Proof.Machine.execAtomMinS64 g ins s
  | .atomMinU64 g ins => Sys2Proof.Machine.execAtomMinU64 g ins s
  | .atomMaxS64 g ins => Sys2Proof.Machine.execAtomMaxS64 g ins s
  | .atomMaxU64 g ins => Sys2Proof.Machine.execAtomMaxU64 g ins s
  | .atomAndB32 g ins => Sys2Proof.Machine.execAtomAndB32 g ins s
  | .atomOrB32 g ins => Sys2Proof.Machine.execAtomOrB32 g ins s
  | .atomXorB32 g ins => Sys2Proof.Machine.execAtomXorB32 g ins s
  | .atomAndB64 g ins => Sys2Proof.Machine.execAtomAndB64 g ins s
  | .atomOrB64 g ins => Sys2Proof.Machine.execAtomOrB64 g ins s
  | .atomXorB64 g ins => Sys2Proof.Machine.execAtomXorB64 g ins s
  | .atomExchB32 g ins => Sys2Proof.Machine.execAtomExchB32 g ins s
  | .atomExchB64 g ins => Sys2Proof.Machine.execAtomExchB64 g ins s
  | .atomCasB32 g ins => Sys2Proof.Machine.execAtomCasB32 g ins s
  | .atomCasB64 g ins => Sys2Proof.Machine.execAtomCasB64 g ins s
  | .atomCasB128 g ins => Sys2Proof.Machine.execAtomCasB128 g ins s
  | .atomAddF32 g ins => Sys2Proof.Machine.execAtomAddF32 g ins s
  | .fxadd128 g ins => Sys2Proof.Machine.execFxadd128 g ins s
  | .pour g ins => Sys2Proof.Machine.execPour g ins s
  | .nop g ins => Sys2Proof.Machine.execNop g ins s
  | .bra g ins => Sys2Proof.Machine.execBra g ins s
  | .brx g ins => Sys2Proof.Machine.execBrx g ins s
  | .call g ins => Sys2Proof.Machine.execCall g ins s
  | .ret g ins => Sys2Proof.Machine.execRet g ins s
  | .joinPush g ins => Sys2Proof.Machine.execJoinPush g ins s
  | .join g ins => Sys2Proof.Machine.execJoin g ins s
  | .exit g ins => Sys2Proof.Machine.execExit g ins s
  | .wait g ins => Sys2Proof.Machine.execWait g ins s
  | .semWake id => Sys2Proof.Machine.execSemWake id s
  | .blockEnd b => Sys2Proof.Machine.execBlockEnd b s
  | .blockStuck b => Sys2Proof.Machine.execBlockStuck b s
  | .drain cmd core => Sys2Proof.Machine.execDrain cmd core s
  | .taskKill task => Sys2Proof.Machine.execTaskKill task s
  | .cmdNop id => Sys2Proof.Machine.execCmdNop id s
  | .launch id => Sys2Proof.Machine.execLaunch id s
  | .copy id => Sys2Proof.Machine.execCopy id s
  | .fill id => Sys2Proof.Machine.execFill id s
  | .semWait id => Sys2Proof.Machine.execSemWait id s
  | .graphLoad id => Sys2Proof.Machine.execGraphLoad id s
  | .graphPatch id => Sys2Proof.Machine.execGraphPatch id s
  | .graphFree id => Sys2Proof.Machine.execGraphFree id s
  | .commandFetch q host => Sys2Proof.Machine.execCommandFetch q host s
  | .taskReady task => Sys2Proof.Machine.execTaskReady task s
  | .blockPlace fe part save => Sys2Proof.Machine.execBlockPlace fe part save s
  | .copyEngineTile half => Sys2Proof.Machine.execCopyEngineTile half s
  | .completionWrite id rejected => Sys2Proof.Machine.execCompletionWrite id rejected s
  | .signalSend id rejected => Sys2Proof.Machine.execSignalSend id rejected s
  | .commandTimeout cmd => Sys2Proof.Machine.execCommandTimeout cmd s
  | .drainBoundExpiry cmd => Sys2Proof.Machine.execDrainBoundExpiry cmd s
  | .quantumExpiry part => Sys2Proof.Machine.execQuantumExpiry part s
  | .switchOut b bad => Sys2Proof.Machine.execSwitchOut b bad s
  | .saved b => Sys2Proof.Machine.execSaved b s
  | .queueEnable fn rid q => Sys2Proof.Machine.execQueueEnable fn rid q s
  | .queueDisable fn rid q => Sys2Proof.Machine.execQueueDisable fn rid q s
  | .abort fn rid q => Sys2Proof.Machine.execAbort fn rid q s
  | .doorbell fn rid q tail => Sys2Proof.Machine.execDoorbell fn rid q tail s
  | .cqHeadWrite fn rid q head => Sys2Proof.Machine.execCqHeadWrite fn rid q head s
  | .mbSubmit fn rid slots => Sys2Proof.Machine.execMbSubmit fn rid slots s
  | .mbAck fn rid slots => Sys2Proof.Machine.execMbAck fn rid slots s
  | .registerWrite fn rid off data => Sys2Proof.Machine.execRegisterWrite fn rid off data s
  | .tumblerReadReject fn rid => Sys2Proof.Machine.execTumblerReadReject fn rid s
  | .mailboxDispatch => Sys2Proof.Machine.execMailboxDispatch s
  | .devStatus r => Sys2Proof.Machine.execDevStatus r s
  | .fwStatus r => Sys2Proof.Machine.execFwStatus r s
  | .logRead r => Sys2Proof.Machine.execLogRead r s
  | .fwUpdate r image => Sys2Proof.Machine.execFwUpdate r image s
  | .fwLoad r image => Sys2Proof.Machine.execFwLoad r image s
  | .devRestart r => Sys2Proof.Machine.execDevRestart r s
  | .mbSetLimit r => Sys2Proof.Machine.execMbSetLimit r s
  | .pageMap r => Sys2Proof.Machine.execPageMap r s
  | .pageUnmap r => Sys2Proof.Machine.execPageUnmap r s
  | .pageQuery r => Sys2Proof.Machine.execPageQuery r s
  | .sharedCreate r => Sys2Proof.Machine.execSharedCreate r s
  | .sharedDestroy r => Sys2Proof.Machine.execSharedDestroy r s
  | .quadSetL1 r => Sys2Proof.Machine.execQuadSetL1 r s
  | .sliceDefine r => Sys2Proof.Machine.execSliceDefine r s
  | .partCreate r => Sys2Proof.Machine.execPartCreate r s
  | .partAddSlice r => Sys2Proof.Machine.execPartAddSlice r s
  | .partRemoveSlice r => Sys2Proof.Machine.execPartRemoveSlice r s
  | .partActivate r => Sys2Proof.Machine.execPartActivate r s
  | .partQuiesce r => Sys2Proof.Machine.execPartQuiesce r s
  | .partResume r => Sys2Proof.Machine.execPartResume r s
  | .partDestroy r => Sys2Proof.Machine.execPartDestroy r s
  | .partReconfigure r => Sys2Proof.Machine.execPartReconfigure r s
  | .partRebindQuads r => Sys2Proof.Machine.execPartRebindQuads r s
  | .partRebindChannels r => Sys2Proof.Machine.execPartRebindChannels r s
  | .partStatus r => Sys2Proof.Machine.execPartStatus r s
  | .devSetMigRate r => Sys2Proof.Machine.execDevSetMigRate r s
  | .qCreate r => Sys2Proof.Machine.execQCreate r s
  | .qDestroy r => Sys2Proof.Machine.execQDestroy r s
  | .qShadowRead r => Sys2Proof.Machine.execQShadowRead r s
  | .qStallAck r rejected sigRejected => Sys2Proof.Machine.execQStallAck r rejected sigRejected s
  | .schedSet r => Sys2Proof.Machine.execSchedSet r s
  | .schedStatus r => Sys2Proof.Machine.execSchedStatus r s
  | .llcSetKeepQuota r => Sys2Proof.Machine.execLlcSetKeepQuota r s
  | .llcKeepRelease r => Sys2Proof.Machine.execLlcKeepRelease r s
  | .llcFlush r => Sys2Proof.Machine.execLlcFlush r s
  | .memSetSpentPolicy r => Sys2Proof.Machine.execMemSetSpentPolicy r s
  | .memTileState r => Sys2Proof.Machine.execMemTileState r s
  | .memChannelStatus r => Sys2Proof.Machine.execMemChannelStatus r s
  | .memChannelMapOut r => Sys2Proof.Machine.execMemChannelMapOut r s
  | .memChannelAdmit r => Sys2Proof.Machine.execMemChannelAdmit r s
  | .sharedLoad r host => Sys2Proof.Machine.execSharedLoad r host s
  | .memSetMode r => Sys2Proof.Machine.execMemSetMode r s
  | .hbmPprSoft r => Sys2Proof.Machine.execHbmPprSoft r s
  | .hbmPprHard r => Sys2Proof.Machine.execHbmPprHard r s
  | .hbmLaneMapRead r => Sys2Proof.Machine.execHbmLaneMapRead r s
  | .hbmLaneMapWrite r => Sys2Proof.Machine.execHbmLaneMapWrite r s
  | .hbmRowTest r => Sys2Proof.Machine.execHbmRowTest r s
  | .hingeStatus r => Sys2Proof.Machine.execHingeStatus r s
  | .hingeRetrain r => Sys2Proof.Machine.execHingeRetrain r s
  | .poolCreate r => Sys2Proof.Machine.execPoolCreate r s
  | .poolMap r twinFree => Sys2Proof.Machine.execPoolMap r twinFree s
  | .poolUnmap r => Sys2Proof.Machine.execPoolUnmap r s
  | .poolRecall r => Sys2Proof.Machine.execPoolRecall r s
  | .poolLedger r => Sys2Proof.Machine.execPoolLedger r s
  | .poolStatus r => Sys2Proof.Machine.execPoolStatus r s
  | .ledgerScan r => Sys2Proof.Machine.execLedgerScan r s
  | .twinPair r => Sys2Proof.Machine.execTwinPair r s
  | .twinDetach r lacks => Sys2Proof.Machine.execTwinDetach r lacks s
  | .twinAttach r => Sys2Proof.Machine.execTwinAttach r s
  | .attachChunk => Sys2Proof.Machine.execAttachChunk s
  | .twinForceSolo r reserved => Sys2Proof.Machine.execTwinForceSolo r reserved s
  | .twinStatus r => Sys2Proof.Machine.execTwinStatus r s
  | .vfBind r => Sys2Proof.Machine.execVfBind r s
  | .vfUnbind r => Sys2Proof.Machine.execVfUnbind r s
  | .vfStatus r => Sys2Proof.Machine.execVfStatus r s
  | .tumblerAllow r => Sys2Proof.Machine.execTumblerAllow r s
  | .tumblerRevoke r => Sys2Proof.Machine.execTumblerRevoke r s
  | .hostWindowMap r => Sys2Proof.Machine.execHostWindowMap r s
  | .hostWindowUnmap r => Sys2Proof.Machine.execHostWindowUnmap r s
  | .dirtyLogStart r => Sys2Proof.Machine.execDirtyLogStart r s
  | .dirtyLogSwap r => Sys2Proof.Machine.execDirtyLogSwap r s
  | .dirtyLogStop r => Sys2Proof.Machine.execDirtyLogStop r s
  | .lbxSetId r => Sys2Proof.Machine.execLbxSetId r s
  | .lbxStatus r => Sys2Proof.Machine.execLbxStatus r s
  | .lbxRetrain r => Sys2Proof.Machine.execLbxRetrain r s
  | .lbxExport r => Sys2Proof.Machine.execLbxExport r s
  | .lbxUnexport r => Sys2Proof.Machine.execLbxUnexport r s
  | .lbxImport r => Sys2Proof.Machine.execLbxImport r s
  | .secStatus r => Sys2Proof.Machine.execSecStatus r s
  | .secPartEvict r => Sys2Proof.Machine.execSecPartEvict r s
  | .secPartReport r => Sys2Proof.Machine.execSecPartReport r s
  | .secPageQuery r => Sys2Proof.Machine.execSecPageQuery r s
  | .dbgAuthorize r => Sys2Proof.Machine.execDbgAuthorize r s
  | .dbgRevoke r => Sys2Proof.Machine.execDbgRevoke r s
  | .dbgTraceStart r => Sys2Proof.Machine.execDbgTraceStart r s
  | .dbgTraceStop r => Sys2Proof.Machine.execDbgTraceStop r s
  | .pwrSetCap r => Sys2Proof.Machine.execPwrSetCap r s
  | .pwrStatus r => Sys2Proof.Machine.execPwrStatus r s
  | .pwrSetState r => Sys2Proof.Machine.execPwrSetState r s
  | .errCounts r => Sys2Proof.Machine.execErrCounts r s
  | .errInject r => Sys2Proof.Machine.execErrInject r s
  | .mbLimitAdjust => Sys2Proof.Machine.execMbLimitAdjust s
  | .fwHeartbeatTick => Sys2Proof.Machine.execFwHeartbeatTick s
  | .fwWatchdogExpiry => Sys2Proof.Machine.execFwWatchdogExpiry s
  | .rds q => Sys2Proof.Machine.execRds q s
  | .rdo q => Sys2Proof.Machine.execRdo q s
  | .rdna q => Sys2Proof.Machine.execRdna q s
  | .rd q => Sys2Proof.Machine.execRd q s
  | .wr q => Sys2Proof.Machine.execWr q s
  | .wrp q => Sys2Proof.Machine.execWrp q s
  | .atom q => Sys2Proof.Machine.execAtom q s
  | .spent q => Sys2Proof.Machine.execSpent q s
  | .semAcqRequest q => Sys2Proof.Machine.execSemAcqRequest q s
  | .semRelRequest q => Sys2Proof.Machine.execSemRelRequest q s
  | .snpInv peer line => Sys2Proof.Machine.execSnpInv peer line s
  | .snpData peer line => Sys2Proof.Machine.execSnpData peer line s
  | .h2dSnoop line inv => Sys2Proof.Machine.execH2dSnoop line inv s
  | .rspI agent line => Sys2Proof.Machine.execRspI agent line s
  | .rspS agent line => Sys2Proof.Machine.execRspS agent line s
  | .rspNp agent line crossing => Sys2Proof.Machine.execRspNp agent line crossing s
  | .rspFwd agent line data => Sys2Proof.Machine.execRspFwd agent line data s
  | .wbData agent line data => Sys2Proof.Machine.execWbData agent line data s
  | .birsp line shared => Sys2Proof.Machine.execBirsp line shared s
  | .cmp m => Sys2Proof.Machine.execCmp m s
  | .data id rep => Sys2Proof.Machine.execData id rep s
  | .rdTile q => Sys2Proof.Machine.execRdTile q s
  | .dataTile id state crcOk data => Sys2Proof.Machine.execDataTile id state crcOk data s
  | .wrTile m data => Sys2Proof.Machine.execWrTile m data s
  | .atomRsp id data => Sys2Proof.Machine.execAtomRsp id data s
  | .semGrant id => Sys2Proof.Machine.execSemGrant id s
  | .sig m value add => Sys2Proof.Machine.execSig m value add s
  | .rspErr id => Sys2Proof.Machine.execRspErr id s
  | .mcIssue pc => Sys2Proof.Machine.execMcIssue pc s
  | .memReadComplete pc entry corrected bad also => Sys2Proof.Machine.execMemReadComplete pc entry corrected bad also s
  | .halfReplicaRepair line => Sys2Proof.Machine.execHalfReplicaRepair line s
  | .mirrorResync line twin => Sys2Proof.Machine.execMirrorResync line twin s
  | .scrubPass => Sys2Proof.Machine.execScrubPass s
  | .stackTempRead stack temp => Sys2Proof.Machine.execStackTempRead stack temp s
  | .channelTrigger ch trigger => Sys2Proof.Machine.execChannelTrigger ch trigger s
  | .tileMove tile data => Sys2Proof.Machine.execTileMove tile data s
  | .tileMoveCommit tile => Sys2Proof.Machine.execTileMoveCommit tile s
  | .bondedWord die chan parityOk => Sys2Proof.Machine.execBondedWord die chan parityOk s
  | .bridgeFlit leaf toEnd1 seq ack rest => Sys2Proof.Machine.execBridgeFlit leaf toEnd1 seq ack rest s
  | .bridgeNak leaf toEnd1 seq => Sys2Proof.Machine.execBridgeNak leaf toEnd1 seq s
  | .widthOffer leaf end1 mask => Sys2Proof.Machine.execWidthOffer leaf end1 mask s
  | .widthConfirm leaf end1 width groups => Sys2Proof.Machine.execWidthConfirm leaf end1 width groups s
  | .leafTestDone leaf clean => Sys2Proof.Machine.execLeafTestDone leaf clean s
  | .resetSeen leaf end1 => Sys2Proof.Machine.execResetSeen leaf end1 s
  | .sidebandSilence leaf => Sys2Proof.Machine.execSidebandSilence leaf s
  | .leafReplayStorm leaf => Sys2Proof.Machine.execLeafReplayStorm leaf s
  | .halfReset half1 => Sys2Proof.Machine.execHalfReset half1 s
  | .bucketResteer => Sys2Proof.Machine.execBucketResteer s
  | .capabilityWord die word => Sys2Proof.Machine.execCapabilityWord die word s
  | .referenceLost host => Sys2Proof.Machine.execReferenceLost host s
  | .forwardedPairLost pair => Sys2Proof.Machine.execForwardedPairLost pair s
  | .pllLockLost site => Sys2Proof.Machine.execPllLockLost site s
  | .pllRelockEnd site ok => Sys2Proof.Machine.execPllRelockEnd site ok s
  | .droopCrossing quad level => Sys2Proof.Machine.execDroopCrossing quad level s
  | .droopLevelExit quad => Sys2Proof.Machine.execDroopLevelExit quad s
  | .droopAllowanceExpiry die => Sys2Proof.Machine.execDroopAllowanceExpiry die s
  | .powerEstimate die watts => Sys2Proof.Machine.execPowerEstimate die watts s
  | .capPeriod => Sys2Proof.Machine.execCapPeriod s
  | .voltagePeriod => Sys2Proof.Machine.execVoltagePeriod s
  | .dieTempRead die temp => Sys2Proof.Machine.execDieTempRead die temp s
  | .thermtrip => Sys2Proof.Machine.execThermtrip s
  | .supplyFault => Sys2Proof.Machine.execSupplyFault s
  | .sensorUpdate => Sys2Proof.Machine.execSensorUpdate s
  | .idleEntry => Sys2Proof.Machine.execIdleEntry s
  | .retainEntry => Sys2Proof.Machine.execRetainEntry s
  | .selfRefreshReentry => Sys2Proof.Machine.execSelfRefreshReentry s
  | .pfD3hot => Sys2Proof.Machine.execPfD3hot s
  | .pfD0 => Sys2Proof.Machine.execPfD0 s
  | .twinAliveInLow => Sys2Proof.Machine.execTwinAliveInLow s
  | .twinAliveTimeout reserved => Sys2Proof.Machine.execTwinAliveTimeout reserved s
  | .trunkSevered => Sys2Proof.Machine.execTrunkSevered s
  | .lbxFlit port seq ack rest => Sys2Proof.Machine.execLbxFlit port seq ack rest s
  | .lbxNak port seq => Sys2Proof.Machine.execLbxNak port seq s
  | .lbxCtrlFlit port d peerPort twin versionOk lastSeq => Sys2Proof.Machine.execLbxCtrlFlit port d peerPort twin versionOk lastSeq s
  | .lbxCodeword port corrected discarded => Sys2Proof.Machine.execLbxCodeword port corrected discarded s
  | .lbxIdleTimer port => Sys2Proof.Machine.execLbxIdleTimer port s
  | .lbxTrainingDone port half => Sys2Proof.Machine.execLbxTrainingDone port half s
  | .lbxTrainingTimeout port => Sys2Proof.Machine.execLbxTrainingTimeout port s
  | .lbxPortSilence port => Sys2Proof.Machine.execLbxPortSilence port s
  | .lbxReplayStorm port => Sys2Proof.Machine.execLbxReplayStorm port s
  | .peerLost dest => Sys2Proof.Machine.execPeerLost dest s
  | .cxlMemRead hpa tag meta_ => Sys2Proof.Machine.execCxlMemRead hpa tag meta_ s
  | .cxlMemWrite hpa tag data mask => Sys2Proof.Machine.execCxlMemWrite hpa tag data mask s
  | .hostCacheResponse line own data => Sys2Proof.Machine.execHostCacheResponse line own data s
  | .hdmDecoderCommit base size => Sys2Proof.Machine.execHdmDecoderCommit base size s
  | .vfEnableWrite on => Sys2Proof.Machine.execVfEnableWrite on s
  | .flr fn => Sys2Proof.Machine.execFlr fn s
  | .flrComplete fn => Sys2Proof.Machine.execFlrComplete fn s
  | .pfFlr => Sys2Proof.Machine.execPfFlr s
  | .hostLinkDown => Sys2Proof.Machine.execHostLinkDown s
  | .ideInsecure stream => Sys2Proof.Machine.execIdeInsecure stream s
  | .ideSecure => Sys2Proof.Machine.execIdeSecure s
  | .pwrgdRise => Sys2Proof.Machine.execPwrgdRise s
  | .pwrgdFall => Sys2Proof.Machine.execPwrgdFall s
  | .perstAssert => Sys2Proof.Machine.execPerstAssert s
  | .perstRelease => Sys2Proof.Machine.execPerstRelease s
  | .coldRstAssert => Sys2Proof.Machine.execColdRstAssert s
  | .coldRstRelease => Sys2Proof.Machine.execColdRstRelease s
  | .start => Sys2Proof.Machine.execStart s
  | .startStageAdvance rep => Sys2Proof.Machine.execStartStageAdvance rep s
  | .startWatchdog => Sys2Proof.Machine.execStartWatchdog s
  | .flashWriteComplete => Sys2Proof.Machine.execFlashWriteComplete s
  | .bypass => Sys2Proof.Machine.execBypass s
  | .idcode => Sys2Proof.Machine.execIdcode s
  | .samplePreload => Sys2Proof.Machine.execSamplePreload s
  | .extest => Sys2Proof.Machine.execExtest s
  | .unlock token => Sys2Proof.Machine.execUnlock token s
  | .debugHalt core halt => Sys2Proof.Machine.execDebugHalt core halt s
  | .debugStateAccess g target write => Sys2Proof.Machine.execDebugStateAccess g target write s
  | .debugMemoryAccess part va write => Sys2Proof.Machine.execDebugMemoryAccess part va write s
  | .debugWindowExpiry => Sys2Proof.Machine.execDebugWindowExpiry s
  | .getMeasurements index => Sys2Proof.Machine.execGetMeasurements index s
  | .challenge nonce => Sys2Proof.Machine.execChallenge nonce s
  | .getCertificate slot => Sys2Proof.Machine.execGetCertificate slot s
  | .keyExchange => Sys2Proof.Machine.execKeyExchange s
  | .ideKm session stream => Sys2Proof.Machine.execIdeKm session stream s
  | .entdaa addr => Sys2Proof.Machine.execEntdaa addr s
  | .mctpControl => Sys2Proof.Machine.execMctpControl s
  | .pldmSensorRead sensor => Sys2Proof.Machine.execPldmSensorRead sensor s
  | .queryDeviceIdentifiers => Sys2Proof.Machine.execQueryDeviceIdentifiers s
  | .getFirmwareParameters => Sys2Proof.Machine.execGetFirmwareParameters s
  | .pldmUnsupported => Sys2Proof.Machine.execPldmUnsupported s
  | .hostLinkUp => Sys2Proof.Machine.execHostLinkUp s
  | .twinAliveInHigh => Sys2Proof.Machine.execTwinAliveInHigh s
  | .powerRemoved => Sys2Proof.Machine.execPowerRemoved s
  | .clockUnitFault => Sys2Proof.Machine.execClockUnitFault s
  | .reservedOpcode g => Sys2Proof.Machine.execReservedOpcode g s
  | .instructionFetchFault g => Sys2Proof.Machine.execInstructionFetchFault g s

end Sys2Proof.Machine
end

