-- ==== Sys2Proof/WellFormed.lean ====
section
/-! DEFINITION. What the operands of a command must satisfy beyond their types, as the table of spec/ that lays out each message or payload
fixes its length. -/

namespace Sys2Proof

/-- The bytes of a mailbox-sized register access (R596, R597). -/
def wfAccess (data : List Byte) : Bool := 1 ≤ data.length && data.length ≤ 64

/-- A routing ID is 16 bits (R460). -/
def wfRid (rid : Option Nat) : Bool := rid.all (fun r => r < 65536)

/-- The 16 lines of a tile (R250). -/
def wfTile (data : List (BitVec 1024)) : Bool := data.length = 16

/-- A peer's atomic works on 4, 8 or 16 bytes at an offset aligned to its size (Table 3-11, R87). -/
def AtomMsg.wf : AtomMsg → Bool
  | .held _ => true
  | .peer m _ size _ _ _ => (size.val = 4 || size.val = 8 || size.val = 16) && m.off % max size.val 1 = 0

/-- A peer's semaphore word is aligned to 8 bytes (R128). -/
def SemMsg.wf : SemMsg → Bool
  | .held _ => true
  | .peer m _ => m.off % 8 = 0

/-- A peer's line write stays inside one line (Table 15-5). -/
def WriteMsg.wf : WriteMsg → Bool
  | .held _ => true
  | .tst _ _ _ => true
  | .peer m _ _ => m.off % 128 = 0

/-- A peer reads a whole tile at its first byte (Table 15-5). -/
def TileMsg.wf : TileMsg → Bool
  | .held _ => true
  | .peer m => m.off % 2048 = 0

/-- Whether a command's operands are well formed; a command not listed takes every value of its operands' types. -/
def Instr.wf : Instr → Bool
  | .registerWrite _ rid _ ls => wfRid rid && wfAccess ls
  | .mbSubmit _ rid _ => wfRid rid
  | .mbAck _ rid _ => wfRid rid
  | .queueEnable _ rid _ => wfRid rid
  | .queueDisable _ rid _ => wfRid rid
  | .abort _ rid _ => wfRid rid
  | .doorbell _ rid _ _ => wfRid rid
  | .cqHeadWrite _ rid _ _ => wfRid rid
  | .commandFetch _ host => host.all (fun b => b.length = 64)
  | .challenge nonce => nonce.length = 32
  | .atom q => q.wf
  | .semAcqRequest q => q.wf
  | .semRelRequest q => q.wf
  | .wr q => q.wf
  | .wrp q => q.wf
  | .wrTile m ls => m.off % 2048 = 0 && (ls = [] || wfTile ls)
  | .rdTile q => q.wf
  | .dataTile _ _ _ ls => wfTile ls
  | .mirrorResync _ x => wfTile x.data
  | .tileMove _ ls => ls = [] || wfTile ls
  | .cxlMemRead hpa _ _ => hpa % 64 = 0
  | .cxlMemWrite hpa _ _ _ => hpa % 64 = 0
  | _ => true

end Sys2Proof
end

