-- ==== Sys2Proof/Safety.lean ====
section
/-! DEFINITION. The words that the claims use: when a group can issue, what its operands must satisfy and what they are worth, and the
state after an instruction that only moves its own group on. -/

namespace Sys2Proof.Machine

/-! ## A group that issues (R66, R82, R86, R112) -/

/-- The group `r` of `s` can issue `i`, and `x` is what the instruction sees: its block is resident, its task runs and was not killed,
nothing holds the group, its core is not halted, the device is not FATAL, and the instruction's words can be fetched. -/
structure CanIssue (s : State) (r : GroupRef) (i : Ins) (x : Ctx) : Prop where
  state : x.s = s
  place : x.r = r
  word : x.i = i
  block : s.blocks.get? r.block = some x.b
  group : x.b.group? r.group.val = some x.g
  task : s.tasks.get? x.b.task = some x.t
  resident : x.b.phase = .resident
  free : x.g.hold = .none
  running : x.t.state ≠ .ended
  alive : x.t.killed = false
  sound : s.fw.fatal = false
  unhalted : (s.cores.get Core.init x.b.core).halted = false
  lanes : x.sel = x.g.selected i
  fetched : x.fetched = true

/-- The state in which the group stands, changed to `g`, at the instruction after this one, and nothing else has changed. -/
def Ctx.after (x : Ctx) (g : Group) : State := x.s.putGroup x.r { g with pc := x.nextPc }

/-- A field names a tuple of `k` vector registers that the task was allocated and that no instruction in flight will write (R68, R82,
R85). -/
def Ctx.vOk (x : Ctx) (k : Nat) (f : BitVec 8) : Prop :=
  f.toNat + k ≤ 8 * ((max x.t.nregs 8 + 7) / 8) ∧ (k = 1 ∨ (f.toNat ≠ 0 ∧ f.toNat % k = 0))
    ∧ ∀ j, j < k → x.g.isBusy (f.toNat + j) = false

/-- A field names a tuple of `k` uniform registers (R69, R85). -/
def uOk (k : Nat) (f : BitVec 8) : Prop := f.toNat + k ≤ 48 ∧ (k = 1 ∨ (f.toNat ≠ 0 ∧ f.toNat % k = 0))

/-- A VALU source is readable, uniform where bit `n` of UNI says so (Table 3-14). -/
def Ctx.srcOk (x : Ctx) (n k : Nat) (f : BitVec 8) : Prop := if x.i.mod.getLsbD n then uOk k f else x.vOk k f

/-- The value of a 32-bit VALU source in each lane. -/
def Ctx.val32 (x : Ctx) (n : Nat) (f : BitVec 8) : Nat → Word :=
  if x.i.mod.getLsbD n then fun _ => x.g.ureg f.toNat else fun l => laneAt (x.g.vreg f.toNat) l

/-- The value of a pair as a VALU source in each lane, the low word in the lower register (R85). -/
def Ctx.val64 (x : Ctx) (n : Nat) (f : BitVec 8) : Nat → DWord :=
  if x.i.mod.getLsbD n then fun _ => x.g.ureg (f.toNat + 1) ++ x.g.ureg f.toNat
  else fun l => laneAt (x.g.vreg (f.toNat + 1)) l ++ laneAt (x.g.vreg f.toNat) l

/-- Source A of `k` registers is readable. -/
def Ctx.aOk (x : Ctx) (k : Nat) : Prop := x.srcOk 0 k x.i.a
/-- Source B is an immediate or readable (R84). -/
def Ctx.bOk (x : Ctx) (k : Nat) : Prop := insImmValue x.i = none → x.srcOk 1 k x.i.b
/-- Source C is absent or readable (R84). -/
def Ctx.cOk (x : Ctx) (k : Nat) : Prop := insNoC x.i = false → x.srcOk 2 k x.i.c

/-- Source A. -/
def Ctx.A (x : Ctx) : Nat → Word := x.val32 0 x.i.a
/-- Source B: the immediate's low 32 bits or the register (R84, log 11). -/
def Ctx.B (x : Ctx) : Nat → Word :=
  match insImmValue x.i with
  | some w => fun _ => w.setWidth 32
  | none => x.val32 1 x.i.b
/-- Source C, zero where it is absent (R84). -/
def Ctx.C (x : Ctx) : Nat → Word := if insNoC x.i then fun _ => 0 else x.val32 2 x.i.c
/-- Pair A. -/
def Ctx.AA (x : Ctx) : Nat → DWord := x.val64 0 x.i.a
/-- Pair B, or the immediate. -/
def Ctx.BB (x : Ctx) : Nat → DWord :=
  match insImmValue x.i with
  | some w => fun _ => w
  | none => x.val64 1 x.i.b
/-- Pair C, zero where it is absent. -/
def Ctx.CC (x : Ctx) : Nat → DWord := if insNoC x.i then fun _ => 0 else x.val64 2 x.i.c

/-- The group with a 32-bit result in DST, in the selected lanes (R112). -/
def Ctx.with32 (x : Ctx) (f : Nat → Word) : Group := x.g.putV x.i.dst.toNat x.sel f
/-- The group with a pair in DST and the register after it, the low word first (R85). -/
def Ctx.with64 (x : Ctx) (f : Nat → DWord) : Group :=
  (x.g.putV x.i.dst.toNat x.sel (fun l => (f l).setWidth 32)).putV (x.i.dst.toNat + 1) x.sel
    (fun l => ((f l) >>> 32).setWidth 32)
/-- The group with a predicate in DST, in the selected lanes (R70, R108). -/
def Ctx.withP (x : Ctx) (f : Nat → Bool) : Group :=
  x.g.putPred x.i.dst.toNat
    (maskOf (fun l => if x.sel.getLsbD l then f l else (x.g.pred x.i.dst.toNat).getLsbD l))

/-- Uniform source B: the immediate's low 32 bits or the register (R84). -/
def Ctx.UB (x : Ctx) : Word :=
  match insImmValue x.i with
  | some w => w.setWidth 32
  | none => x.g.ureg x.i.b.toNat
/-- Uniform source B of `k` registers is an immediate or readable. -/
def Ctx.ubOk (x : Ctx) (k : Nat) : Prop := insImmValue x.i = none → uOk k x.i.b
/-- A uniform pair, the low word in the lower register (R85). -/
def Ctx.U64 (x : Ctx) (f : BitVec 8) : DWord := x.g.ureg (f.toNat + 1) ++ x.g.ureg f.toNat

/-- Uniform pair B, or the immediate. -/
def Ctx.UBB (x : Ctx) : DWord :=
  match insImmValue x.i with
  | some w => w
  | none => x.U64 x.i.b
/-- The group with a uniform pair in DST and the register after it. -/
def Ctx.withUU (x : Ctx) (v : DWord) : Group :=
  (x.g.putU x.i.dst.toNat (v.setWidth 32)).putU (x.i.dst.toNat + 1) ((v >>> 32).setWidth 32)

/-! ## Control -/

/-- The stack after a branch of the selected lanes to `tgt` that not every active lane takes: merged with a DIV entry of the same address on
top, pushed otherwise (R115, R118). -/
def Ctx.branchStack (x : Ctx) (tgt : DWord) : List StackEntry :=
  match x.g.stack with
  | e :: l =>
    if e.kind = .div ∧ e.addr = tgt then { e with mask := e.mask ||| x.sel } :: l
    else ⟨.div, tgt, x.sel⟩ :: e :: l
  | [] => [⟨.div, tgt, x.sel⟩]

/-! ## Memory instructions -/

/-- The element width in bytes of an LMEM or GMEM instruction (Table 3-8). -/
def insWidth (i : Ins) : Nat := 2 ^ field i.mod 3 3

/-- The local address of a lane (R110). -/
def Ctx.localAt (x : Ctx) (l : Nat) : Nat := (laneAt (x.g.vreg x.i.a.toNat) l + insLocalOff x.i).toNat

/-- Every selected lane's local address is aligned and inside the block's allocation (R75, R110). -/
def Ctx.localOk (x : Ctx) (w : Nat) : Prop :=
  ∀ l ∈ lanesIn x.sel, x.localAt l % w = 0 ∧ x.localAt l + w ≤ x.b.lmemSize

/-- The global address of a lane (R84, R87). -/
def Ctx.globalAt (x : Ctx) (l : Nat) : Nat :=
  ((laneAt (x.g.vreg (x.i.a.toNat + 1)) l ++ laneAt (x.g.vreg x.i.a.toNat) l : DWord) + insGlobalOff x.i).toNat

/-- Every selected lane's address is aligned, within 48 bits and mapped, and writable where the instruction writes (R34, R88). -/
def Ctx.lanesOk (x : Ctx) (f : Nat → Nat) (w : Nat) (write : Bool) : Prop :=
  ∀ l ∈ lanesIn x.sel, f l < 2 ^ 48 ∧ f l % w = 0 ∧
    ∃ h rw, x.s.locate x.t.part (f l) = some (h, rw) ∧ (write = true → rw = true)

/-- Nothing that an acquire or LBX.FENCE of the group waits for is outstanding (R220, R222). -/
def Ctx.ungated (x : Ctx) : Prop := x.s.anyLeft x.g.gate = false

/-- Neither that nor a release holds the group's writes (R219). -/
def Ctx.writesFree (x : Ctx) : Prop :=
  x.s.anyLeft x.g.gate = false ∧ x.s.anyUnplaced x.g.gateW = false ∧ x.s.anyLeft x.g.gateV = false

/-- The amount of a semaphore instruction or the count of a barrier (Tables 4-4 and 4-5): the second word, the 16-bit immediate, or a
uniform register. -/
def Ctx.amount (x : Ctx) : Nat :=
  match x.i.long with
  | some w => w.toNat % 2 ^ 32
  | none => if insImm x.i then (insImm16 x.i).toNat else (x.g.ureg x.i.b.toNat).toNat

/-- The register of that amount, where it is one, is readable. -/
def Ctx.amountOk (x : Ctx) : Prop := x.i.long = none → insImm x.i = false → uOk 1 x.i.b

/-- Uniform source C, zero where it is absent (R84). -/
def Ctx.UC (x : Ctx) : Word := if insNoC x.i then 0 else x.g.ureg x.i.c.toNat

/-- An entry of the MXU queue that an instruction of the group makes (R148), with the units whose bytes are unspecified to it (R151). -/
def Ctx.entry (x : Ctx) (op : MxOp) (units : List Nat) (slot : Option Nat) : MxEntry :=
  ⟨x.s.nextId, x.r.block, x.r.group.val, x.g.pc, slot, units, op, false, 0,
    (x.b.veiled x.r.group.val).filter (fun v => op.ranges.any (fun r => touches r v))⟩

/-- The group's MXU takes the instruction at once: it is not fenced, its queue has room and holds no release of the group's footprint, no
restored entry waits to enter it, and the group holds its footprint (R144, R145, R148, R178). -/
structure Ctx.mxuReady (x : Ctx) : Prop where
  unfenced : (x.s.mxu x.mxuNo).fenced = false
  unreleased : ∀ e ∈ (x.s.mxu x.mxuNo).queue, ¬(e.block = x.r.block ∧ e.group = x.r.group.val ∧ e.frees = true)
  held : x.g.foot.st = .held
  room : (x.s.mxu x.mxuNo).queue.length < 16
  unsaved : ∀ e ∈ x.b.saved, e.group % 4 ≠ x.r.group.val % 4

/-- The state after an instruction entered its MXU's queue, its group changed to `g`, its token slot one higher (R93, R148), and the units
that it will write unspecified to what is still at work on them (R98). -/
def Ctx.queued (x : Ctx) (op : MxOp) (units : List Nat) (slot : Option Nat) (g : Group) : State :=
  let s := x.s.smudge x.r.block op.writes
  let m := s.mxu x.mxuNo
  let s := { s with nextId := x.s.nextId + 1 }.setMxu x.mxuNo { m with queue := m.queue ++ [x.entry op units slot] }
  let g := match slot with
    | some t => { g with tokens := g.tokens.put 0 t (g.tokens.get 0 t + 1) }
    | none => g
  s.putGroup x.r { g with pc := x.nextPc }

/-! ## Requests at their homes -/

/-- A request at the home of a line of device memory is served next: it stands first for its line in the slice's queue, its pool stands, its
tile's entry is sound, nothing keeps the line busy, and the access passes the directory as an event, which leaves the state `t` (R253, R272,
R279, R282, R286, R305, R393). -/
structure AtHome (s : State) (id : Nat) (q : MemReq) (line : Nat) (ev : DirEvent) (t : State) : Prop where
  held : s.reqs.get? id = some q
  sound : s.fw.fatal = false
  stage : q.stage = .flight
  arrived : q.via.arr.isSome = true
  first : s.ahead id q = false
  pool : s.poolFailed q.part q.va = false
  home : ∃ n, q.home = .dev n ∧ line = s.lineOfReq q n
  entry : s.tssMeet line = s
  idle : s.lineBusy id line = false
  passes : s.access line ev (some id) false = some (true, t)

/-- Writes to a line take effect here, and the line is not one of a mirrored region (R398). -/
def State.writesHere (s : State) (line : Nat) : Prop := s.zeroHome (.dev line) = .dev line ∧ s.mirrored line = false

/-! ## Tiles -/

/-- A request `q0` for a whole tile of this device is answered at once: the tile's entry is sound, its lines are idle and pass the directory
together for reads, the request crosses to its home, becoming `q`, and every line is there, which leaves the state `u` (R242, R279,
R305, R338). -/
structure TileRead (s : State) (id : Nat) (q0 : MemReq) (n0 : Nat) (t : TileAt) (q : MemReq) (u : State) : Prop where
  tile : s.tileOfLine (s.lineOfReq q0 n0) = some t
  entry : s.tssMeet t.line0 = s
  idle : ∀ l ∈ t.lines, s.lineBusy 0 l = false
  answered : ∃ v w, s.accessAll t.lines (.read none) none false = some (true, v) ∧ v.cross q0 = some (w, q)
    ∧ w.askTile id q t = some (true, u)

/-- A TLD of one tile of this device that its group can complete: nothing of it was copied or asked for, its tile's lines are at their home
and come back over the hinge, which leaves the state `w` (R94, R242). -/
structure OneTile (s : State) (op : Nat) (o : TileOp) (b : Block) (t : TileAt) (q : MemReq) (w : State) : Prop where
  held : s.tileOps.get? op = some o
  load : o.store = false
  sound : s.fw.fatal = false
  block : s.blocks.get? o.block = some b
  resident : b.phase = .resident
  one : o.count = 1
  fresh : o.lines = []
  unasked : s.reqs.any (fun _ q => q.kind == .tile false op 0) = false
  pool : s.poolFailed o.part (tileVa o.va o.stride 0) = false
  home : ∃ n0, s.homeOf o.part (tileVa o.va o.stride 0) = some (.dev n0) ∧ ∃ u, u.comeBack q 3 2048 = some w
    ∧ TileRead { s with nextId := s.nextId + 1 } s.nextId
      { o.request op (tileVa o.va o.stride 0) (.dev n0) (.tile false op 0) .waiting with hint := o.hint } n0 t q u

/-! ## Queues and commands -/

/-- A function writes a register of the queue `q`, whose record is `v`, and the write is performed: the link is up, the function exists, sees
the queue and is not being reset, and the tumbler admits the request (R403, R469, R479). -/
structure QueueWrite (s : State) (fn : Fin 64) (rid : Option Nat) (doorbell : Bool) (q : Fin 1024) (v : Queue) : Prop where
  queue : s.queue? q = some v
  sees : s.seesQueue fn q = true
  link : s.host.up = true
  clocked : s.suspended 0 = false
  there : s.fnExists fn = true
  calm : (s.fnRec fn).flr = false ∧ (s.fnRec 0).flr = false
  admitted : s.admits fn rid doorbell = true
  heard : s.feHeard fn v = true

/-- What ends a COMPLETION_WRITE: the state after the record, settled (R370, R373, R406). -/
def State.recorded (s : State) (c : Cmd) : Out := .next ((s.afterRecord c).trace)

/-- The grid that a POUR names: the three registers from SRC_B, or the immediate sign-extended over them (R84, R104; log 97). -/
def Ctx.grid (x : Ctx) : Nat × Nat × Nat :=
  match insImmValue x.i with
  | some w => ((w.setWidth 32 : Word).toNat, ((w >>> 32).setWidth 32 : Word).toNat, if w.msb then 0xFFFFFFFF else 0)
  | none => ((x.g.ureg x.i.b.toNat).toNat, (x.g.ureg (x.i.b.toNat + 1)).toNat, (x.g.ureg (x.i.b.toNat + 2)).toNat)

/-- The node that a POUR names, and its key (R104). -/
def Ctx.pourNode (x : Ctx) : Nat × Nat := (field x.UC 0 12, field x.UC 16 16)

/-- A range of partition memory can be read at once: it is mapped, nothing of it must be asked of another agent, and its tiles hold data
(R54, R91, R231). -/
structure ReadsAtOnce (s : State) (src : Src) (op : Option Nat) (p va n : Nat) : Prop where
  mapped : s.firstUnmapped p va n = none
  plain : s.frontPlain src op p va n = true
  data : s.frontStop p va n = none
  unspent : s.frontFlags p va n = 0

/-- What a POUR's operands must satisfy: its grid and node registers are readable, the node is one that can be poured, and its parameter
block is readable (R44, R104). -/
structure Ctx.pourOk (x : Ctx) (c : Cmd) (n : Node) (params : List Byte) : Prop where
  grid : insImmValue x.i = none → x.i.b.toNat + 3 ≤ 48
  which : insNoC x.i = false → uOk 1 x.i.c
  cmd : x.s.cmd? x.t.cmd = some c
  node : (x.s.stepVer x.t.cmd).nodes[x.pourNode.1]? = some n
  only : n.pourOnly = true
  params : n.paramLen = 0 ∧ params = [] ∨ n.paramLen ≠ 0 ∧ uOk 2 x.i.a ∧ addrOk 16 (x.U64 x.i.a).toNat = true
    ∧ ReadsAtOnce x.s (.grp x.r.block x.r.group.val) (some 0) x.t.part (x.U64 x.i.a).toNat n.paramLen
    ∧ params = x.s.partBytes x.t.part (x.U64 x.i.a).toNat n.paramLen
  free : x.writesFree
  released : x.s.releaseSet x.r 3 = []
  area : x.s.writable x.t.part c.pourVa (64 * c.pourEntries + c.pourArena) = true

/-! ## Mailbox requests -/

/-- The request of a mailbox slot was dispatched to the command of a code (R519, R522). -/
structure Dispatched (s : State) (r : Req) (code : Nat) : Prop where
  pending : ((s.fnRec r.fn).slot r.slot).state = .pending
  taken : ((s.fnRec r.fn).slot r.slot).busy = true
  code : ((s.fnRec r.fn).slot r.slot).code = code

/-- A request was dispatched to its command, its LENGTH is the command's, and its fields have the given values (R515, R516). -/
structure AskedBy (s : State) (r : Req) (code : Nat) (sizes fs : List Nat) : Prop where
  sent : Dispatched s r code
  length : ((s.fnRec r.fn).slot r.slot).len = encodedLen sizes
  fields : decodeFields sizes ((s.fnRec r.fn).slot r.slot).payload = fs

/-- Such a request of the PF. -/
structure Asked (s : State) (r : Req) (code : Nat) (sizes fs : List Nat) : Prop extends AskedBy s r code sizes fs where
  pf : r.fn = 0

/-- The list field of partition pairs in a request: a count and the elements (R515). -/
def pairFields (l : List (Nat × Nat)) : List Nat := l.length :: (l.map (fun x => [x.1, x.2])).flatten

/-- The partitions that such a list names. -/
def pairsNamed (l : List (Nat × Nat)) : List (Nat × Nat) := l.map (fun x => (partArg x.1, partArg x.2))

/-- Whether one of them was clamped. -/
def pairsClamped (l : List (Nat × Nat)) : Bool := l.any (fun x => 15 < x.1 || 15 < x.2)

/-- The end of a TWIN_ATTACH or TWIN_DETACH that waits for its later steps: the state, and no answer yet (R517). -/
def later (s : State) : Out := .next s

/-- A request answered with MB_OK in a state, with CLAMPED and a payload (Table 16-3). -/
def State.grants (s : State) (r : Req) (clamped : Bool) (payload : List Byte) : Out :=
  .next (s.answer r.fn r.slot .ok clamped 0 payload)

/-- A request refused with a status: nothing else happens (R487). -/
def State.refuses (s : State) (r : Req) (st : MbStatus) : Out := .next (s.answer r.fn r.slot st false 0 [])

/-- A request answered with a page of a status image, whose length is DETAIL; a page past the last is clamped to it (R524). -/
def State.grantsPage (s : State) (r : Req) (image : List Byte) (page : Nat) (clamped : Bool) : Out :=
  let n := pageSize r.fn
  let last := (image.length - 1) / n
  .next (s.answer r.fn r.slot .ok (clamped || last < page) image.length ((image.drop (min page last * n)).take n))

/-! ## What no command breaks -/

/-- The instructions of a group, POUR apart, which also makes a task. -/
def instructionCommands : List (GroupRef → Ins → Instr) :=
  [.iadd, .isub, .imul, .imulhiS, .imulhiU, .imad, .iminS, .iminU, .imaxS, .imaxU, .iabs, .iadd64, .isub64, .imadwU, .imadwS,
   .fadd, .fsub, .fmul, .ffma, .fmin, .fmax, .fabs, .fneg, .frint, .ftrunc, .ffloor, .fceil, .hadd2, .hsub2, .hmul2, .hfma2,
   .hmin2, .hmax2, .isetp, .isetp64, .fsetp, .sel, .plop, .p2v, .v2p]
  ++ [.and, .or, .xor, .not, .shl, .shrU, .shrS, .bfeU, .bfeS, .bfi, .popc, .clz, .brev, .mov, .mov64, .s2v, .cvt, .cvt2, .rcp,
   .rsq, .sqrt, .ex2, .lg2, .sin, .cos, .shflIdx, .shflUp, .shflDown, .shflXor, .voteAll, .voteAny, .voteBallot, .uadd, .usub,
   .umul, .uminS, .uminU, .umaxS, .umaxU, .uand]
  ++ [.uor, .uxor, .ushl, .ushrU, .ushrS, .umov, .uadd64, .umov64, .usetp, .usel, .s2u, .laneToUniform, .ldp, .ld, .st, .prefetch,
   .lds, .sts, .atomsAdd, .atomsMin, .atomsMax, .atomsExch, .atomsCas, .tld, .tst, .mxiMma, .mxiMmaR, .mxiAclr, .mxiArd,
   .mxiArd128, .mxiAld, .mxfMma, .mxfMmaR, .mxfMmaMasked, .mxfMmaRMasked, .mxfArd, .barSync, .barArrive, .semAcq, .semRel]
  ++ [.fenceAcq, .fenceRel, .fenceAr, .lbxFence, .atomAddU32, .atomAddU64, .atomMinS32, .atomMinU32, .atomMaxS32, .atomMaxU32,
   .atomMinS64, .atomMinU64, .atomMaxS64, .atomMaxU64, .atomAndB32, .atomOrB32, .atomXorB32, .atomAndB64, .atomOrB64,
   .atomXorB64, .atomExchB32, .atomExchB64, .atomCasB32, .atomCasB64, .atomCasB128, .atomAddF32, .fxadd128, .nop, .bra, .brx,
   .call, .ret, .joinPush, .join, .exit, .wait]

/-- The event log is in order of SEQ, and every record's SEQ was given out (R542). -/
def Flash.rising (f : Flash) : Prop := f.log.Pairwise (fun a b => a.seq < b.seq) ∧ ∀ r ∈ f.log, r.seq < f.nextSeq

/-- Device memory and host memory are in canonical form and the event log is in order. -/
def soundOf (hbm hostMem : Tab Byte) (f : Flash) : Prop := hbm.wf 0 = true ∧ hostMem.wf 0 = true ∧ f.rising

/-- What is sound of a state. -/
def State.sound (s : State) : Prop := soundOf s.hbm s.hostMem s.flash

/-- What every command keeps: the queue of commands, the fuses, the SEQ numbers given out, and soundness. -/
def State.keeps (s t : State) : Prop :=
  t.pending = s.pending ∧ t.fuses = s.fuses ∧ s.flash.nextSeq ≤ t.flash.nextSeq
    ∧ (soundOf s.hbm s.hostMem s.flash → soundOf t.hbm t.hostMem t.flash)

/-- A command answers a next state that keeps these. -/
def Kept (s : State) (o : Out) : Prop := ∃ t, o = .next t ∧ s.keeps t

end Sys2Proof.Machine
end

