-- ==== Sys2Proof/Certificates/Slice0/Obligations.lean ====
section
/-! DEFINITION. The statements for the provers. -/

open Sys2Proof Sys2Proof.Machine

/-! ## The block -/

/-- A step performs the command at the front of the queue on the state with the queue's rest; with nothing waiting the block idles
(the model's form of a block, log 1). -/
def Obligations.StepRunsFrontCommand : Prop :=
  (∀ (c : Instr) (rest : List Instr) (s : State),
    step { s with pending := c :: rest } = exec c { s with pending := rest })
  ∧ ∀ s : State, s.pending = [] → step s = .next s

/-! ## Vector instructions -/

/-- Table 3-15: the vector instructions with one, two and three sources, and those on register pairs. In every selected lane DST takes
the operation's value, the group goes on at the next instruction, and nothing else changes. -/
def Obligations.VectorArithmetic : Prop :=
  (∀ (s : State) (r : GroupRef) (i : Ins) (x : Ctx), CanIssue s r i x → x.aOk 1 → x.vOk 1 i.dst →
      ∀ p ∈ ([
        (.iabs, fun l => if (x.A l).msb then -(x.A l) else x.A l),
        (.not, fun l => ~~~(x.A l)),
        (.popc, fun l => BitVec.ofNat 32 (popCount 32 (x.A l).toNat)),
        (.clz, fun l => if x.A l = 0 then 32 else BitVec.ofNat 32 (31 - Nat.log2 (x.A l).toNat)),
        (.brev, fun l => bitReverse (x.A l)),
        (.mov, fun l => x.A l),
        (.fabs, fun l => fp1 (insFtz i) (fun v => if v.isNeg then v.neg else v) (x.A l)),
        (.fneg, fun l => fp1 (insFtz i) FVal.neg (x.A l)),
        (.frint, fun l => fp1 (insFtz i) (FVal.integral .nearest) (x.A l)),
        (.ftrunc, fun l => fp1 (insFtz i) (FVal.integral .trunc) (x.A l)),
        (.ffloor, fun l => fp1 (insFtz i) (FVal.integral .floor) (x.A l)),
        (.fceil, fun l => fp1 (insFtz i) (FVal.integral .ceil) (x.A l)),
        (.rcp, fun l => sfuWord .rcp 0 (insFtz i) (x.A l)),
        (.rsq, fun l => sfuWord .rsq 1 (insFtz i) (x.A l)),
        (.sqrt, fun l => sfuWord .sqrt 2 (insFtz i) (x.A l)),
        (.ex2, fun l => sfuWord .ex2 3 (insFtz i) (x.A l)),
        (.lg2, fun l => sfuWord .lg2 4 (insFtz i) (x.A l)),
        (.sin, fun l => sfuWord .sin 5 (insFtz i) (x.A l)),
        (.cos, fun l => sfuWord .cos 6 (insFtz i) (x.A l))] :
          List ((GroupRef → Ins → Instr) × (Nat → Word))),
        exec (p.1 r i) s = .next (x.after (x.with32 p.2)))
  ∧ (∀ (s : State) (r : GroupRef) (i : Ins) (x : Ctx), CanIssue s r i x → x.aOk 1 → x.bOk 1 → x.vOk 1 i.dst →
      ∀ p ∈ ([
        (.iadd, fun l => x.A l + x.B l),
        (.isub, fun l => x.A l - x.B l),
        (.imul, fun l => x.A l * x.B l),
        (.imulhiS, fun l => BitVec.ofInt 32 ((x.A l).toInt * (x.B l).toInt / 2 ^ 32)),
        (.imulhiU, fun l => BitVec.ofNat 32 ((x.A l).toNat * (x.B l).toNat / 2 ^ 32)),
        (.iminS, fun l => if (x.B l).slt (x.A l) then x.B l else x.A l),
        (.iminU, fun l => if (x.B l).ult (x.A l) then x.B l else x.A l),
        (.imaxS, fun l => if (x.A l).slt (x.B l) then x.B l else x.A l),
        (.imaxU, fun l => if (x.A l).ult (x.B l) then x.B l else x.A l),
        (.and, fun l => x.A l &&& x.B l),
        (.or, fun l => x.A l ||| x.B l),
        (.xor, fun l => x.A l ^^^ x.B l),
        (.shl, fun l => x.A l <<< ((x.B l).toNat % 32)),
        (.shrU, fun l => x.A l >>> ((x.B l).toNat % 32)),
        (.shrS, fun l => (x.A l).sshiftRight ((x.B l).toNat % 32)),
        (.bfeU, fun l => BitVec.ofNat 32 ((x.A l).toNat / 2 ^ field (x.B l) 0 5 % 2 ^ min (field (x.B l) 8 6) 32)),
        (.bfeS, fun l => bfeS (x.A l) (x.B l)),
        (.fadd, fun l => fp2 (insFtz i) FVal.add (x.A l) (x.B l)),
        (.fsub, fun l => fp2 (insFtz i) (fun a b => a.add b.neg) (x.A l) (x.B l)),
        (.fmul, fun l => fp2 (insFtz i) FVal.mul (x.A l) (x.B l)),
        (.fmin, fun l => BitVec.ofNat 32 (fminmax .fp32 (insFtz i) false (x.A l).toNat (x.B l).toNat)),
        (.fmax, fun l => BitVec.ofNat 32 (fminmax .fp32 (insFtz i) true (x.A l).toNat (x.B l).toNat)),
        (.hadd2, fun l => hp2 (insHalf i) (insFtz i) FVal.add (x.A l) (x.B l)),
        (.hsub2, fun l => hp2 (insHalf i) (insFtz i) (fun a b => a.add b.neg) (x.A l) (x.B l)),
        (.hmul2, fun l => hp2 (insHalf i) (insFtz i) FVal.mul (x.A l) (x.B l)),
        (.hmin2, fun l => halves (fun p q _ => fminmax (insHalf i) (insFtz i) false p q) (x.A l) (x.B l) 0),
        (.hmax2, fun l => halves (fun p q _ => fminmax (insHalf i) (insFtz i) true p q) (x.A l) (x.B l) 0),
        (.shflIdx, fun l => x.A (shflLane x.sel l (field (x.B l) 0 5 : Nat))),
        (.shflUp, fun l => x.A (shflLane x.sel l ((l : Int) - (x.B l).toNat))),
        (.shflDown, fun l => x.A (shflLane x.sel l ((l : Int) + (x.B l).toNat))),
        (.shflXor, fun l => x.A (shflLane x.sel l ((l ^^^ field (x.B l) 0 5 : Nat) : Int))),
        (.sel, fun l => if (x.g.pred (insPsrc i)).getLsbD l then x.A l else x.B l)] :
          List ((GroupRef → Ins → Instr) × (Nat → Word))),
        exec (p.1 r i) s = .next (x.after (x.with32 p.2)))
  ∧ (∀ (s : State) (r : GroupRef) (i : Ins) (x : Ctx), CanIssue s r i x →
      (x.aOk 1 → x.bOk 1 → x.cOk 1 → x.vOk 1 i.dst →
        ∀ p ∈ ([
          (.imad, fun l => x.A l * x.B l + x.C l),
          (.bfi, fun l => bfi (x.A l) (x.B l) (x.C l)),
          (.ffma, fun l => fp3 (insFtz i) (fun a b c => (a.mul b).add c) (x.A l) (x.B l) (x.C l)),
          (.hfma2, fun l => hp3 (insHalf i) (insFtz i) (fun a b c => (a.mul b).add c) (x.A l) (x.B l) (x.C l))] :
            List ((GroupRef → Ins → Instr) × (Nat → Word))),
          exec (p.1 r i) s = .next (x.after (x.with32 p.2)))
      ∧ (x.aOk 2 → x.vOk 2 i.dst → exec (.mov64 r i) s = .next (x.after (x.with64 x.AA)))
      ∧ (x.aOk 2 → x.bOk 2 → x.vOk 2 i.dst →
          exec (.iadd64 r i) s = .next (x.after (x.with64 (fun l => x.AA l + x.BB l)))
          ∧ exec (.isub64 r i) s = .next (x.after (x.with64 (fun l => x.AA l - x.BB l))))
      ∧ (x.aOk 1 → x.bOk 1 → x.cOk 2 → x.vOk 2 i.dst →
          exec (.imadwU r i) s
            = .next (x.after (x.with64 (fun l => (x.A l).setWidth 64 * (x.B l).setWidth 64 + x.CC l)))
          ∧ exec (.imadwS r i) s
            = .next (x.after (x.with64 (fun l => (x.A l).signExtend 64 * (x.B l).signExtend 64 + x.CC l)))))

/-- Tables 3-15 and 3-16: comparisons, votes and the instructions that move predicates, with the conversions. Of PLOP an
immediate names the second predicate (the model's choice, log 97). -/
def Obligations.VectorPredicatesAndConversions : Prop :=
  ∀ (s : State) (r : GroupRef) (i : Ins) (x : Ctx), CanIssue s r i x →
    (i.dst.toNat ≤ 7 →
      (insCc i ≤ 9 → x.aOk 1 → x.bOk 1 →
        exec (.isetp r i) s
          = .next (x.after (x.withP (fun l => intCompare (insCc i) (x.A l) (x.B l) = some true))))
      ∧ (insCc i ≤ 9 → x.aOk 2 → x.bOk 2 →
        exec (.isetp64 r i) s
          = .next (x.after (x.withP (fun l => intCompare (insCc i) (x.AA l) (x.BB l) = some true))))
      ∧ (insCc i ≤ 7 → x.aOk 1 → x.bOk 1 →
        exec (.fsetp r i) s = .next (x.after (x.withP (fun l =>
          floatCompare (insCc i) (FFmt.fp32.decode (x.A l).toNat) (FFmt.fp32.decode (x.B l).toNat) = some true))))
      ∧ (let q := ((insImmValue i).map BitVec.toNat).getD i.b.toNat
        insCc i ≤ 5 → i.a.toNat ≤ 7 → q ≤ 7 →
        exec (.plop r i) s = .next (x.after (x.withP (fun l =>
          predLogic (insCc i) ((x.g.pred i.a.toNat).getLsbD l) ((x.g.pred q).getLsbD l) = some true)))))
    ∧ (i.dst.toNat ≤ 7 → x.aOk 1 → exec (.v2p r i) s = .next (x.after (x.withP (fun l => x.A l != 0))))
    ∧ (i.dst.toNat ≤ 7 →
        exec (.voteAll r i) s = .next (x.after (x.withP (fun _ => decide (x.sel &&& x.g.pred (insPsrc i) = x.sel))))
        ∧ exec (.voteAny r i) s = .next (x.after (x.withP (fun _ => x.sel &&& x.g.pred (insPsrc i) != 0))))
    ∧ (x.vOk 1 i.dst →
        exec (.p2v r i) s = .next (x.after (x.with32 (fun l => if (x.g.pred (insPsrc i)).getLsbD l then 1 else 0)))
        ∧ exec (.voteBallot r i) s = .next (x.after (x.with32 (fun _ => x.sel &&& x.g.pred (insPsrc i))))
        ∧ exec (.s2v r i) s = .next ((x.special i.a.toNat).2.putGroup r { x.with32 (fun l =>
            match i.a.toNat with
            | 0 => BitVec.ofNat 32 l
            | 1 => BitVec.ofNat 32 (32 * r.group.val + l)
            | _ => (x.special i.a.toNat).1) with pc := x.nextPc }))
    ∧ (x.aOk 1 → x.vOk 1 i.dst → ∀ sf df, EFmt.ofCode (field i.mod 4 4) = some sf →
        EFmt.ofCode (field i.mod 8 4) = some df →
        exec (.cvt r i) s = .next (x.after (x.with32 (fun l =>
          cvtWord sf df (i.mod.getLsbD 12) (i.mod.getLsbD 13) (i.mod.getLsbD 14) (insFtz i) (x.A l)))))
    ∧ (x.aOk 1 → x.bOk 1 → x.vOk 1 i.dst → ∀ f, (field i.mod 8 4, f) ∈ [(1, FFmt.bf16), (2, FFmt.fp16)] →
        exec (.cvt2 r i) s = .next (x.after (x.with32 (fun l =>
          let one := fun w : Word =>
            (cvtWord (.flt .fp32) (.flt f) (i.mod.getLsbD 12) (i.mod.getLsbD 13) false (insFtz i) w).toNat
          BitVec.ofNat 32 (one (x.A l) + 65536 * one (x.B l))))))

/-! ## Uniform instructions -/

/-- Table 3-17: the uniform operations with a 32-bit result. They act once for the group, when some lane is selected. Table 3-17:
pairs, the uniform comparison, special registers, a lane's value and parameters; and every uniform instruction when no lane is
selected. -/
def Obligations.UniformInstructions : Prop :=
  (∀ (s : State) (r : GroupRef) (i : Ins) (x : Ctx), CanIssue s r i x → x.sel ≠ 0 →
      uOk 1 i.dst → uOk 1 i.a → x.ubOk 1 →
      ∀ p ∈ (let a := x.g.ureg i.a.toNat
        let b := x.UB
        [(.uadd, a + b), (.usub, a - b), (.umul, a * b),
        (.uminS, if b.slt a then b else a), (.uminU, if b.ult a then b else a),
        (.umaxS, if a.slt b then b else a), (.umaxU, if a.ult b then b else a),
        (.uand, a &&& b), (.uor, a ||| b), (.uxor, a ^^^ b),
        (.ushl, a <<< (b.toNat % 32)), (.ushrU, a >>> (b.toNat % 32)), (.ushrS, a.sshiftRight (b.toNat % 32)),
        (.umov, a),
        (.usel, if (x.g.pred (insPsrc i)).getLsbD (lowestLane x.sel) then a else b)] :
          List ((GroupRef → Ins → Instr) × Word)),
        exec (p.1 r i) s = .next (x.after (x.g.putU i.dst.toNat p.2)))
  ∧ (∀ (s : State) (r : GroupRef) (i : Ins) (x : Ctx), CanIssue s r i x →
      (x.sel ≠ 0 →
        (uOk 2 i.dst → uOk 2 i.a → exec (.umov64 r i) s = .next (x.after (x.withUU (x.U64 i.a))))
        ∧ (uOk 2 i.dst → uOk 2 i.a → x.ubOk 2 →
          exec (.uadd64 r i) s = .next (x.after (x.withUU (x.U64 i.a + x.UBB))))
        ∧ (i.dst.toNat ≤ 7 → uOk 1 i.a → x.ubOk 1 → insCc i ≤ 9 →
          exec (.usetp r i) s = .next (x.after (x.g.putPred i.dst.toNat
            (if intCompare (insCc i) (x.g.ureg i.a.toNat) x.UB = some true then 0xFFFFFFFF else 0))))
        ∧ (uOk 1 i.dst → exec (.s2u r i) s
          = .next ((x.special i.a.toNat).2.putGroup r
              { x.g.putU i.dst.toNat (x.special i.a.toNat).1 with pc := x.nextPc }))
        ∧ (uOk 1 i.dst → x.vOk 1 i.a → exec (.laneToUniform r i) s
          = .next (x.after (x.g.putU i.dst.toNat (laneAt (x.g.vreg i.a.toNat) (lowestLane x.sel)))))
        ∧ (∀ k, k ≤ 2 → field i.mod 3 3 = k + 2 → uOk 1 i.a → uOk (2 ^ k) i.dst →
          ∀ off, off = (x.g.ureg i.a.toNat + ((insImmValue i).getD 0).setWidth 32).toNat → off % (4 * 2 ^ k) = 0 →
          exec (.ldp r i) s = .next (x.after ((List.range (2 ^ k)).foldl
            (fun g j => g.putU (i.dst.toNat + j) (BitVec.ofNat 32 (numAt x.t.params (off + 4 * j) 4))) x.g))))
      ∧ (x.sel = 0 → ∀ c ∈ ([.uadd, .usub, .umul, .uminS, .uminU, .umaxS, .umaxU, .uand, .uor, .uxor, .ushl, .ushrU,
          .ushrS, .umov, .uadd64, .umov64, .usetp, .usel, .s2u, .laneToUniform, .ldp] : List (GroupRef → Ins → Instr)),
          exec (c r i) s = .next (x.after x.g)))

/-! ## Control -/

/-- Tables 4-1 and 4-2, R98: NOP, branches, calls and returns, joins, EXIT and WAIT in a group that can issue; after its WAIT a group may write
the local-memory units that a tile instruction of the slot uses. -/
def Obligations.ControlFlow : Prop :=
  ∀ (s : State) (r : GroupRef) (i : Ins) (x : Ctx), CanIssue s r i x →
    exec (.nop r i) s = .next (x.after x.g)
    ∧ (x.sel = 0 → ∀ c ∈ ([.bra, .brx, .call, .exit, .wait] : List (GroupRef → Ins → Instr)),
        exec (c r i) s = .next (x.after x.g))
    ∧ (x.sel ≠ 0 → ∀ p ∈ ([(.bra, x.nextPc + insOff24 i), (.brx, x.U64 i.a)] :
          List ((GroupRef → Ins → Instr) × DWord)), uOk 2 i.a →
        (x.sel = x.g.active → exec (p.1 r i) s = .next (s.putGroup r { x.g with pc := p.2 }))
        ∧ (x.sel ≠ x.g.active → (x.branchStack p.2).length ≤ 32 →
          exec (p.1 r i) s = .next (x.after
            { x.g with stack := x.branchStack p.2, active := x.g.active &&& ~~~x.sel })))
    ∧ (x.sel ≠ 0 → x.g.stack.length < 32 →
        exec (.call r i) s = .next (s.putGroup r { x.g with
          stack := ⟨.call, x.nextPc, x.g.active⟩ :: x.g.stack, active := x.sel, pc := x.nextPc + insOff24 i }))
    ∧ (x.g.stack.length < 32 →
        exec (.joinPush r i) s = .next (x.after { x.g with
          stack := ⟨.join, x.nextPc + insOff24 i, x.g.active⟩ :: x.g.stack }))
    ∧ (∀ e l, x.g.stack = e :: l → e.mask &&& x.g.live ≠ 0 →
        (e.kind ≠ .join → exec (.ret r i) s = .next (s.putGroup r
          { x.g with stack := l, active := e.mask &&& x.g.live, pc := e.addr }))
        ∧ (e.kind = .div → exec (.join r i) s = .next (s.putGroup r
          { x.g with stack := l, active := e.mask &&& x.g.live, pc := e.addr }))
        ∧ (e.kind = .join → e.addr = x.g.pc → exec (.join r i) s = .next (s.putGroup r
          { x.g with stack := l, active := e.mask &&& x.g.live, pc := e.addr + 8 })))
    ∧ (x.sel ≠ 0 → x.sel ≠ x.g.active →
        exec (.exit r i) s = .next (s.setBlock r.block (x.b.putGroup r.group.val
          { x.g with live := x.g.live &&& ~~~x.sel, active := x.g.active &&& ~~~x.sel, pc := x.nextPc }).settleBars))
    ∧ (x.sel ≠ 0 → x.sel = x.g.active →
        exec (.exit r i) s = .next (s.setBlock r.block (x.b.putGroup r.group.val
          (Group.unwind { x.g with live := x.g.live &&& ~~~x.sel } x.g.stack)).settleBars))
    ∧ (x.sel ≠ 0 → i.dst.toNat ≤ 7 →
        let veils := x.b.veils.map (fun v =>
          if v.group = r.group.val && v.slot = i.dst.toNat then { v with waited := true } else v)
        (x.g.tokens.get 0 i.dst.toNat = 0 → exec (.wait r i) s
          = .next (s.setBlock r.block ({ x.b with veils := veils }.putGroup r.group.val { x.g with pc := x.nextPc })))
        ∧ (x.g.tokens.get 0 i.dst.toNat ≠ 0 → exec (.wait r i) s = .next s))

/-- R120: what ends the task with ACCESS_FAULT at the instruction's address: a push onto 32 entries, RET on an empty stack or a JOIN
entry, and JOIN on an empty stack, a CALL entry or a JOIN entry of another address. R83, R86: a reserved opcode ends the task so; and so
does every instruction at an address that is misaligned or unmapped, or whose second word is. Table 3-6: the fields of an instruction word, of
which none of a reserved class spells an instruction. -/
def Obligations.ControlAndInstructionFaults : Prop :=
  (∀ (s : State) (r : GroupRef) (i : Ins) (x : Ctx), CanIssue s r i x →
      let ends := Host.Outcome.next (s.endTask x.b.task .accessFault x.g.pc)
      (x.g.stack.length = 32 → exec (.joinPush r i) s = ends)
      ∧ (x.g.stack.length = 32 → x.sel ≠ 0 → exec (.call r i) s = ends)
      ∧ (x.g.stack.length = 32 → x.sel ≠ 0 → x.sel ≠ x.g.active → (x.branchStack (x.nextPc + insOff24 i)).length = 33 →
          exec (.bra r i) s = ends)
      ∧ (x.g.stack.length = 32 → x.sel ≠ 0 → x.sel ≠ x.g.active → uOk 2 i.a → (x.branchStack (x.U64 i.a)).length = 33 →
          exec (.brx r i) s = ends)
      ∧ (x.g.stack = [] → exec (.ret r i) s = ends ∧ exec (.join r i) s = ends)
      ∧ (∀ e l, x.g.stack = e :: l →
          (e.kind = .join → exec (.ret r i) s = ends)
          ∧ (e.kind = .call → exec (.join r i) s = ends)
          ∧ (e.kind = .join → e.addr ≠ x.g.pc → exec (.join r i) s = ends)))
  ∧ (∀ (s : State) (r : GroupRef) (x : Ctx), CanIssue s r ⟨none, 0, false, 0, 0, 0, 0, 0⟩ x →
      exec (.reservedOpcode r) s = .next (s.endTask x.b.task .accessFault x.g.pc))
  ∧ (∀ (s : State) (r : GroupRef) (i : Ins) (x : Ctx), s.ctx? r i = some x →
      (addrOk 8 x.g.pc.toNat = false ∨ s.mapped x.t.part x.g.pc.toNat = false
        ∨ (i.long.isSome = true ∧ s.mapped x.t.part (x.g.pc.toNat + 8) = false)) →
      ∀ c ∈ instructionCommands ++ [.pour], exec (c r i) s = .next (s.endTask x.b.task .accessFault x.g.pc))
  ∧ (∀ (s : State) (r : GroupRef) (x : Ctx), s.ctx? r ⟨none, 0, false, 0, 0, 0, 0, 0⟩ = some x →
      (addrOk 8 x.g.pc.toNat = false ∨ s.mapped x.t.part x.g.pc.toNat = false) →
      exec (.instructionFetchFault r) s = .next (s.endTask x.b.task .accessFault x.g.pc))
  ∧ (∀ (c : BitVec 4) (op : BitVec 7) (long gneg : Bool) (guard : BitVec 3) (dst a b sc : BitVec 8) (mod : BitVec 16) (second : DWord),
      let w := BitVec.ofNat 64 (c.toNat + 2 ^ 4 * op.toNat + 2 ^ 11 * long.toNat + 2 ^ 12 * guard.toNat + 2 ^ 15 * gneg.toNat
        + 2 ^ 16 * dst.toNat + 2 ^ 24 * a.toNat + 2 ^ 32 * b.toNat + 2 ^ 40 * sc.toNat + 2 ^ 48 * mod.toNat)
      let i : Ins := ⟨if long then some second else none, guard, gneg, dst, a, b, sc, mod⟩
      Ins.ofWord w second = i ∧ insClass w = c.toNat ∧ insOp w = op.toNat
      ∧ ∀ g, Instr.ofWords g w second = ((classOps c.toNat).find? (fun p => p.1 == op.toNat)).map (fun p => p.2 g i)
        ∧ (11 ≤ c.toNat → Instr.ofWords g w second = none))

/-! ## Local memory -/

/-- Table 3-8, R98, R110, R217, R220, R240: loads, stores and atomics in the block's local memory, lanes in ascending order, once the gates
of releases and acquires let them; the units written are unspecified to TILE and MXI instructions still at work on them. -/
def Obligations.LocalMemory : Prop :=
  ∀ (s : State) (r : GroupRef) (i : Ins) (x : Ctx), CanIssue s r i x → x.vOk 1 i.a →
    (field i.mod 3 3 ≤ 4 → x.vOk (regsFor (insWidth i)) i.dst → x.localOk (insWidth i) →
      (x.ungated → exec (.lds r i) s = .next (x.after ((lanesIn x.sel).foldl
        (fun g l => g.putLane i.dst.toNat (regsFor (insWidth i)) l
          (extendLoad (insWidth i) (i.mod.getLsbD 6) (ofBytes (x.b.readL (x.localAt l) (insWidth i))))) x.g)))
      ∧ (x.writesFree → exec (.sts r i) s = .next ((s.setBlock r.block (((lanesIn x.sel).foldl
        (fun b l => b.writeL (x.localAt l) (bytesOf (insWidth i) (x.vNum i.dst.toNat (regsFor (insWidth i)) l))) x.b).putGroup
          r.group.val { x.g with pc := x.nextPc })).smudge r.block (x.laneUnits x.localAt))))
    ∧ (x.localOk 4 → x.writesFree → (i.long = none → insImm i = false) → x.vOk 1 i.b → (i.mod.getLsbD 7 = true → x.vOk 1 i.dst) →
      ∀ p ∈ ([
        (.atomsAdd, false, fun o b _ => o + b),
        (.atomsMin, false, fun o b _ => if (if i.mod.getLsbD 6 then b.slt o else b.ult o) then b else o),
        (.atomsMax, false, fun o b _ => if (if i.mod.getLsbD 6 then o.slt b else o.ult b) then b else o),
        (.atomsExch, false, fun _ b _ => b),
        (.atomsCas, true, fun o b c => if o = b then c else o)] :
          List ((GroupRef → Ins → Instr) × Bool × (Word → Word → Word → Word))),
      (p.2.1 = true → x.vOk 1 i.c) →
      ∃ acc : Block × Group, acc = (lanesIn x.sel).foldl (fun acc l =>
          let old := BitVec.ofNat 32 (ofBytes (acc.1.readL (x.localAt l) 4))
          (acc.1.writeL (x.localAt l) (bytesOf 4 (p.2.2 old (laneAt (x.g.vreg i.b.toNat) l)
              (if p.2.1 then laneAt (x.g.vreg i.c.toNat) l else 0)).toNat),
            if i.mod.getLsbD 7 then acc.2.putLane i.dst.toNat 1 l old.toNat else acc.2)) (x.b, x.g)
        ∧ exec (p.1 r i) s
          = .next ((s.setBlock r.block (acc.1.putGroup r.group.val { acc.2 with pc := x.nextPc })).smudge r.block
            (x.laneUnits x.localAt)))

/-! ## Global memory -/

/-- Table 3-8, R82, R87, R213: loads, stores and prefetches act line by line in the order of `lineGroups`: a load's lines are served by the
core's L1 or requested from their homes; a store updates the L1 copy and sends its bytes; a prefetch requests mapped lines. A spent load makes
its spent requests with its reads (R245). -/
def Obligations.GlobalLoadStorePrefetch : Prop :=
  ∀ (s : State) (r : GroupRef) (i : Ins) (x : Ctx), CanIssue s r i x → x.vOk 2 i.a → field i.mod 3 3 ≤ 4 →
    let w := insWidth i
    let hint := field i.mod 0 2
    let lanes := lanesIn x.sel
    (x.vOk (regsFor w) i.dst → x.lanesOk x.globalAt w false → x.ungated →
      (∀ p ∈ lineGroups x.globalAt lanes, ∀ h, s.homeOf x.t.part (128 * p.1) = some h →
        ∀ q ∈ s.outstanding r, ¬(q.2.reads = true ∧ q.2.home = h)) →
      let noted := lanes.foldl (fun s l => match s.homeOf x.t.part (x.globalAt l) with
        | some h => s.noteAccess x.b.task x.t.part (x.globalAt l) h
        | none => s) { s with nextId := s.nextId + 1 }
      let out := (lineGroups x.globalAt lanes).foldl
        (x.loadLine i.dst.toNat w hint s.nextId (i.mod.getLsbD 6) (!i.mod.getLsbD 2)) (noted, [])
      let tiles := if hint = 3 then s.spentTiles x.t.part (lanes.map x.globalAt) else []
      let sent := out.1.sendSpent (.grp r.block r.group.val) x.t.part x.g.pc out.2 tiles
      let done := if tiles.isEmpty then out.1
        else if out.2.isEmpty then tiles.foldl (fun s t => s.dropCopies x.b.core t.2) sent
        else { sent with spents := sent.spents.set s.nextId ⟨tiles, out.2⟩ }
      exec (.ld r i) s = .next (done.updGroup r (fun g => { g with pc := x.nextPc })))
    ∧ (cvtOk (field i.mod 7 2) (field i.mod 9 4) w = true → x.vOk (regsFor w) i.dst → x.lanesOk x.globalAt w true →
        x.ungated →
      exec (.st r i) s = .next (((lineGroups x.globalAt lanes).foldl
        (x.storeLanes (if hint = 3 then 0 else hint) w
          (fun l => x.storeElem i.dst.toNat w (field i.mod 7 2) (field i.mod 9 4) (x.globalAt l) l))
        (if hint = 3 then s.raise x.b.task flagClamped else s)).putGroup r { x.g with pc := x.nextPc }))
    ∧ ((∀ l ∈ lanes, x.globalAt l < 2 ^ 48 ∧ x.globalAt l % w = 0) → x.ungated →
      exec (.prefetch r i) s = .next (((lineGroups x.globalAt (lanes.filter (fun l => s.mapped x.t.part (x.globalAt l)))).foldl
        (fun s p => match s.homeOf x.t.part (128 * p.1) with
          | some h => (s.addReq ⟨.grp r.block r.group.val, x.t.part, 128 * p.1, h, .prefetch,
              if hint = 3 then 0 else hint, .flight, x.g.pc, .free⟩).2
          | none => s)
        (if hint = 3 then s.raise x.b.task flagClamped else s)).putGroup r { x.g with pc := x.nextPc }))

/-- Table 3-11, R99 to R103, R219: an atomic sends, for each line that its lanes touch, one request that its home performs and that carries
the releases which hold it; with RET
its destination is interlocked until the response, and an acquire holds later accesses for it. What one line of an access does at its
issue: a load served whole by the L1 writes its lanes and asks for nothing; otherwise one request in flight to the line's home, and the
destination interlocked (R82, R213). A store's line is one request that carries its bytes, and an atomic's line drops the L1 copy
(R100). -/
def Obligations.AtomicsAndRequests : Prop :=
  (∀ (s : State) (r : GroupRef) (i : Ins) (x : Ctx), CanIssue s r i x → x.vOk 2 i.a → x.ungated →
      ∀ p ∈ ([
        (.atomAddU32, .addI, 4), (.atomAddU64, .addI, 8), (.atomMinS32, .minS, 4), (.atomMinU32, .minU, 4),
        (.atomMaxS32, .maxS, 4), (.atomMaxU32, .maxU, 4), (.atomMinS64, .minS, 8), (.atomMinU64, .minU, 8),
        (.atomMaxS64, .maxS, 8), (.atomMaxU64, .maxU, 8), (.atomAndB32, .and, 4), (.atomOrB32, .or, 4),
        (.atomXorB32, .xor, 4), (.atomAndB64, .and, 8), (.atomOrB64, .or, 8), (.atomXorB64, .xor, 8),
        (.atomExchB32, .exch, 4), (.atomExchB64, .exch, 8), (.atomCasB32, .cas, 4), (.atomCasB64, .cas, 8),
        (.atomCasB128, .cas, 16), (.atomAddF32, .addF, 4), (.fxadd128, .addI, 16)] :
          List ((GroupRef → Ins → Instr) × AtomOp × Nat)),
        let w := p.2.2
        let addr := fun l => (laneAt (x.g.vreg (i.a.toNat + 1)) l ++ laneAt (x.g.vreg i.a.toNat) l : DWord).toNat
        x.lanesOk addr w true →
        (i.mod.getLsbD 4 = true → x.vOk (regsFor w) i.dst) →
        (insImmValue i = none → x.vOk (regsFor w) i.b) →
        (p.2.1 = .cas → insNoC i = false → x.vOk (regsFor w) i.c) →
        let b := fun l => match insImmValue i with
          | some v => wrapInt (8 * w) v.toInt
          | none => x.vNum i.b.toNat (regsFor w) l
        let c := fun l => if p.2.1 = .cas ∧ insNoC i = false then x.vNum i.c.toNat (regsFor w) l else 0
        let ret := if i.mod.getLsbD 4 then some i.dst.toNat else none
        exec (p.1 r i) s = .next (((lineGroups addr (lanesIn x.sel)).foldl (x.atomLanes p.2.1 w ret b c
          (if i.mod.getLsbD 3 then x.heldAt (field i.mod 0 2) else x.held)) s).updGroup r
          (fun g => { g with pc := x.nextPc })))
  ∧ (∀ (x : Ctx) (s : State) (g : Group) (h : Home) (n : Nat) (lanes : List (Nat × Nat)),
      s.homeOf x.t.part (128 * n) = some h → s.group? x.r = some g →
      (∀ (dst w hint op : Nat) (signed cache : Bool) (ids : List Nat),
        (∀ e, cache = true → (s.core x.b.core).l1.get? h.l1Key = some e →
            e.valid &&& laneSectors lanes w = laneSectors lanes w →
          x.loadLine dst w hint op signed cache (s, ids) (n, lanes)
            = (s.putGroup x.r (g.putLoaded dst w signed lanes e.data), ids))
        ∧ ((cache = false ∨ ∀ e, (s.core x.b.core).l1.get? h.l1Key = some e →
            e.valid &&& laneSectors lanes w ≠ laneSectors lanes w) →
          (x.loadLine dst w hint op signed cache (s, ids) (n, lanes)).2 = s.nextId :: ids
          ∧ (x.loadLine dst w hint op signed cache (s, ids) (n, lanes)).1
            = { s with nextId := s.nextId + 1, reqs := s.reqs.set s.nextId ⟨.grp x.r.block x.r.group.val, x.t.part, 128 * n, h,
                .load dst w signed lanes op (if s.atomPending x.b.core h then 0 else if cache then 2 else 1), hint, .flight, x.g.pc,
                .free⟩ }.putGroup x.r
              { g with busy := ⟨dst, regsFor w, s.nextId⟩ :: g.busy }))
      ∧ (∀ (hint w : Nat) (val : Nat → Nat),
          let dm := lanes.foldl (fun (a : BitVec 1024 × BitVec 128) l =>
            (mergeLine a.1 (lineOf l.2 (val l.1)) (byteMask l.2 w), a.2 ||| byteMask l.2 w)) (0, 0)
          let t := x.storeLanes hint w val s (n, lanes)
          t.nextId = s.nextId + 1
          ∧ t.reqs.get? s.nextId
            = some ⟨.grp x.r.block x.r.group.val, x.t.part, 128 * n, h, .store dm.1 dm.2, hint, .flight, x.g.pc, x.held⟩
          ∧ t.hbm = s.hbm ∧ t.tss = s.tss)
      ∧ (∀ (op : AtomOp) (w : Nat) (ret : Option Nat) (b c : Nat → Nat) (v : Via),
          let t := x.atomLanes op w ret b c v s (n, lanes)
          t.nextId = s.nextId + 1
          ∧ t.reqs.get? s.nextId = some ⟨.grp x.r.block x.r.group.val, x.t.part, 128 * n, h,
              .atom op w (lanes.map (fun l => ⟨l.1, l.2, b l.1, c l.1⟩)) ret, 0, .flight, x.g.pc, v⟩
          ∧ (t.core x.b.core).l1.get? h.l1Key = none ∧ t.hbm = s.hbm ∧ t.tss = s.tss))

/-! ## Barriers, semaphores, fences and tiles -/

/-- Table 4-4, R122 to R125: BAR.SYNC and BAR.ARRIVE add the selected lanes to the barrier's arrivals; BAR.SYNC holds its group until
the phase completes. R125, R126: a phase completes when its arrivals reach its count, or the block's live threads where it has none; it
releases the groups held on that barrier and no other, and the barrier is ready for its next phase. -/
def Obligations.Barriers : Prop :=
  (∀ (s : State) (r : GroupRef) (i : Ins) (x : Ctx), CanIssue s r i x →
      (x.sel = 0 → ∀ c ∈ ([.barSync, .barArrive] : List (GroupRef → Ins → Instr)), exec (c r i) s = .next (x.after x.g))
      ∧ (x.sel ≠ 0 → x.writesFree → s.releaseSet r 1 = [] → (i.mod.getLsbD 4 = true → x.amountOk) →
        let c := match i.long with
          | some w => field w 0 11
          | none => if insImm i then (insImm16 i).toNat else field (x.g.ureg i.b.toNat) 0 11
        let id := field i.mod 0 4
        let all := 32 * x.t.groups
        let count := if i.mod.getLsbD 4 then (if c = 0 ∨ all < c then all else c) else 0
        let first := ((x.b.bars.get Barrier.init id).opened).isNone
        ∀ p ∈ ([(.barSync, .bar id x.g.pc s.nextId), (.barArrive, .none)] : List ((GroupRef → Ins → Instr) × Hold)),
          exec (p.1 r i) s = .next (({ s with nextId := s.nextId + 1 }.setBlock r.block
            (((x.b.putGroup r.group.val { x.g with pc := x.nextPc, hold := p.2 }).arrive id
              (popCount 32 x.sel.toNat) count).settleBar id)).raise x.b.task
              (clampedIf (i.mod.getLsbD 4 && first && decide (c = 0 ∨ all < c))))))
  ∧ (∀ (b : Block) (id c : Nat), (b.bars.get Barrier.init id).opened = some c →
      ((if c = 0 then b.liveThreads else c) ≤ (b.bars.get Barrier.init id).arrivals →
        (b.settleBar id).bars.get Barrier.init id = ⟨0, none⟩
        ∧ (∀ (k : Nat) (g : Group), b.groups[k]? = some g →
          (b.settleBar id).groups[k]? = some (match g.hold with
            | .bar j _ _ => if j = id then { g with hold := .none } else g
            | _ => g))
        ∧ (∀ j, j ≠ id → (b.settleBar id).bars.get Barrier.init j = b.bars.get Barrier.init j))
      ∧ ((b.bars.get Barrier.init id).arrivals < (if c = 0 then b.liveThreads else c) → b.settleBar id = b))

/-- Table 4-5, R129, R130: SEM.ACQ queues a wait at the word's home and holds its group, with N = 0 completing at once; SEM.REL sends
an add to the home, which waits for the release that it performs. Both pass when no lane is selected. Tables 7-3 and 7-4, R218 to R223: the fences in a group that can issue. An
acquire waits for the group's reads and at PARTITION or SYSTEM scope empties the core's L1, unless NOINV; a release holds the group's
later writes for the requests that Table 7-3 names. -/
def Obligations.SemaphoresAndFencesIssue : Prop :=
  (∀ (s : State) (r : GroupRef) (i : Ins) (x : Ctx), CanIssue s r i x →
      (x.sel = 0 → ∀ c ∈ ([.semAcq, .semRel] : List (GroupRef → Ins → Instr)), exec (c r i) s = .next (x.after x.g))
      ∧ (x.sel ≠ 0 → uOk 2 i.a → x.amountOk → x.ungated →
        let va := (x.U64 i.a).toNat
        let scope := field i.mod 0 2
        va < 2 ^ 48 → va % 8 = 0 → ∀ h, s.locate x.t.part va = some (h, true) →
        let noted := s.noteAccess x.b.task x.t.part va h
        (x.amount = 0 → s.readSet r = [] →
          exec (.semAcq r i) s = .next ((s.acquire x.b.core scope).putGroup r { x.g with pc := x.nextPc }))
        ∧ (x.amount ≠ 0 →
          exec (.semAcq r i) s = .next ((noted.addReq ⟨.grp r.block r.group.val, x.t.part, va, h,
              .semAcq (va % 128) x.amount, scope, .flight, x.g.pc, x.held⟩).2.putGroup r
            { x.g with pc := x.nextPc, hold := .sem noted.nextId s.nextId }))
        ∧ exec (.semRel r i) s = .next (((noted.l1Drop x.b.core h).addReq ⟨.grp r.block r.group.val, x.t.part, va, h,
              .semRel (va % 128) x.amount, 0, .flight, x.g.pc, x.heldAt scope⟩).2.putGroup r { x.g with pc := x.nextPc })))
  ∧ (∀ (s : State) (r : GroupRef) (i : Ins) (x : Ctx), CanIssue s r i x →
      let scope := field i.mod 0 2
      let acquired := if i.mod.getLsbD 2 then s else if 2 ≤ scope then s.l1Invalidate x.b.core else s
      let left := fun (l : List Nat) => l.filter (fun k => (s.reqs.get? k).isSome)
      (x.sel = 0 → ∀ c ∈ ([.fenceAcq, .fenceRel, .fenceAr, .lbxFence] : List (GroupRef → Ins → Instr)),
        exec (c r i) s = .next (x.after x.g))
      ∧ (x.sel ≠ 0 → s.readSet r = [] → x.ungated →
        exec (.fenceAcq r i) s = .next (acquired.putGroup r { x.g with pc := x.nextPc }))
      ∧ (x.sel ≠ 0 → (scope ≠ 3 → exec (.fenceRel r i) s
            = .next (x.after { x.g with gateW := s.releaseSet r scope ++ left x.g.gateW }))
          ∧ (scope = 3 → exec (.fenceRel r i) s
            = .next (x.after { x.g with gateV := s.releaseSet r 3 ++ left x.g.gateV })))
      ∧ (x.sel ≠ 0 → s.readSet r = [] → s.releaseSet r scope = [] → x.writesFree →
        exec (.fenceAr r i) s = .next (acquired.putGroup r { x.g with pc := x.nextPc }))
      ∧ (x.sel ≠ 0 → exec (.lbxFence r i) s = .next (x.after { x.g with
          gate := ((s.outstanding r).filter (fun q => q.2.remote && q.2.writes)).map (·.1) ++ left x.g.gate }))
      ∧ (s.l1Invalidate x.b.core).core x.b.core = { s.core x.b.core with l1 := .empty })

/-- Table 3-9, R92, R93, R97, R98, R151, R219: TLD and TST check every tile, count their token slot up and go into flight, a TST with the
releases that hold its writes; the units that a TLD will write are not visible before its token is waited on. -/
def Obligations.TileInstructionsIssue : Prop :=
  ∀ (s : State) (r : GroupRef) (i : Ins) (x : Ctx), CanIssue s r i x →
    (x.sel = 0 → ∀ c ∈ ([.tld, .tst] : List (GroupRef → Ins → Instr)), exec (c r i) s = .next (x.after x.g))
    ∧ (x.sel ≠ 0 → i.dst.toNat ≤ 7 → x.g.tokens.get 0 i.dst.toNat < 15 → uOk 2 i.a → x.ubOk 1 →
        (insNoC i = false → uOk 1 i.c) →
      let va := (x.U64 i.a).toNat
      let l := field x.UB 0 19
      let count := field x.UC 0 4 + 1
      let stride := field x.UC 8 24
      let hint := field i.mod 0 2
      let noted := (List.range count).foldl (fun s k => match s.homeOf x.t.part (tileVa va stride k) with
        | some h => s.noteAccess x.b.task x.t.part (tileVa va stride k) h
        | none => s) s
      va < 2 ^ 48 → va % 2048 = 0 → l % 2048 = 0 → l + 2048 * count ≤ x.b.lmemSize →
      ∀ p ∈ ([(.tld, false), (.tst, true)] : List ((GroupRef → Ins → Instr) × Bool)),
        x.ungated →
        (∀ k, k < count → tileVa va stride k < 2 ^ 48 ∧ tileVa va stride k % 2048 = 0
          ∧ ∃ h rw, s.locate x.t.part (tileVa va stride k) = some (h, rw) ∧ (p.2 = true → rw = true)) →
        let raised := noted.raise x.b.task (clampedIf (p.2 && hint = 3))
        let units := if p.2 then [] else unitsIn l (2048 * count)
        let veils := units.map (fun u => ⟨u, r.group.val, i.dst.toNat, false⟩)
          ++ x.b.veils.filter (fun v => v.group ≠ r.group.val || !units.contains v.unit)
        let t := raised.smudge r.block units
        exec (p.1 r i) s = .next ({ t with
            nextId := t.nextId + 1
            tileOps := t.tileOps.set t.nextId ⟨p.2, r.block, r.group.val, i.dst.toNat, x.t.part, va, l, count, stride,
              if p.2 && hint = 3 then 0 else hint, x.g.pc, [], [], x.held.after, x.held.seen, []⟩ }.setBlock r.block
          ({ x.b with veils := veils }.putGroup r.group.val
            { x.g with pc := x.nextPc, tokens := x.g.tokens.put 0 i.dst.toNat (x.g.tokens.get 0 i.dst.toNat + 1) })))

/-! ## Matrix units -/

/-- Chapter 5, R136 to R148, Table 5-6, 5-7, 5-9a: an MXI instruction whose operands are allowed enters its MXU's queue and counts its
token slot up. R137, R163 to R167: an MXF instruction enters its MXU's queue with the registers that it reads at issue, unselected
lanes' operands zero in the masked forms; a collective form under a partial mask ends its task with DIVERGED (R138); MXF.ARD interlocks
its destination tuple. -/
def Obligations.MatrixInstructionsQueue : Prop :=
  (∀ (s : State) (r : GroupRef) (i : Ins) (x : Ctx), CanIssue s r i x → x.sel ≠ 0 → x.mxuReady →
      i.dst.toNat ≤ 7 → x.g.tokens.get 0 i.dst.toNat < 15 → uOk 1 i.c →
      let w := x.g.ureg i.c.toNat
      let sh := Shape.ofWord w
      let slot := some i.dst.toNat
      (∀ p ∈ ([(.mxiMma, false), (.mxiMmaR, true)] : List ((GroupRef → Ins → Instr) × Bool)),
        uOk 2 i.a → uOk 2 i.b → ∀ a b, Desc.ofWord (x.U64 i.a) = some a → Desc.ofWord (x.U64 i.b) = some b →
        pairOk p.2 a.fmt b.fmt = true → a.scaled = b.scaled → a.ok 1 sh.kc x.b.lmemSize = true →
        b.ok sh.nt sh.kc x.b.lmemSize = true → unitsOk p.2 sh.acc sh.nt x.t.accUnits = true →
        exec (p.1 r i) s = .next (x.queued (.mma p.2 (x.U64 i.a) (x.U64 i.b) w i.mod) (unitsOf p.2 sh.acc sh.nt) slot x.g))
      ∧ (unitsOk (i.mod.getLsbD 0) sh.acc sh.nt x.t.accUnits = true →
        exec (.mxiAclr r i) s = .next (x.queued (.aclr w i.mod) (unitsOf (i.mod.getLsbD 0) sh.acc sh.nt) slot x.g)
        ∧ (uOk 1 i.a → (x.g.ureg i.a.toNat).toNat % 128 = 0 →
          (x.g.ureg i.a.toNat).toNat + sh.nt * (if i.mod.getLsbD 0 then 4096 else 1024) ≤ x.b.lmemSize →
          exec (.mxiAld r i) s = .next (x.queued (.ald (x.g.ureg i.a.toNat).toNat w i.mod)
            (unitsOf (i.mod.getLsbD 0) sh.acc sh.nt) slot x.g)))
      ∧ (uOk 1 i.a → uOk 1 i.b → unitsOk false sh.acc sh.nt x.t.accUnits = true → field i.mod 8 2 ≠ 3 →
        ∀ fmt size, (fmt, size) ∈ [(0, 4), (1, 2), (2, 2), (3, 1), (4, 1), (8, 1), (10, 4)] → field i.mod 4 4 = fmt →
        (x.g.ureg i.a.toNat).toNat % 128 = 0 → (x.g.ureg i.a.toNat).toNat + sh.nt * 256 * size ≤ x.b.lmemSize →
        exec (.mxiArd r i) s = .next (x.queued
          (.ard (x.g.ureg i.a.toNat).toNat (x.g.ureg i.b.toNat).toNat w i.mod)
          (ardUnits (x.kindAhead sh.acc) sh.acc sh.nt) slot x.g))
      ∧ (uOk 1 i.a → unitsOk true sh.acc sh.nt x.t.accUnits = true →
        (x.g.ureg i.a.toNat).toNat % 128 = 0 → (x.g.ureg i.a.toNat).toNat + sh.nt * 4096 ≤ x.b.lmemSize →
        exec (.mxiArd128 r i) s = .next (x.queued (.ard128 (x.g.ureg i.a.toNat).toNat w i.mod)
          (unitsOf true sh.acc sh.nt) slot x.g)))
  ∧ (∀ (s : State) (r : GroupRef) (i : Ins) (x : Ctx), CanIssue s r i x → x.sel ≠ 0 →
      (∀ p ∈ ([(.mxfMma, false, false), (.mxfMmaR, true, false), (.mxfMmaMasked, false, true), (.mxfMmaRMasked, true, true)] :
          List ((GroupRef → Ins → Instr) × Bool × Bool)),
        (p.2.2 = false → i.mod.getLsbD 14 = true → x.sel ≠ 0xFFFFFFFF →
          exec (p.1 r i) s = .next (s.endTask x.b.task .diverged x.g.pc))
        ∧ (x.mxuReady → (p.2.2 = false → i.mod.getLsbD 14 = true → x.sel = 0xFFFFFFFF) → insImm i = false →
          ∀ fa fb, EFmt.ofCode (field i.mod 3 4) = some fa → EFmt.ofCode (field i.mod 7 4) = some fb →
          pairOk p.2.1 fa fb = true → (i.mod.getLsbD 13 = true → fa.scalable = true ∧ fb.scalable = true) →
          unitsOk p.2.1 (field i.mod 0 3) 1 x.t.accUnits = true → x.vOk 4 i.a → x.vOk 4 i.b → x.vOk 1 i.c →
          let pick := fun (n : Nat) => (List.range 4).map (fun j =>
            if p.2.2 then lanesOf (fun l => if x.sel.getLsbD l then laneAt (x.g.vreg (n + j)) l else 0)
            else x.g.vreg (n + j))
          exec (p.1 r i) s = .next (x.queued
            (.frag p.2.1 (pick i.a.toNat) (pick i.b.toNat)
              (if p.2.2 then lanesOf (fun l => if x.sel.getLsbD l then laneAt (x.g.vreg i.c.toNat) l else 0) else x.g.vreg i.c.toNat)
              x.sel i.mod)
            (unitsOf p.2.1 (field i.mod 0 3) 1) none x.g)))
      ∧ (x.mxuReady → insImm i = false → x.vOk 8 i.dst → unitsOk false (field i.mod 0 3) 1 x.t.accUnits = true →
        exec (.mxfArd r i) s = .next (x.queued (.ardf i.dst.toNat x.sel i.mod)
          (ardUnits (x.kindAhead (field i.mod 0 3)) (field i.mod 0 3) 1) none
          { x.g with busy := ⟨i.dst.toNat, 8, s.nextId⟩ :: x.g.busy })))

/-- R144, R145: a group that can issue and holds no footprint puts itself among those that wait for one, and its MXU instruction waits.
R141 to R153, R169 to R176, Table 5-11: the matrix unit at work. A queued instruction starts when R149 lets it; the instruction in
progress takes a step whose checks pass, or fences its sub-core when they fail twice, and a readout whose storage check fails fences it too
(R169, R171); an instruction whose steps are done completes its token; a waiting group takes its footprint when its units are free, and one is evicted for it when they are not. -/
def Obligations.FootprintsAndMatrixUnits : Prop :=
  (∀ (s : State) (r : GroupRef) (i : Ins) (x : Ctx), CanIssue s r i x → x.sel ≠ 0 → x.g.foot.st = .none →
      (s.mxu x.mxuNo).fenced = false →
      (∀ e ∈ (s.mxu x.mxuNo).queue, ¬(e.block = r.block ∧ e.group = r.group.val ∧ e.frees = true)) →
      i.dst.toNat ≤ 7 → x.g.tokens.get 0 i.dst.toNat < 15 → uOk 1 i.c →
      unitsOk (i.mod.getLsbD 0) (Shape.ofWord (x.g.ureg i.c.toNat)).acc (Shape.ofWord (x.g.ureg i.c.toNat)).nt x.t.accUnits = true →
      exec (.mxiAclr r i) s = .next { s.putGroup r { x.g with foot := { x.g.foot with st := .waiting s.nextId } } with
        nextId := s.nextId + 1 })
  ∧ (∀ (s : State) (u : Fin 640) (e : MxEntry) (b : Block) (g : Group) (t : Task),
      s.blocks.get? e.block = some b → b.group? e.group = some g → s.tasks.get? b.task = some t → b.phase = .resident →
      g.foot.away = false → (s.mxu u).fenced = false →
      ((s.mxu u).queue.find? (fun f => f.id = e.id) = some e → e.started = false →
        e.mayStart ((s.mxu u).queue.takeWhile (fun f => !(f.id == e.id))) = true → ∀ storage : Bool,
        (e.kindOk g.foot t.accUnits = false →
          exec (.mxuInstructionStart u ⟨e.id, storage⟩) s = .next (s.endTask b.task .accessFault e.pc))
        ∧ (e.kindOk g.foot t.accUnits = true → e.slot.isSome → (∀ d l m, e.op ≠ .ardf d l m) →
          exec (.mxuInstructionStart u ⟨e.id, storage⟩) s
            = .next (s.setMxu u ((s.mxu u).upd e.id (fun f => { f with started := true }))))
        ∧ (e.kindOk g.foot t.accUnits = true → ∀ d l m, e.op = .ardf d l m →
          (storage = false → g.foot.bad = false → exec (.mxuInstructionStart u ⟨e.id, storage⟩) s
            = .next ((s.setMxu u ((s.mxu u).without e.id)).setBlock e.block (b.putGroup e.group (g.ardFrag e.id d l m))).refill)
          ∧ (storage = true → exec (.mxuInstructionStart u ⟨e.id, storage⟩) s
            = .next ((s.spoil e.block e.group).fenceSubCore u b.task e.pc))))
      ∧ ((s.mxu u).queue.find? (fun f => f.started && f.op.isMma && decide (f.step < f.op.steps)) = some e →
        ∀ unit x skip strict, e.stepIn (b.blur e.smudged s.freeCtr) = some (unit, x, skip, strict) →
        let drawn := if e.smudged = [] then s else { s with freeCtr := s.freeCtr + 1 }
        (skip = true → ∀ check, exec (.mxuStep u check) s
          = .next ((s.setMxu u ((s.mxu u).advance e)).countMxu t.part 1 1).refill)
        ∧ (skip = false → (s.mxu u).inject = 0 → g.foot.bad = false →
          (e.op.repro = false → exec (.mxuStep u .pass) s = .next (((drawn.setMxu u ((s.mxu u).advance e)).countMxu t.part 0 1).updGroup
              ⟨e.block, Fin.ofNat 32 e.group⟩ (fun g' => { g' with foot := x.runFp g.foot unit })).refill)
          ∧ (e.op.repro = true → (x.runFx g.foot unit).2 = false →
            exec (.mxuStep u .pass) s = .next (((drawn.setMxu u ((s.mxu u).advance e)).countMxu t.part 0 1).updGroup
              ⟨e.block, Fin.ofNat 32 e.group⟩ (fun g' => { g' with foot := (x.runFx g.foot unit).1 })).refill)
          ∧ exec (.mxuStep u .fail) s = .next (s.fenceSubCore u b.task e.pc)
          ∧ exec (.mxuStep u .storage) s = .next ((s.spoil e.block e.group).fenceSubCore u b.task e.pc)))
      ∧ ((s.mxu u).queue.find? (fun f => f.id = e.id) = some e → e.started = true → e.op.steps ≤ e.step →
        ∀ slot, e.slot = some slot →
        let r := e.finish b s.freeCtr g.foot t.identity
        let drawn := if e.smudged = [] then s else { s with freeCtr := s.freeCtr + 1 }
        let g' := if e.frees then { g with foot := Foot.empty } else { g with foot := r.2 }
        (g.foot.bad = false → exec (.mxiTokenComplete u ⟨e.id, false⟩) s
          = .next ((drawn.setMxu u ((s.mxu u).without e.id)).setBlock e.block
              ((r.1.putGroup e.group (g'.tokenDone slot)).settleBars)).refill)
        ∧ (e.op.reads = true → exec (.mxiTokenComplete u ⟨e.id, true⟩) s
          = .next ((s.spoil e.block e.group).fenceSubCore u b.task e.pc)))
      ∧ (∀ (r : GroupRef) (b : Block) (g : Group) (task : Nat), s.blocks.get? r.block = some b →
        s.firstWaiter (b.subCore r.group.val) = some (r.block, r.group.val, g, task) →
        (s.unitsDecl task ≤ s.freeUnits (b.subCore r.group.val) →
          exec (.accFootprintAcquire r) s = .next (s.putGroup r { g with foot := { g.foot with st := .held } }))
        ∧ (∀ e, s.freeUnits (b.subCore r.group.val) < s.unitsDecl task →
          s.unitsDecl task ≤ s.freeUnits (b.subCore r.group.val)
            + ((s.evictable (b.subCore r.group.val)).map (fun e => e.2.2.2)).foldl (· + ·) 0 →
          sortOn (fun x => x.2.2.1) (s.evictable (b.subCore r.group.val)) = [e] →
          ∀ v vb vt, s.group? ⟨e.1, Fin.ofNat 32 e.2.1⟩ = some v → v.foot.bad = false → s.blocks.get? e.1 = some vb →
          s.tasks.get? vb.task = some vt →
          exec (.accFootprintEvict ⟨r, none⟩) s = .next ((s.updGroup ⟨e.1, Fin.ofNat 32 e.2.1⟩
            (fun g => { g with foot := { g.foot with st := .evicted } })).countMxu vt.part 3 1))))

/-! ## Requests at their homes -/

/-- Table 8-11: each message takes the request that it carries to its home, where it enters the slice's queue and is served; a peer's message
becomes a request of this device, or is refused with RspErr where the port does not admit it (R501, R503), and a read of the Hithen
controller's cache becomes one too (R269). -/
def Obligations.MessagesReachTheirHome : Prop :=
  ∀ (s : State), s.fw.fatal = false →
    (∀ (id : Nat) (q : MemReq), s.reqs.get? id = some q →
      (∀ p ∈ ([
        (.rd (.held id), match q.kind with | .load _ _ _ _ _ _ => true | .prefetch => true | .read _ none => true | _ => false),
        (.rds (.held id), match q.kind with | .read _ (some false) => true | _ => false),
        (.rdo (.held id), match q.kind with | .read _ (some true) => true | _ => false),
        (.rdna (.held id), match q.kind with | .read _ none => true | _ => false),
        (.atom (.held id), match q.kind with | .atom _ _ _ _ => true | _ => false),
        (.spent (.held id), match q.kind with | .spent => true | _ => false),
        (.semAcqRequest (.held id), match q.kind with | .semAcq _ _ => true | _ => false),
        (.semRelRequest (.held id), match q.kind with | .semRel _ _ => true | _ => false),
        (.wr (.held id), match q.kind with | .store _ m => m == allBytes | _ => false),
        (.wrp (.held id), match q.kind with | .store _ m => m != allBytes | _ => false)] : List (Instr × Bool)),
        p.2 = true → exec p.1 s = .next (s.advance id))
      ∧ (∀ t, s.arriveReq id = some t → s.advance id = (t.serveReq id).getD t)
      ∧ (s.arriveReq id = none → s.advance id = (s.serveReq id).getD s)
      ∧ (q.home.away = true ∨ q.unsent = false ∨ s.released q.via = false ∨ s.older id q = true → s.arriveReq id = none)
      ∧ (∀ t q', q.home.away = false → q.unsent = true → s.released q.via = true → s.older id q = false →
        s.cross q = some (t, q') → t.queueRoom q' = true →
        s.arriveReq id = some ({ t with nextId := t.nextId + 1 }.setReq id { q' with via := { q'.via with arr := some t.nextId } })))
    ∧ (∀ (m : PeerMsg) (need : BitVec 4) (size : Fin 17) (arg new : BitVec 128) (ret add : Bool) (n : Word) (value : DWord)
        (data : BitVec 1024) (mask : BitVec 128), s.portGroup m.d.val ≠ [] → s.requestRoom m = true → mask ≠ allBytes →
      ∀ p ∈ ([
        (.rd (.peer m need), 1, false, fun _ => .read need none),
        (.rds (.peer m need), 1, false, fun _ => .read need (some false)),
        (.rdo (.peer m need), 1, false, fun _ => .read need (some true)),
        (.rdna (.peer m need), 1, false, fun _ => .read need none),
        (.atom (.peer m 0 size arg new ret), size.val, true,
          fun off => .atom .addI size.val [⟨0, off, arg.toNat, new.toNat⟩] (if ret then some 0 else none)),
        (.atom (.peer m 9 size arg new ret), size.val, true,
          fun off => .atom .cas size.val [⟨0, off, arg.toNat, new.toNat⟩] (if ret then some 0 else none)),
        (.spent (.peer m), 1, true, fun _ => .spent),
        (.semAcqRequest (.peer m n), 8, true, fun off => .semAcq off n.toNat),
        (.semRelRequest (.peer m n), 8, true, fun off => .semRel off n.toNat),
        (.wr (.peer m data allBytes), 128, true, fun _ => .store data allBytes),
        (.wrp (.peer m data mask), 1, true, fun _ => .store data mask),
        (.sig m value add, 8, true, fun off =>
          if add then .semRel off value.toNat else .store (lineOf off value.toNat) (byteMask off 8))] :
          List (Instr × Nat × Bool × (Nat → ReqKind))),
      (s.admitPeer m p.2.1 p.2.2.1 = none → exec p.1 s = .next (s.refusePeer m))
      ∧ (∀ part va line, s.admitPeer m p.2.1 p.2.2.1 = some (part, va, line) →
        let r := s.addReq ⟨.outer (2 + m.d.val) m.tag (m.exp.map (·.val)), part, va, .dev line, p.2.2.2 (va % 128), 0, .flight, 0, .free⟩
        exec p.1 s = .next (r.2.advance r.1)))
    ∧ (∀ line tag, (s.placeOf (line * 128)).isSome →
      ∀ p ∈ ([(.rds (.hithen line tag), some false), (.rdo (.hithen line tag), some true), (.rdna (.hithen line tag), none)] :
          List (Instr × Option Bool)),
      let owner := match s.setOfLine line with
        | some (_, e) => match e.owner with
          | .part p => p
          | _ => 30
        | none => 30
      let r := s.addReq ⟨.outer 1 tag none, owner, 128 * line, .dev line, .read 0xF p.2, 0, .flight, 0, .free⟩
      exec p.1 s = .next (r.2.advance r.1))

/-- R91, R213, R253, R310, Table 3-10: a load that its home serves next is answered with zeros where its tile is ZERO, and with the line's
bytes where the cache holds every sector that it needs; otherwise a way of the cache is taken for the line and the read joins the queue of
its pseudo-channel. The registers find the core's stores that the home has not taken (R215). R212, R237, R130: a store, an atomic or a
SEM.REL that its home serves takes effect there: the old bytes are read, the new ones written, the line's semaphore waiters evaluated, and
the maker answered with the old line or acknowledged; one that needs sectors of the line which the cache lacks asks memory for them first
(R254). R264, Table 9-2: a spent hint makes its tile SPENT at once where no write of the tile is open, drops the tile's lines from the
cache without writing them back, and counts an LLC event; on an OPEN tile it is kept pending. -/
def Obligations.HomesServe : Prop :=
  (∀ (s t : State) (id : Nat) (q : MemReq) (line b k : Nat) (dst w : Nat) (sg : Bool) (lanes : List (Nat × Nat)) (op fill : Nat),
      AtHome s id q line q.readEvent t → q.src = .grp b k → q.kind = .load dst w sg lanes op fill →
      (t.readMeets line 0 = .zero →
        exec (.rd (.held id)) s = .next ((t.lookup id q false).1.answered id (t.lookup id q false).2 .data 0 true false))
      ∧ (t.readMeets line 0 = .data →
        (∀ u, t.heldSectors line &&& q.need = q.need → (t.lookup id q true).1.llcReserve ⟨false, line⟩ q.access = some u →
          u.codedLost line = false →
          exec (.rd (.held id)) s = .next (u.answered id (t.lookup id q true).2 .data (u.devLine line) false false))
        ∧ (∀ u ch row j, t.llcFind ⟨false, line⟩ = none → q.need ≠ 0 → t.linePlace line = some (ch, row, j) →
          (t.lookup id q false).1.mcRoom (pseudoOf ch j) false = true →
          (t.lookup id q false).1.llcReserve ⟨false, line⟩ q.access = some u →
          exec (.rd (.held id)) s = .next ((u.mcPush ⟨.fill id, ch, row, j, line, q.need, 0, 0, false, 0, 2⟩).stageReq id
            (t.lookup id q false).2 .waiting)))
      ∧ (∀ (u : State) (d : BitVec 1024) (zero : Bool),
        u.answered id q .data d zero false = u.stageReq id (u.seen id q d).1 (.back (u.seen id q d).2)))
  ∧ (∀ (s t : State) (id : Nat) (q : MemReq) (line : Nat), AtHome s id q line q.writeEvent t → s.writesHere line → t.mirrored line = false →
      q.isRead = false →
      ((s.lineTile line).map (fun k => (s.tssAt k).state) = some .spent → ∀ p, s.placeOf (line * 128) = some p → s.memOpen p.1 = true) →
      (t.fetchNeed q line ≠ 0 → ∀ u, (t.lookup id q false).1.askMemory id (t.lookup id q false).2 line (t.fetchNeed q line) = some u →
        ∀ c ∈ ([(.wrp (.held id), match q.kind with | .store _ m => m != allBytes | _ => false),
          (.atom (.held id), match q.kind with | .atom _ _ _ _ => true | _ => false),
          (.semRelRequest (.held id), match q.kind with | .semRel _ _ => true | _ => false),
          (.semAcqRequest (.held id), match q.kind with | .semAcq _ _ => true | _ => false)] : List (Instr × Bool)), c.2 = true →
        exec c.1 s = .next (u.stageReq id (t.lookup id q false).2 .waiting))
      ∧ (t.fetchNeed q line = 0 → t.lineBad line &&& q.partSectors = 0 →
        (∀ d m u v, q.kind = .store d m →
          (t.lookup id q (t.holdsAll (.dev line) m)).1.lineWrite line d m q.path = some u → u.wakeLine (.dev line) = some v →
          exec (if m = allBytes then .wr (.held id) else .wrp (.held id)) s = .next (v.ordered id q false))
        ∧ (∀ op w lanes ret t' old u v, q.kind = .atom op w lanes ret →
          t.rmwRead id q (.dev line) (sectorsOf (atomMask w lanes)) = .ok (t', old) →
          (t'.lookup id q (t'.holdsAll (.dev line) (atomMask w lanes))).1.lineWrite line (atomLine op w lanes old).1 (atomMask w lanes) q.path
            = some u → u.wakeLine (.dev line) = some v →
          exec (.atom (.held id)) s = .next (v.answered id q .atomRsp old false false))
        ∧ (∀ off n t' old u v, q.kind = .semRel off n →
          t.rmwRead id q (.dev line) (sectorsOf (byteMask off 8)) = .ok (t', old) →
          let byCommand := match q.src with
            | .cmd _ => true
            | _ => false
          let noted := if 2 ^ 64 ≤ lineNum old off 8 + n ∧ byCommand = false then t'.reqRaise q flagClamped else t'
          (noted.lookup id q (noted.holdsAll (.dev line) (byteMask off 8))).1.lineWrite line
            (lineOf off (min (lineNum old off 8 + n) (2 ^ 64 - 1))) (byteMask off 8) q.path = some u →
          u.wakeLine (.dev line) = some v →
          exec (.semRelRequest (.held id)) s = .next (v.ordered id q (decide (2 ^ 64 ≤ lineNum old off 8 + n))))
        ∧ (∀ off n t' old, q.kind = .semAcq off n → t.rmwRead id q (.dev line) (sectorsOf (byteMask off 8)) = .ok (t', old) →
          let r := t'.lookup id q (t'.holdsAll (.dev line) (byteMask off 8))
          let queued := r.1.stageReq id { r.2 with home := .dev line } .waiting
          ∀ u, ({ queued with
              waiters := queued.waiters.put [] (semKey (.dev line) off) (queued.waiters.get [] (semKey (.dev line) off) ++ [id]) }).wakeWord
                (.dev line) off = some u →
          exec (.semAcqRequest (.held id)) s = .next u)))
  ∧ (∀ (s : State) (line part : Nat) (t : TileAt), s.tileOfLine line = some t →
      ((s.tssAt t.key).state ≠ .opened →
        (s.spentHint line part).tssAt t.key = ⟨.spent, 0, 0⟩ ∧ (s.spentHint line part).openTiles = s.openTiles)
      ∧ ((s.tssAt t.key).state = .opened →
        (s.spentHint line part).tssAt t.key = s.tssAt t.key
        ∧ ((s.spentHint line part).openTiles.get ⟨0, 0, false, 0⟩ t.key).spentPending = true))

/-- Tables 8-9 and 8-10, R282 to R285, R289: an awaited answer to a snoop is taken into the line's transaction, with the dirty data that it
returns, and the last answer ends it: the data is merged at the home, the directory takes its next state and the held request is served. The
cache of the Hithen controller drops or shares the line that it is snooped for, and this device answers a peer's snoop with RspNP. -/
def Obligations.SnoopsAreAnswered : Prop :=
  ∀ (s : State) (line : Nat) (x : Txn),
    (∀ (a : Fin 10), s.txns.get? line = some x → x.awaits.getLsbD a.val = true →
      let taken := fun (keeps due : Bool) (data : Option (BitVec 1024)) =>
        { s with txns := s.txns.set line { x.answer a.val keeps (due && x.data.isNone) with data := data.or x.data } }.closeTxn line
      (a.val ≠ 0 → s.cacheGone a.val line = true →
        exec (.rspI a line) s = .next (taken false false none)
        ∧ ∀ crossing, exec (.rspNp a line crossing) s = .next (taken false crossing none))
      ∧ (a.val ≠ 0 → (a.val = 1 → s.cCache.get? line = some false) → exec (.rspS a line) s = .next (taken true false none))
      ∧ (a.val ≠ 0 → (a.val = 1 → s.cCache.get? line ≠ some true) → ∀ data,
        exec (.rspFwd a line data) s = .next (taken (s.cacheKeeps a.val line) false (some data)))
      ∧ (a.val = 0 → ∀ shared, exec (.birsp line shared) s = .next (taken shared false none)))
    ∧ (∀ (a : Fin 10) data,
      (s.txns.get? line = none → ∀ d, s.dir.get? line = some d → d.excl = true → d.agents = agentBit a.val →
        exec (.wbData a line data) s = .next ({ s with
          cCache := if a.val = 1 then s.cCache.erase line else s.cCache
          txns := s.txns.set line ⟨0, 0, none, false, none, some data⟩ }.closeTxn line))
      ∧ (s.txns.get? line = some x → (x.awaits ||| x.wbDue).getLsbD a.val = true →
        exec (.wbData a line data) s = .next ({ s with
          txns := s.txns.set line { x with wbDue := x.wbDue &&& ~~~(agentBit a.val), data := some data } }.closeTxn line)))
    ∧ (s.txns.get? line = some x → s.tileMoving line = false →
      (x.awaits ≠ 0 ∨ x.wbDue ≠ 0 → s.closeTxn line = s)
      ∧ (x.awaits = 0 → x.wbDue = 0 → (x.data = none ∨ x.drop = true) →
        let ended := { s with txns := s.txns.erase line }.dirPut line x.next
        let served := match x.cause with
          | some id => (ended.serveReq id).getD ended
          | none => ended
        s.closeTxn line = if x.data.isSome then (served.wakeLine (.dev line)).getD served else served)
      ∧ (x.awaits = 0 → x.wbDue = 0 → x.drop = false → ∀ d u, x.data = some d → s.lineWrite line d allBytes (.outer 1) = some u →
        let ended := { u with txns := u.txns.erase line }.dirPut line x.next
        let served := match x.cause with
          | some id => (ended.serveReq id).getD ended
          | none => ended
        s.closeTxn line = (served.wakeLine (.dev line)).getD served))
    ∧ (s.txns.get? line = some x → x.awaits.getLsbD 1 = true → (s.cCache.get? line).isSome →
      exec (.snpInv none line) s = .next { s with cCache := s.cCache.erase line }
      ∧ exec (.snpData none line) s = .next { s with cCache := s.cCache.set line false })
    ∧ (∀ d : Fin 8, s.portGroup d.val ≠ [] →
      exec (.snpInv (some d) line) s = .next (s.toPeer d.val line .rspNP [line] [])
      ∧ exec (.snpData (some d) line) s = .next (s.toPeer d.val line .rspNP [line] []))

/-- R82, R131, R212, R338, R501 to R504: answers reach the requests that wait for them: data the registers of its group, an acknowledgement
the write, a grant the semaphore wait, a wake the held group, which goes on past its SEM.ACQ, and a refusal its task. What crossed the hinge
comes back by the leaf of its transaction (R290). -/
def Obligations.AnswersReachRequests : Prop :=
  ∀ (s : State) (id : Nat) (q : MemReq), s.reqs.get? id = some q →
    (∀ d rep dst w sg lanes op fill, q.kind = .load dst w sg lanes op fill → q.stage = .back d →
      ∀ u, s.comeBack q 3 (32 * popCount 4 q.need.toNat) = some u → exec (.data id rep) s = .next (u.deliverData id q d))
    ∧ (∀ d rep op w lanes ret, q.kind = .atom op w lanes ret → q.stage = .back d →
      ∀ u, s.comeBack q 3 (32 * popCount 4 q.need.toNat) = some u → exec (.data id rep) s = .next (u.deliverData id q d))
    ∧ (∀ cls n, q.via.leaf = none → s.comeBack q cls n = some s)
    ∧ (∀ d dst w sg lanes op fill, q.kind = .load dst w sg lanes op fill → q.stage = .waiting → q.home.away = true →
      exec (.data id (some ⟨d, true, false⟩)) s = .next (s.reqFail id q .poison)
      ∧ exec (.data id (some ⟨d, false, false⟩)) s = .next (s.deliverData id q d))
    ∧ (∀ d op w lanes ret, q.kind = .atom op w lanes ret → q.stage = .waiting → q.remote = true →
      exec (.atomRsp id d) s = .next (s.deliverData id q d))
    ∧ (∀ d m sat, q.kind = .store d m → q.stage = .waiting → q.remote = true → exec (.cmp ⟨id, sat⟩) s = .next (s.endReq id q))
    ∧ (∀ off n sat, q.kind = .semRel off n → q.stage = .waiting → q.remote = true →
      exec (.cmp ⟨id, sat⟩) s = .next ((match q.src with
        | .grp _ _ => s.reqRaise q (if sat then flagClamped else 0)
        | _ => s).endReq id q))
    ∧ (∀ off n, q.kind = .semAcq off n → q.stage = .waiting → q.remote = true →
      exec (.semGrant id) s = .next (s.setReq id { q with stage := .back 0 }))
    ∧ (∀ off n d b k blk g since, q.kind = .semAcq off n → q.stage = .back d → q.src = .grp b k → s.blocks.get? b = some blk →
      blk.phase = .resident → s.group? ⟨b, Fin.ofNat 32 k⟩ = some g → g.hold = .sem id since →
      s.syncOpen (s.homeHalf q) (halfOfCore blk.core) = true →
      exec (.semWake id) s = .next (((s.endReq id q).putGroup ⟨b, Fin.ofNat 32 k⟩ { g with hold := .none }).acquire blk.core q.hint))
    ∧ (q.stage = .waiting → q.remote = true → exec (.rspErr id) s = .next (s.reqFail id q .accessFault))

/-- R131, R212, R286: a host line that arrives is filled into the way taken for it and its waiting requests are served in the order in which
they came; a host snoop of a host line is answered by the slice, dirty sectors going back to host memory. -/
def Obligations.HostLinesComeAndGo : Prop :=
  ∀ (s : State) (line : Nat),
    (∀ own data r ws t, s.host.up = true → s.hostWaiting line = r :: ws →
      (s.hostWrite (line * 128) (lineBytes data)).llcFill ⟨true, line⟩ r.2.access data 0xF = some t →
      let t1 := { t with hostLines := t.hostLines.set line (if own then .exclusive else .shared) }
      let t2 := (r :: ws).foldl (fun s r => s.setReq r.1 { r.2 with stage := .flight, via := { r.2.via with fetched := true } }) t1
      let t3 := (sortOn (fun (r : Nat × MemReq) => r.2.via.arr.getD 0) (r :: ws)).foldl (fun s r => (s.serveReq r.1).getD s) t2
      exec (.hostCacheResponse line own data) s = .next (if own then (t3.wakeLine (.host line)).getD t3 else t3))
    ∧ (∀ inv, s.llcFind ⟨true, line⟩ = none ∨ s.hostLines.get? line = none → exec (.h2dSnoop line inv) s
        = .next { s with outbox := .answer 0 line 0 false :: s.outbox, hostLines := s.hostLines.erase line })
    ∧ (∀ key e c, s.llcFind ⟨true, line⟩ = some (key, e) → s.hostLines.get? line = some c →
      let t := s.hostSectors line e.data e.dirty
      let t := { t with outbox := .answer 0 line e.data false :: t.outbox }
      exec (.h2dSnoop line false) s = .next { t with llc := t.llc.set key { e with dirty := 0 }, hostLines := t.hostLines.set line .shared }
      ∧ exec (.h2dSnoop line true) s = .next (if t.linePending ⟨true, line⟩ then
          { t with llc := t.llc.set key { e with valid := 0, dirty := 0 }, hostLines := t.hostLines.erase line }
        else t.llcEvict key e true))


/-! ## Tiles -/

/-- R94, R96, R315, Table 3-10: a TLD of one device tile acts by the tile's state: a ZERO tile zero-marks its unit, a VALID tile that
passes its CRC check and an OPEN tile are copied, the latter flagged UNVERIFIED, and a SPENT tile whose partition does not take spent
reads, a POISON tile and a VALID tile with a wrong CRC end the task. Where only the twin holds the tile, it is asked for it. -/
def Obligations.TldFollowsTileState : Prop :=
  ∀ (s w : State) (op : Nat) (o : TileOp) (b : Block) (t : TileAt) (q : MemReq), OneTile s op o b t q w →
    let back := w.endReq s.nextId q
    let copied := fun (v : State) (d : Option (List Byte)) => Host.Outcome.next (((v.putTile o 0 d).tldTook op 0).tokenDone o op)
    let ends := fun (v : State) (st : Status) =>
      Host.Outcome.next { v.endTask b.task st o.pc with tileOps := (v.endTask b.task st o.pc).tileOps.erase op }
    let st := (w.tssAt t.key).state
    let masked := (w.openTiles.get ⟨0, 0, false, 0⟩ t.key).poisonMask
    let sums := crc32c (w.tileBytes t) = (w.tssAt t.key).crc
    (st = .zero → exec (.tldTokenComplete op) s = copied back none)
    ∧ (st = .spent → (w.part o.part).spentFlag = false → exec (.tldTokenComplete op) s = ends back .spentRead)
    ∧ (st = .spent → (w.part o.part).spentFlag = true →
      exec (.tldTokenComplete op) s = copied ((back.spentTileBytes t).2.raise b.task flagSpentSeen) (some (back.spentTileBytes t).1))
    ∧ (st = .poison ∨ (st = .opened ∧ masked ≠ 0) → w.repairable t.line0 = false → exec (.tldTokenComplete op) s = ends back .poison)
    ∧ (st = .opened → masked = 0 →
      exec (.tldTokenComplete op) s = copied (back.raise b.task flagUnverified) (some (w.tileBytes t)))
    ∧ (st = .valid → ¬sums → exec (.tldTokenComplete op) s = ends (back.corruptTile t) .tileCorrupt)
    ∧ (st = .valid → sums → w.codedLost t.line0 = false → exec (.tldTokenComplete op) s = copied back (some (w.tileBytes t)))
    ∧ (st = .stale → w.twinHere = false → exec (.tldTokenComplete op) s = ends back .peerUnreachable)
    ∧ (st = .stale → w.twinHere = true → w.portGroup w.twinNum ≠ [] → exec (.tldTokenComplete op) s
      = .next (((w.stageReq s.nextId q .waiting).raise b.task flagFallback).askTwin s.nextId t.line0 .rdTile))

/-- R97, R309: a line of a TST arrives at its tile of this device, the first begins the tile's full write and the sixteenth ends it; a
zero-marked unit makes its tile ZERO, and sends a peer no data; the token completes once every line of every tile is accepted and none of
its stores is outstanding. -/
def Obligations.TstLinesAndCompletion : Prop :=
  ∀ (s : State) (op : Nat) (o : TileOp) (b : Block), s.tileOps.get? op = some o → o.store = true →
    s.blocks.get? o.block = some b → s.fw.fatal = false →
    (∀ (k : Fin 16) (l : Fin 16) (n0 line : Nat) (q : MemReq) (u c v w x : State), k.val < o.count →
      o.lines.contains (16 * k.val + l.val) = false → s.anyUnplaced o.after = false → s.anyLeft o.seen = false →
      o.smudged = [] → s.poolFailed o.part (tileVa o.va o.stride k) = false →
      (∃ h, s.homeOf o.part (tileVa o.va o.stride k) = some h ∧ s.zeroHome h = .dev n0) →
      line = s.forward n0 / 16 * 16 + l.val → s.spentDue line = false → s.lineBusy 0 line = false → s.tssMeet line = s →
      s.access line .write none false = some (true, u) → u.mirrored line = false →
      let r := o.request op (tileVa o.va o.stride k + 128 * l) (.dev line) (.store 0 allBytes) .flight
      let marked := b.marked ((o.laddr + 2048 * k.val) / 2048)
      let mine := (16 * k.val + l.val) :: o.lines
      (marked = false ∨ o.opened.contains k.val = true → u.cross r = some (c, q) →
        (if o.opened.contains k.val then some c else c.beginWrite line) = some v →
        (v.countLookup o.part .tld o.hint (v.holdsAll (.dev line) allBytes)).openLine line (o.localLine b k l) (.alloc o.access) = some w →
        (if (mine.filter (fun n => n / 16 = k.val)).length = 16 then w.endWrite line else w).wakeLine (.dev line) = some x →
        exec (.wr (.tst op k l)) s = .next (x.setTileOp op
          { o with lines := mine, opened := if o.opened.contains k.val then o.opened else k.val :: o.opened }).retryTxns)
      ∧ (marked = true → o.opened.contains k.val = false →
        u.accessAll ((List.range 16).map (fun j => s.forward n0 / 16 * 16 + j)) .write none false = some (true, v) →
        v.cross { r with kind := .spent } = some (c, q) → c.zeroTile line = some w →
        exec (.wr (.tst op k l)) s = .next (w.setTileOp op (o.acceptTile k)).retryTxns))
    ∧ (∀ (k : Fin 16) (l : Fin 16) (d e n : Nat) (c : State) (q : MemReq), k.val < o.count →
      o.lines.contains (16 * k.val + l.val) = false → s.anyUnplaced o.after = false → s.anyLeft o.seen = false →
      o.smudged = [] → s.poolFailed o.part (tileVa o.va o.stride k) = false →
      (∃ h, s.homeOf o.part (tileVa o.va o.stride k) = some h ∧ s.zeroHome h = .peer d e n) → s.lbx.lost.contains d = false →
      s.portsTo o.part d ≠ [] → s.pins.twinOut = true → s.reqs.any (fun _ q => q.kind == .tile true op k.val) = false →
      s.cross (o.request op (tileVa o.va o.stride k) (.peer d e n) (.tile true op k) .waiting) = some (c, q) →
      let r := c.addReq q
      exec (.wr (.tst op k l)) s = .next (r.2.toPeer d n .wrTile [r.1, e, n]
        (if b.marked ((o.laddr + 2048 * k.val) / 2048) then [] else b.readL (o.laddr + 2048 * k.val) 2048)))
    ∧ (16 * o.count ≤ o.lines.length → s.tstOpen op = false → ∀ g, b.group? o.group = some g → o.group < 32 →
      exec (.tstTokenComplete op) s = .next ({ s with tileOps := s.tileOps.erase op }.setBlock o.block
        (b.putGroup o.group (g.tokenDone o.slot)).settleBars))

/-- R313, R503, Table 3-10: a peer that reads a tile receives its bytes, its state at the read and the CRC verdict, a failed check
making the tile POISON; a peer's tile write is acknowledged once the tile is written; and a tile that a peer returns goes by its state
to the group or command that asked for it. -/
def Obligations.TilesOfPeers : Prop :=
  ∀ (s : State) (m : PeerMsg), s.portGroup m.d.val ≠ [] → s.fw.fatal = false →
    (s.requestRoom m = true → s.admitPeer m 2048 false = none → exec (.rdTile (.peer m)) s = .next (s.refusePeer m))
    ∧ (∀ data, s.admitPeer m 2048 true = none → exec (.wrTile m data) s = .next (s.refusePeer m))
    ∧ (∀ p va n a q0 q t u, s.requestRoom m = true → s.admitPeer m 2048 false = some (p, va, n) →
      let r := s.addReq ⟨.outer (2 + m.d.val) m.tag (m.exp.map (·.val)), p, va, .dev n, .tile false 0 0, 0, .flight, 0, .free⟩
      r.2.arriveReq r.1 = some a → a.reqs.get? r.1 = some q0 → q0.home = .dev n → q0.kind = .tile false 0 0 → q0.stage = .flight →
      q0.src = .outer (2 + m.d.val) m.tag (m.exp.map (·.val)) → q0.via.arr.isSome = true → TileRead a r.1 q0 n t q u → q.src = q0.src →
      let sends := fun (v : State) (state crcOk : Nat) (data : List Byte) =>
        let w := ((v.comeBack q 3 data.length).getD v).endReq r.1 q
        Host.Outcome.next (w.toPeer m.d.val (w.peerLine q) .dataTile [m.tag, state, crcOk] data)
      let st := (u.tssAt t.key).state
      let masked := (u.openTiles.get ⟨0, 0, false, 0⟩ t.key).poisonMask
      let sums := crc32c (u.tileBytes t) = (u.tssAt t.key).crc
      (st = .valid → sums → q.via.fetched = false → exec (.rdTile (.peer m)) s = sends u 0 1 (u.tileBytes t))
      ∧ (st = .valid → ¬sums → exec (.rdTile (.peer m)) s = sends (u.corruptTile t) 0 0 [])
      ∧ (st = .opened → masked = 0 → exec (.rdTile (.peer m)) s = sends u 1 1 (u.tileBytes t))
      ∧ (st = .zero → exec (.rdTile (.peer m)) s = sends u 2 1 [])
      ∧ (st = .spent → exec (.rdTile (.peer m)) s = sends u 3 1 [])
      ∧ (st = .poison ∨ (st = .opened ∧ masked ≠ 0) → u.repairable t.line0 = false →
        exec (.rdTile (.peer m)) s = sends u 4 0 []))
    ∧ (∀ p va n0 data t u v w, s.admitPeer m 2048 true = some (p, va, n0) → s.tileOfLine (s.forward n0) = some t →
      (∀ l ∈ t.lines, s.lineBusy 0 l = false) → s.accessAll t.lines .write none false = some (true, u) → data ≠ [] →
      (t.lines.foldl (fun s l => s.countLookup p .peer 0 (s.holdsAll (.dev l) allBytes)) u).fullWrite (s.forward n0) data (.outer 1)
        = some v →
      t.lines.foldlM (fun s l => s.wakeLine (.dev l)) v = some w →
      exec (.wrTile m data) s = .next (w.retryTxns.toPeer m.d.val (s.forward n0) .cmp [m.tag, 0] []))
    ∧ (∀ id q op k (data : List (BitVec 1024)), s.reqs.get? id = some q → q.kind = .tile false op k → s.awaitsPeer q = true →
      let bytes := ((List.range 16).map (fun l => lineBytes (data.getD l 0))).flatten
      let v := if q.home.away then (s.comeBack q 3 bytes.length).getD s else s
      let free := ((List.range 16).map (fun l => lineBytes (Config.freeLine v.freeCtr l))).flatten
      exec (.dataTile id 0 true data) s = .next (v.takeTile id op k q (some bytes))
      ∧ exec (.dataTile id 0 false data) s = .next (v.tileFail id q .tileCorrupt)
      ∧ (∀ ok, exec (.dataTile id 1 ok data) s = .next ((v.reqRaise q flagUnverified).takeTile id op k q (some bytes))
        ∧ exec (.dataTile id 2 ok data) s = .next (v.takeTile id op k q none)
        ∧ (q.outer = false → (v.part q.part).spentFlag = false → exec (.dataTile id 3 ok data) s = .next (v.tileFail id q .spentRead))
        ∧ ((v.part q.part).spentFlag = true → exec (.dataTile id 3 ok data) s
          = .next (({ v with freeCtr := v.freeCtr + 1 }.reqRaise q flagSpentSeen).takeTile id op k q (some free))))
      ∧ exec (.dataTile id 4 true data) s = .next ((v.reqRaise q flagReplayed).takeTile id op k q (some bytes))
      ∧ exec (.dataTile id 4 false data) s = .next (v.tileFail id q .poison)
      ∧ exec (.dataTile id 5 true data) s = .next ((v.reqRaise q flagFallback).takeTile id op k q (some bytes))
      ∧ exec (.dataTile id 5 false data) s = .next (v.tileFail id q .peerUnreachable))

/-! ## Device memory -/

/-- R271, R301, R305: a controller issues an access that no older access to the same sector precedes; an issued write is done, and an
issued read returns and leaves the queue, its corrected sectors counted, its errors placed and a TSS line found bad making its sixteen
tiles POISON. -/
def Obligations.MemoryControllersWork : Prop :=
  (∀ (p : PseudoChan) (k : Nat) (e : McEntry), p.pick = some (k, e) →
    p.entries[k]? = some e ∧ e.issued = false ∧ ∀ o ∈ p.entries.take k, o.clash e = false)
  ∧ (∀ (s : State) (pc : Fin 512) (k : Nat) (e : McEntry), s.memOpen (pc.val / 2) = true →
    (s.pseudoChan pc).pick = some (k, e) →
    let aged := (s.pseudoChan pc).entries.zipIdx.map (fun r =>
      if r.2 < k && !r.1.issued then { r.1 with age := r.1.age + 1 } else r.1)
    (e.writes = true → exec (.mcIssue pc) s = .next { s.hbmWrite e.dpaLine (tileKey e.ch e.row) e.line e.data e.mask with
      pseudo := s.pseudo.put PseudoChan.init pc ⟨aged.eraseIdx k, some e.row⟩ }.retryTxns)
    ∧ (e.writes = false → exec (.mcIssue pc) s = .next { s with
      pseudo := s.pseudo.put PseudoChan.init pc ⟨aged.set k { e with issued := true }, some e.row⟩ }))
  ∧ (∀ (s : State) (pc : Fin 512) (k id : Nat) (corrected bad : BitVec 4) (tssBad : Bool) (onDie : Nat) (e : McEntry),
    (s.pseudoChan pc).entries[k]? = some e → e.issued = true → s.halted = false →
    let queue := { s.pseudoChan pc with entries := (s.pseudoChan pc).entries.eraseIdx k }
    let left := { s with pseudo := s.pseudo.put PseudoChan.init pc queue }
    let n := popCount 4 ((corrected ||| s.latentIn e.ch e.row e.line 1) &&& e.sectors).toNat
    let found := ((left.corrected e.ch n).placeBad e.ch e.row e.line (bad &&& e.sectors)).onDieEcc e.ch onDie
    let u := if tssBad then found.tssLost e.ch e.row else found
    let v := u.discoverBad e.dpaLine e.sectors
    ∀ q, s.reqs.get? id = some q → q.stage = .waiting → (∀ st op k, q.kind ≠ .tile st op k) → q.isRead = true →
      v.readMeets e.dpaLine q.need = .data →
      (e.kind = .fill id →
        ∀ w, v.llcFill ⟨false, e.dpaLine⟩ q.access (v.devLine e.dpaLine) (e.sectors &&& ~~~(v.lineBad e.dpaLine)) = some w →
        w.readMeets e.dpaLine q.need = .data →
        exec (.memReadComplete pc k corrected bad ⟨tssBad, onDie⟩) s = .next (w.readData id q e.dpaLine))
      ∧ (e.kind = .outerRead id →
        exec (.memReadComplete pc k corrected bad ⟨tssBad, onDie⟩) s = .next (v.readData id q e.dpaLine)))
  ∧ ∀ (s : State) (ch row k : Nat), k < 16 → ((s.tssLost ch row).tssAt (tileKey ch (row / 16 * 16 + k))).state = .poison

/-- R304, R320, R321, R323, R333: a POISON tile of the half-replicated region is rewritten from its other copy, its second repair within a
scrub cycle being recorded as a soft repair; where the other copy is bad too, both are POISON and the region is QUARANTINED. A stale
mirrored tile is rewritten from the twin's copy, VALID with the twin's CRC, and a scrub cycle meets every error not yet found. -/
def Obligations.TilesAreRepaired : Prop :=
  ∀ (s : State) (line : Nat) (t : TileAt), s.tileOfLine line = some t →
    (∀ (o : Nat) (w : TileAt), (s.tssAt t.key).state = .poison → s.repairable line = true → s.otherCopy line = some o →
      s.tileOfLine o = some w → s.memOpen t.ch = true → s.memOpen w.ch = true → s.tileMoving line = false → s.tileMoving o = false →
      (∀ u, s.repair line = (u, false) →
        let mm := { u.mm with shared := u.mm.shared.map (fun r => { r with quarantined := true }) }
        exec (.halfReplicaRepair line) s = .next ({ u with mm := mm }.releaseTile line 0)
        ∧ (u.tssAt t.key).state = .poison ∧ (u.tssAt w.key).state = .poison)
      ∧ ∀ u, s.repair line = (u, true) →
        let v := u.releaseTile line flagReplayed
        let n := v.repaired.get 0 t.key + 1
        let w := { v with repaired := v.repaired.put 0 t.key n }.rowEvent 0x202 t.ch t.row
        (u.tssAt t.key).state = .valid
        ∧ (n < 2 → exec (.halfReplicaRepair line) s = .next w)
        ∧ (2 ≤ n → exec (.halfReplicaRepair line) s = .next { w with
          chans := w.chans.upd Chan.init t.ch (fun c => { c with softPpr := min (c.softPpr + 1) 255 })
          flash := { w.flash with repairs := w.flash.repairs ++ [⟨t.ch / 16, t.ch % 16, Config.bankRow t.row⟩] } }))
    ∧ (∀ crc data u, (s.tssAt t.key).state = .stale → s.portGroup s.twinNum ≠ [] → (∀ l ∈ t.lines, s.tileMoving l = false) →
      s.fullWrite line data (.outer 1) = some u →
      exec (.mirrorResync line ⟨crc, data⟩) s = .next ((t.lines.foldl (fun s n => (s.wakeLine (.dev n)).getD s)
        (u.setTss t.key ⟨.valid, crc, 0⟩)).releaseTile line 0).retryTxns)
    ∧ (s.power.selfRefresh = false → s.boot.ready = true →
      let u := s.latent.keys.foldl State.scrubSector s
      exec .scrubPass s = .next { u with
        repaired := .empty, chans := u.chans.mapVal (fun _ c => { c with ueRows := [], ueAfter := [] }) })

/-- R466, R467, R589, R591: a host access that the HDM decoder claims takes the memory out of self-refresh and enters at its line's home;
one whose window frame shows nothing reads all-ones or is dropped, and is counted, and after a device-fatal error a read is answered
with poison and a write is dropped. -/
def Obligations.HostReadsAndWritesMemory : Prop :=
  ∀ (s : State) (hpa tag base size : Nat) (meta_ : Fin 3) (data : BitVec 512) (mask : BitVec 64),
    s.host.decoder = some (base, size) → s.host.up = true → s.suspended 0 = false → s.host.memActive = true →
    base ≤ hpa → hpa < base + size →
    let w := { s with power := { s.power with selfRefresh := false } }
    (s.fw.fatal = true →
      exec (.cxlMemRead hpa tag meta_) s = .next { w with outbox := .answer 0 tag 0 true :: s.outbox }
      ∧ exec (.cxlMemWrite hpa tag data mask) s = .next w)
    ∧ (s.fw.fatal = false → s.windowAt base hpa = none →
      exec (.cxlMemRead hpa tag meta_) s
        = .next { w.unmappedAccess with outbox := .answer 0 tag (BitVec.allOnes 1024) false :: s.outbox }
      ∧ exec (.cxlMemWrite hpa tag data mask) s = .next w.unmappedAccess)
    ∧ (∀ dpa rw, s.fw.fatal = false → s.windowAt base hpa = some (dpa, rw) →
      let cache := if meta_.val = 1 then some true else if meta_.val = 2 then some false else none
      let off := dpa / 64 % 2 * 64
      exec (.cxlMemRead hpa tag meta_) s
        = .next (w.hostRequest tag (dpa / 64 * 64) (.read (if dpa / 64 % 2 = 0 then 3 else 12) cache))
      ∧ exec (.cxlMemWrite hpa tag data mask) s = .next (if rw then
          w.hostRequest tag (dpa / 64 * 64) (.store (lineOf off data.toNat) (BitVec.ofNat 128 (mask.toNat <<< off)))
        else w.unmappedAccess))

/-! ## Batch steps, blocks and tasks -/

/-- R39, R65, R414: a task whose predecessors ended OK reads its parameter block and becomes ready, ends at once with an empty grid, or
ends with ACCESS_FAULT where a parameter page is unmapped or no open core could ever hold a block of it. R44 to R47, R104 to R106: POUR
with no lane selected only moves on; otherwise it appends a task of a pour-only node with the grid and the key of its registers and
goes on, or ends its task with QUEUE_OVERFLOW where the pour area has no room. -/
def Obligations.TasksBecomeReadyAndPour : Prop :=
  (∀ (s : State) (task : Nat) (t : Task) (c : Cmd) (n : Node), s.tasks.get? task = some t → s.cmd? t.cmd = some c →
      t.state = .waiting → c.stage = .running → s.alive = true → s.predsDone t = true → s.predFailed t = false →
      (s.stepVer t.cmd).nodes[t.node]? = some n →
      let settled := fun (u : State) => Host.Outcome.next ((u.settleStep t.cmd).trace)
      let never := s.openCores t.part ≠ [] ∧ ∀ k ∈ s.openCores t.part, t.fitsCore (s.quadL1.get 64 (k / 4)) = false
      let plain := s.frontPlain (.cmd t.cmd) (some task) t.part n.paramVa n.paramLen = true
      (t.blocks = 0 → s.frontReqs (.cmd t.cmd) (some task) = [] → exec (.taskReady task) s = settled (s.endTask task .ok 0))
      ∧ (∀ a, t.blocks ≠ 0 → s.firstUnmapped t.part n.paramVa n.paramLen = some a →
        exec (.taskReady task) s = settled (s.endTask task .accessFault (BitVec.ofNat 64 a)))
      ∧ (∀ u, t.blocks ≠ 0 → s.frontRead (.cmd t.cmd) (some task) t.part n.paramVa n.paramLen 0 = .wait u →
        exec (.taskReady task) s = .next u)
      ∧ (∀ st, t.blocks ≠ 0 → s.firstUnmapped t.part n.paramVa n.paramLen = none → plain →
        s.frontStop t.part n.paramVa n.paramLen = some st → exec (.taskReady task) s = settled (s.endTask task st 0))
      ∧ (t.blocks ≠ 0 → ReadsAtOnce s (.cmd t.cmd) (some task) t.part n.paramVa n.paramLen →
        let t' := { t with params := s.partBytes t.part n.paramVa n.paramLen }
        (never → exec (.taskReady task) s = settled (s.endTask task .accessFault 0))
        ∧ (¬never → exec (.taskReady task) s
          = settled ({ s with nextId := s.nextId + 1 }.setTask task { t' with state := .ready, order := s.nextId, tags := s.readTags }))))
  ∧ (∀ (s : State) (r : GroupRef) (i : Ins) (x : Ctx), CanIssue s r i x →
      (x.sel = 0 → exec (.pour r i) s = .next (x.after x.g))
      ∧ ∀ c n params, x.sel ≠ 0 → x.pourOk c n params →
        let grid := clampGrid x.grid.1 x.grid.2.1 x.grid.2.2
        let v := s.raise x.b.task (clampedIf (grid ≠ x.grid))
        let t := x.pouredTask n c x.pourNode.1 x.pourNode.2 grid params
        (s.pourRoom x.t.cmd c n.paramLen = false →
          exec (.pour r i) s = .next (s.endTask x.b.task .queueOverflow x.g.pc))
        ∧ (s.pourRoom x.t.cmd c n.paramLen = true → exec (.pour r i) s
          = .next (((({ v with nextId := v.nextId + 1 }).setTask v.nextId t).readyTask v.nextId t).putGroup r
              { x.g with pc := x.nextPc })))

/-- R41, R67, R133, R134: a block whose groups ended and whose accesses are complete leaves its core, the last one of a task ending it
OK; a block all of whose live threads are held at BAR.SYNC ends its task with DEADLOCK at the lowest such group's address. Tables 12-14
and 12-15, R429 to R431: expiry stops a command that has no failed task, abort stops every fetched command of its queue and drains the
queue; a drained step waits at most its bound, then its blocks are killed and discarded. -/
def Obligations.BlocksAndCommandsEnd : Prop :=
  (∀ (s : State) (b : Nat) (k : Block), s.blocks.get? b = some k → s.fw.fatal = false →
      (∀ t, s.tasks.get? k.task = some t → k.phase = .resident ∨ k.phase = .leaving → (∀ g ∈ k.groups, g.hold = .ended) →
        s.blockBusy b = false → s.coreHeard k.core t.cmd = true →
        let u := (s.dropBlock b).setTask k.task { t with finished := t.finished + 1 }
        exec (.blockEnd b) s = .next ((((if t.finished + 1 = t.blocks then u.endTask k.task .ok 0 else u).endRebind t.part).settleStep
          t.cmd).trace))
      ∧ (∀ a rest, k.phase = .resident → (∀ t, s.tasks.get? k.task = some t → s.coreHeard k.core t.cmd = true) → (∀ g ∈ k.groups, g.live ≠ 0 → g.heldAt.isSome = true) →
        (k.groups.filter (fun g => g.live ≠ 0)).filterMap Group.heldAt = a :: rest →
        exec (.blockStuck b) s = .next ((s.endTask k.task .deadlock a).trace)))
  ∧ (∀ (s : State) (id : Nat) (c : Cmd), s.cmd? id = some c →
      (s.fw.fatal = false → (∀ t ∈ s.tasksOf id, t.2.failed = false) →
        exec (.commandTimeout id) s = .next ((s.stopCmd id c .timeout).trace))
      ∧ (∀ why, c.pending = true → c.why = none → c.isLaunch = false → c.op ≠ 4 →
        s.stopCmd id c why = (s.setCmd id { c with why := some why }).cmdDone id why 0)
      ∧ (∀ why, c.stage = .running → c.why = none → c.isLaunch = true →
        s.stopCmd id c why = (s.setCmd id { c with why := some why, stage := .draining }).settleStep id)
      ∧ (∀ fn rid q v, QueueWrite s fn rid false q v → exec (.abort fn rid q) s = .next
        (((s.cmds.rows.filter (fun r => r.2.queue = q.val)).foldl (fun s r => s.stopCmd r.1 r.2 .killed) s).drainQueue q))
      ∧ (∀ core : Fin 160, c.stage = .draining ∨ c.stage = .killing →
        (s.onCore core).any (fun r => (s.tasks.get? r.2.task).any (fun t => t.cmd = id)) = true → s.coreHeard core id = true →
        exec (.drain id core) s = .next (s.setCmd id
          { c with boundStarted := true, drained := core.val :: c.drained.filter (fun k => k ≠ core.val) }))
      ∧ (c.stage = .draining → c.boundStarted = true →
        exec (.drainBoundExpiry id) s = .next ((s.setCmd id { c with stage := .killing }).settleStep id))
      ∧ (∀ task t, s.tasks.get? task = some t → t.cmd = id → t.state = .ended ∨ c.stage = .killing →
        (∀ r ∈ s.blocks.rows, r.2.task = task → r.2.phase ≠ .out →
          s.coreHeard r.2.core id = true ∧ (c.stage = .killing → r.2.core ∈ c.drained)) →
        exec (.taskKill task) s = .next (((((s.blocksOf task).foldl (fun s b => s.killBlock id b) s).setTask task
          { t with finished := t.placed, killed := t.killed || t.state ≠ .ended }).endRebind t.part).settleStep id)))

/-! ## Scheduling -/

/-- R437 to R454, Tables 13-1, 13-4 and 13-6: a scheduler places the owner's first ready block that fits, otherwise switches a block out for
the owner, otherwise backfills; a new block enters at its kernel's first instruction with an acquire on its core, a switched-out one is restored, or ends its task where
its saved state is damaged; and a quantum's end moves ownership on after the last. -/
def Obligations.BlocksArePlacedAndSwitched : Prop :=
  ∀ (s : State),
    (∀ (fe : Fin 2) (p : Fin 16) (save : SaveCheck), s.alive = true → s.power.state ≠ .retain →
      (∀ c r core, (s.part p).owner = some c → (s.readyBlocks fe p c).findSome? s.fitReady = some (r, core) →
        exec (.blockPlace fe p save) s = .next (s.placeReady r core save))
      ∧ (∀ c u, (s.part p).owner = some c → (s.readyBlocks fe p c).findSome? s.fitReady = none → s.preempt fe p = some u →
        exec (.blockPlace fe p save) s = .next u)
      ∧ (∀ r core k, (∀ c, (s.part p).owner = some c → (s.readyBlocks fe p c).findSome? s.fitReady = none) →
        s.preempt fe p = none → s.backfill fe p = some (k, r, core) → exec (.blockPlace fe p save) s
          = .next ({ s with turns := s.turns.put 7 (backfillKey fe p) k }.placeReady r core save)))
    ∧ (∀ (task core : Nat) (t : Task) (save : SaveCheck), s.tasks.get? task = some t →
      s.placeReady (.new task) core save = ((({ s with nextId := s.nextId + 1 }).setBlock s.nextId (t.newBlock task core)).setTask task
        { t.ranOn core with
            placed := t.placed + 1, tags := if (t.placed + 1) % 64 = 0 then s.readTags else (t.ranOn core).tags }).l1Invalidate core)
    ∧ (∀ (b core : Nat) (k : Block), s.blocks.get? b = some k →
      s.placeReady (.out b) core .corrupt = (s.event 0x106 core).endTask k.task .tileCorrupt 0
      ∧ s.placeReady (.out b) core .poisoned = (s.event 0x106 core).endTask k.task .poison 0
      ∧ s.placeReady (.out b) core .sound = s.restore b core)
    ∧ (∀ (b : Nat) (bad : Option (Fin 32)) (k : Block), s.blocks.get? b = some k →
      (k.phase = .leaving → s.fw.fatal = false →
        let u := ((s.reqsOfBlock b).foldl (fun s r => s.withdrawSem r.1 r.2) s).wakeAfter (s.reqsOfBlock b)
        let fails := fun (g : Group × Nat) => decide (g.1.foot.st = .held) && (g.1.foot.bad || bad.any (fun x => x.val = g.2))
        (u.stillBusy b = true → exec (.switchOut b bad) s = .next u)
        ∧ (u.stillBusy b = false → (∀ g ∈ k.groups.zipIdx, fails g = false) →
          exec (.switchOut b bad) s = .next (u.setBlock b { k with phase := .stored }))
        ∧ (∀ g, u.stillBusy b = false → k.groups.zipIdx.find? fails = some g →
          exec (.switchOut b bad) s = .next ((u.spoil b g.2).fenceSubCore (k.subCore g.2) k.task 0)))
      ∧ (∀ t, k.phase = .stored → s.tasks.get? k.task = some t →
        let es := ((List.range 4).map (fun j => (s.mxu (4 * k.core + j)).queue.filter (fun e => e.block = b))).flatten
        let u := { (s.mxuDrop b).setBlock b { k with phase := .out, outSeq := s.nextId, saved := es ++ k.saved } with
          nextId := s.nextId + 1 }.refill.coreIdle k.core
        exec (.saved b) s
          = .next ((u.setPart t.part { u.part t.part with switchOuts := (u.part t.part).switchOuts + 1 }).endRebind t.part)))
    ∧ (∀ (p : Fin 16), (s.part p).owner.isSome = true → s.alive = true →
      (1 < (s.part p).quantaLeft →
        exec (.quantumExpiry p) s = .next (s.setPart p { s.part p with quantaLeft := (s.part p).quantaLeft - 1 }))
      ∧ ((s.part p).quantaLeft ≤ 1 → (s.changeOwner p).preempt 0 p = none → (s.changeOwner p).preempt 1 p = none →
        exec (.quantumExpiry p) s = .next (s.changeOwner p)))

/-! ## Queues, commands and completions -/

/-- Tables 12-2 and 12-3, R406, R421, R431, R469: a write to a queue's registers. ENABLE starts a DISABLED queue, clearing it drains the
queue, and the doorbells take the indexes modulo the depth; a request that the tumbler does not admit is dropped and counted. -/
def Obligations.QueueRegistersAreWritten : Prop :=
  ∀ (s : State) (fn : Fin 64) (rid : Option Nat) (q : Fin 1024) (v : Queue),
    (QueueWrite s fn rid false q v →
      let p := (s.part (q.val / 64)).state
      (v.state = .disabled → s.mayRequest (q.val / 64) (q.val / 8 % 8) = true → p = .active ∨ p = .built →
        exec (.queueEnable fn rid q) s = .next ((s.setQueue q { v with state := .idle, enable := true }).settleQueue q))
      ∧ (v.state ≠ .disabled → exec (.queueEnable fn rid q) s = .next s)
      ∧ exec (.queueDisable fn rid q) s = .next (s.drainQueue q))
    ∧ (∀ (index : BitVec 16), QueueWrite s fn rid true q v →
      exec (.doorbell fn rid q index) s = .next ((s.setQueue q { v with tail := index.toNat % v.depth }).settleQueue q)
      ∧ exec (.cqHeadWrite fn rid q index) s = .next (s.setQueue q { v with head := index.toNat % v.depth }))
    ∧ (∀ (index : BitVec 16) (n : Nat), s.queue? q = some v → s.seesQueue fn q = true → s.host.up = true → s.suspended 0 = false →
      s.fnExists fn = true → (s.fnRec fn).flr = false → (s.fnRec 0).flr = false → rid = some n → s.feHeard fn v = true →
      ((s.fnRec fn).grants.contains n = false →
        ∀ c ∈ [Instr.queueEnable fn rid q, .queueDisable fn rid q, .abort fn rid q, .doorbell fn rid q index,
          .cqHeadWrite fn rid q index], exec c s = .next ((s.tumblerDrop fn 1 n).event 0x601 fn))
      ∧ ∀ c ∈ [Instr.queueEnable fn rid q, .queueDisable fn rid q, .abort fn rid q],
        exec c s = .next ((s.tumblerDrop fn 1 n).event 0x601 fn))

/-- R404, R405, R408, R439, R630, Tables 12-4 and 12-5: a queue whose turn it is fetches the command at SQ_HEAD, its fields read once, and
a LAUNCH's batch descriptor with it; a failed fetch, a reserved opcode and a LAUNCH with an unmapped batch descriptor are complete with
ACCESS_FAULT at once, and one whose descriptor a tile stops completes with that status. -/
def Obligations.CommandsAreFetched : Prop :=
  ∀ (s : State) (q : Fin 1024) (host : Option (List Byte)) (v : Queue), s.queue? q = some v →
    let slot := v.sqBase + 64 * v.sqHead
    let p := q.val / 64
    let enters := fun (c : Cmd) =>
      let left := { s with reqs := s.reqs.keep (fun _ r => r.src != Src.fe q) }
      let u := { left.setQueue q { v with sqHead := (v.sqHead + 1) % v.depth } with turns := s.turns.put 7 (q.val / 8) (q.val % 8) }
      (({ u with nextId := s.nextId + 1 }.setCmd s.nextId c).wake.settleOwner p).trace
    let c := fun bytes => Cmd.ofSlot q slot bytes
    let slotRead := fun (bytes : List Byte) => (v.sqLoc = false ∧ ∃ l, host = some l ∧ bytes = sliceBytes l 0 64)
      ∨ (v.sqLoc = true ∧ ReadsAtOnce s (.fe q) (some 0) p slot 64 ∧ bytes = s.partBytes p slot 64)
    (s.canFetch q v = true → s.isTurn q v = true →
      ((v.sqLoc = false ∧ host = none) ∨ (v.sqLoc = true ∧ (s.firstUnmapped p slot 64).isSome = true) →
        exec (.commandFetch q host) s = .next (enters (Cmd.unfetched q slot)))
      ∧ ∀ bytes, slotRead bytes →
        ((c bytes).op ≠ 1 → exec (.commandFetch q host) s = .next (enters (c bytes)))
        ∧ ((c bytes).op = 1 →
          (∀ a, s.firstUnmapped p (c bytes).batchVa 512 = some a → exec (.commandFetch q host) s
            = .next (enters { c bytes with stage := .complete, status := .accessFault, detail := BitVec.ofNat 64 a }))
          ∧ (∀ st, s.firstUnmapped p (c bytes).batchVa 512 = none → s.frontPlain (.fe q) (some 1) p (c bytes).batchVa 512 = true →
            s.frontStop p (c bytes).batchVa 512 = some st → st ≠ .accessFault → exec (.commandFetch q host) s
              = .next (enters { c bytes with stage := .complete, status := st, detail := 0 }))
          ∧ (ReadsAtOnce s (.fe q) (some 1) p (c bytes).batchVa 512 → exec (.commandFetch q host) s
            = .next (enters { c bytes with batch := s.partBytes p (c bytes).batchVa 512 }))))
    ∧ (Cmd.unfetched q slot).stage = .complete ∧ (Cmd.unfetched q slot).status = .accessFault ∧ (Cmd.unfetched q slot).failed = true
    ∧ (Cmd.unfetched q slot).detail = BitVec.ofNat 64 slot ∧ (Cmd.unfetched q slot).flags = 0
    ∧ ∀ bytes, (c bytes).bytes = bytes ∧ (c bytes).failed = false ∧ (c bytes).queue = q.val ∧ (c bytes).slot = slot
      ∧ (c bytes).flags = clampedIf (c bytes).clamps
      ∧ ((c bytes).op ∉ [0, 1, 2, 3, 4, 8, 9, 10] → (c bytes).stage = .complete ∧ (c bytes).status = .accessFault ∧ (c bytes).detail = 0)
      ∧ ((c bytes).op ∈ [0, 1, 2, 3, 4, 8, 9, 10] → (c bytes).stage = .fetched)

/-- R405, R410, R413, R415 to R418: what a fetched command does as it starts. NOP completes; SEM_WAIT takes a zero amount at once and
otherwise waits at its word; COPY and FILL of no bytes complete and others run; LAUNCH starts the waiting tasks of the current version of
its graph; and the graph commands make, patch and free versions. -/
def Obligations.CommandsStart : Prop :=
  ∀ (s : State) (id : Nat) (c : Cmd),
    (s.mayStart id 0 = some c → exec (.cmdNop id) s = .next (s.cmdDone id .ok 0))
    ∧ (s.mayStart id 4 = some c →
      let n := numAt c.bytes 40 4
      (∀ h, c.semVa < 2 ^ 48 → s.locate c.part c.semVa = some (h, true) →
        (n = 0 → exec (.semWait id) s = .next (s.cmdDone id .ok 0))
        ∧ (n ≠ 0 → exec (.semWait id) s = .next
          ((s.addReq ⟨.cmd id, c.part, c.semVa, h, .semAcq (c.semVa % 128) n, 0, .flight, 0, .free⟩).2.setCmd id
            { c with stage := .running, req := some s.nextId })))
      ∧ (2 ^ 48 ≤ c.semVa ∨ s.locate c.part c.semVa = none ∨ (∃ h, s.locate c.part c.semVa = some (h, false)) →
        exec (.semWait id) s = .next (s.cmdDone id .accessFault 0)))
    ∧ (∀ p ∈ [(2, Instr.copy id), (3, Instr.fill id)], s.mayStart id p.1 = some c →
      (c.copyLen = 0 → exec p.2 s = .next (s.cmdDone id .ok 0))
      ∧ (c.copyLen ≠ 0 → exec p.2 s = .next (s.setCmd id { c with stage := .running })))
    ∧ (s.mayStart id 1 = some c →
      ((s.graph c.part c.graph).current = none → exec (.launch id) s = .next (s.cmdDone id .accessFault 0))
      ∧ ∀ k v, (s.graph c.part c.graph).current = some k → s.versions.get? k = some v →
        let c' := { c with stage := .running, version := some k }
        exec (.launch id) s = .next ((v.nodes.zipIdx.foldl (fun s e => s.startNode id c' e)
          ((s.boundary c.part).setCmd id c')).settleStep id))
    ∧ (s.mayStart id 8 = some c →
      (ReadsAtOnce s (.cmd id) (some 0) c.part c.graphSrc (128 * c.nodes) →
        exec (.graphLoad id) s = .next (s.newVersion id c (nodesOf (s.partBytes c.part c.graphSrc (128 * c.nodes)) c.nodes)))
      ∧ ((s.firstUnmapped c.part c.graphSrc (128 * c.nodes)).isSome = true →
        exec (.graphLoad id) s = .next (s.cmdDone id .accessFault 0)))
    ∧ (s.mayStart id 9 = some c →
      ((s.graph c.part c.graph).current = none → exec (.graphPatch id) s = .next (s.cmdDone id .accessFault 0))
      ∧ ∀ k v, (s.graph c.part c.graph).current = some k → s.versions.get? k = some v →
        let first := min (numAt c.bytes 48 4) v.nodes.length
        let n := min c.nodes (4096 - first)
        let new := nodesOf (s.partBytes c.part c.graphSrc (128 * n)) n
        let u := if first ≠ numAt c.bytes 48 4 || n ≠ c.nodes then s.cmdRaise id flagClamped else s
        (ReadsAtOnce s (.cmd id) (some 0) c.part c.graphSrc (128 * n) →
          exec (.graphPatch id) s = .next (u.newVersion id c (v.nodes.take first ++ new ++ v.nodes.drop (first + n)))))
    ∧ (s.mayStart id 10 = some c →
      let g := s.graph c.part c.graph
      (g.current = none → exec (.graphFree id) s = .next (s.cmdDone id .accessFault 0))
      ∧ (g.current.isSome = true → exec (.graphFree id) s = .next
        (({ s with graphs := s.graphs.set (graphKey c.part c.graph) { g with current := none } }.cmdDone id .ok 0).gcVersions)))

/-- R417, R440: the copy engines of a half serve the next partition's oldest transfer, one tile at a time; a FILL writes its pattern up to the
destination's next tile boundary, and an unmapped or read-only destination ends the transfer with ACCESS_FAULT. -/
def Obligations.CopyEnginesMove : Prop :=
  ∀ (s : State) (half : Fin 2) (p id : Nat) (c : Cmd), s.alive = true → s.nextCopy half = some (p, id, c) →
    let u := { s with copyTurn := s.copyTurn.put 15 half.val p }
    let dst := c.copyDst + c.moved
    let n := min (c.copyLen - c.moved) (2048 - dst % 2048)
    exec (.copyEngineTile half) s = .next (u.copyStep id c)
    ∧ (s.locate c.part dst = none ∨ (∃ h, s.locate c.part dst = some (h, false)) →
      exec (.copyEngineTile half) s = .next (u.cmdDone id .accessFault (BitVec.ofNat 64 c.moved)))
    ∧ ∀ h w, s.locate c.part dst = some (h, true) → (∀ d e l, h = .peer d e l → s.lbx.lost.contains d = false) →
      s.poolFailed c.part dst = false →
      (∀ x b, c.op = 2 → u.gather id c (tileParts (c.copySrc + c.moved) n) [] = .got x b →
        x.writeChunk id ((x.cmd? id).getD c) dst h b = some (true, w) → w.chunkFlags ((x.cmd? id).getD c) dst b.length = 0 →
        exec (.copyEngineTile half) s = .next (w.chunkDone id ((w.cmd? id).getD ((x.cmd? id).getD c)) b.length))
      ∧ (c.op = 3 → s.cmd? id = some c →
      let pattern := (List.range n).map (fun k => (sliceBytes c.bytes 40 8).getD ((c.moved + k) % 8) 0)
      u.writeChunk id c dst h pattern = some (true, w) → w.chunkFlags c dst n = 0 →
      exec (.copyEngineTile half) s = .next (w.chunkDone id ((w.cmd? id).getD c) n))

/-- R419 to R426, R432, R476: a complete command whose writes are visible has its record written and its signal sent; a record that the host
rejects goes to the shadow and stalls the queue, as later completions there do; during a function level reset nothing is sent. -/
def Obligations.CompletionsAndSignals : Prop :=
  ∀ (s : State) (id : Nat) (rejected : Bool) (c : Cmd) (v : Queue), s.cmd? id = some c → s.queue? c.queue = some v →
    let without := fun (u : State) => { u with cmds := u.cmds.erase id }
    let wants := c.wantsRecord || c.failed
    let held : HeldRec := ⟨id, if wants then some c.record else none, c.signal⟩
    (c.stage = .complete → s.writesLeft id = false →
      (s.inFlr c.part c.ctx = true → exec (.completionWrite id rejected) s = .next ((without s).afterRecord c))
      ∧ (s.inFlr c.part c.ctx = false → s.fw.fatal = false → s.mayRequest c.part c.ctx = true → s.host.up = true →
        (v.state = .stalled →
          (wants = true ∨ c.signals = true → exec (.completionWrite id rejected) s
            = (without (s.setQueue c.queue { v with shadow := v.shadow ++ [held] })).recorded c)
          ∧ (wants = false → c.signals = false → exec (.completionWrite id rejected) s = (without s).recorded c))
        ∧ (v.state ≠ .stalled → wants = true → rejected = true → exec (.completionWrite id rejected) s
          = (without ((s.setQueue c.queue { v with
              state := .stalled, drainPend := v.drainPend || v.state = .draining, shadow := v.shadow ++ [held] }).event 0x602
                c.queue)).recorded c)
        ∧ (v.state ≠ .stalled → wants = true ∧ rejected = false ∨ wants = false →
          let u := if wants then s.writeRecord c.queue v c.record else s
          (c.signals = true → exec (.completionWrite id rejected) s = (u.setCmd id { c with stage := .recorded }).recorded c)
          ∧ (c.signals = false → exec (.completionWrite id rejected) s = (without u).recorded c))))
    ∧ (∀ sig, c.stage = .recorded → s.fw.fatal = false → s.mayRequest c.part c.ctx = true → c.signal = some sig →
      exec (.signalSend id rejected) s = .next ((without s).sendSignal c.queue id sig rejected))

/-! ## Mailboxes -/

/-- R487, R489, R515, R516, R526, Tables 16-5, 17-11 and 18-8: a mailbox command serves only a request that was dispatched to its own code.
One that the PF alone may send is denied to every VF, a status command of a VF is denied to a VF bound to no context, and a request of
another length than the command's fields give is MB_BAD_LENGTH; a refusal changes nothing but the slot. -/
def Obligations.MailboxRequestsAreChecked : Prop :=
  ∀ (s : State) (r : Req) (image : List Byte) (reserved : BitVec 64) (n : Nat),
    let slot := (s.fnRec r.fn).slot r.slot
    let pf : List (Instr × Nat × List Nat) := [
      (.fwStatus r, 0x0101, [1]), (.logRead r, 0x8102, [8, 4, 8]), (.fwUpdate r image, 0x8103, [8, 8]),
      (.fwLoad r image, 0x8104, [8, 8]), (.devRestart r, 0x0105, [1]), (.pageMap r, 0x4200, [1, 8, 4, 1, 1, 1, 8]),
      (.pageUnmap r, 0x4201, [1, 8, 4]), (.pageQuery r, 0x0202, [1, 8]), (.sharedCreate r, 0x4203, [8, 1]),
      (.sharedDestroy r, 0x4204, []), (.quadSetL1 r, 0x4205, [8, 2]), (.sliceDefine r, 0x4300, [1, 8, 32, 2]),
      (.partActivate r, 0x4304, [1]), (.partQuiesce r, 0x4305, [1]), (.partResume r, 0x4306, [1]), (.partDestroy r, 0x4307, [1]),
      (.partRebindQuads r, 0x4309, [1, 1, 8, 8]), (.partRebindChannels r, 0x430A, [1, 1, 32, 32]), (.devSetMigRate r, 0x430C, [2]),
      (.schedSet r, 0x4500, [1, 4, 1, 1, 1, 1, 1, 1, 1, 1, 1]), (.memChannelStatus r, 0x0702, [1, 1]),
      (.memChannelMapOut r, 0x4703, [1]), (.memChannelAdmit r, 0x4704, [1]), (.sharedLoad r image, 0x8705, [8, 8, 8]),
      (.memSetMode r, 0x4706, [1]), (.hbmPprSoft r, 0x4800, [1, 1, 1, 2]), (.hbmPprHard r, 0x4801, [1, 1, 1, 2]),
      (.hbmLaneMapRead r, 0x0802, [1, 1]), (.hbmLaneMapWrite r, 0x4803, [1, 8]), (.hbmRowTest r, 0x4804, [1, 1, 1, 2, 8]),
      (.hingeStatus r, 0x0900, [1, 1]), (.hingeRetrain r, 0x4901, [1]), (.poolMap r n, 0x4A01, [1, 8, 4, 8]),
      (.poolUnmap r, 0x4A02, [1, 8, 4, 8]), (.poolRecall r, 0x8A03, [1, 8, 4, 8]), (.poolLedger r, 0x4A04, [1, 8, 8]),
      (.ledgerScan r, 0x8A06, [1]), (.twinForceSolo r reserved, 0x0A0A, []), (.vfUnbind r, 0x4B01, [1]),
      (.tumblerRevoke r, 0x4B04, [1, 2]), (.hostWindowUnmap r, 0x4B06, [8, 4]), (.dirtyLogStart r, 0x4B07, [1, 8, 8, 8, 8]),
      (.dirtyLogSwap r, 0x4B08, [1]), (.dirtyLogStop r, 0x4B09, [1]), (.lbxSetId r, 0x4C00, [1, 1]), (.lbxRetrain r, 0x4C02, [1]),
      (.secPartEvict r, 0x4D01, [1]), (.dbgAuthorize r, 0x4D04, [2, 16, 2]), (.dbgRevoke r, 0x4D05, []),
      (.dbgTraceStart r, 0x4D06, [8, 8]), (.dbgTraceStop r, 0x4D07, []), (.pwrSetCap r, 0x4E00, [2, 2, 4]),
      (.pwrSetState r, 0x4E02, [1]), (.errCounts r, 0x0E03, [1, 1])]
    let vf : List (Instr × Nat × List Nat) := [
      (.devStatus r, 0x0100, [1]), (.memTileState r, 0x0701, [1, 8]), (.lbxStatus r, 0x0C01, [1, 1]), (.secStatus r, 0x0D00, [1]),
      (.secPartReport r, 0x8D02, [1, 32, 8]), (.secPageQuery r, 0x0D03, [1, 8]), (.pwrStatus r, 0x0E01, [1])]
    (∀ p ∈ pf ++ vf, slot.state ≠ .pending ∨ slot.busy = false ∨ slot.code ≠ p.2.1 → exec p.1 s = .next s)
    ∧ (∀ p ∈ pf, Dispatched s r p.2.1 → r.fn ≠ 0 → exec p.1 s = s.refuses r .denied)
    ∧ (∀ p ∈ vf, Dispatched s r p.2.1 → r.fn ≠ 0 → (s.fnRec r.fn).ctx = none → exec p.1 s = s.refuses r .denied)
    ∧ (∀ p ∈ pf ++ vf, Dispatched s r p.2.1 → r.fn = 0 → slot.len ≠ encodedLen p.2.2 → exec p.1 s = s.refuses r .badLength)

/-- R62, R64, R73, R74, R318 to R321, R366, R527, R554, Tables 11-1 and 16-6: page maps, the shared region, slice records and core
memory splits, by the PF. -/
def Obligations.MemoryIsLaidOut : Prop :=
  ∀ (s : State) (r : Req),
    (∀ a va count size back access target, Asked s r 0x4200 [1, 8, 4, 1, 1, 1, 8] [a, va, count, size, back, access, target] →
      let p := partArg a
      let large := decide (size = 1)
      let u := pageUnits large
      let key := min (va / (u * 65536) * u) (windowUnits - u)
      let n := min count ((windowUnits - key) / u)
      let dest := target / (u * 65536) * (u * 65536)
      back ≤ 2 → back ≠ 1 → (s.part p).state ≠ .free → (s.part p).mappedAny key (n * u) = false →
      let moved := 15 < a || key * 65536 ≠ va || 1 < size || 1 < access
      (back = 0 →
        let d := State.mapFrames p large (access = 1) n key s
        exec (.pageMap r) s = d.2.grants r (moved || d.1 ≠ count) [])
      ∧ (back = 2 → (s.part p).hostChanges = true →
        exec (.pageMap r) s = (((List.range n).foldl (fun s k =>
          s.putPage p (key + k * u) ⟨large, .host (dest + k * (u * 65536)), decide (access = 1), false⟩) s).hostMapped p).grants r
            (moved || n ≠ count || dest ≠ target) [])
      ∧ (back = 2 → (s.part p).hostChanges = false → exec (.pageMap r) s = s.refuses r .notInMode))
    ∧ (∀ a va count, Asked s r 0x4201 [1, 8, 4] [a, va, count] →
      let p := partArg a
      let key := min (va / 65536) (windowUnits - 1)
      let n := min count (windowUnits - key)
      let met := (s.part p).pages.rows.filter (fun r => r.1 < key + n && key < r.1 + pageUnits r.2.large)
      let pages := met.filter (fun r => key ≤ r.1 && r.1 + pageUnits r.2.large ≤ key + n)
      (s.part p).state ≠ .free → (∀ g ∈ pages, ∀ h, g.2.backing ≠ .host h) →
      (∀ u, s.unmapPages p pages = (false, u) → exec (.pageUnmap r) s = .next u)
      ∧ ∀ u, s.unmapPages p pages = (true, u) → exec (.pageUnmap r) s
        = u.advanceMigs.grants r (15 < a || key * 65536 ≠ va || n ≠ count || pages.length ≠ met.length) [])
    ∧ (∀ a va, Asked s r 0x0202 [1, 8] [a, va] → exec (.pageQuery r) s = s.grants r (2 ^ 47 ≤ va) (s.pageEntry a va))
    ∧ (∀ length half, Asked s r 0x4203 [8, 1] [length, half] →
      (s.mm.shared.isSome = true → exec (.sharedCreate r) s = s.refuses r .notInMode)
      ∧ (s.mm.shared = none →
        let rep := decide (half = 1)
        let most := if rep then min (s.spareChans 0).length (s.spareChans 1).length
          else (s.spareChans 0).length + (s.spareChans 1).length
        let len := min (roundUp length 2097152) (planBytes (s.sharedPlan rep most))
        ∀ n, (List.range (most + 1)).find? (fun n => len ≤ planBytes (s.sharedPlan rep n)) = some n →
        let u := (s.sharedPlan rep n).foldl (fun s p => s.addSet .shared p.1 p.2.1 p.2.2) s
        let v := (u.sets.vals.filter (fun e => e.owner = .shared)).foldl (fun s e => s.scrub e.covers) u
        exec (.sharedCreate r) s
          = { v with mm := { v.mm with shared := some ⟨len, rep, false,
              ((if rep then [0, 1] else [0]).map (fun c => takeParts c len (v.sharedSets c))).flatten⟩ } }.grants r
            (len ≠ length || 1 < half) []))
    ∧ (Asked s r 0x4204 [] [] →
      (s.mm.shared = none → exec (.sharedDestroy r) s = s.refuses r .notInMode)
      ∧ (s.mm.shared.isSome = true → (∀ p ∈ s.parts.vals, ∀ g ∈ p.pages.vals, ∀ d, g.backing ≠ .shared d) →
        (∀ u, s.recall s.isShared = (false, u) → exec (.sharedDestroy r) s = .next u)
        ∧ ∀ u, s.recall s.isShared = (true, u) →
          let v := (u.sets.rows.filter (fun e => e.2.owner = .shared)).foldl (fun s e => s.removeSet e.1 e.2) u
          exec (.sharedDestroy r) s = { v with mm := { v.mm with shared := none } }.grants r false []))
    ∧ (∀ quads size, Asked s r 0x4205 [8, 2] [quads, size] →
      let q := BitVec.ofNat 40 quads &&& s.fuses.quads
      let v := if size < 128 then 64 else if size < 192 then 128 else if size < 256 then 192 else 256
      let u := { s with quadL1 := (bitsOf 40 q.toNat).foldl (fun t k => t.put 64 k v) s.quadL1 }
      exec (.quadSetL1 r) s = (((List.range 160).filter (fun c => q.getLsbD (c / 4))).foldl State.coreIdle u).grants r
        (q.toNat ≠ quads || v ≠ size) [])
    ∧ (∀ k quads chans ports, Asked s r 0x4300 [1, 8, 32, 2] [k, quads, chans, ports] →
      (63 < k → exec (.sliceDefine r) s = s.refuses r .badLength)
      ∧ (k ≤ 63 → (∀ p, (s.slice k).part = some p → (s.part p).state = .built ∧ (s.part p).confidential = false) →
        let q := BitVec.ofNat 40 quads &&& s.quadsLeft &&& ~~~(s.otherSlices k Slice.quads)
        let c := BitVec.ofNat 256 chans &&& s.unboundChans &&& ~~~(s.otherSlices k Slice.chans)
        let p := BitVec.ofNat 12 ports &&& ~~~(if s.paired then 0x3F else 0) &&& ~~~(s.otherSlices k Slice.ports)
        exec (.sliceDefine r) s = { s with slices := s.slices.set k ⟨q, c, p, (s.slice k).part⟩ }.grants r
          (q.toNat ≠ quads || c.toNat ≠ chans || p.toNat ≠ ports)
          (encodeFields [(1, k), (8, q.toNat), (32, c.toNat), (2, p.toNat)])))
    ∧ (∀ offset length source image, Asked s r 0x8705 [8, 8, 8] [offset, length, source] →
      (s.mm.shared = none → exec (.sharedLoad r image) s = s.refuses r .notInMode)
      ∧ ∀ g, s.mm.shared = some g →
        let off := min offset g.length
        let len := min length (g.length - off)
        let ts := sharedTiles off len
        let bytes := ts.length * 2048
        let src := s.coverSource source bytes
        let lines := (g.copies.map (fun c =>
          ts.filterMap (fun t => (s.sharedDpa c (t * 2048)).map (fun d => s.forward (d / 128))))).flatten
        (lines.any s.tileMoving = true → exec (.sharedLoad r image) s = .next s)
        ∧ (∀ u, lines.any s.tileMoving = false → s.recall (fun n => lines.contains (n / 16 * 16)) = (false, u) →
          exec (.sharedLoad r image) s = .next u)
        ∧ ∀ u, lines.any s.tileMoving = false → s.recall (fun n => lines.contains (n / 16 * 16)) = (true, u) →
          exec (.sharedLoad r image) s = (u.loadShared g ts (if u.inWindow src then u.windowBytes src bytes else image)).grants r
            (off ≠ offset || len ≠ length || off % 2048 ≠ 0 || (off + len) % 2048 ≠ 0 || src ≠ source) [])


/-- R469 to R471, R511 to R513, R518 to R521, Tables 14-3, 16-1 and 16-2: slots are submitted in ascending order and acknowledged, a register
write fills a FREE slot's request area or a counter selector, the firmware takes requests in class and round-robin order and answers
undefined and inadmissible ones itself, and the limits of the VFs follow the load. A request that the tumbler does not admit is dropped and
counted. -/
def Obligations.SlotsAreSubmittedAndTaken : Prop :=
  (∀ (s : State) (fn : Fin 64) (rid : Option Nat) (slots : BitVec 8) (off : BitVec 26) (data : List Byte), s.host.up = true →
    s.suspended 0 = false → s.fnExists fn = true → (s.fnRec fn).flr = false → (s.fnRec 0).flr = false →
    (rid = none →
      exec (.mbSubmit fn rid slots) s = .next ((bitsOf 8 slots.toNat).foldl (fun s k => s.submitSlot fn k) s)
      ∧ exec (.mbAck fn rid slots) s = .next (s.setFn fn ((bitsOf 8 slots.toNat).foldl (fun f k =>
        if (f.slot k).state = .done then f.setSlot k { f.slot k with state := .free } else f) (s.fnRec fn)))
      ∧ (∀ k o, areaAt fn 0x4000 off.toNat data.length = some (k, o) →
        let w := (s.fnRec fn).slot k
        (w.state = .free → exec (.registerWrite fn rid off data) s = .next (s.setFn fn ((s.fnRec fn).setSlot k
          { w with area := spliceBytes (sliceBytes w.area 0 (slotSize fn)) o data })))
        ∧ (w.state ≠ .free → exec (.registerWrite fn rid off data) s = .next s))
      ∧ (data.length = 4 → off = 0x10000 →
        exec (.registerWrite fn rid off data) s = .next (s.setFn fn { s.fnRec fn with csel := clampCsel fn (numAt data 0 4) }))
      ∧ (data.length = 4 → off = 0x11000 →
        exec (.registerWrite fn rid off data) s
          = .next (s.setFn fn { s.fnRec fn with mxuCsel := clampMxuCsel fn (numAt data 0 4) })))
    ∧ ∀ n, rid = some n → ∀ c ∈ [Instr.mbSubmit fn rid slots, .mbAck fn rid slots, .registerWrite fn rid off data],
      exec c s = .next ((s.tumblerDrop fn 1 n).event 0x601 fn))
  ∧ (∀ (s : State) (fn k : Nat),
    (((s.fnRec fn).slot k).state ≠ .free → s.submitSlot fn k = s)
    ∧ (((s.fnRec fn).slot k).state = .free →
      let w := { (s.fnRec fn).slot k with
        state := .pending, req := sliceBytes ((s.fnRec fn).slot k).area 0 (slotSize fn), order := s.nextId, busy := false }
      let full := classOf w.code ≠ 0 ∧ (if fn = 0 then 7 else (s.fnRec fn).limit) ≤ (s.fnRec fn).queued
      let u := { s with nextId := s.nextId + 1 }
      (s.fw.hung = true ∨ s.served fn = false ∨ full →
        s.submitSlot fn k = u.setFn fn ((s.fnRec fn).setSlot k (w.answer .busy false 0 [])))
      ∧ (s.fw.hung = false → s.served fn = true → ¬full → s.submitSlot fn k = u.setFn fn ((s.fnRec fn).setSlot k w))))
  ∧ (∀ (s : State) (fn slot : Nat) (k : Slot), s.nextRequest = some (fn, slot, k) →
    let u := { s with fw := { s.fw with lastFn := fn } }
    (k.code ∉ commandCodes → exec .mailboxDispatch s = .next (u.answer fn slot .unknown false 0 []))
    ∧ (k.code ∈ commandCodes → s.servesCode k.code = false →
      exec .mailboxDispatch s = .next (u.answer fn slot .notInMode false 0 []))
    ∧ (k.code ∈ commandCodes → s.servesCode k.code = true →
      exec .mailboxDispatch s = .next (u.setFn fn ((s.fnRec fn).setSlot slot { k with busy := true }))))
  ∧ (∀ (s : State) (fn : Fin 64) (rid : BitVec 16), s.host.up = true → s.fnExists fn = true →
    exec (.tumblerReadReject fn rid) s = .next ((s.tumblerDrop fn 2 rid.toNat).event 0x601 fn))
  ∧ (∀ (s : State),
    let halve := decide (64 < s.mbQueued ∨ s.fw.halving = true ∧ 32 ≤ s.mbQueued)
    ∃ t, exec .mbLimitAdjust s = .next t ∧ t.fw = { s.fw with halving := halve }
      ∧ (∀ k, 1 ≤ k → k < 64 → t.fnRec k = { s.fnRec k with
          limit := if halve then max 1 ((s.fnRec k).limit / 2) else min (s.fnRec k).setLimit ((s.fnRec k).limit + 1) })
      ∧ t.fnRec 0 = s.fnRec 0 ∧ { t with fns := s.fns, fw := s.fw } = s)
  ∧ ∀ (s : State) (r : Req) (f limit : Nat), Asked s r 0x4106 [1, 1] [f, limit] → f ≠ 0 →
    let g := min (max f 1) 63
    let l := min (max limit 1) 7
    exec (.mbSetLimit r) s = (s.setFn g { s.fnRec g with
      setLimit := l, limit := if (s.fnRec g).limit < (s.fnRec g).setLimit then min (s.fnRec g).limit l else l }).grants r
        (63 < f || limit < 1 || 7 < limit) []

/-- R366 to R383, R549 to R559, Tables 11-2 to 11-5, 11-13 and 16-13: the life of a partition by mailbox commands. -/
def Obligations.PartitionsLive : Prop :=
  ∀ (s : State) (r : Req),
    (∀ a c w f sp, Asked s r 0x4301 [1, 1, 1, 1, 1] [a, c, w, f, sp] →
      let bad := 15 < a ∨ (s.part a).state ≠ .free ∨ f % 2 = 1 ∧ sp % 4 ≠ 0
      (bad → exec (.partCreate r) s = s.refuses r .denied)
      ∧ (¬bad → exec (.partCreate r) s = ((s.setPart a { Part.init with
          state := .built, contexts := min (max c 1) 8, wholeDevice := decide (w % 2 = 1), confidential := decide (f % 2 = 1)
          spill := sp % 4, generation := (s.part a).generation, hostEpoch := (s.part a).hostEpoch }).clearCounters a).grants r
            (c < 1 || 8 < c || 1 < w || 1 < f || 3 < sp) []))
    ∧ (∀ p k,
      (Asked s r 0x4302 [1, 1] [p, k] →
        ((s.part p).confidential = true → (s.slice k).ports ≠ 0 → exec (.partAddSlice r) s = s.refuses r .denied)
        ∧ (((s.part p).confidential = false ∨ (s.slice k).ports = 0) → k ≤ 63 → (s.part p).state = .built →
          (s.slice k).part = none ∨ (s.slice k).part = some p → exec (.partAddSlice r) s
            = (s.updSlice k (fun sl => { sl with part := some p })).grants r false []))
      ∧ (Asked s r 0x4303 [1, 1] [p, k] → k ≤ 63 → (s.part p).state = .built → (s.slice k).part = some p →
        exec (.partRemoveSlice r) s = (s.updSlice k (fun sl => { sl with part := none })).grants r false []))
    ∧ (∀ p, Asked s r 0x4304 [1] [p] →
      (s.part p).state = .built → s.quadsOf p ≠ 0 → s.chansOf p ≠ 0 → (s.part p).confidential = false ∨ s.ideSecure = true →
      let formed := s.formSets (.part p) (s.part p).wholeDevice
        ((bitsOf 256 (s.chansOf p).toNat).filter (fun c => (s.chan c).state = .unbound))
      ((formed.sets.any (fun _ e => e.owner = .part p)) = false → exec (.partActivate r) s = s.refuses r .denied)
      ∧ ((formed.sets.any (fun _ e => e.owner = .part p)) = true →
        let u := ((formed.sets.vals.filter (fun e => e.owner = .part p)).foldl (fun s e => s.scrub e.covers) formed).nextGeneration p
        exec (.partActivate r) s = (((u.setPart p { u.part p with
          state := .active, locked := true, switchOuts := 0, restores := 0 }).reserveSave p).clearCounters p).grants r false []))
    ∧ (∀ a, Asked s r 0x4305 [1] [a] → (s.part a).state = .active →
      exec (.partQuiesce r) s = (s.quiesce a).grants r false [])
    ∧ (∀ p, Asked s r 0x4306 [1] [p] →
      (s.part p).state = .quiesced → (s.part p).confidential = false ∨ s.ideSecure = true →
      let u := s.setPart p { s.part p with state := .active }
      exec (.partResume r) s = ((u.queuesOf p).foldl (fun s q => if s.mayRequest p (q.1 / 8 % 8) then
        (s.setQueue q.1 { q.2 with state := .idle, enable := true }).settleQueue q.1 else s) u).grants r false [])
    ∧ (∀ p, Asked s r 0x4307 [1] [p] →
      (s.part p).state = .built ∨ (s.part p).state = .quiesced → (∀ q ∈ s.queuesOf p, q.2.state = .disabled) →
      (∀ u, s.recall (s.inPart p) = (false, u) → exec (.partDestroy r) s = .next u)
      ∧ ∀ u, s.recall (s.inPart p) = (true, u) → (u.servesLines (u.inPart p) = true → exec (.partDestroy r) s = .next u)
        ∧ (u.servesLines (u.inPart p) = false → exec (.partDestroy r) s
          = (((u.failWaits (u.inPart p)).destroyPart p).advanceMigs).grants r false []))
    ∧ (∀ p k add wd, Asked s r 0x4309 [1, 1, 8, 8] [p, k, add, wd] →
      let new := BitVec.ofNat 40 add &&& s.quadsLeft &&& ~~~(s.otherSlices k Slice.quads)
      let gone := BitVec.ofNat 40 wd &&& s.quadsOf p
      k ≤ 63 → (s.part p).state = .active ∨ (s.part p).state = .quiescing ∨ (s.part p).state = .quiesced →
      (s.slice k).part = some p → (s.part p).rebind = none →
      (s.anyOpen ((s.quadsOf p ||| new) &&& ~~~gone) = false → exec (.partRebindQuads r) s = s.refuses r .denied)
      ∧ (s.anyOpen ((s.quadsOf p ||| new) &&& ~~~gone) = true →
        let u := s.setPart p { s.part p with rebind := some ⟨k, new, gone, false⟩, rebound := false }
        exec (.partRebindQuads r) s = (if u.stepping p then u else u.boundary p).grants r
          (new.toNat ≠ add || gone.toNat ≠ wd) []))
    ∧ (∀ p k add rem, Asked s r 0x430A [1, 1, 32, 32] [p, k, add, rem] →
      let new := BitVec.ofNat 256 add &&& s.unboundChans &&& ~~~(s.otherSlices 64 Slice.chans)
      let gone := BitVec.ofNat 256 rem &&& s.chansOf p
      k ≤ 63 → (s.part p).state = .active → (s.slice k).part = some p →
      let u := (s.updSlice k (fun sl => { sl with chans := sl.chans ||| new })).formSets (.part p) (s.part p).wholeDevice
        (bitsOf 256 new.toNat)
      let v := { u with mm := { u.mm with unbind := u.mm.unbind ++ (bitsOf 256 gone.toNat).filter (fun c =>
        (u.chan c).state = .inService && !u.mm.unbind.contains c) } }
      exec (.partRebindChannels r) s
        = ((((bitsOf 256 gone.toNat).filter (fun c => (v.chan c).state = .unbound)).foldl State.dropChan v).advanceMigs).grants r
          (new.toNat ≠ add || gone.toNat ≠ rem) [])
    ∧ (∀ a page, AskedBy s r 0x030B [1, 1] [a, page] → r.fn = 0 ∨ (s.permits r.fn true = true ∧ partArg a = s.vfPart r.fn) →
      exec (.partStatus r) s = s.grantsPage r (s.partImage (partArg a)) page (15 < a))
    ∧ (∀ v, Asked s r 0x430C [2] [v] → exec (.devSetMigRate r) s
      = { s with mm := { s.mm with migRate := min (max v 10) 400 } }.grants r (v < 10 || 400 < v) [])
    ∧ (∀ p, Asked s r 0x4D01 [1] [p] →
      p ≤ 15 → (s.part p).state = .active ∨ (s.part p).state = .quiescing ∨ (s.part p).state = .quiesced →
      let l := s.leaveMask p
      let k := (((l.queuesOf p).foldl (fun s q => s.drainQueue q.1) l).killPart p).endRebind p
      (k.part p).confidential = false → k.evicting p = false →
      exec (.secPartEvict r) s = (k.setPart p { k.part p with state := .quiesced }).grants r false [])
    ∧ (∀ p c w f sp ks, Asked s r 0x4308 ([1, 1, 1, 1, 1, 2] ++ List.replicate ks.length 1) ([p, c, w, f, sp, ks.length] ++ ks) →
      let whole := decide (w % 2 = 1)
      let conf := decide (f % 2 = 1)
      let cs := min (max c 1) 8
      let chans := ks.foldl (fun m k => m ||| (s.slice k).chans) 0
      let quads := ks.foldl (fun m k => m ||| (s.slice k).quads) 0
      let bad := f % 2 = 1 ∧ (sp % 4 ≠ 0 ∨ ∃ k ∈ ks, (s.slice k).ports ≠ 0)
      (bad → exec (.partReconfigure r) s = s.refuses r .denied)
      ∧ (¬bad → (∀ k ∈ ks, k ≤ 63) → (s.part p).state = .quiesced →
        (∀ k ∈ ks, (s.slice k).part = none ∨ (s.slice k).part = some p) →
        (s.holds p whole chans quads cs = false → exec (.partReconfigure r) s = s.refuses r .denied)
        ∧ (s.holds p whole chans quads cs = true →
          (∀ u, s.recall (s.inPart p) = (false, u) → exec (.partReconfigure r) s = .next u)
          ∧ ∀ u, s.recall (s.inPart p) = (true, u) →
            exec (.partReconfigure r) s = (u.takeAttributes p cs whole conf (sp % 4) ks).grants r
              (c < 1 || 8 < c || 1 < w || 1 < f || 3 < sp) [])))

/-- R262 to R264, R306, R324, R327, R342, R363, R364, R402, R407, R432, R434, R443, R527, Tables 8-6, 9-5a, 10-11, 12-8, 13-2, 16-9 to
16-14: queues, the scheduler, the caches, channels and stacks, and the hinge by mailbox commands. -/
def Obligations.QueuesAndUnitsAreCommanded : Prop :=
  ∀ (s : State) (r : Req),
    (∀ ctx queue depth both sq cq q, AskedBy s r 0x4400 [1, 1, 4, 1, 8, 8] [ctx, queue, depth, both, sq, cq] →
      (r.fn = 0 ∧ s.partExists (ctx / 8) = true ∧ ctx < 128 ∧ ctx % 8 < (s.part (ctx / 8)).contexts ∧ q = 8 * ctx + queue)
        ∨ (r.fn ≠ 0 ∧ ∃ p c, (s.fnRec r.fn).ctx = some (p, c) ∧ q = 8 * (8 * p + c) + queue) →
      (7 < queue → exec (.qCreate r) s = s.refuses r .badLength)
      ∧ (queue ≤ 7 → (s.queue? q).isSome = true → exec (.qCreate r) s = s.refuses r .notInMode)
      ∧ (queue ≤ 7 → s.queue? q = none →
        let d := 2 ^ min (max (Nat.log2 depth) 4) 16
        let a := sq / 4096 * 4096
        let b := cq / 4096 * 4096
        let fe := s.homeFe ((q - queue) / 8 / 8)
        exec (.qCreate r) s
          = (s.setQueue q ⟨d, decide (both = 1), fe, a, b, false, .disabled, false, 0, 0, 0, 0, true, [], 0⟩).grants r
            (d ≠ depth || 1 < both || a ≠ sq || b ≠ cq) []))
    ∧ (∀ n k v, s.permits r.fn true = true → s.namedQueue r.fn n = some (k, v) →
      (AskedBy s r 0x4401 [2] [n] →
        (v.state ≠ .disabled → exec (.qDestroy r) s = s.refuses r .notInMode)
        ∧ (v.state = .disabled → exec (.qDestroy r) s = { s with queues := s.queues.erase k }.grants r false []))
      ∧ (∀ at_, AskedBy s r 0x0402 [2, 1] [n, at_] →
        (v.heldRecords = [] → exec (.qShadowRead r) s = s.refuses r .notInMode)
        ∧ (v.heldRecords ≠ [] →
          let j := min at_ (v.heldRecords.length - 1)
          exec (.qShadowRead r) s = s.grants r (j ≠ at_) (v.stamp (v.heldRecords.getD j []))))
      ∧ ∀ act rejected sigRejected, AskedBy s r 0x4403 [2, 1] [n, act] →
        (v.state ≠ .stalled → exec (.qStallAck r rejected sigRejected) s = s.refuses r .notInMode)
        ∧ (v.state = .stalled → exec (.qStallAck r rejected sigRejected) s
          = (((s.setQueue k { v with sigDrops := 0 }).deliverHeld k (act = 1) rejected sigRejected v.shadow.zipIdx).endStall k).grants r
            (1 < act) []))
    ∧ (∀ k q w0 w1 w2 w3 w4 w5 w6 w7 full,
      Asked s r 0x4500 [1, 4, 1, 1, 1, 1, 1, 1, 1, 1, 1] [k, q, w0, w1, w2, w3, w4, w5, w6, w7, full] →
      let ws := [w0, w1, w2, w3, w4, w5, w6, w7]
      let u := s.setPart k { s.part k with quantum := min (max q 100) 100000, weights := ws.map (min 15), preemptFull := decide (1 ≤ full) }
      (s.part k).state = .active ∨ (s.part k).state = .quiesced →
      exec (.schedSet r) s = (if (s.part k).owner.isNone then u.settleOwner k else u).grants r
        ((q < 100 || 100000 < q) || ws.any (fun w => 15 < w) || 1 < full) [])
    ∧ (∀ a page, AskedBy s r 0x0501 [1, 1] [a, page] → r.fn = 0 ∨ (s.permits r.fn true = true ∧ a = s.vfPart r.fn) →
      let k := partArg a
      let p := s.part k
      let mine := s.blocks.vals.filter (fun b => (s.tasks.get? b.task).any (fun t => t.part = k))
      let outs := mine.filter (fun b => b.phase = .out)
      let evicted := mine.map (fun b => (b.groups.filter (fun g => g.foot.st = .evicted)).length * s.unitsDecl b.task)
      exec (.schedStatus r) s = s.grantsPage r (encodeFields ([(1, p.owner.getD 255), (1, p.quantaLeft)]
        ++ (List.range 8).map (fun c => (2, (outs.filter (fun b => (s.tasks.get? b.task).any (fun t => t.ctx = c))).length))
        ++ [(8, sumOf s.liveBytes outs + 1024 * sumOf id evicted), (4, p.switchOuts), (4, p.restores)])) page (15 < a))
    ∧ (∀ p n base len, s.partExists p = false →
      (Asked s r 0x4600 [1, 1] [p, n] → exec (.llcSetKeepQuota r) s = s.refuses r .denied)
      ∧ (Asked s r 0x4700 [1, 1] [p, n] → exec (.memSetSpentPolicy r) s = s.refuses r .denied)
      ∧ (Asked s r 0x8601 [1, 8, 8] [p, base, len] → exec (.llcKeepRelease r) s = s.refuses r .denied)
      ∧ (Asked s r 0x8602 [1, 8, 8] [p, base, len] → exec (.llcFlush r) s = s.refuses r .denied))
    ∧ (∀ p, s.partExists p = true →
      (∀ n, Asked s r 0x4600 [1, 1] [p, n] →
        exec (.llcSetKeepQuota r) s = (s.setPart p { s.part p with keepQuota := min n 12 }).grants r (12 < n) [])
      ∧ (∀ n, Asked s r 0x4700 [1, 1] [p, n] →
        exec (.memSetSpentPolicy r) s = (s.setPart p { s.part p with spentFlag := decide (n = 1) }).grants r (1 < n) [])
      ∧ (∀ base len, Asked s r 0x8601 [1, 8, 8] [p, base, len] →
        let w := llcRange base len
        exec (.llcKeepRelease r) s = { s with llc := s.llc.mapVal (fun _ (e : LlcLine) =>
          if e.keep = some p && (decide (len = 0) || inLines (s.rangeLines p w.1 w.2.1) e.host e.line) then { e with keep := none }
          else e) }.grants r (w.2.2) [])
      ∧ (∀ base len, Asked s r 0x8602 [1, 8, 8] [p, base, len] →
        let w := llcRange base len
        (∀ u, s.flush (inLines (s.rangeLines p w.1 w.2.1)) = (false, u) → exec (.llcFlush r) s = .next u)
        ∧ ∀ u, s.flush (inLines (s.rangeLines p w.1 w.2.1)) = (true, u) →
          exec (.llcFlush r) s = u.grants r (w.2.2) []))
    ∧ (∀ a va, AskedBy s r 0x0701 [1, 8] [a, va] → s.permits r.fn true = true →
      let p := if r.fn = 0 then partArg a else s.vfPart r.fn
      let v := min va (windowEnd - 1)
      let clamped := (decide (r.fn = 0) && 15 < a) || v ≠ va
      ((s.part p).confidential = true → r.fn = 0 → exec (.memTileState r) s = s.takeFree.2.grants r clamped (bytesOf 8 0))
      ∧ (∀ n w t, (s.part p).confidential = false ∨ r.fn ≠ 0 → s.locate p v = some (.dev n, w) → s.lineTile (s.forward n) = some t →
        exec (.memTileState r) s = s.takeFree.2.grants r clamped (bytesOf 8 ((s.tssAt t).word s.takeFree.1)))
      ∧ ((∀ n w, s.locate p v = some (.dev n, w) → s.lineTile (s.forward n) = none) → exec (.memTileState r) s = s.takeFree.2.grants r clamped (bytesOf 8 0)))
    ∧ (∀ k, let c := s.chan k
      (∀ page, Asked s r 0x0702 [1, 1] [k, page] →
        let set := ((s.sets.find (fun _ e => e.chans.contains k)).map (·.1)).getD 0xFF
        exec (.memChannelStatus r) s = s.grantsPage r (
          [c.state.code, s.temps.stackLevel.get 0 (k / 16), signedByte (s.temps.stack.get 0 (k / 16)), c.owner.code, set].map
            (BitVec.ofNat 8) ++ List.replicate 3 0
          ++ bytesOf 4 c.ceTotal ++ bytesOf 4 c.ceHour ++ bytesOf 4 c.ueTotal ++ bytesOf 4 c.odecc
          ++ [BitVec.ofNat 8 (min c.ueRows.length 255), BitVec.ofNat 8 c.softPpr] ++ List.replicate 6 0
          ++ [BitVec.ofNat 8 c.trigger] ++ List.replicate 7 0) page false)
      ∧ (Asked s r 0x4703 [1] [k] →
        (c.state ≠ .inService → exec (.memChannelMapOut r) s = s.refuses r .notInMode)
        ∧ (c.state = .inService → exec (.memChannelMapOut r) s = (s.loseChan k 5).grants r false []))
      ∧ (Asked s r 0x4704 [1] [k] →
        (c.state ≠ .mappedOut ∨ c.passed = false → exec (.memChannelAdmit r) s = s.refuses r .notInMode)
        ∧ (c.state = .mappedOut → c.passed = true →
          let u := s.reserveBack (halfOfChan k)
          exec (.memChannelAdmit r) s
            = { u with chans := u.chans.put Chan.init k { c with state := .unbound, owner := .free } }.grants r false []))
      ∧ (∀ pc bank row pattern,
        let no := s.refuses r .badLength
        let there := fun (o : Out) => if Config.rowExists bank row then o else no
        let u := s.closeSession (k / 16)
        let at_ : SoftRepair := ⟨k / 16, k % 16, row + 2 ^ 16 * (bank + 256 * pc)⟩
        let opened := s.mm.session.get false (k / 16) = true
        let opens := there (.next (s.openSession (k / 16)))
        let refused := there (s.refuses r .notInMode)
        (Asked s r 0x4800 [1, 1, 1, 2] [k, pc, bank, row] → (1 < pc → exec (.hbmPprSoft r) s = no)
          ∧ (pc ≤ 1 → s.repairOk k = false → exec (.hbmPprSoft r) s = refused)
          ∧ (pc ≤ 1 → s.repairOk k = true → ¬opened → exec (.hbmPprSoft r) s = opens)
          ∧ (pc ≤ 1 → s.repairOk k = true → opened → exec (.hbmPprSoft r) s = there ({ u with
            chans := u.chans.upd Chan.init k (fun c => { c with softPpr := min (c.softPpr + 1) 255 })
            flash := { u.flash with repairs := u.flash.repairs ++ [at_] } }.grants r false [])))
        ∧ (Asked s r 0x4801 [1, 1, 1, 2] [k, pc, bank, row] → (1 < pc → exec (.hbmPprHard r) s = no)
          ∧ (pc ≤ 1 → s.repairOk k = false → exec (.hbmPprHard r) s = refused)
          ∧ (pc ≤ 1 → s.repairOk k = true → ¬opened → exec (.hbmPprHard r) s = opens)
          ∧ (pc ≤ 1 → s.repairOk k = true → opened → exec (.hbmPprHard r) s = there ({ u.takeFree.2 with
            mm := { u.takeFree.2.mm with hardPpr := u.takeFree.2.mm.hardPpr ++ [at_] } }.grants r false
              (bytesOf 1 (u.takeFree.1.toNat % 256)))))
        ∧ (Asked s r 0x4804 [1, 1, 1, 2, 8] [k, pc, bank, row, pattern] → (1 < pc → exec (.hbmRowTest r) s = no)
          ∧ (pc ≤ 1 → s.repairOk k = false → exec (.hbmRowTest r) s = refused)
          ∧ (pc ≤ 1 → s.repairOk k = true → ¬opened → exec (.hbmRowTest r) s = opens)
          ∧ (pc ≤ 1 → s.repairOk k = true → opened → exec (.hbmRowTest r) s
            = there (u.takeFree.2.grants r false (bytesOf 2 (u.takeFree.1.toNat % 8193)))))))
    ∧ (∀ m, Asked s r 0x4706 [1] [m] → exec (.memSetMode r) s
      = { s with flash := { s.flash with memMode := if m = 1 then 1 else 0 } }.grants r (1 < m) [])
    ∧ (∀ k, (∀ page, Asked s r 0x0802 [1, 1] [k, page] →
        let j := min k 15
        (s.power.state = .retain → exec (.hbmLaneMapRead r) s = s.refuses r .notInMode)
        ∧ (s.power.state ≠ .retain → s.mm.session.get false j = false → exec (.hbmLaneMapRead r) s = .next (s.openSession j))
        ∧ (s.power.state ≠ .retain → s.mm.session.get false j = true → exec (.hbmLaneMapRead r) s
          = (s.closeSession j).grantsPage r (bytesOf 8 (s.mm.laneMap.get 0 j)) page (15 < k)))
      ∧ (∀ m, Asked s r 0x4803 [1, 8] [k, m] →
        let fits := fun (o : Out) => if Config.laneMapFits m then o else s.refuses r .badLength
        (15 < k → exec (.hbmLaneMapWrite r) s = s.refuses r .badLength)
        ∧ (k ≤ 15 → (∀ j, j < 16 → s.repairOk (16 * k + j) = false) → exec (.hbmLaneMapWrite r) s = fits (s.refuses r .notInMode))
        ∧ (k ≤ 15 → (∃ j, j < 16 ∧ s.repairOk (16 * k + j) = true) →
          (s.mm.session.get false k = false → exec (.hbmLaneMapWrite r) s = fits (.next (s.openSession k)))
          ∧ (s.mm.session.get false k = true →
            let u := s.closeSession k
            exec (.hbmLaneMapWrite r) s = fits ({ u with mm := { u.mm with laneMap := u.mm.laneMap.put 0 k m } }.grants r false [])))))
    ∧ (∀ k, (∀ page, Asked s r 0x0900 [1, 1] [k, page] →
        exec (.hingeStatus r) s = s.grantsPage r (s.hingeImage (min k 3)) page (3 < k))
      ∧ (Asked s r 0x4901 [1] [k] → (3 < k → exec (.hingeRetrain r) s = s.refuses r .badLength)
        ∧ (k ≤ 3 → let l := s.leaf k
          exec (.hingeRetrain r) s = (s.setLeaf k (if l.state = .failed then
            { l.scratch.reset false with state := .train, fails := 0, forced := false, fresh := true }
          else { l.reset false with fails := 0 })).grants r false [])))

/-! ## Pools and twins -/

/-- R384 to R388, R390, R392, R517, Tables 11-6 to 11-8 and 11-13: state pools by mailbox commands. -/
def Obligations.PoolsAreCommanded : Prop :=
  ∀ (s : State) (r : Req),
    (∀ pool part twin chans base length mirror coded ledger,
      Asked s r 0x4A00 [1, 1, 1, 32, 8, 8, 1, 1, 2] [pool, part, twin, chans, base, length, mirror, coded, ledger] →
      let n := min pool 63
      let p := partArg part
      let bad := (s.pools.get? n).isSome = true ∨ s.ledgerOk (n + 64 * (if twin = 1 then s.twinNum else s.lbx.d)) ledger (twin = 1) (mirror = 1) = false
        ∨ ((s.part p).confidential = true ∧ (twin = 1 ∨ mirror = 1))
      let pairless := (twin = 1 ∨ mirror = 1) ∧ (s.paired && s.pair.pairs.any (fun x => x.1 = p)) = false
      (bad → exec (.poolCreate r) s = s.refuses r .denied)
      ∧ (¬bad → (s.part p).state = .free ∨ pairless → exec (.poolCreate r) s = s.refuses r .notInMode)
      ∧ (¬bad → (s.part p).state ≠ .free → ¬pairless →
        let asked := bitsOf 256 chans
        let fits := if twin = 1 then asked else asked.filter (fun c => (s.poolable p).contains c)
        let five := if coded = 1 then fits.take (fits.length / 5 * 5) else fits
        let groups := if coded = 1 ∧ twin ≠ 1 then codedGroups five else []
        let ok := if coded = 1 ∧ twin ≠ 1 then sortOn id groups.flatten else five
        let b := min (base / 65536 * 65536) windowEnd
        let l := min (length / 65536 * 65536) (windowEnd - b)
        let u := if twin = 1 then s else s.formPool p ok groups (coded = 1)
        let q : Pool :=
          ⟨p, decide (twin = 1), BitVec.ofNat 256 (numOfBits ok), b, l, decide (mirror = 1), decide (coded = 1), ledger, false, groups⟩
        let v := { u with pools := u.pools.set n q }
        exec (.poolCreate r) s = (if mirror = 1 then v.toPeer v.twinNum 0 .pairing [n, p, v.partnerOf p] [] else v).grants r
          (63 < pool || 15 < part || ok.length ≠ asked.length || b ≠ base || l ≠ length || 1 < twin || 1 < mirror || 1 < coded) []))
    ∧ (∀ pool p, s.pools.get? (min pool 63) = some p →
      (∀ off count host twinFree, Asked s r 0x4A01 [1, 8, 4, 8] [pool, off, count, host] →
        let w := p.range off count
        ((s.part p.part).mappedAny w.1 w.2.1 = true → exec (.poolMap r twinFree) s = s.refuses r .notInMode)
        ∧ ((s.part p.part).mappedAny w.1 w.2.1 = false →
          let m := State.mapPool p w.2.1 w.1 (host / 65536 * 65536) twinFree s
          exec (.poolMap r twinFree) s = m.2.grants r (63 < pool || w.2.2 || m.1 ≠ w.2.1 || host % 65536 ≠ 0) (bytesOf 4 m.1)))
      ∧ (∀ off count x, Asked s r 0x4A02 [1, 8, 4, 8] [pool, off, count, x] →
        let w := p.range off count
        (∀ u, s.unmapPages p.part (s.poolPages p w.1 w.2.1) = (false, u) → exec (.poolUnmap r) s = .next u)
        ∧ ∀ u, s.unmapPages p.part (s.poolPages p w.1 w.2.1) = (true, u) →
          exec (.poolUnmap r) s = u.advanceMigs.grants r (63 < pool || w.2.2) [])
      ∧ (∀ off count x, Asked s r 0x8A03 [1, 8, 4, 8] [pool, off, count, x] →
        let w := p.range off count
        let spilled := (s.poolPages p w.1 w.2.1).filter (fun g => g.2.spill)
        let u := s.recallPages p spilled
        (spilled.any (fun g => u.recalling p.part g.1) = true → exec (.poolRecall r) s = .next u)
        ∧ (spilled.any (fun g => u.recalling p.part g.1) = false →
          exec (.poolRecall r) s = u.grants r (63 < pool || w.2.2 || !spilled.isEmpty) []))
      ∧ (∀ base length, Asked s r 0x4A04 [1, 8, 8] [pool, base, length] →
        let b := min (base / 65536 * 65536) windowEnd
        let l := min (length / 65536 * 65536) (windowEnd - b)
        exec (.poolLedger r) s = { s with ledgers := s.ledgers ++ [(⟨min pool 63, p.part, b, l⟩ : Ledger)] }.grants r
          (63 < pool || b ≠ base || l ≠ length) []))
    ∧ (∀ pool x y z twinFree, s.pools.get? (min pool 63) = none →
      (Asked s r 0x4A01 [1, 8, 4, 8] [pool, x, y, z] → exec (.poolMap r twinFree) s = s.refuses r .notInMode)
      ∧ (Asked s r 0x4A02 [1, 8, 4, 8] [pool, x, y, z] → exec (.poolUnmap r) s = s.refuses r .notInMode)
      ∧ (Asked s r 0x8A03 [1, 8, 4, 8] [pool, x, y, z] → exec (.poolRecall r) s = s.refuses r .notInMode)
      ∧ (Asked s r 0x4A04 [1, 8, 8] [pool, x, y] → exec (.poolLedger r) s = s.refuses r .notInMode))
    ∧ (∀ pool page, AskedBy s r 0x0A05 [1, 1] [pool, page] →
      (r.fn = 0 → s.pools.get? (min pool 63) = none → exec (.poolStatus r) s = s.grantsPage r [0] page (63 < pool))
      ∧ ∀ p, s.pools.get? (min pool 63) = some p → r.fn = 0 ∨ (s.permits r.fn true = true ∧ p.part = s.vfPart r.fn) →
        exec (.poolStatus r) s = s.grantsPage r [if p.failed then 2 else 1] page (63 < pool))
    ∧ (∀ pool, Asked s r 0x8A06 [1] [pool] →
      let n := min pool 63
      let twin := if s.pair.state = .solo then [n + 64 * s.twinNum] else []
      (s.pools.get? n = none →
        exec (.ledgerScan r) s = (s.scanLedgers (fun x => (twin ++ [n + 64 * s.lbx.d]).contains x)).grants r (63 < pool) [])
      ∧ ∀ p, s.pools.get? n = some p → exec (.ledgerScan r) s
        = (s.scanLedgers (fun x => (twin ++ (if p.failed then [s.poolId n p] else [])).contains x)).grants r (63 < pool) [])

/-- R394 to R398, R506, R507, R517, R624, Tables 11-9 to 11-12: twins pair, detach and attach by mailbox commands, a twin that TWIN_ALIVE says
is gone is failed over at once, a severed trunk waits for the host, and a lost peer loses its roles. -/
def Obligations.TwinsPairAndPart : Prop :=
  ∀ (s : State),
    (∀ r l, let ps := pairsNamed l
      Asked s r 0x4A07 ([2] ++ List.replicate (2 * l.length) 1) (pairFields l) →
      ((∃ x ∈ ps, (s.part x.1).confidential = true) → exec (.twinPair r) s = s.refuses r .denied)
      ∧ ((∀ x ∈ ps, (s.part x.1).confidential = false) →
        (s.trunkUp = false ∨ s.pins.twinIn = false ∨ s.pair.state ≠ .unpaired → exec (.twinPair r) s = s.refuses r .notInMode)
        ∧ (s.trunkUp = true → s.pins.twinIn = true → s.pair.state = .unpaired →
          let u := ((s.withPairs ps).twinBack).toPeer s.twinNum 0 .pairing (ps.map (fun x => x.1 + 16 * x.2)) []
          exec (.twinPair r) s = { u with pair := { u.pair with state := .paired } }.grants r (pairsClamped l) [])))
    ∧ (∀ r l lacks, let ps := l.map partArg
      Asked s r 0x4A08 ([2] ++ List.replicate l.length 1) (l.length :: l) →
      (lacks = true → exec (.twinDetach r lacks) s = s.refuses r .denied)
      ∧ (lacks = false →
        (s.pair.state ≠ .paired → exec (.twinDetach r lacks) s = s.refuses r .notInMode)
        ∧ (s.pair.state = .paired → (s.pair.naming ≠ [] ∨ ∀ p ∈ ps, s.pair.pairs.any (fun x => x.1 = p) = true) →
          let u := if s.pair.naming = [] then { s with pair := { s.pair with naming := ps } }.beginDetach else s
          (u.detachDone = false → exec (.twinDetach r lacks) s = later u)
          ∧ (u.detachDone = true →
            let v := u.setNamed .quiesced .detached
            exec (.twinDetach r lacks) s
              = { v with pair := { v.pair with state := .detached, naming := [] } }.grants r (l.any (fun p => 15 < p)) []))))
    ∧ (∀ r l ret, let ps := pairsNamed l
      let clamped := pairsClamped l || decide (1 < ret)
      Asked s r 0x4A09 ([2] ++ List.replicate (2 * l.length) 1 ++ [1]) (pairFields l ++ [ret]) →
      (s.pair.naming = [] →
        (s.pair.state ≠ .solo → s.pair.state ≠ .detached → exec (.twinAttach r) s = s.refuses r .notInMode)
        ∧ (s.pair.state = .solo ∨ s.pair.state = .detached → s.trunkUp = false → exec (.twinAttach r) s = later s)
        ∧ (s.pair.state = .solo ∨ s.pair.state = .detached → s.trunkUp = true →
          let u := (s.withPairs ps).twinBack
          let v := { u with
            pair := { u.pair with state := .attaching, naming := ps.map (·.1), ret := decide (ret = 1) }
            mm := { u.mm with migs := u.mm.migs ++ (ps.map (·.1)).map (fun p => .attach p 0) } }
          (l ≠ [] → exec (.twinAttach r) s = later v)
          ∧ (l = [] → exec (.twinAttach r) s = { v with pair := { v.pair with state := .paired, ret := false } }.grants r clamped [])))
      ∧ (s.pair.naming ≠ [] →
        (s.pair.state = .attaching ∨ (s.pair.ret = true ∧ s.detachDone = false) → exec (.twinAttach r) s = later s)
        ∧ (s.pair.state ≠ .attaching → s.pair.ret = false ∨ s.detachDone = true →
          let u := if s.pair.ret then s.takeBack else s
          exec (.twinAttach r) s = { u with pair := { u.pair with naming := [], ret := false } }.grants r clamped [])))
    ∧ (∀ p n rest, s.mm.migs = .attach p n :: rest →
      let chunks := s.mirrorChunks p
      let now := if n < chunks.length then s.chunkTiles p (chunks.getD n 0) else []
      let back := decide ((s.part p).state = .detached)
      let waits := (n ≠ 0 ∧ ∃ t ∈ s.chunkTiles p (chunks.getD (n - 1) 0), (s.tssAt t.key).state = .stale)
        ∨ ∃ t ∈ now, (s.tssAt t.key).state = .opened ∨ ∃ l ∈ t.lines, s.lineBusy 0 l = true
      (back = true → waits → exec .attachChunk s = .next s)
      ∧ (back = false ∨ ¬waits →
        let u := if back then now.foldl (fun s t => (s.dropTile t).tileStale t) s else s
        (n < chunks.length → exec .attachChunk s = .next { u with mm := { u.mm with migs := .attach p (n + 1) :: rest } })
        ∧ (chunks.length ≤ n →
          let v := { u with mm := { u.mm with migs := rest } }
          (rest.any Migration.isAttach = true → exec .attachChunk s = .next v)
          ∧ (rest.any Migration.isAttach = false →
            let w := { v with pair := { v.pair with state := .paired } }
            exec .attachChunk s = .next (if w.pair.ret && !back then w.beginDetach else w)))))
    ∧ (∀ r page, AskedBy s r 0x0A0B [1] [page] →
      r.fn = 0 ∨ (s.permits r.fn true = true ∧ s.pair.pairs.any (fun x => x.1 = s.vfPart r.fn) = true) →
      exec (.twinStatus r) s = s.grantsPage r s.twinImage page false)
    ∧ (∀ r reserved, Asked s r 0x0A0A [] [] →
      (s.pair.state ≠ .severed → exec (.twinForceSolo r reserved) s = s.refuses r .notInMode)
      ∧ (s.pair.state = .severed → exec (.twinForceSolo r reserved) s = (s.failover reserved).grants r false []))
    ∧ exec .twinAliveInLow s = .next { s with
      pins := { s.pins with twinIn := false }
      pair := { s.pair with lowCount := s.lbx.twin && (decide (s.pair.state = .paired) || decide (s.pair.state = .severed)) } }
    ∧ exec .twinAliveInHigh s = .next { s with pins := { s.pins with twinIn := true }, pair := { s.pair with lowCount := false } }
    ∧ (∀ reserved,
      (s.pair.lowCount = true → s.pair.state = .paired ∨ s.pair.state = .severed → s.alive = true →
        exec (.twinAliveTimeout reserved) s = .next (s.failover reserved))
      ∧ (s.pair.lowCount = false → exec (.twinAliveTimeout reserved) s = .next s))
    ∧ (s.pair.state = .paired → s.trunkUp = false →
      (s.pins.twinIn = true → exec .trunkSevered s = .next ({ s with pair := { s.pair with state := .severed } }.event 0x506 0))
      ∧ (s.pins.twinIn = false → exec .trunkSevered s = .next s))
    ∧ ∀ d : Fin 8, d.val ≠ s.lbx.d → d.val ∉ s.lbx.lost → (s.lbx.twin = true → d.val ≠ s.twinNum) →
      (s.unreachable d = true → exec (.peerLost d) s = .next ((s.loseDevice d).event 0x505 d))
      ∧ (s.unreachable d = false → exec (.peerLost d) s = .next s)

/-! ## Functions and links by mailbox commands -/

/-- R461 to R463, R466 to R468, R470, R472, R473, R552, R556, Tables 14-1 to 14-3 and 14-9: bindings, tumbler grants, window frames and dirty
logs by mailbox commands. -/
def Obligations.FunctionsAreCommanded : Prop :=
  ∀ (s : State) (r : Req),
    (∀ f p c, Asked s r 0x4B00 [1, 1, 1] [f, p, c] →
      let bad := (s.part p).state = .free ∨ (s.part p).contexts ≤ c ∨ s.fns.any (fun g v => v.ctx = some (p, c) && g ≠ f) = true
      (bad → exec (.vfBind r) s = s.refuses r .denied)
      ∧ (¬bad → isVf f = false → exec (.vfBind r) s = s.refuses r .badLength)
      ∧ (¬bad → isVf f = true → (s.fnRec f).ctx.isSome = true ∨ s.host.vfEnable = false → exec (.vfBind r) s = s.refuses r .notInMode)
      ∧ (¬bad → isVf f = true → (s.fnRec f).ctx = none → s.host.vfEnable = true →
        exec (.vfBind r) s = (s.setFn f { s.fnRec f with ctx := some (p, c) }).grants r false []))
    ∧ (∀ f, Asked s r 0x4B01 [1] [f] →
      (isVf f = false → exec (.vfUnbind r) s = s.refuses r .badLength)
      ∧ (isVf f = true → (s.fnRec f).ctx = none → exec (.vfUnbind r) s = s.refuses r .notInMode)
      ∧ ∀ p c, isVf f = true → (s.fnRec f).ctx = some (p, c) →
        let used := (∃ q ∈ s.ctxQueues p c, q.2.state ≠ .disabled) ∨ (s.fnRec f).flr = true ∨ (s.fnRec 0).flr = true
        (used → exec (.vfUnbind r) s = s.refuses r .notInMode)
        ∧ (¬used → (s.part p).confidential = false →
          exec (.vfUnbind r) s = (s.setFn f { s.fnRec f with ctx := none }).grants r false [])
        ∧ (¬used → (s.part p).confidential = true →
          ((s.part p).state ≠ .quiesced → exec (.vfUnbind r) s = s.refuses r .notInMode)
          ∧ ((s.part p).state = .quiesced →
            (∀ u, s.recall (s.inPart p) = (false, u) → exec (.vfUnbind r) s = .next u)
            ∧ ∀ u, s.recall (s.inPart p) = (true, u) →
              let v := (u.scrubPart p).nextGeneration p
              exec (.vfUnbind r) s = (v.setFn f { v.fnRec f with ctx := none }).grants r false [])))
    ∧ (∀ f page, AskedBy s r 0x0B02 [1, 1] [f, page] → r.fn = 0 ∨ min f 63 = r.fn.val →
      exec (.vfStatus r) s = s.grantsPage r (s.vfImage (min f 63)) page (63 < f))
    ∧ (∀ f rid, let v := s.fnRec (min f 63)
      (Asked s r 0x4B03 [1, 2] [f, rid] →
        (rid ∈ v.grants → exec (.tumblerAllow r) s = (s.setFn (min f 63) v).grants r (63 < f) [])
        ∧ (rid ∉ v.grants → v.grants.length < 16 →
          exec (.tumblerAllow r) s = (s.setFn (min f 63) { v with grants := v.grants ++ [rid] }).grants r (63 < f) [])
        ∧ (rid ∉ v.grants → 16 ≤ v.grants.length → exec (.tumblerAllow r) s = s.refuses r .denied))
      ∧ (Asked s r 0x4B04 [1, 2] [f, rid] → exec (.tumblerRevoke r) s
        = (s.setFn (min f 63) { v with grants := v.grants.filter (fun g => g ≠ rid) }).grants r (63 < f) []))
    ∧ (∀ off a va count, Asked s r 0x4B05 [8, 1, 8, 4] [off, a, va, count] →
      let p := partArg a
      let w := s.windowRange off count
      let at_ := min (va / 2097152 * 2097152) (windowEnd - 2097152)
      let n := min w.2.1 ((windowEnd - at_) / 2097152)
      let frames := (List.range n).map (fun k => s.frameAt p (at_ + k * 2097152))
      let shown := (List.range n).any (fun k => (s.host.window.get? (w.1 + k)).isSome)
      ((s.part p).confidential = true → exec (.hostWindowMap r) s = s.refuses r .denied)
      ∧ ((s.part p).confidential = false → (s.part p).state = .free ∨ none ∈ frames ∨ shown = true →
        exec (.hostWindowMap r) s = s.refuses r .notInMode)
      ∧ ((s.part p).confidential = false → (s.part p).state ≠ .free → none ∉ frames → shown = false →
        exec (.hostWindowMap r) s = { s with host := { s.host with
          window := frames.zipIdx.foldl (fun (t : Tab Nat) (d : Option Nat × Nat) => t.set (w.1 + d.2) (d.1.getD 0)) s.host.window } }.grants r
            (w.2.2 || n ≠ w.2.1 || at_ ≠ va || 15 < a) []))
    ∧ (∀ off count, Asked s r 0x4B06 [8, 4] [off, count] →
      let w := s.windowRange off count
      let mine := fun (k : Nat) => decide (w.1 ≤ k ∧ k < w.1 + w.2.1)
      let frames := (s.host.window.keep (fun k _ => mine k)).vals
      let lines := fun (line : Nat) => frames.any (fun d => d / 128 ≤ line && line < (d + 2097152) / 128)
      (∀ u, s.recallHost lines = (false, u) → exec (.hostWindowUnmap r) s = .next u)
      ∧ ∀ u, s.recallHost lines = (true, u) → exec (.hostWindowUnmap r) s
        = { u with host := { u.host with window := u.host.window.keep (fun k _ => !mine k) } }.grants r w.2.2 [])
    ∧ (∀ f iova len buf0 buf1, Asked s r 0x4B07 [1, 8, 8, 8, 8] [f, iova, len, buf0, buf1] →
      let down := fun (v : Nat) => v / 4096 * 4096
      let n := min (max len 1) (2 ^ 36)
      let l : DirtyLog := ⟨down iova, n, down buf0, down buf1, false, 0⟩
      (isVf f = false → exec (.dirtyLogStart r) s = s.refuses r .badLength)
      ∧ (isVf f = true → (s.fnRec f).log.isSome = true → exec (.dirtyLogStart r) s = s.refuses r .notInMode)
      ∧ (isVf f = true → (s.fnRec f).log = none → exec (.dirtyLogStart r) s = (s.setFn f { s.fnRec f with log := some l }).grants r
        ((len < 1 || 2 ^ 36 < len) || down iova ≠ iova || down buf0 ≠ buf0 || down buf1 ≠ buf1) []))
    ∧ ∀ f code c next, (code, c, next) ∈ [(0x4B08, Instr.dirtyLogSwap r, fun (l : DirtyLog) => some { l with second := !l.second }),
        (0x4B09, Instr.dirtyLogStop r, fun _ => none)] → Asked s r code [1] [f] →
      (isVf f = false → exec c s = s.refuses r .badLength)
      ∧ (isVf f = true → (s.fnRec f).log = none → exec c s = s.refuses r .notInMode)
      ∧ ∀ l, isVf f = true → (s.fnRec f).log = some l → exec c s = (s.setFn f { s.fnRec f with log := next l }).grants r false []

/-- R495, R496, R501, R502, R555, Tables 15-5, 15-7 and 15-8: the peer links by mailbox commands. An export ends when the last request
admitted under it has ended. -/
def Obligations.LinksAreCommanded : Prop :=
  ∀ (s : State) (r : Req),
    (∀ num mode, Asked s r 0x4C00 [1, 1] [num, mode] →
      (7 < num ∨ 1 < mode → exec (.lbxSetId r) s = s.refuses r .badLength)
      ∧ (num ≤ 7 → mode ≤ 1 →
        exec (.lbxSetId r) s = { s with flash := { s.flash with devNum := num, linkMode := mode } }.grants r false []))
    ∧ (∀ port page, AskedBy s r 0x0C01 [1, 1] [port, page] → s.permits r.fn true = true →
      let p := s.port (min port 11)
      let lanes := if p.state = .active then 8 else if p.state = .half then 4 else 0
      exec (.lbxStatus r) s = s.grantsPage r (encodeFields [(1, p.state.code), (1, lanes), (1, (p.peer.map (·.1)).getD 0),
        (1, (p.peer.map (·.2)).getD 0), (1, p.reason), (4, p.replays), (4, p.corrected), (4, p.rspErrs)]) page (11 < port))
    ∧ (∀ port, Asked s r 0x4C02 [1] [port] →
      (11 < port → exec (.lbxRetrain r) s = s.refuses r .badLength)
      ∧ (port ≤ 11 → s.pins.twinOut = true → exec (.lbxRetrain r) s = (s.setPort port (s.port port).train).grants r false [])
      ∧ (port ≤ 11 → s.pins.twinOut = false → exec (.lbxRetrain r) s = s.grants r false []))
    ∧ (∀ id a va len write peers, Asked s r 0x4C03 [1, 1, 8, 8, 1, 1] [id, a, va, len, write, peers] →
      let v := min (va / 65536) (windowUnits - 1) * 65536
      let n := min (roundUp len 65536) (2 ^ 47 - v)
      let ps := BitVec.ofNat 8 peers &&& ~~~(BitVec.ofNat 8 (1 <<< s.lbx.d))
      let e : Export := ⟨partArg a, v, n, decide (write = 1), ps, none⟩
      ((s.lbx.exports.get? id).isSome = true ∨ (s.part (partArg a)).confidential = true → exec (.lbxExport r) s = s.refuses r .denied)
      ∧ (s.lbx.exports.get? id = none → (s.part (partArg a)).confidential = false →
        exec (.lbxExport r) s = { s with lbx := { s.lbx with exports := s.lbx.exports.set id e } }.grants r
          (v ≠ va || n ≠ len || 1 < write || ps.toNat ≠ peers || 15 < a) []))
    ∧ (∀ id, Asked s r 0x4C04 [1] [id] →
      (s.lbx.exports.get? id = none → exec (.lbxUnexport r) s = s.refuses r .denied)
      ∧ ∀ e, s.lbx.exports.get? id = some e →
        let mine := e.closing = none ∨ e.closing = some (r.fn.val, r.slot.val)
        (¬mine → exec (.lbxUnexport r) s = s.refuses r .denied)
        ∧ (mine → exec (.lbxUnexport r) s = .next ({ s with lbx := { s.lbx with
          exports := s.lbx.exports.set id { e with closing := some (r.fn.val, r.slot.val) } } }.closeExport id)))
    ∧ ∀ a va count dest id off, Asked s r 0x4C05 [1, 8, 4, 1, 1, 8] [a, va, count, dest, id, off] →
      let p := partArg a
      let key := min (va / 65536) (windowUnits - 1)
      let n := min count (windowUnits - key)
      let o := off / 65536 * 65536
      ((s.part p).confidential = true → exec (.lbxImport r) s = s.refuses r .denied)
      ∧ ((s.part p).confidential = false → 7 < dest ∨ dest = s.lbx.d → exec (.lbxImport r) s = s.refuses r .badLength)
      ∧ ((s.part p).confidential = false → dest ≤ 7 → dest ≠ s.lbx.d → (s.part p).state = .free ∨ (s.part p).mappedAny key n = true →
        exec (.lbxImport r) s = s.refuses r .notInMode)
      ∧ ((s.part p).confidential = false → dest ≤ 7 → dest ≠ s.lbx.d → (s.part p).state ≠ .free → (s.part p).mappedAny key n = false →
        exec (.lbxImport r) s = ((List.range n).foldl (fun s k =>
          s.putPage p (key + k) ⟨false, .peer dest id (o + k * 65536), true, false⟩) s).grants r
            (key * 65536 ≠ va || n ≠ count || o ≠ off || 15 < a) [])

/-! ## Security, power and firmware by mailbox commands -/

/-- R543, R548, R558, R560, R564, R568, R569, R570, R572, Table 17-11: status, reports and page queries of partitions, and debug tokens and trace
by mailbox commands. -/
def Obligations.SecurityIsCommanded : Prop :=
  ∀ (s : State) (r : Req),
    (∀ page, AskedBy s r 0x0D00 [1] [page] → s.permits r.fn true = true →
      let row := fun (p : Nat) =>
        [(1, if (s.part p).confidential then 1 else 0), (4, (s.part p).generation), (4, (s.part p).hostEpoch)]
      let tail := [(1, s.host.ide), (1, if s.sec.session.isSome then 1 else 0), (1, if s.sec.trace.isSome then 1 else 0)]
      exec (.secStatus r) s = s.grantsPage r (encodeFields
        (((if r.fn = 0 then List.range 16 else [s.vfPart r.fn]).map row).flatten ++ tail)) page false)
    ∧ (∀ a nonce dest, AskedBy s r 0x8D02 [1, 32, 8] [a, nonce, dest] → s.permits r.fn true = true →
      let p := if r.fn = 0 then a else s.vfPart r.fn
      (r.fn = 0 → 15 < a → exec (.secPartReport r) s = s.refuses r .badLength)
      ∧ (r.fn ≠ 0 ∨ a ≤ 15 → (s.part p).state ≠ .active → (s.part p).state ≠ .quiesced →
        exec (.secPartReport r) s = s.refuses r .notInMode)
      ∧ (r.fn ≠ 0 ∨ a ≤ 15 → (s.part p).state = .active ∨ (s.part p).state = .quiesced →
        let body := s.reportBody p nonce
        let tag : List Byte := "EZ2-PART-REPORT".toUTF8.toList.map (fun c => BitVec.ofNat 8 c.toNat)
        let signed := body ++ identitySign false [] (tag ++ body) ++ identitySign true tag body ++ List.replicate 19 0
        let d := dest / 64 * 64
        exec (.secPartReport r) s = (s.ioWrite r.fn d signed).grants r (d ≠ dest) []))
    ∧ (∀ a va, AskedBy s r 0x0D03 [1, 8] [a, va] → s.permits r.fn true = true →
      exec (.secPageQuery r) s = s.grants r ((decide (r.fn = 0) && 15 < a) || 2 ^ 47 ≤ va)
        (s.pageEntry (if r.fn = 0 then min a 15 else s.vfPart r.fn) va))
    ∧ (∀ parts token time, Asked s r 0x4D04 [2, 16, 2] [parts, token, time] →
      (token = 0 → exec (.dbgAuthorize r) s = s.refuses r .badLength)
      ∧ (token ≠ 0 → s.sec.session.isSome = true → exec (.dbgAuthorize r) s = s.refuses r .notInMode)
      ∧ (token ≠ 0 → s.sec.session = none →
        let ok := (List.range 16).filter (fun p => (s.part p).state ≠ .free && !(s.part p).confidential)
        let mask := BitVec.ofNat 16 parts &&& BitVec.ofNat 16 (numOfBits ok)
        exec (.dbgAuthorize r) s = { s with sec := { s.sec with token := some (bytesOf 16 token, mask) } }.grants r
          (mask.toNat ≠ parts || (time < 1 || 3600 < time)) []))
    ∧ (Asked s r 0x4D05 [] [] → exec (.dbgRevoke r) s = s.endSession.grants r false [])
    ∧ (∀ base length, Asked s r 0x4D06 [8, 8] [base, length] →
      (s.anyConfidential = true → exec (.dbgTraceStart r) s = s.refuses r .notInMode)
      ∧ (s.anyConfidential = false →
        let b := base / 4096 * 4096
        let l := min (max (length / 64 * 64) 4096) (2 ^ 30)
        exec (.dbgTraceStart r) s = { s with sec := { s.sec with trace := some (b, l, 0) } }.grants r (b ≠ base || l ≠ length) []))
    ∧ (Asked s r 0x4D07 [] [] →
      (s.sec.trace = none → exec (.dbgTraceStop r) s = s.refuses r .notInMode)
      ∧ (s.sec.trace.isSome = true → exec (.dbgTraceStop r) s = { s with sec := { s.sec with trace := none } }.grants r false []))

/-- R527, R530, R532, R537, R587, R588, R593 to R596, R604, R612, Tables 18-1, 18-7, 18-8, 19-1 and 19-3: power settings, injected errors, the
log, firmware images and restarts by mailbox commands. -/
def Obligations.PowerAndFirmwareAreCommanded : Prop :=
  ∀ (s : State) (r : Req),
    (∀ cap volts current, Asked s r 0x4E00 [2, 2, 4] [cap, volts, current] →
      exec (.pwrSetCap r) s = { s with power := { s.power with
        nextCap := some (min (max cap 1000) 2400, min (max volts 600) 850, min (max current 100) 100000) } }.grants r
          ((cap < 1000 || 2400 < cap) || (volts < 600 || 850 < volts) || (current < 100 || 100000 < current)) [])
    ∧ (∀ page, AskedBy s r 0x0E01 [1] [page] → s.permits r.fn true = true →
      exec (.pwrStatus r) s = s.grantsPage r (s.powerImage r.fn) page false)
    ∧ (∀ v, Asked s r 0x4E02 [1] [v] →
      (s.power.state = .retain → s.power.retainReq = 2 → exec (.pwrSetState r) s = s.refuses r .notInMode)
      ∧ (s.power.state ≠ .retain ∨ s.power.retainReq ≠ 2 →
        let asked := { s with power := { s.power with retainReq := 1 } }
        (v = 1 → s.power.state ≠ .retain → exec (.pwrSetState r) s = later asked)
        ∧ (v = 1 → s.power.state = .retain → exec (.pwrSetState r) s = asked.grants r false [])
        ∧ (v ≠ 1 → s.power.state = .retain → exec (.pwrSetState r) s = s.leaveRetain.grants r (1 < v) [])
        ∧ (v ≠ 1 → s.power.state ≠ .retain →
          exec (.pwrSetState r) s = { s with power := { s.power with retainReq := 0 } }.grants r (1 < v) [])))
    ∧ (∀ g page, Asked s r 0x0E03 [1, 1] [g, page] →
      exec (.errCounts r) s = s.grantsPage r (((groupEvents (min (max g 1) 8)).map (fun c => bytesOf 4 (s.errs.get 0 c))).flatten) page
        (g < 1 || 8 < g))
    ∧ (∀ kind unit row tile, Asked s r 0x4E04 [1, 2, 4, 1] [kind, unit, row, tile] →
      let at_ := (unit * 2 ^ 20 + row) * 64 + tile
      let st := (s.chan unit).state
      let secret := kind ≤ 3 ∧ s.confidentialUnit kind unit = true
      (secret → exec (.errInject r) s = s.refuses r .denied)
      ∧ (¬secret → 5 < kind ∨ [256, 256, 640, 640, 4, 12].getD kind 0 ≤ unit ∨ (kind ≤ 1 ∧ (1048575 < row ∨ 63 < tile)) →
        exec (.errInject r) s = s.refuses r .badLength)
      ∧ (¬secret → kind ≤ 5 → unit < [256, 256, 640, 640, 4, 12].getD kind 0 → (kind ≤ 1 → row ≤ 1048575 ∧ tile ≤ 63) →
        (s.anyConfidential = true → exec (.errInject r) s = s.refuses r .notInMode)
        ∧ (s.anyConfidential = false → kind ≤ 1 → st ≠ .inService → st ≠ .failing → st ≠ .migrating →
          exec (.errInject r) s = s.refuses r .notInMode)
        ∧ (s.anyConfidential = false → kind ≤ 1 → st = .inService ∨ st = .failing ∨ st = .migrating →
          exec (.errInject r) s = { s with latent := s.latent.put 0 at_ (kind + 1) }.grants r false [])
        ∧ (s.anyConfidential = false → kind = 2 ∨ kind = 3 → exec (.errInject r) s
          = { s with mxus := s.mxus.upd Mxu.init unit (fun m => { m with inject := kind - 1 }) }.grants r false [])
        ∧ (s.anyConfidential = false → kind = 4 →
          exec (.errInject r) s = (s.setLeaf unit { s.leaf unit with inject := true }).grants r false [])
        ∧ (s.anyConfidential = false → kind = 5 →
          exec (.errInject r) s = (s.setPort unit { s.port unit with inject := true }).grants r false [])))
    ∧ (∀ page, AskedBy s r 0x0100 [1] [page] → s.permits r.fn true = true →
      exec (.devStatus r) s = s.grantsPage r (s.mirrorImage r.fn) page false)
    ∧ (∀ page, Asked s r 0x0101 [1] [page] →
      exec (.fwStatus r) s = s.grantsPage r (encodeFields [(8, s.fw.version.toNat), (1, s.fw.svn), (8, s.flash.image.version.toNat),
        (1, s.flash.image.svn), (1, s.fuses.rollback), (1, if s.flash.writing.isSome then 1 else 0)]) page false)
    ∧ (∀ seq count dest, Asked s r 0x8102 [8, 4, 8] [seq, count, dest] →
      let first := max seq ((s.flash.log.head?.map (·.seq)).getD s.flash.nextSeq)
      let recs := (s.flash.log.filter (fun l => first ≤ l.seq)).take count
      let d := dest / 64 * 64
      exec (.logRead r) s = (s.ioWrite 0 d ((recs.map LogRec.bytes).flatten)).grants r (first ≠ seq || recs.length ≠ count || d ≠ dest) [])
    ∧ (∀ load image src length, Asked s r (if load then 0x8104 else 0x8103) [8, 8] [src, length] →
      let c := if load then Instr.fwLoad r image else .fwUpdate r image
      let from_ := src / 4096 * 4096
      let len := min length 4194304
      let img := Image.ofBytes (image.take len)
      let why := img.check s.fuses.rollback
      (load = true → s.boot.minimal = false → exec c s = s.refuses r .notInMode)
      ∧ (load = false ∨ s.boot.minimal = true →
        (∀ w b, s.flash.writing = some (w, r.fn.val, r.slot.val, b) → exec c s = later s)
        ∧ (∀ w f k b, s.flash.writing = some (w, f, k, b) → ¬(f = r.fn.val ∧ k = r.slot.val) → exec c s = s.refuses r .notInMode)
        ∧ (s.flash.writing = none →
          (why ≠ 0 → exec c s = .next (s.answer r.fn r.slot .denied (from_ ≠ src || len ≠ length) why []))
          ∧ (why = 0 →
            exec c s = later { s with flash := { s.flash with writing := some (img, r.fn.val, r.slot.val, load) } }))))
    ∧ (∀ v, Asked s r 0x0105 [1] [v] →
      let target := if v = 1 then 1 else 0
      let u := if s.boot.minimal = true ∧ v ≠ 1 then { s with boot := { s.boot with fails := 2 } } else s
      (s.flash.writing.isSome = true → exec (.devRestart r) s = later { u with boot := { u.boot with restart := some target } })
      ∧ (s.flash.writing = none → exec (.devRestart r) s = .next (u.restart (target = 1))))

/-! ## The hinge, clocks, power and temperature -/

/-- R290, R291, R342, R343, R345, R346, R352 to R358, R365, Tables 10-3, 10-6, 10-7, 10-10 and 10-11: capability words, bonded channels, leaf
training, flits with their CRC, credits and replays, and the steering buckets of the hinge. Model's choices: which dies carry the base dies'
network links (log 116), and the byte order of the flit CRC (log 102). -/
def Obligations.HingeTrainsAndCarries : Prop :=
  ∀ (s : State),
    (∀ die word, (s.boot.running = true → s.boot.stage ≤ 6 →
        exec (.capabilityWord die word) s = .next { s with caps := { s.caps with words := s.caps.words.set die word } })
      ∧ (s.boot.running = false ∨ 6 < s.boot.stage → exec (.capabilityWord die word) s = .next s))
    ∧ (∀ (die : Fin 10) (chan : Fin 16),
      let unit := if die.val < 8 then die.val else die.val - 8
      let key := die.val * 16 + chan.val
      let mark := fun (v : Bool) => { s with hinge := { s.hinge with resend := s.hinge.resend.put false key v } }
      (s.hinge.resend.get false key = false →
        exec (.bondedWord die chan true) s = .next s ∧ exec (.bondedWord die chan false) s = .next (mark true))
      ∧ (s.hinge.resend.get false key = true →
        exec (.bondedWord die chan true) s = .next ((mark false).event 0x400 unit)
        ∧ (die.val < 8 → exec (.bondedWord die chan false) s = .next (((mark false).event 0x401 die).fenceDie die 4))
        ∧ (8 ≤ die.val → exec (.bondedWord die chan false) s = .next (((mark false).event 0x402 unit).fatalError 5 none))))
    ∧ (∀ (k : Fin 4) end1 mask, let l := s.leaf k
      (l.state = .train → exec (.widthOffer k end1 mask) s = .next ((s.setLeaf k
        (if end1 then { l with end1 := { l.end1 with offer := some mask, mask := mask } }
        else { l with end0 := { l.end0 with offer := some mask, mask := mask } }).offered).settleLeaf k .train))
      ∧ (l.state ≠ .train → exec (.widthOffer k end1 mask) s = .next s))
    ∧ (∀ (l : Leaf),
      (l.end0.offer = none ∨ l.end1.offer = none → l.offered = l)
      ∧ ∀ a b, l.end0.offer = some a → l.end1.offer = some b →
        let w := min (popCount 4 a.toNat) (popCount 4 b.toNat)
        let both := popCount 4 (a &&& b).toNat
        (a &&& b = 0 → l.offered = { l.scratch with state := .failed })
        ∧ (a &&& b ≠ 0 → both < w → l.offered = { l with state := .confirm }.failHandshake)
        ∧ (a &&& b ≠ 0 → w ≤ both → l.offered = { l with state := .confirm, width := w, groups := lowGroups (a &&& b) w }))
    ∧ (∀ (k : Fin 4) end1 width groups, let l := s.leaf k
      (l.state = .confirm → exec (.widthConfirm k end1 width groups) s = .next ((s.setLeaf k
        (if end1 then { l with end1 := { l.end1 with confirm := some (width, groups) } }
        else { l with end0 := { l.end0 with confirm := some (width, groups) } }).confirmed).settleLeaf k .confirm))
      ∧ (l.state ≠ .confirm → exec (.widthConfirm k end1 width groups) s = .next s))
    ∧ (∀ (l : Leaf),
      (l.end0.confirm = none ∨ l.end1.confirm = none ∨ l.end0.confirm = l.end1.confirm → l.confirmed = l)
      ∧ ∀ a b, l.end0.confirm = some a → l.end1.confirm = some b → a ≠ b → l.confirmed = l.failHandshake)
    ∧ (∀ (l : Leaf), let n := l.fails + 1
      (l.forced = true → l.failHandshake = { l.scratch with state := .failed, forced := false })
      ∧ (l.forced = false → n < 3 → l.failHandshake = { l.scratch with state := .train, fails := n })
      ∧ (l.forced = false → 3 ≤ n → l.common = 0 → l.failHandshake = { l.scratch with state := .failed, fails := n })
      ∧ (l.forced = false → 3 ≤ n → l.common ≠ 0 → l.failHandshake
        = { l.scratch with state := .confirm, fails := n, forced := true, width := 1, groups := lowGroups l.common 1 }))
    ∧ (∀ (k : Fin 4) w g, let l := s.leaf k
      l.state = .confirm → l.end0.confirm = some (w, g) → l.end1.confirm = some (w, g) →
      exec (.leafTestDone k true) s = .next ((s.setLeaf k { l with
        state := if l.forced then .degraded else .active
        width := w, groups := g, forced := false, fresh := false
        up := { l.up with nak := false }, down := { l.down with nak := false }
        end0 := { l.end0 with resetSeen := false, gotReset := false }
        end1 := { l.end1 with resetSeen := false, gotReset := false } }).settleLeaf k .confirm)
      ∧ exec (.leafTestDone k false) s = .next ((s.setLeaf k l.failHandshake).settleLeaf k .confirm))
    ∧ (∀ (k : Fin 4), let l := s.leaf k
      (l.state = .train ∨ l.state = .confirm →
        exec (.sidebandSilence k) s = .next ((s.setLeaf k l.failHandshake).settleLeaf k l.state))
      ∧ (l.state ≠ .train → l.state ≠ .confirm → exec (.sidebandSilence k) s = .next s))
    ∧ (∀ (k : Fin 4), let l := s.leaf k
      let far := { l.end0 with resetSeen := false, gotReset := false }
      let near := { l.end1 with resetSeen := true, gotReset := true }
      let late := l.end1.resetSeen = false ∧ (l.state = .train ∨ l.state = .confirm) ∧ l.fresh = false
      l.end0.resetSeen = true → l.end1.gotReset = false →
      let m := if l.end0.gotReset then
          { l with end0 := far, end1 := { near with resetSeen := false, gotReset := false }, fresh := false }
        else { l with end1 := near }
      (late → exec (.resetSeen k true) s = .next ((s.setLeaf k m.failHandshake).settleLeaf k l.state))
      ∧ (¬late → exec (.resetSeen k true) s = .next ((s.setLeaf k m).settleLeaf k l.state)))
    ∧ (∀ (k : Fin 4), let l := s.leaf k
      let far := { l.end1 with resetSeen := false, gotReset := false }
      let near := { l.end0 with resetSeen := true, gotReset := true }
      let late := l.end0.resetSeen = false ∧ (l.state = .train ∨ l.state = .confirm) ∧ l.fresh = false
      l.end1.resetSeen = true → l.end0.gotReset = false →
      let m := if l.end1.gotReset then
          { l with end1 := far, end0 := { near with resetSeen := false, gotReset := false }, fresh := false }
        else { l with end0 := near }
      (late → exec (.resetSeen k false) s = .next ((s.setLeaf k m.failHandshake).settleLeaf k l.state))
      ∧ (¬late → exec (.resetSeen k false) s = .next ((s.setLeaf k m).settleLeaf k l.state)))
    ∧ (∀ half1, ∃ t, exec (.halfReset half1) s = .next t ∧ { t with leaves := s.leaves } = s
      ∧ ∀ k, t.leaf k = if k < 4 then (s.leaf k).reset half1 else s.leaf k)
    ∧ (∀ (k : Fin 4), let l := s.leaf k
      l.state = .active → l.retrained = false → s.fw.running = true → s.fw.hung = false →
      exec (.leafReplayStorm k) s = .next ((s.event 0x404 k).setLeaf k { l.reset false with retrained := true }))
    ∧ (∀ (k : Fin 4) (up : Bool) (seq ack : BitVec 12) (rest : BitVec 2024), let l := s.leaf k; let flit := wholeFlit seq ack rest
      (l.runs = false ∨ s.halted = true ∨ s.suspended (23 + 2 * k.val) = true ∨ s.suspended (24 + 2 * k.val) = true →
        exec (.bridgeFlit k up seq ack rest) s = .next s)
      ∧ (l.runs = true → s.halted = false → s.suspended (23 + 2 * k.val) = false → s.suspended (24 + 2 * k.val) = false →
        (field flit 1984 64 = flitCrc flit → l.inject = false →
          (∀ d, flitKind flit = 0 → (l.dir up).send 256 (field flit 0 12) = some d →
            exec (.bridgeFlit k up seq ack rest) s = .next (s.setLeaf k ((l.setDir up (d.receive (field flit 0 12) true)).takeHeader up flit)))
          ∧ (flitKind flit = 0 → (l.dir up).send 256 (field flit 0 12) = none → exec (.bridgeFlit k up seq ack rest) s = .next s)
          ∧ (flitKind flit ≠ 0 → exec (.bridgeFlit k up seq ack rest) s = .next (s.setLeaf k ((l.setDir up (l.dir up)).takeHeader up flit))))
        ∧ (field flit 1984 64 ≠ flitCrc flit ∨ l.inject = true →
          exec (.bridgeFlit k up seq ack rest) s = .next ((s.setLeaf k
            (if up then { l with up := { l.up with nak := true }, inject := false }
            else { l with down := { l.down with nak := true }, inject := false })).event 0x403 k))))
    ∧ (∀ (l : Leaf) (up : Bool) (flit : BitVec 2048),
      let m := l.takeHeader up flit
      (up = true → m.down = l.down.acked (field flit 12 12) ∧ m.up = l.up ∧ m.usedDown = lessUsed l.usedDown (bridgeCredits flit)
        ∧ m.usedUp = l.usedUp)
      ∧ (up = false → m.up = l.up.acked (field flit 12 12) ∧ m.down = l.down ∧ m.usedUp = lessUsed l.usedUp (bridgeCredits flit)
        ∧ m.usedDown = l.usedDown)
      ∧ (field flit 24 2 ≠ 2 → m.replays = l.replays)
      ∧ (field flit 24 2 = 2 → m.replays = l.replays + ((if up then l.down else l.up).acked (field flit 12 12)).unacked.length))
    ∧ (∀ (k : Fin 4) (seq : BitVec 12) (up : Bool), let l := s.leaf k
      (l.runs = true → s.halted = false →
        let d := (if up then l.up else l.down).acked seq.toNat
        let m := if up then { l with up := d } else { l with down := d }
        exec (.bridgeNak k up seq) s = .next (s.setLeaf k { m with replays := l.replays + d.unacked.length }))
      ∧ (l.runs = false ∨ s.halted = true → exec (.bridgeNak k up seq) s = .next s))
    ∧ ((∀ r ∈ s.reqs.rows, ∀ k, r.2.via.leaf = some k → s.steerDue k = false) →
      exec .bucketResteer s = .next { s with hinge := { s.hinge with
        buckets := (List.range 4).map (fun k => if (s.leaf k).runs then (s.leaf k).width else 0) } })
    ∧ ((∃ r ∈ s.reqs.rows, ∃ k, r.2.via.leaf = some k ∧ s.steerDue k = true) → exec .bucketResteer s = .next s)
    ∧ (∀ k, s.leafOpen k = true ↔ ((s.leaf k).runs = true ∧ s.halted = false ∧ s.suspended (23 + 2 * k) = false
      ∧ s.suspended (24 + 2 * k) = false ∧ ∀ j, j < 4 → s.steerDue j = false))

/-- R24, R26, R361, R362, Table 10-15: a lost reference, a lost forwarded pair, and a PLL that loses its lock and relocks once. -/
def Obligations.ClocksAreLost : Prop :=
  ∀ (s : State),
    (s.clocks.boardRef = true →
      let u := (List.range 31).foldl (fun t k => t.setPll (k + 1) .failed) { s with clocks := { s.clocks with boardRef := false } }
      exec (.referenceLost false) s = .next ((u.event 0x40B 0).fatalError 2 (some 7)))
    ∧ (s.clocks.hostRef = true →
      let u := { s with clocks := { s.clocks with hostRef := false } }.setPll 0 .failed
      (s.boot.running = true → s.boot.ready = false → exec (.referenceLost true) s = .next (u.failStart 7))
      ∧ (s.boot.running = false ∨ s.boot.ready = true → exec (.referenceLost true) s = .next u.clockDown))
    ∧ (s.clocks.boardRef = false → exec (.referenceLost false) s = .next s)
    ∧ (s.clocks.hostRef = false → exec (.referenceLost true) s = .next s)
    ∧ (∀ pair : Fin 2,
      (s.clocks.pairs.getLsbD pair = true → exec (.forwardedPairLost pair) s = .next ({ s with clocks := { s.clocks with
        pairs := s.clocks.pairs &&& ~~~(BitVec.ofNat 2 (1 <<< pair.val)) } }.event 0x409 pair))
      ∧ (s.clocks.pairs.getLsbD pair = false → exec (.forwardedPairLost pair) s = .next s))
    ∧ (∀ site : Fin 32,
      (s.clocks.plls.get .unlocked site = .locked → exec (.pllLockLost site) s = .next (s.setPll site .relocking))
      ∧ (s.clocks.plls.get .unlocked site ≠ .locked → exec (.pllLockLost site) s = .next s)
      ∧ (s.clocks.plls.get .unlocked site = .relocking →
        exec (.pllRelockEnd site true) s = .next (((s.setPll site .locked).event 0x40A (siteUnit site)).retrainSite site)
        ∧ exec (.pllRelockEnd site false) s = .next ((s.setPll site .failed).relockFailed site))
      ∧ (∀ ok, s.clocks.plls.get .unlocked site ≠ .relocking → exec (.pllRelockEnd site ok) s = .next s))
    ∧ (∀ (t : State), t.relockFailed 0 = t.clockDown ∧ t.relockFailed 31 = t)
    ∧ (∀ (t : State) (k : Nat), k ≤ 5 →
      t.relockFailed (1 + k) = [2 * k, 2 * k + 1].foldl (fun t p => t.setPort p { t.port p with state := .down }) (t.event 0x40E (2 * k))
      ∧ t.retrainSite (1 + k) = [2 * k, 2 * k + 1].foldl (fun t p => if (t.port p).runs then t.setPort p (t.port p).train else t) t)
    ∧ (∀ (t : State) (site : Nat), 7 ≤ site → site ≤ 22 → t.relockFailed site = (t.event 0x40D (site - 7)).fatalError 4 (some 7))
    ∧ (∀ (t : State) (k : Nat), k ≤ 7 →
      t.retrainSite (23 + k) = t.stepLeaf (k / 2) (fun l => l.reset (k % 2 = 1))
      ∧ t.relockFailed (23 + k) = (t.event 0x40E (k / 2)).stepLeaf (k / 2) (fun l => { l.scratch with state := .failed }))

/-- R330, R363, R573, R575, R577 to R579, R583 to R592, R616, R625, Tables 18-3 to 18-5: estimates, the cap controller, thermal levels, droop,
device-fatal events and power states. -/
def Obligations.PowerAndHeatAreGoverned : Prop :=
  ∀ (s : State),
    (∀ die watts, exec (.powerEstimate die watts) s = .next { s with power := { s.power with est := s.power.est.put 0 die watts } })
    ∧ (∃ w, exec .capPeriod s = .next { s with power := w } ∧ w.nextCap = none ∧ w.ticks = s.power.ticks + 1
      ∧ w.pavg = (s.power.p :: s.power.pavg).take 250
      ∧ (s.power.nextCap = none → w.cap = s.power.cap ∧ w.vmax = s.power.vmax ∧ w.idleDelay = s.power.idleDelay)
      ∧ (∀ c v i, s.power.nextCap = some (c, v, i) → w.cap = c ∧ w.vmax = v ∧ w.idleDelay = i)
      ∧ (w.cap < s.power.p → w.capAllow = max 4 (s.power.capAllow - 1))
      ∧ (s.power.p ≤ w.cap → 100 * s.power.p < 95 * w.cap → s.power.capAllow < 16 → w.capAllow = s.power.capAllow + 1)
      ∧ (s.power.p ≤ w.cap → 95 * w.cap ≤ 100 * s.power.p ∨ 16 ≤ s.power.capAllow → w.capAllow = s.power.capAllow)
      ∧ { w with cap := s.power.cap, vmax := s.power.vmax, idleDelay := s.power.idleDelay, nextCap := s.power.nextCap
                 capAllow := s.power.capAllow, pavg := s.power.pavg, ticks := s.power.ticks } = s.power)
    ∧ (let w := s.power
      let v := if w.capAllow < 16 ∨ w.vmax < w.vtarget then max 550 (w.vtarget - 5)
        else if 100 * w.avg < 95 * w.cap ∧ w.vtarget < w.vmax then w.vtarget + 5 else w.vtarget
      exec .voltagePeriod s = .next { s with power := { w with vtarget := v } })
    ∧ (∀ (die : Fin 10) (t : Int),
      let was := s.temps.dieLevel.get 0 die
      let now := thermalLevel [95, 100, 105] was t
      let u := { s with temps := { s.temps with die := s.temps.die.put 25 die t, dieLevel := s.temps.dieLevel.put 0 die now } }
      exec (.dieTempRead die t) s = .next (if was < now then u.event 0x700 (if die.val < 8 then die.val else die.val - 8) else u))
    ∧ (∀ (k : Fin 16) (t : Int),
      let was := s.temps.stackLevel.get 0 k
      let now := thermalLevel [85, 90, 95, 100] was t
      let u := { s with temps := { s.temps with stack := s.temps.stack.put 25 k t, stackLevel := s.temps.stackLevel.put 0 k now } }
      exec (.stackTempRead k t) s = .next (if was < now then u.event 0x20A k else u))
    ∧ (∀ (was : Nat) (t : Int),
      (t < 92 → thermalLevel [95, 100, 105] was t = 0) ∧ (105 ≤ t → thermalLevel [95, 100, 105] was t = 3)
      ∧ (92 < t → t < 95 → thermalLevel [95, 100, 105] was t = min was 1)
      ∧ (t < 82 → thermalLevel [85, 90, 95, 100] was t = 0) ∧ (100 ≤ t → thermalLevel [85, 90, 95, 100] was t = 4))
    ∧ (∀ (quad : Fin 40) (level : Fin 4),
      let key := quad.val * 4 + level.val
      let t := { s.temps with
        droop := s.temps.droop.put 0 quad level
        droopCount := s.temps.droopCount.put 0 key (min (s.temps.droopCount.get 0 key + 1) 0xFFFFFFFF) }
      (level.val ≤ s.temps.droop.get 0 quad → exec (.droopCrossing quad level) s = .next s)
      ∧ (s.temps.droop.get 0 quad < level.val → level.val < 3 → exec (.droopCrossing quad level) s = .next { s with temps := t })
      ∧ (s.temps.droop.get 0 quad < level.val → level.val = 3 →
        let d := quad.val / 5
        let recent := s.power.ticks :: (s.temps.droopRecent.get [] d).filter (fun k => s.power.ticks < k + 250)
        let u := { s with temps := { t with droopRecent := t.droopRecent.put [] d recent } }
        (recent.length ≤ 16 → exec (.droopCrossing quad level) s = .next u)
        ∧ (16 < recent.length → exec (.droopCrossing quad level) s
          = .next ({ u with power := { u.power with droopAllow := u.power.droopAllow.put 16 d 12 } }.event 0x701 d)))
      ∧ exec (.droopLevelExit quad) s = .next { s with temps := { s.temps with
        droop := s.temps.droop.put 0 quad (s.temps.droop.get 0 quad - 1) } })
    ∧ (∀ die, exec (.droopAllowanceExpiry die) s
      = .next { s with power := { s.power with droopAllow := s.power.droopAllow.put 16 die 16 } })
    ∧ exec .thermtrip s = .next (({ s with pins := { s.pins with thermtrip := true } }.event 0x702 0).fatalError 1 none)
    ∧ exec .supplyFault s = .next ((s.event 0x703 0).fatalError 6 (some 0x0D))
    ∧ exec .clockUnitFault s = .next ((s.event 0x40B 0).fatalError 7 none)
    ∧ (∀ (t : State) (c reason : Nat), (t.boot.running = false ∨ t.boot.ready = true →
        let u := { t.dropHostLines with
          fw := { t.fw with fatal := true, cause := c }
          host := { t.host with aerUncorr := true } }
        (∀ why, t.fatalError c why = u.aliveLow))
      ∧ (t.boot.running = true → t.boot.ready = false → t.fatalError c (some reason) = t.failStart reason
        ∧ t.fatalError c none = t.failStart 0x0B))
    ∧ (s.power.state = .active → s.quiet = true →
      exec .idleEntry s = .next { s with power := { s.power with state := .idle } })
    ∧ (s.power.state ≠ .active ∨ s.quiet = false → exec .idleEntry s = .next s)
    ∧ (s.power.state = .active ∨ s.power.state = .idle → s.power.retainReq ≠ 0 → s.quiet = true → s.flash.writing = none →
      (∀ p ∈ s.parts.vals, p.rebind = none) →
      exec .retainEntry s = .next ({ s with
        power := { s.power with state := .retain, selfRefresh := true }
        cores := s.cores.mapVal (fun _ (c : Core) => { c with l1 := .empty })
        sec := { s.sec with trace := none } }.answerCode 0x4E02))
    ∧ (s.power.state = .retain → exec .selfRefreshReentry s = .next { s with power := { s.power with selfRefresh := true } })
    ∧ (s.power.state ≠ .off → s.power.state ≠ .minimal → exec .pfD3hot s = .next { s with power := { s.power with
      d3hot := true, retainReq := if s.power.state = .retain ∧ s.power.retainReq = 1 then 1 else 2 } })
    ∧ (s.power.d3hot = true →
      let u := { s with power := { s.power with d3hot := false } }
      (s.power.state = .retain → exec .pfD0 s
        = .next { u with power := { u.power with state := .active, retainReq := 0, selfRefresh := false } })
      ∧ (s.power.state ≠ .retain → exec .pfD0 s = .next { u with power := { u.power with retainReq := 0 } }))
    ∧ (∃ v, exec .sensorUpdate s = .next { s with mgmt := { s.mgmt with sensors := v } }
      ∧ v.p = s.power.p ∧ v.cap = s.power.cap ∧ v.vtarget = s.power.target ∧ v.power = s.power.state ∧ v.fatal = s.fw.fatal
      ∧ v.cause = s.fw.cause ∧ v.stackTemps = (List.range 16).map (s.temps.stack.get 25))
    ∧ ∀ (ch : Fin 256) (k : Fin 5), let c := s.chan ch
      s.boot.ready = true → c.state = .inService →
      (k = 2 ∨ (k = 3 ∧ 3 ≤ c.ueAfter.length) ∨ (k = 4 ∧ 10000 < c.ceHour) → exec (.channelTrigger ch k) s = .next (s.loseChan ch k))
      ∧ (k.val < 2 ∨ (k = 3 ∧ c.ueAfter.length < 3) ∨ (k = 4 ∧ c.ceHour ≤ 10000) → exec (.channelTrigger ch k) s = .next s)

/-! ## Peer links, the host link, resets and starts -/

/-- R491 to R494, R496, R499, R500, R505, R506, Tables 11-9, 15-5a, 15-6 and 15-7: peer-link ports train, check identities, carry flits, with their
CRC, credits and replays, and fail. A message that finds no credit or no room to be replayed waits behind those of its virtual channel. -/
def Obligations.PeerLinksTrainAndCarry : Prop :=
  ∀ (s : State) (k : Fin 12), let p := s.port k
    (∀ (d : Fin 8) (pk : Fin 12) (twin version : Bool) (last : BitVec 12), p.state = .training →
      let why := s.identityReason k d pk twin version
      (why = 0 → exec (.lbxCtrlFlit k d pk twin version last) s = .next (s.setPort k
        { p with idOk := true, peer := some (d.val, pk.val), reason := 0, tx := p.tx.acked last.toNat }))
      ∧ (why ≠ 0 → exec (.lbxCtrlFlit k d pk twin version last) s
        = .next ((s.setPort k { p with state := .failed, reason := why }).event 0x503 k)))
    ∧ (∀ (d : Fin 8) (pk : Fin 12) (twin version : Bool),
      (version = false → s.identityReason k d pk twin version = 4)
      ∧ (version = true → twin ≠ s.lbx.twin → s.identityReason k d pk twin version = 3)
      ∧ (version = true → twin = s.lbx.twin → d.val = s.lbx.d → s.identityReason k d pk twin version = 1)
      ∧ (version = true → twin = false → s.lbx.twin = false → d.val ≠ s.lbx.d → s.identityReason k d pk twin version = 0)
      ∧ (version = true → twin = true → s.lbx.twin = true → d.val ≠ s.lbx.d → k.val < 6 →
        s.identityReason k d pk twin version = if d.val = s.twinNum ∧ pk.val = k.val then 0 else 2)
      ∧ (version = true → twin = true → s.lbx.twin = true → d.val ≠ s.lbx.d → 6 ≤ k.val →
        s.identityReason k d pk twin version = if d.val = twinPeer s.lbx.d (k.val - 6) then 0 else 2))
    ∧ (∀ half d pk, p.state = .training → p.idOk = true → p.peer = some (d, pk) →
      let u := if s.pair.state = .severed ∧ k.val < 6 then { s with pair := { s.pair with state := .paired } } else s
      let v := if s.lbx.twin = true ∧ d = s.twinNum then u
        else { u with lbx := { u.lbx with lost := u.lbx.lost.filter (fun x => x ≠ d) } }
      exec (.lbxTrainingDone k half) s = .next (v.setPort k
        { p with state := if half then .half else .active, attempts := 0, rx := { p.rx with nak := false } }))
    ∧ (∀ half, p.state ≠ .training ∨ p.idOk = false → exec (.lbxTrainingDone k half) s = .next s)
    ∧ (p.state = .training →
      (p.attempts + 1 < 3 → exec (.lbxTrainingTimeout k) s
        = .next (s.setPort k { p with attempts := p.attempts + 1, idOk := false }))
      ∧ (3 ≤ p.attempts + 1 → exec (.lbxTrainingTimeout k) s
        = .next (s.setPort k { p with state := .failed, attempts := p.attempts + 1, idOk := false })))
    ∧ (∀ c ∈ [Instr.lbxPortSilence k, .lbxReplayStorm k],
      (p.runs = false → exec c s = .next s)
      ∧ (p.runs = true →
        let u := (s.setPort k p.train).event 0x502 k
        let group := (s.portGroup ((p.peer.map (·.1)).getD 8)).length
        (group ≤ 1 → exec c s = .next u) ∧ (1 < group → exec c s = .next (u.event 0x504 k))))
    ∧ (∀ (seq ack : BitVec 12) (rest : BitVec 2024), let flit := wholeFlit seq ack rest
      (p.runs = false → exec (.lbxFlit k seq ack rest) s = .next s)
      ∧ (p.runs = true → field flit 1984 64 = flitCrc flit → p.inject = false →
        let rx := if field flit 24 2 = 0 then p.rx.receive (field flit 0 12) true else p.rx
        exec (.lbxFlit k seq ack rest) s = .next ((s.setPort k ({ p with rx := rx }.takeHeader flit)).portDrain k))
      ∧ (p.runs = true → field flit 1984 64 ≠ flitCrc flit ∨ p.inject = true →
        let u := (s.setPort k { p with rx := { p.rx with nak := true }, inject := false }).event 0x501 k
        exec (.lbxFlit k seq ack rest) s
          = .next { u with outbox := .lbx ((p.peer.map (·.1)).getD 0) 2 [k.val, p.rx.accepted] [] :: u.outbox }))
    ∧ (∀ (q : LbxPort) (flit : BitVec 2048),
      let m := q.takeHeader flit
      let tx := q.tx.acked (field flit 12 12)
      let vc := field flit 26 2
      m.tx = tx ∧ m.rx = q.rx ∧ m.wait = q.wait ∧ m.state = q.state
      ∧ m.replays = q.replays + (if field flit 24 2 = 2 then tx.unacked.length else 0)
      ∧ (∀ j, j ≠ vc → m.credits.getD j 0 = q.credits.getD j 0)
      ∧ (vc < q.credits.length → m.credits.getD vc 0 = min (q.credits.getD vc 0 + field flit 28 8) ([64, 16, 128, 128].getD vc 0)))
    ∧ (∀ (m : Msg), (s.port k).canSend m.vc = true → (∀ w ∈ (s.port k).wait, w.vc ≠ m.vc) →
        s.portGive k m = s.portSend k m)
    ∧ (∀ (m : Msg), ((s.port k).canSend m.vc = false ∨ ∃ w ∈ (s.port k).wait, w.vc = m.vc) →
        s.portGive k m = s.setPort k { p with wait := p.wait ++ [m] })
    ∧ (∀ (seq : BitVec 12), (p.runs = false → exec (.lbxNak k seq) s = .next s)
      ∧ (p.runs = true →
        let tx := p.tx.acked seq.toNat
        exec (.lbxNak k seq) s
          = .next ((s.setPort k { p with tx := tx, replays := p.replays + tx.unacked.length }).portDrain k)))
    ∧ (∀ corrected, exec (.lbxCodeword k corrected true) s
      = .next ((s.setPort k { p with rx := { p.rx with nak := true } }).event 0x501 k))
    ∧ exec (.lbxCodeword k true false) s = .next ((s.setPort k { p with corrected := p.corrected + 1 }).event 0x500 k)
    ∧ exec (.lbxCodeword k false false) s = .next s
    ∧ (p.runs = true → s.pins.twinOut = true → exec (.lbxIdleTimer k) s
      = .next { s with outbox := .lbx ((p.peer.map (·.1)).getD 0) 1 [k.val, p.rx.accepted] [] :: s.outbox })
    ∧ ∀ (d : FlitDir) (seq : Nat),
      (d.receive seq false = { d with nak := true })
      ∧ (seq = (d.accepted + 1) % 4096 → d.receive seq true = { d with accepted := seq, nak := false })
      ∧ (seq ≠ (d.accepted + 1) % 4096 → d.receive seq true = d)

/-- R464, R466, R476 to R481, R556, R624, Tables 14-1, 14-5 and 14-6: the decoder, VF Enable, function level resets, the host link and its
IDE streams. -/
def Obligations.HostLinkAndResetsOfFunctions : Prop :=
  ∀ (s : State),
    (∀ base size,
      let fits := base % 2 ^ 28 = 0 ∧ size % 2 ^ 28 = 0 ∧ 2 ^ 28 ≤ size ∧ size ≤ 509 * 2 ^ 30 ∧ base + size ≤ 2 ^ 52
      let u := { s with host := { s.host with
        decoder := some (base, size), window := s.host.window.keep (fun k _ => decide (k < size / 2097152)), memActive := s.boot.ready } }
      (s.host.up = true → fits → exec (.hdmDecoderCommit base size) s = .next u)
      ∧ (s.host.up = false ∨ ¬fits → exec (.hdmDecoderCommit base size) s = .next s))
    ∧ (∀ on, (s.host.up = true → exec (.vfEnableWrite on) s = .next { s with host := { s.host with vfEnable := on } })
      ∧ (s.host.up = false → exec (.vfEnableWrite on) s = .next s))
    ∧ (∀ fn : Fin 64, fn ≠ 0 → s.host.up = true → s.fnExists fn = true → (s.fnRec fn).flr = false → (s.fnRec 0).flr = false →
      let u := s.setFn fn { (s.fnRec fn).dropRequests with flr := true }
      ((s.fnRec fn).ctx = none → exec (.flr fn) s = .next u)
      ∧ ∀ p c, (s.fnRec fn).ctx = some (p, c) → exec (.flr fn) s = .next (u.flrContext p c))
    ∧ (s.host.up = true → (s.fnRec 0).flr = false → exec .pfFlr s = .next s.flrAll)
    ∧ (∀ (fn : Fin 64) p c, fn ≠ 0 → (s.fnRec fn).flr = true → (s.fnRec fn).ctx = some (p, c) →
      let here := fun (a b : Nat) => decide (some (p, c) = some (a, b))
      (s.flrBusy here = true → exec (.flrComplete fn) s = .next s)
      ∧ (s.flrBusy here = false →
        let u := s.setFn fn { s.fnRec fn with flr := false }
        let v := { u with queues := u.queues.mapVal (fun k (q : Queue) => if k / 64 = p ∧ k / 8 % 8 = c then
          { q with state := .disabled, enable := false, drainPend := false, sqHead := 0, tail := 0, head := 0, cqTail := 0, phase := true }
          else q) }
        exec (.flrComplete fn) s = .next ((List.range 16).foldl State.settleQuiesce v)))
    ∧ ((s.fnRec 0).flr = true → s.flrBusy (fun _ _ => true) = false →
      let u := s.setFn 0 { s.fnRec 0 with flr := false }
      let v := { u with queues := u.queues.mapVal (fun _ (q : Queue) =>
        { q with state := .disabled, enable := false, drainPend := false, sqHead := 0, tail := 0, head := 0, cqTail := 0, phase := true }) }
      exec (.flrComplete 0) s = .next ((List.range 16).foldl State.settleQuiesce v))
    ∧ (s.host.up = true → exec .hostLinkDown s = .next s.linkDown
      ∧ (s.host.ideIo = true → exec (.ideInsecure 0) s = .next s.linkDown)
      ∧ (s.host.ideCxl = true → exec (.ideInsecure 1) s = .next s.linkDown)
      ∧ (s.host.ideIo = false → exec (.ideInsecure 0) s = .next s)
      ∧ (s.host.ideCxl = false → exec (.ideInsecure 1) s = .next s)
      ∧ (s.sec.ideKeys = 3 → exec .ideSecure s = .next { s with host := { s.host with ideIo := true, ideCxl := true } })
      ∧ (s.sec.ideKeys ≠ 3 → exec .ideSecure s = .next s))
    ∧ (let t := s.linkDown
      t.host.up = false ∧ t.host.memActive = false ∧ t.host.ideIo = false ∧ t.host.ideCxl = false
      ∧ t.host.decoder = none)
    ∧ (s.host.up = false → exec .hostLinkDown s = .next s)
    ∧ (s.host.up = false → s.boot.ready = true ∨ s.boot.minimal = true ∨ 4 < s.boot.stage → s.clocks.plls.get .unlocked 0 = .locked →
      exec .hostLinkUp s = .next { s with host := { s.host with up := true } })
    ∧ (s.host.up = true ∨ s.clocks.plls.get .unlocked 0 ≠ .locked → exec .hostLinkUp s = .next s)

/-- R510, R529 to R533, R535, R537, R540, R541, R618, R621, R622, R625, Tables 16-8, 16-11 and 20-5: pins, power, the thirteen steps of a
start, the start watchdog, flash writes and the firmware's heartbeat. -/
def Obligations.DeviceStartsAndResets : Prop :=
  ∀ (s : State),
    (∀ c f, (c, f) ∈ [(Instr.perstAssert, fun (p : Pins) => { p with perst := false }),
        (.coldRstAssert, fun p => { p with coldRst := false }), (.pwrgdFall, fun p => { p with pwrgd := false })] →
      let r := s.resetAll
      exec c s = .next { r with pins := f { r.pins with twinOut := false } })
    ∧ (let r := s.takeFree.2.resetAll
      let f := if r.flash.writing.isSome = true then { r.flash with image := brokenImage s.takeFree.1, writing := none } else r.flash
      exec .powerRemoved s = .next { r with
        flash := f
        pins := { r.pins with vddIo := false, pwrgd := false, thermtrip := false, twinOut := false }
        boot := { r.boot with reason := 0, fails := 0, failStage := 0 } })
    ∧ (∀ t : State,
      (t.pins.pwrgd = true → t.pins.perst = true → t.pins.coldRst = true → t.flash.writing = none → t.tryStart = { t with boot := { t.boot with
        running := true, stage := 1, ready := false, minimal := false, forced := false, starts := t.boot.starts + 1
        epoch := t.boot.epoch + 1 } })
      ∧ (t.pins.pwrgd = false ∨ t.pins.perst = false ∨ t.pins.coldRst = false ∨ t.flash.writing.isSome = true → t.tryStart = t))
    ∧ (s.pins.pwrgd = false → exec .pwrgdRise s = .next { s with pins := { s.pins with pwrgd := true, vddIo := true } }.tryStart)
    ∧ (s.pins.perst = false → exec .perstRelease s = .next { s with pins := { s.pins with perst := true } }.tryStart)
    ∧ (s.pins.coldRst = false → exec .coldRstRelease s = .next { s with pins := { s.pins with coldRst := true } }.tryStart)
    ∧ (s.pins.pwrgd = true → exec .pwrgdRise s = .next s)
    ∧ (s.pins.perst = true → exec .perstRelease s = .next s)
    ∧ (s.pins.coldRst = true → exec .coldRstRelease s = .next s)
    ∧ (s.boot.stage = 0 → exec .start s = .next s.tryStart)
    ∧ (s.boot.stage ≠ 0 → exec .start s = .next s)
    ∧ (s.boot.running = true →
      (∀ rep : StageReport,
        (s.boot.stage = 1 → exec (.startStageAdvance rep) s
          = .next (if rep.ok then s.stageTo 2 else s.failStart (if rep.second then 0x0E else 0x0D)))
        ∧ (s.boot.stage = 2 → exec (.startStageAdvance rep) s
          = .next (if 3 ≤ s.boot.fails ∨ s.boot.forced = true then s.enterMinimal else s.stageTo 3))
        ∧ (s.boot.stage = 3 → exec (.startStageAdvance rep) s
          = .next (if rep.ok = true ∧ s.clocks.hostRef = true ∧ s.clocks.boardRef = true then (s.lockPlls [0, 31]).stageTo 4
            else s.failStart 7))
        ∧ (s.boot.stage = 4 → exec (.startStageAdvance rep) s
          = .next (if rep.ok then { s with host := { s.host with up := true } }.stageTo 5 else s))
        ∧ (s.boot.stage = 5 →
          let i := s.flash.image
          let n := { s with sec := { s.sec with nBoot := s.freeCtr }, freeCtr := s.freeCtr + 1 }
          let u := { n with fw := { n.fw with running := true, version := i.version, svn := i.svn, digest := i.digest } }
          (i.check s.fuses.rollback = 0 → exec (.startStageAdvance rep) s = .next (u.stageTo 6))
          ∧ (i.check s.fuses.rollback ≠ 0 →
            exec (.startStageAdvance rep) s = .next (n.failStart (i.check s.fuses.rollback))))
        ∧ (s.boot.stage = 6 → rep.ok = true ∨ rep.second = false → exec (.startStageAdvance rep) s = .next (s.stage6 rep.failing))
        ∧ (s.boot.stage = 6 → rep.ok = false → rep.second = true → exec (.startStageAdvance rep) s = .next (s.failStart 7))
        ∧ (s.boot.stage = 7 → exec (.startStageAdvance rep) s = .next s.stage7)
        ∧ (s.boot.stage = 8 → exec (.startStageAdvance rep) s = .next (s.stage8 rep.failing))
        ∧ (s.boot.stage = 9 → exec (.startStageAdvance rep) s = .next s.stage9)
        ∧ (s.boot.stage = 10 → exec (.startStageAdvance rep) s = .next (s.stage10 rep.failing))
        ∧ (s.boot.stage = 11 → exec (.startStageAdvance rep) s = .next (s.stage11 rep.failing))
        ∧ (s.boot.stage = 12 →
          exec (.startStageAdvance rep) s = .next ({ s with host := { s.host with memActive := true } }.stageTo 13))
        ∧ (s.boot.stage = 13 →
          let f := if s.fuses.rollback < s.fw.svn ∧ rep.ok = true then { s.fuses with rollback := s.fw.svn } else s.fuses
          let u := if s.fuses.rollback < s.fw.svn ∧ rep.ok = false then s.event 0x802 0 else s
          exec (.startStageAdvance rep) s = .next { u with
            fuses := f
            boot := { u.boot with ready := true, running := false, fails := 0 }
            power := { u.power with state := .active }
            pins := { u.pins with twinOut := true } }))
      ∧ exec .startWatchdog s = .next (s.failStart 0x0B))
    ∧ (s.boot.running = false → (∀ rep, exec (.startStageAdvance rep) s = .next s) ∧ exec .startWatchdog s = .next s)
    ∧ (∀ img fn slot load, s.flash.writing = some (img, fn, slot, load) →
      let u := { s with flash := { s.flash with image := img, writing := none } }
      let v := if load then u else u.answer fn slot .ok false 0 []
      (load = true → s.boot.minimal = true → exec .flashWriteComplete s
        = .next ({ u with boot := { u.boot with fails := 2 } }.restart false))
      ∧ (load = false ∨ s.boot.minimal = false →
        (s.boot.restart = none → exec .flashWriteComplete s = .next v)
        ∧ ∀ t, s.boot.restart = some t → exec .flashWriteComplete s = .next (v.restart (t = 1))))
    ∧ (s.flash.writing = none → exec .flashWriteComplete s = .next s)
    ∧ (s.fw.running = true → s.fw.hung = false →
      let u := { s with fw := { s.fw with heartbeat := s.fw.heartbeat + 1, ms := s.fw.ms + 1 } }
      let v := if u.fw.ms % 3600000 = 0 then { u with chans := u.chans.mapVal (fun _ (c : Chan) => { c with ceHour := 0 }) } else u
      (u.fw.ms % 1000 ≠ 0 → exec .fwHeartbeatTick s = .next v)
      ∧ (u.fw.ms % 1000 = 0 → exec .fwHeartbeatTick s
        = .next { v with leaves := v.leaves.mapVal (fun _ (l : Leaf) => { l with replays := 0, retrained := false }) })
      ∧ exec .fwWatchdogExpiry s = .next ({ s with fw := { s.fw with hung := true } }.event 0x801 0))
    ∧ (s.fw.running = false ∨ s.fw.hung = true → exec .fwHeartbeatTick s = .next s ∧ exec .fwWatchdogExpiry s = .next s)

/-! ## Debug, attestation, management and moves -/

/-- R562, R565 to R569, R586, R626 to R628, Tables 17-5 to 17-9 and 20-9: JTAG instructions, debug sessions, SPDM requests and the I3C port. -/
def Obligations.DebugAndManagementAnswer : Prop :=
  ∀ (s : State),
    exec .bypass s = .next { s with mgmt := { s.mgmt with ir := .bypass } }
    ∧ exec .samplePreload s = .next { s with mgmt := { s.mgmt with ir := .sample } }
    ∧ exec .idcode s = .next ({ s with mgmt := { s.mgmt with ir := .idcode } }.reply 0 0 (bytesOf 4
      ((s.fuses.bstep.getD 0 0).toNat % 16 * 2 ^ 28 + 0x5A32 * 2 ^ 12 + Config.jep106.toNat * 2 + 1)))
    ∧ (s.boot.minimal = true → exec .extest s = .next { s with mgmt := { s.mgmt with ir := .extest } })
    ∧ (s.boot.minimal = false → exec .extest s = .next s)
    ∧ (∀ token t m, s.sec.token = some (t, m) → s.sec.session = none →
      (token ≠ 0 → t = bytesOf 16 token.toNat →
        exec (.unlock token) s = .next { s with sec := { s.sec with token := none, session := some m } })
      ∧ (token = 0 ∨ t ≠ bytesOf 16 token.toNat → exec (.unlock token) s = .next s))
    ∧ exec .debugWindowExpiry s = .next { s with sec := { s.sec with token := none } }
    ∧ (∀ (core : Fin 160) (halt : Bool),
      ((∃ p, p < 16 ∧ s.debugs p = true ∧ s.coreIn p core = true) → exec (.debugHalt core halt) s
        = .next { s with cores := s.cores.upd Core.init core (fun c => { c with halted := halt }) })
      ∧ ((∀ p, p < 16 → s.debugs p = false ∨ s.coreIn p core = false) → exec (.debugHalt core halt) s = .next s))
    ∧ (∀ p, s.debugs p = true ↔
      ∃ m : BitVec 16, s.sec.session = some m ∧ m.getLsbD p = true ∧ (s.part p).confidential = false ∧ s.power.state ≠ .retain)
    ∧ (∀ g b grp t, s.blocks.get? g.block = some b → b.group? g.group.val = some grp → s.tasks.get? b.task = some t →
      s.debugs t.part = true → b.phase = .resident →
      let gives := fun (target : DbgTarget) (l : List Byte) => exec (.debugStateAccess g target none) s = .next (s.reply 0 0 l)
      let sets := fun (target : DbgTarget) (v : Word) (grp' : Group) => exec (.debugStateAccess g target (some v)) s = .next (s.putGroup g grp')
      (∀ n l, gives (.vreg n l) (bytesOf 4 (laneAt (grp.vreg n) l).toNat))
      ∧ (∀ n, gives (.ureg n) (bytesOf 4 (grp.ureg n).toNat))
      ∧ (∀ n, gives (.pred n) (bytesOf 4 (grp.pred n).toNat))
      ∧ (∀ a, gives (.lmem a) (b.readL a.toNat 4))
      ∧ (∀ u w, gives (.acc u w) (bytesOf 4 (grp.foot.acc.get 0 (u.val * 256 + w.val)).toNat))
      ∧ (∀ n l v, sets (.vreg n l) v (grp.putV n (BitVec.ofNat 32 (1 <<< l.val)) (fun _ => v)))
      ∧ (∀ n v, sets (.ureg n) v (grp.putU n v))
      ∧ (∀ n v, sets (.pred n) v (grp.putPred n v))
      ∧ (∀ u w v, sets (.acc u w) v { grp with foot := { grp.foot with acc := grp.foot.acc.put 0 (u.val * 256 + w.val) v } })
      ∧ (∀ a v, a.toNat + 4 ≤ b.lmemSize →
        exec (.debugStateAccess g (.lmem a) (some v)) s = .next (s.setBlock g.block (b.writeL a.toNat (bytesOf 4 v.toNat)))))
    ∧ (∀ g target write b t, s.blocks.get? g.block = some b → s.tasks.get? b.task = some t → s.debugs t.part = false →
      exec (.debugStateAccess g target write) s = .next s)
    ∧ (∀ (p : Fin 16) (va : BitVec 48), let o := va.toNat % 128
      (∀ write, s.debugs p = false → exec (.debugMemoryAccess p va write) s = .next s)
      ∧ (s.debugs p = true →
        (∀ n w, s.locate p va.toNat = some (.dev n, w) →
          exec (.debugMemoryAccess p va none) s = .next (s.reply 0 0 (bytesOf 1 (lineNum (s.devLine n) o 1)))
          ∧ (w = true → ∀ v u, (s.lineWrite n (lineOf o v.toNat) (byteMask o 1) (.outer 1)).bind (fun t => t.wakeLine (.dev n)) = some u →
            exec (.debugMemoryAccess p va (some v)) s = .next u))
        ∧ (∀ n w, s.locate p va.toNat = some (.host n, w) →
          exec (.debugMemoryAccess p va none) s = .next (s.reply 0 0 (bytesOf 1 (lineNum (s.hostView n) o 1)))
          ∧ (w = true → s.llcFind ⟨true, n⟩ = none → ∀ v u, (s.hostWrite (n * 128 + o) [v]).wakeLine (.host n) = some u →
            exec (.debugMemoryAccess p va (some v)) s = .next u))))
    ∧ (s.host.up = true → s.boot.minimal = false → s.fw.running = true → let r := s.reply 2 0 []
      (∀ index : BitVec 8,
        let blocks := if index = 0xFF then [1, 2, 3, 4, 5, 6, 7] else [index.toNat]
        exec (.getMeasurements index) s = .next (s.reply 2 0 (signedBoth ((blocks.map s.measurement).flatten))))
      ∧ (∀ nonce, exec (.challenge nonce) s = .next (s.reply 2 0 (signedBoth nonce)))
      ∧ (∀ slot : BitVec 3,
        (slot.toNat < 2 → exec (.getCertificate slot) s = .next (s.reply 2 0 (Config.certChain slot.toNat)))
        ∧ (2 ≤ slot.toNat → exec (.getCertificate slot) s = .next (s.reply 2 3 [])))
      ∧ (2 ≤ s.sec.spdm.length → exec .keyExchange s = .next (s.reply 2 3 []))
      ∧ (s.sec.spdm.length < 2 →
        let n := s.sec.nextSpdm
        let secret := spdmSecret n (bytesOf 32 (Config.trueRandom s.freeCtr).toNat)
        exec .keyExchange s = .next { s.reply 2 0 (Config.dhePublic secret) with
          freeCtr := s.freeCtr + 1
          sec := { s.sec with spdm := s.sec.spdm ++ [n], nextSpdm := n + 1, dhe := s.sec.dhe.set n secret } })
      ∧ ∀ session stream,
        (session ∈ s.sec.spdm → exec (.ideKm session stream) s
          = .next { r with sec := { r.sec with ideKeys := r.sec.ideKeys ||| BitVec.ofNat 2 (1 <<< stream.val) } })
        ∧ (session ∉ s.sec.spdm → exec (.ideKm session stream) s = .next (s.reply 2 3 [])))
    ∧ (∀ index nonce slot session stream,
      ∀ c ∈ [Instr.getMeasurements index, .challenge nonce, .getCertificate slot, .keyExchange, .ideKm session stream],
      (s.host.up = false → exec c s = .next s)
      ∧ (s.host.up = true → s.boot.minimal = true ∨ s.fw.running = false → exec c s = .next (s.reply 2 3 [])))
    ∧ (∀ addr, exec (.entdaa addr) s
      = .next ({ s with mgmt := { s.mgmt with i3c := some addr.toNat } }.reply 1 0 (bytesOf 4 s.fuses.serial.toNat)))
    ∧ (s.mgmt.i3c.isSome = true →
      let off := decide (s.boot.minimal = true ∨ s.fw.running = false)
      exec .mctpControl s = .next (s.reply 1 0 [])
      ∧ exec .queryDeviceIdentifiers s = .next (s.reply 1 0 (bytesOf 2 0x5A32))
      ∧ exec .getFirmwareParameters s = .next (s.reply 1 0 (if off then [] else bytesOf 8 s.fw.version.toNat))
      ∧ exec .pldmUnsupported s = .next (s.reply 1 2 [])
      ∧ ∀ k, exec (.pldmSensorRead k) s
        = .next (if off then s.reply 1 1 [] else s.reply 1 0 (bytesOf 4 (wrapInt 32 (s.mgmt.sensors.value k)))))
    ∧ (s.mgmt.i3c = none → ∀ c ∈ [Instr.mctpControl, .queryDeviceIdentifiers, .getFirmwareParameters, .pldmUnsupported],
      exec c s = .next s)

/-- R379 to R383, R387, Tables 11-4 and 11-11: the copy engine moves tiles for the migration in turn, a tile at a time, and the destination
takes each. -/
def Obligations.TilesMigrate : Prop :=
  ∀ (s : State) (m : Migration) (rest : List Migration) (t : Nat) (data : List (BitVec 1024)), s.mm.migs = m :: rest →
    (∀ p k, m = .set p k →
      (s.sets.get? k = none ∨ (∃ e, s.sets.get? k = some e ∧ e.shadow = none) →
        exec (.tileMove t data) s = .next (s.endMig m) ∧ exec (.tileMoveCommit t) s = .next (s.endMig m))
      ∧ ∀ e h, s.sets.get? k = some e → e.shadow = some h →
        (h.tiles ≤ t ∨ t ∈ h.moved ∨ t ∈ h.held → exec (.tileMove t data) s = .next s)
        ∧ (t < h.tiles → t ∉ h.moved → t ∉ h.held → ∀ u at_, s.lift ((e.base + t * 2048) / 128) = .ok (u, at_) →
          exec (.tileMove t data) s
            = .next ((u.copyRow at_ ⟨at_.line0, (bufferPlace h.leaving t).1, (bufferPlace h.leaving t).2⟩ (u.carriesLines at_)).setSet k
              { e with shadow := some { h with held := t :: h.held } }))
        ∧ exec (.tileMoveCommit t) s = .next (s.afterMove (s.commitInSet k e h t)))
    ∧ (∀ p key src dst tiles held moved, m = .page p key src dst tiles held moved →
      (tiles ≤ t ∨ t ∈ moved ∨ t ∈ held → exec (.tileMove t data) s = .next s)
      ∧ (t < tiles → t ∉ moved → t ∉ held → ∀ u at_, s.lift ((src + t * 2048) / 128) = .ok (u, at_) →
        exec (.tileMove t data) s = .next (u.setMig m (some (.page p key src dst tiles (t :: held) moved))))
      ∧ (t ∉ held → exec (.tileMoveCommit t) s = .next s)
      ∧ (∀ a d, t ∈ held → s.tileOfLine ((src + t * 2048) / 128) = some a → s.placeOf (dst + t * 2048) = some d →
        s.memOpen a.ch = true → s.memOpen d.1 = true →
        let u := (s.copyRow a ⟨(dst + t * 2048) / 128, d.1, d.2⟩ (s.carriesLines a)).rehome [((src + t * 2048) / 128, (dst + t * 2048) / 128, 16)]
        (moved.length + 1 < tiles → exec (.tileMoveCommit t) s = .next (s.afterMove
          (u.setMig m (some (.page p key src dst tiles (held.filter (fun x => x ≠ t)) (t :: moved))))))
        ∧ (tiles ≤ moved.length + 1 → exec (.tileMoveCommit t) s = .next (s.afterMove
          ((((u.setMig m none).rehome [(src / 128, dst / 128, tiles * 16)]).rebase p key src dst).scrubRange src (tiles * 2048)))))
      ∧ (∀ a d, t ∈ held → s.tileOfLine ((src + t * 2048) / 128) = some a → s.placeOf (dst + t * 2048) = some d →
        s.memOpen a.ch = false ∨ s.memOpen d.1 = false → exec (.tileMoveCommit t) s = .next (s.afterMove s)))
    ∧ (∀ p key dst tiles moved, m = .recall p key dst tiles moved →
      exec (.tileMove t data) s = .next (s.afterMove (s.moveBack m p key dst tiles moved t data))
      ∧ exec (.tileMoveCommit t) s = .next s)
    ∧ (∀ p, m = .rekey p →
      exec (.tileMove t data) s = .next s
      ∧ (∀ f, s.flush (inLines (s.rangeLines p 0 windowEnd)) = (false, f) → exec (.tileMoveCommit t) s = .next f)
      ∧ ∀ f, s.flush (inLines (s.rangeLines p 0 windowEnd)) = (true, f) →
        let u := { f with mm := { f.mm with migs := f.mm.migs.filter (fun x => x.part ≠ p) } }
        (∀ v, u.rekey p = some v → exec (.tileMoveCommit t) s = .next v)
        ∧ (u.rekey p = none → exec (.tileMoveCommit t) s = .next f))
    ∧ (∀ p held moved, m = .detach p held moved →
      exec (.tileMove t data) s = .next (s.sendTile m p held moved t)
      ∧ (t ∉ held → exec (.tileMoveCommit t) s = .next s)
      ∧ (t ∈ held →
        ((∀ x ∈ s.detachTiles p, x = t ∨ x ∈ moved) → exec (.tileMoveCommit t) s = .next (s.endMig m))
        ∧ ((∃ x ∈ s.detachTiles p, x ≠ t ∧ x ∉ moved) → exec (.tileMoveCommit t) s
          = .next (s.setMig m (some (.detach p (held.filter (fun x => x ≠ t)) (t :: moved)))))))
    ∧ (∀ p n, m = .attach p n → exec (.tileMove t data) s = .next s ∧ exec (.tileMoveCommit t) s = .next s)
    ∧ (∀ ch, m = .leave ch → exec (.tileMove t data) s = .next s ∧ exec (.tileMoveCommit t) s = .next (s.leaveNow ch))

/-! ## Rules stated whole -/

/-- R70, R72: p0 reads as true in every lane and discards writes, and p1 to p7 hold what is written; a special register index that Table
3-2 does not list reads as zero, in a lane and for the group. -/
def Obligations.PredicatesAndSpecialRegistersRead : Prop :=
  (∀ (g : Group) (v : Mask), g.pred 0 = 0xFFFFFFFF ∧ g.putPred 0 v = g)
  ∧ (∀ (g : Group) (p q : Nat) (v : Mask), 1 ≤ p → p ≤ 7 → q ≤ 7 →
      (g.putPred p v).pred q = if q = p then v else g.pred q)
  ∧ ∀ (s : State) (r : GroupRef) (i : Ins) (x : Ctx), CanIssue s r i x → 0x10 ≤ i.a.toNat →
      (x.vOk 1 i.dst → exec (.s2v r i) s = .next (x.after (x.with32 (fun _ => 0))))
      ∧ (x.sel ≠ 0 → uOk 1 i.dst → exec (.s2u r i) s = .next (x.after (x.g.putU i.dst.toNat 0)))

/-- R118: a branch whose DIV entry would repeat the address of the DIV entry on top adds its lanes to that entry's mask, and nothing is
pushed, whatever the stack's depth. -/
def Obligations.RepeatedDivergenceMerges : Prop :=
  ∀ (s : State) (r : GroupRef) (i : Ins) (x : Ctx) (e : StackEntry) (l : List StackEntry), CanIssue s r i x → x.sel ≠ 0 →
    x.sel ≠ x.g.active → x.g.stack = e :: l → e.kind = .div →
    let merged := { x.g with stack := { e with mask := e.mask ||| x.sel } :: l, active := x.g.active &&& ~~~x.sel }
    (e.addr = x.nextPc + insOff24 i → exec (.bra r i) s = .next (x.after merged))
    ∧ (uOk 2 i.a → e.addr = x.U64 i.a → exec (.brx r i) s = .next (x.after merged))

/-- R46: a pour that names a node that is not POUR_ONLY, or a node outside the graph version, appends nothing and ends its task with
ACCESS_FAULT. -/
def Obligations.PourOfOtherNodesFaults : Prop :=
  ∀ (s : State) (r : GroupRef) (i : Ins) (x : Ctx), CanIssue s r i x → x.sel ≠ 0 →
    (insImmValue i = none → i.b.toNat + 3 ≤ 48) → (insNoC i = false → uOk 1 i.c) →
    ((s.stepVer x.t.cmd).nodes[x.pourNode.1]? = none
      ∨ ∃ n, (s.stepVer x.t.cmd).nodes[x.pourNode.1]? = some n ∧ n.pourOnly = false) →
    exec (.pour r i) s = .next (s.endTask x.b.task .accessFault x.g.pc)

/-- R88, R102: a load, store or prefetch of which a selected lane's address is not a multiple of the width, or does not fit in 48 bits, and an
atomic of which one is misaligned or lies on a read-only page, ends its task with ACCESS_FAULT and accesses nothing. -/
def Obligations.MisalignedAccessesFault : Prop :=
  ∀ (s : State) (r : GroupRef) (i : Ins) (x : Ctx), CanIssue s r i x → x.vOk 2 i.a →
    let ends := Host.Outcome.next (s.endTask x.b.task .accessFault x.g.pc)
    (field i.mod 3 3 ≤ 4 → (∃ l ∈ lanesIn x.sel, 2 ^ 48 ≤ x.globalAt l ∨ x.globalAt l % insWidth i ≠ 0) →
      exec (.prefetch r i) s = ends
      ∧ (x.vOk (regsFor (insWidth i)) i.dst → exec (.ld r i) s = ends
        ∧ (cvtOk (field i.mod 7 2) (field i.mod 9 4) (insWidth i) = true → exec (.st r i) s = ends)))
    ∧ ∀ p ∈ ([(.atomAddU32, 4, false), (.atomMinS32, 4, false), (.atomMinU32, 4, false), (.atomMaxS32, 4, false),
           (.atomMaxU32, 4, false), (.atomAndB32, 4, false), (.atomOrB32, 4, false), (.atomXorB32, 4, false),
           (.atomExchB32, 4, false), (.atomCasB32, 4, true), (.atomAddF32, 4, false), (.atomAddU64, 8, false),
           (.atomMinS64, 8, false), (.atomMinU64, 8, false), (.atomMaxS64, 8, false), (.atomMaxU64, 8, false),
           (.atomAndB64, 8, false), (.atomOrB64, 8, false), (.atomXorB64, 8, false), (.atomExchB64, 8, false),
           (.atomCasB64, 8, true), (.atomCasB128, 16, true), (.fxadd128, 16, false)] :
          List ((GroupRef → Ins → Instr) × Nat × Bool)),
      let addr := fun l => (laneAt (x.g.vreg (i.a.toNat + 1)) l ++ laneAt (x.g.vreg i.a.toNat) l : DWord).toNat
      (i.mod.getLsbD 4 = true → x.vOk (regsFor p.2.1) i.dst) →
      (insImmValue i = none → x.vOk (regsFor p.2.1) i.b) → (p.2.2 = true → insNoC i = false → x.vOk (regsFor p.2.1) i.c) →
      (∃ l ∈ lanesIn x.sel, addr l % p.2.1 ≠ 0 ∨ ∃ h, s.locate x.t.part (addr l) = some (h, false)) →
      exec (p.1 r i) s = ends

/-! ## What commands leave alone -/

/-- R544: an instruction other than POUR changes only the groups, requests and counters that it names: of the whole machine its own
task's blocks and record, the queues of its matrix unit, its core's L1 and the lists of requests. Every byte of device and host memory, every
cached line, page, register outside the groups and the log are as before, and so are every other task and its blocks, local memory and
accumulators, but that saved entries of a restored block may enter the room that an ended task leaves in a queue (R178; log 106, the
model's choice). -/
def Obligations.InstructionsChangeOnlyTheirTask : Prop :=
  ∀ (c : GroupRef → Ins → Instr), c ∈ instructionCommands → ∀ (s t : State) (r : GroupRef) (i : Ins), exec (c r i) s = .next t →
    t = { s with blocks := t.blocks, tasks := t.tasks, mxus := t.mxus, cores := t.cores, reqs := t.reqs, spents := t.spents,
                 tileOps := t.tileOps, nextId := t.nextId, freeCtr := t.freeCtr }
    ∧ (∀ a, t.hbm.get 0 a = s.hbm.get 0 a ∧ t.hostMem.get 0 a = s.hostMem.get 0 a)
    ∧ (s.blocks.get? r.block = none → t = s)
    ∧ ∀ mine, s.blocks.get? r.block = some mine →
      (∀ k, k ≠ mine.task → t.tasks.get? k = s.tasks.get? k)
      ∧ ∀ b other, s.blocks.get? b = some other → other.task ≠ mine.task →
        ∃ l, l.Sublist other.saved ∧ t.blocks.get? b = some { other with saved := l }

/-- What a write of memory does, byte by byte: the bytes of a line that its mask selects, or of a run in host memory, take the written
value, and every other byte reads as before, through the present key of its place (R300). A memory controller's issue changes no byte but
those of the write it issues, where no transaction waits for the room that it makes. -/
def Obligations.MemoryWritesChangeOnlyTheirBytes : Prop :=
  (∀ (s : State) (dpa tile line : Nat) (d : BitVec 1024) (m : BitVec 128), line < 16 →
    let t := s.hbmWrite dpa tile line d m
    (∀ i, i < 128 → lineNum (t.plainLine dpa tile line) i 1
      = if m.getLsbD i then lineNum d i 1 else lineNum (s.plainLine dpa tile line) i 1)
    ∧ (∀ a k l, l < 16 → (k, l) ≠ (tile, line) → t.plainLine a k l = s.plainLine a k l)
    ∧ ∀ a, (∀ i, i < 128 → (sectorsOf m).getLsbD (i / 32) = true → a ≠ hbmKey tile (128 * line + i)) → t.hbm.get 0 a = s.hbm.get 0 a)
  ∧ (∀ (s : State) (a : Nat) (v : List Byte),
    (∀ i, i < v.length → (s.hostWrite a v).hostMem.get 0 (a + i) = v.getD i 0)
    ∧ ∀ b, b < a ∨ a + v.length ≤ b → (s.hostWrite a v).hostMem.get 0 b = s.hostMem.get 0 b)
  ∧ ∀ (s t : State) (pc : Fin 512), s.txns.rows = [] → exec (.mcIssue pc) s = .next t →
    (∀ a, t.hostMem.get 0 a = s.hostMem.get 0 a)
    ∧ (∀ j e i, (s.pseudoChan pc).pick = some (j, e) → e.writes = true → s.memOpen (pc.val / 2) = true → e.line < 16 → i < 128 →
      lineNum (t.plainLine e.dpaLine (tileKey e.ch e.row) e.line) i 1
        = if e.mask.getLsbD i then lineNum e.data i 1 else lineNum (s.plainLine e.dpaLine (tileKey e.ch e.row) e.line) i 1)
    ∧ ∀ a k l, l < 16 →
      (∀ j e, (s.pseudoChan pc).pick = some (j, e) → e.writes = true → (k, l) ≠ (tileKey e.ch e.row, e.line)) →
      (∀ j e, (s.pseudoChan pc).pick = some (j, e) → e.writes = true → e.line < 16) →
      t.plainLine a k l = s.plainLine a k l

/-! ## Reset and soundness -/

/-- The machine at reset. R71, R76, R373, R531, R559 and Tables 16-7 and 18-5 give the values: no partition, pool, block or queue exists, the
device is OFF with the host link down, nothing has failed and no start has been counted; every byte of memory reads as zero (log 8, log 9,
the model's choice), nothing waits, the fuses are those of a grade
(R3, R4), and the state is sound. -/
def Obligations.ResetState : Prop :=
  State.reset.pending = [] ∧ State.reset.sound ∧ State.reset.fuses.wf = true
  ∧ (∀ a, State.reset.hbm.get 0 a = 0 ∧ State.reset.hostMem.get 0 a = 0)
  ∧ (∀ k, State.reset.blocks.get? k = none ∧ State.reset.tasks.get? k = none ∧ State.reset.cmds.get? k = none
    ∧ State.reset.queues.get? k = none ∧ State.reset.pools.get? k = none ∧ State.reset.parts.get? k = none)
  ∧ State.reset.host.up = false ∧ State.reset.boot.running = false ∧ State.reset.boot.ready = false
  ∧ State.reset.boot.fails = 0 ∧ State.reset.boot.starts = 0 ∧ State.reset.fw.fatal = false ∧ State.reset.flash.log = []
  ∧ State.reset.power.state = .off ∧ State.reset.pair.state = .unpaired
  ∧ ∀ c, (State.reset.quadL1.get 64 c) = 64

/-- From every state, every command ends in a next state, which holds the same queue of commands and has given out no SEQ of the log twice;
where device memory, host memory and the log are sound they stay so; and no command changes a fuse but the last stage of a start, which only
raises the anti-rollback counter (R540, R542). A step of the block keeps the same, with the compute quads that the grade leaves (R3, R4), and takes the front command away. -/
def Obligations.EveryCommandKeepsTheMachineSound : Prop :=
  (∀ (c : Instr) (s : State), (∀ rep, c ≠ .startStageAdvance rep) → Kept s (exec c s))
  ∧ (∀ (rep : StageReport) (s : State), ∃ t, exec (.startStageAdvance rep) s = .next t ∧ t.pending = s.pending
    ∧ s.flash.nextSeq ≤ t.flash.nextSeq ∧ (s.sound → t.sound)
    ∧ ∃ n, s.fuses.rollback ≤ n ∧ t.fuses = { s.fuses with rollback := n })
  ∧ ∀ (s t : State), s.sound → step s = .next t → t.sound ∧ t.pending = s.pending.tail ∧ t.fuses.wf = s.fuses.wf
end

