-- ==== Sys2Proof/Laws/Issue.lean ====
section
/-! SUPPORT. How an instruction issues: one lemma for what a group that can issue sees, one for each operand form, and one for each shape
of instruction. -/

namespace Sys2Proof.Machine

variable {s t : State} {r : GroupRef} {i : Ins} {x : Ctx} {k n : Nat} {f : BitVec 8}

theorem ctx?_of_canIssue (h : CanIssue s r i x) : s.ctx? r i = some x := by
  obtain ⟨hs, hr, hi, hb, hg, ht, h1, h2, h3, h4, h5, h6, h7⟩ := h
  cases x
  simp_all [State.ctx?]

theorem issue_next {body : Ctx → Except Stop State} (h : CanIssue s r i x) (hb : body x = .ok t) :
    issue r i body s = .next t := by
  simp [issue, ctx?_of_canIssue h, h.fetched, hb]

theorem issue_fault {body : Ctx → Except Stop State} {st : Status} (h : CanIssue s r i x)
    (hb : body x = .error (.fault st)) : issue r i body s = .next (s.endTask x.b.task st x.g.pc) := by
  simp [issue, ctx?_of_canIssue h, h.fetched, hb]

theorem issue_wait {body : Ctx → Except Stop State} (h : CanIssue s r i x) (hb : body x = .error .wait) :
    issue r i body s = .next s := by
  simp [issue, ctx?_of_canIssue h, h.fetched, hb]

theorem ok_bind {ε α β : Type} (a : α) (g : α → Except ε β) : (Except.ok a >>= g) = g a := rfl
theorem bind_of_ok {ε α β : Type} {m : Except ε α} {a : α} (h : m = .ok a) (g : α → Except ε β) : (m >>= g) = g a := by rw [h]; rfl
theorem pure_ok {ε α : Type} (a : α) : (pure a : Except ε α) = .ok a := rfl

theorem require_true {c : Bool} (h : c = true) : require c = .ok () := by simp [require, h]
theorem await_true {c : Bool} (h : c = true) : await c = .ok () := by simp [await, h]

/-! ## Operands -/

theorem vTuple_ok (h : x.vOk k f) : x.vTuple k f = .ok f.toNat := by
  obtain ⟨h1, h2, h3⟩ := h
  have e1 : (decide (f.toNat + k ≤ x.vLimit) && (decide (k = 1) || (decide (f.toNat ≠ 0) && decide (f.toNat % k = 0)))) = true := by
    rw [Bool.and_eq_true]
    exact ⟨decide_eq_true h1, by simpa using h2⟩
  have e2 : ((List.range k).all (fun j => !x.g.isBusy (f.toNat + j))) = true := by
    simpa using fun j hj => h3 j hj
  simp only [Ctx.vTuple, require_true e1, await_true e2]
  rfl

theorem uTuple_ok (h : uOk k f) : x.uTuple k f = .ok f.toNat := by
  obtain ⟨h1, h2⟩ := h
  have e1 : (decide (f.toNat + k ≤ 48) && (decide (k = 1) || (decide (f.toNat ≠ 0) && decide (f.toNat % k = 0)))) = true := by
    rw [Bool.and_eq_true]
    exact ⟨decide_eq_true h1, by simpa using h2⟩
  simp only [Ctx.uTuple, require_true e1]
  rfl

theorem pField_ok (h : f.toNat ≤ 7) : x.pField f = .ok f.toNat := by
  simp only [Ctx.pField, require_true (decide_eq_true h)]
  rfl

theorem v32_ok (h : x.vOk 1 f) : x.v32 f = .ok (fun l => laneAt (x.g.vreg f.toNat) l) := by
  simp only [Ctx.v32, vTuple_ok h]
  rfl

theorem v64_ok (h : x.vOk 2 f) :
    x.v64 f = .ok (fun l => laneAt (x.g.vreg (f.toNat + 1)) l ++ laneAt (x.g.vreg f.toNat) l) := by
  simp only [Ctx.v64, vTuple_ok h]
  rfl

theorem u32_ok (h : uOk 1 f) : x.u32 f = .ok (x.g.ureg f.toNat) := by
  simp only [Ctx.u32, uTuple_ok h]
  rfl

theorem u64_ok (h : uOk 2 f) : x.u64 f = .ok (x.U64 f) := by
  simp only [Ctx.u64, uTuple_ok h]
  rfl

theorem fsrc32_ok (h : x.srcOk n 1 f) : x.fsrc32 n f = .ok (x.val32 n f) := by
  unfold Ctx.fsrc32 Ctx.val32
  unfold Ctx.srcOk at h
  split at h <;> rename_i hb <;> simp only [hb, if_true]
  · simp only [u32_ok h]; rfl
  · simp only [Bool.false_eq_true, if_false, v32_ok h]

theorem fsrc64_ok (h : x.srcOk n 2 f) : x.fsrc64 n f = .ok (x.val64 n f) := by
  unfold Ctx.fsrc64 Ctx.val64
  unfold Ctx.srcOk at h
  split at h <;> rename_i hb <;> simp only [hb, if_true]
  · simp only [u64_ok h]; rfl
  · simp only [Bool.false_eq_true, if_false, v64_ok h]

theorem srcA_ok (h : x.aOk 1) : x.srcA = .ok x.A := fsrc32_ok h
theorem pairA_ok (h : x.aOk 2) : x.pairA = .ok x.AA := fsrc64_ok h

theorem srcB_ok (h : x.bOk 1) : x.srcB = .ok x.B := by
  unfold Ctx.srcB Ctx.B
  cases e : insImmValue x.i with
  | some w => rfl
  | none => exact fsrc32_ok (h e)

theorem pairB_ok (h : x.bOk 2) : x.pairB = .ok x.BB := by
  unfold Ctx.pairB Ctx.BB
  cases e : insImmValue x.i with
  | some w => rfl
  | none => exact fsrc64_ok (h e)

theorem srcC_ok (h : x.cOk 1) : x.srcC = .ok x.C := by
  unfold Ctx.srcC Ctx.C
  cases e : insNoC x.i with
  | true => rfl
  | false => exact fsrc32_ok (h e)

theorem pairC_ok (h : x.cOk 2) : x.pairC = .ok x.CC := by
  unfold Ctx.pairC Ctx.CC
  cases e : insNoC x.i with
  | true => rfl
  | false => exact fsrc64_ok (h e)

theorem uB_ok (h : x.ubOk 1) : x.uB = .ok x.UB := by
  unfold Ctx.uB Ctx.UB
  cases e : insImmValue x.i with
  | some w => rfl
  | none => exact u32_ok (h e)

/-! ## Results -/

theorem done_eq (g : Group) : x.done g = .ok (x.after g) := rfl

theorem write32_ok (h : x.vOk 1 x.i.dst) (v : Nat → Word) : x.write32 v = .ok (x.after (x.with32 v)) := by
  simp only [Ctx.write32, vTuple_ok h]
  rfl

theorem write64_ok (h : x.vOk 2 x.i.dst) (v : Nat → DWord) : x.write64 v = .ok (x.after (x.with64 v)) := by
  simp only [Ctx.write64, vTuple_ok h]
  rfl

theorem writeP_ok (h : x.i.dst.toNat ≤ 7) (v : Nat → Bool) : x.writeP v = .ok (x.after (x.withP v)) := by
  simp only [Ctx.writeP, pField_ok h]
  rfl

theorem valu1_ok (ha : x.aOk 1) (hd : x.vOk 1 x.i.dst) (op : Word → Word) :
    valu1 op x = .ok (x.after (x.with32 (fun l => op (x.A l)))) := by
  simp only [valu1, srcA_ok ha]
  exact write32_ok hd _

theorem valu2_ok (ha : x.aOk 1) (hb : x.bOk 1) (hd : x.vOk 1 x.i.dst) (op : Word → Word → Word) :
    valu2 op x = .ok (x.after (x.with32 (fun l => op (x.A l) (x.B l)))) := by
  simp only [valu2, srcA_ok ha, srcB_ok hb]
  exact write32_ok hd _

theorem shuffle_ok (ha : x.aOk 1) (hb : x.bOk 1) (hd : x.vOk 1 x.i.dst) (op : Nat → Word → Int) :
    shuffle op x = .ok (x.after (x.with32 (fun l => x.A (shflLane x.sel l (op l (x.B l)))))) := by
  simp only [shuffle, srcA_ok ha, srcB_ok hb]
  exact write32_ok hd _

theorem valu3_ok (ha : x.aOk 1) (hb : x.bOk 1) (hc : x.cOk 1) (hd : x.vOk 1 x.i.dst) (op : Word → Word → Word → Word) :
    valu3 op x = .ok (x.after (x.with32 (fun l => op (x.A l) (x.B l) (x.C l)))) := by
  simp only [valu3, srcA_ok ha, srcB_ok hb, srcC_ok hc]
  exact write32_ok hd _

theorem valuPair_ok (ha : x.aOk 2) (hb : x.bOk 2) (hd : x.vOk 2 x.i.dst) (op : DWord → DWord → DWord) :
    valuPair op x = .ok (x.after (x.with64 (fun l => op (x.AA l) (x.BB l)))) := by
  simp only [valuPair, pairA_ok ha, pairB_ok hb]
  exact write64_ok hd _

theorem valuWide_ok (ha : x.aOk 1) (hb : x.bOk 1) (hc : x.cOk 2) (hd : x.vOk 2 x.i.dst) (op : Word → Word → DWord → DWord) :
    valuWide op x = .ok (x.after (x.with64 (fun l => op (x.A l) (x.B l) (x.CC l)))) := by
  simp only [valuWide, srcA_ok ha, srcB_ok hb, pairC_ok hc]
  exact write64_ok hd _

theorem setPred_ok {c : Nat → Option Bool} (hc : (c 0).isSome = true) (h : x.i.dst.toNat ≤ 7) :
    setPred c x = .ok (x.after (x.withP (fun l => (c l).getD false))) := by
  simp only [setPred, require_true hc]
  exact writeP_ok h _

theorem forGroup_ok {body : Except Stop State} (h : x.sel ≠ 0) : x.forGroup body = body := if_neg h

theorem forGroup_none {body : Except Stop State} (h : x.sel = 0) : x.forGroup body = .ok (x.after x.g) := by
  exact if_pos h

end Sys2Proof.Machine
end

