-- ==== Sys2Proof/Laws/Table.lean ====
section
/-! SUPPORT. The laws of sparse tables: read after write, and that every write keeps the canonical form. -/

namespace Sys2Proof.Machine.Tab

variable {α β : Type}

/-! ## Read after write -/

theorem findIn_insertIn_self (k : Nat) (v : α) (l : List (Nat × α)) : findIn k (insertIn k v l) = some v := by
  induction l with
  | nil => simp [insertIn, findIn]
  | cons r t ih =>
    unfold insertIn
    split
    · simp [findIn]
    · split
      · simp [findIn]
      · simp [findIn, *]

theorem findIn_insertIn_ne {k j : Nat} (h : j ≠ k) (v : α) (l : List (Nat × α)) :
    findIn j (insertIn k v l) = findIn j l := by
  induction l with
  | nil => simp [insertIn, findIn, h.symm]
  | cons r t ih =>
    unfold insertIn
    split
    · simp [findIn, h.symm]
    · split
      · rename_i h1 h2
        have : r.1 ≠ j := by omega
        simp [findIn, h.symm, this]
      · simp [findIn, ih]

theorem findIn_filter_ne {k j : Nat} (h : j ≠ k) (l : List (Nat × α)) :
    findIn j (l.filter (fun r => !(r.1 == k))) = findIn j l := by
  induction l with
  | nil => rfl
  | cons r t ih =>
    by_cases e : r.1 = k
    · have : r.1 ≠ j := by omega
      simp [e, findIn, ih, h.symm]
    · simp [e, findIn, ih]

theorem findIn_filter_self (k : Nat) (l : List (Nat × α)) : findIn k (l.filter (fun r => !(r.1 == k))) = none := by
  induction l with
  | nil => rfl
  | cons r t ih =>
    by_cases e : r.1 = k
    · simp [e, ih]
    · simp [e, findIn, ih]

@[simp] theorem get?_empty (k : Nat) : (Tab.empty : Tab α).get? k = none := rfl
@[simp] theorem get_empty (d : α) (k : Nat) : Tab.empty.get d k = d := rfl
@[simp] theorem get?_set_self (t : Tab α) (k : Nat) (v : α) : (t.set k v).get? k = some v := findIn_insertIn_self k v t.rows
theorem get?_set_ne (t : Tab α) {k j : Nat} (h : j ≠ k) (v : α) : (t.set k v).get? j = t.get? j := findIn_insertIn_ne h v t.rows
@[simp] theorem get?_erase_self (t : Tab α) (k : Nat) : (t.erase k).get? k = none := findIn_filter_self k t.rows
theorem get?_erase_ne (t : Tab α) {k j : Nat} (h : j ≠ k) : (t.erase k).get? j = t.get? j := findIn_filter_ne h t.rows

@[simp] theorem get_set_self (d : α) (t : Tab α) (k : Nat) (v : α) : (t.set k v).get d k = v := by simp [get]
theorem get_set_ne (d : α) (t : Tab α) {k j : Nat} (h : j ≠ k) (v : α) : (t.set k v).get d j = t.get d j := by
  simp [get, get?_set_ne t h]
@[simp] theorem get_put_self [DecidableEq α] (d : α) (t : Tab α) (k : Nat) (v : α) : (t.put d k v).get d k = v := by
  unfold put; split <;> simp_all [get]
theorem get_put_ne [DecidableEq α] (d : α) (t : Tab α) {k j : Nat} (h : j ≠ k) (v : α) :
    (t.put d k v).get d j = t.get d j := by
  unfold put; split <;> simp [get, get?_set_ne t h, get?_erase_ne t h]

/-- A read after writes at a list of keys that do not include it. -/
theorem get_putAll_of_not_mem [DecidableEq α] (d : α) (kvs : List (Nat × α)) (t : Tab α) {j : Nat}
    (h : ∀ kv ∈ kvs, kv.1 ≠ j) : (t.putAll d kvs).get d j = t.get d j := by
  induction kvs generalizing t with
  | nil => rfl
  | cons kv l ih =>
    have h1 : j ≠ kv.1 := fun e => h kv (by simp) e.symm
    have := ih (t.put d kv.1 kv.2) (fun x hx => h x (by simp [hx]))
    simpa [putAll, get_put_ne d t h1] using this

/-! ## The canonical form -/

theorem risingFrom_mono {lo lo' : Nat} (h : lo' ≤ lo) : ∀ {l : List (Nat × α)}, risingFrom lo l = true → risingFrom lo' l = true
  | [], _ => rfl
  | r :: t, hr => by
    simp only [risingFrom, Bool.and_eq_true, decide_eq_true_eq] at *
    exact ⟨le_trans h hr.1, hr.2⟩

theorem risingFrom_insertIn (k : Nat) (v : α) :
    ∀ (lo : Nat) (l : List (Nat × α)), lo ≤ k → risingFrom lo l = true → risingFrom lo (insertIn k v l) = true
  | lo, [], hk, _ => by simp [insertIn, risingFrom, hk]
  | lo, r :: t, hk, hr => by
    simp only [risingFrom, Bool.and_eq_true, decide_eq_true_eq] at hr
    unfold insertIn
    split
    · simp [risingFrom, hk, hr.2]; omega
    · split
      · rename_i h2
        subst h2; simp [risingFrom, hk, hr.2]
      · simp only [risingFrom, Bool.and_eq_true, decide_eq_true_eq]
        exact ⟨hr.1, risingFrom_insertIn k v _ t (by omega) hr.2⟩

theorem risingFrom_filter (p : Nat × α → Bool) :
    ∀ (lo : Nat) (l : List (Nat × α)), risingFrom lo l = true → risingFrom lo (l.filter p) = true
  | _, [], _ => rfl
  | lo, r :: t, hr => by
    simp only [risingFrom, Bool.and_eq_true, decide_eq_true_eq] at hr
    have := risingFrom_filter p _ t hr.2
    simp only [List.filter]
    split
    · simp [risingFrom, hr.1, this]
    · exact risingFrom_mono (by omega) this

theorem mem_insertIn {k : Nat} {v : α} {r : Nat × α} : ∀ {l : List (Nat × α)}, r ∈ insertIn k v l → r = (k, v) ∨ r ∈ l
  | [], h => by simp [insertIn] at h; exact .inl h
  | a :: t, h => by
    unfold insertIn at h
    split at h
    · simpa using h
    · split at h
      · simp only [List.mem_cons] at h ⊢; tauto
      · simp only [List.mem_cons] at h ⊢
        rcases h with h | h
        · exact .inr (.inl h)
        · rcases mem_insertIn h with h | h <;> tauto

variable [DecidableEq α] {d : α} {t : Tab α}

@[simp] theorem wf_empty : (Tab.empty : Tab α).wf d = true := rfl

theorem wf_erase (h : t.wf d = true) (k : Nat) : (t.erase k).wf d = true := by
  simp only [wf, erase, Bool.and_eq_true, List.all_eq_true] at *
  exact ⟨risingFrom_filter _ _ _ h.1, fun r hr => h.2 r (List.mem_of_mem_filter hr)⟩

theorem wf_keep (h : t.wf d = true) (p : Nat → α → Bool) : (t.keep p).wf d = true := by
  simp only [wf, keep, Bool.and_eq_true, List.all_eq_true] at *
  exact ⟨risingFrom_filter _ _ _ h.1, fun r hr => h.2 r (List.mem_of_mem_filter hr)⟩

theorem wf_set (h : t.wf d = true) {k : Nat} {v : α} (hv : v ≠ d) : (t.set k v).wf d = true := by
  simp only [wf, set, Bool.and_eq_true, List.all_eq_true] at *
  refine ⟨risingFrom_insertIn _ _ _ _ (Nat.zero_le _) h.1, fun r hr => ?_⟩
  rcases mem_insertIn hr with rfl | hr
  · simpa using hv
  · exact h.2 r hr

theorem wf_put (h : t.wf d = true) (k : Nat) (v : α) : (t.put d k v).wf d = true := by
  unfold put; split
  · exact wf_erase h k
  · exact wf_set h (by assumption)

theorem wf_upd (h : t.wf d = true) (k : Nat) (f : α → α) : (t.upd d k f).wf d = true := wf_put h k _

theorem wf_putAll (kvs : List (Nat × α)) : ∀ {t : Tab α}, t.wf d = true → (t.putAll d kvs).wf d = true := by
  induction kvs with
  | nil => exact id
  | cons kv l ih => exact fun h => ih (wf_put h kv.1 kv.2)

end Sys2Proof.Machine.Tab
end

