-- ==== Sys2Proof/Laws/Kernel.lean ====
section
/-! SUPPORT. The shared operations of the instructions that act for a group or reach memory: what each answers once its operands are
allowed. -/

namespace Sys2Proof.Machine

theorem writeU_ok {x : Ctx} (h : uOk 1 x.i.dst) (v : Word) : x.writeU v = .ok (x.after (x.g.putU x.i.dst.toNat v)) := by
  simp only [Ctx.writeU, uTuple_ok h, ok_bind]; rfl

theorem writeU64_ok {x : Ctx} (h : uOk 2 x.i.dst) (v : DWord) : x.writeU64 v = .ok (x.after (x.withUU v)) := by
  simp only [Ctx.writeU64, uTuple_ok h, ok_bind]; rfl

theorem uB64_ok {x : Ctx} (h : x.ubOk 2) : x.uB64 = .ok x.UBB := by
  unfold Ctx.uB64 Ctx.UBB
  cases e : insImmValue x.i with
  | some w => rfl
  | none => exact u64_ok (h e)

theorem salu2_ok {x : Ctx} (hn : x.sel ≠ 0) (hd : uOk 1 x.i.dst) (ha : uOk 1 x.i.a) (hb : x.ubOk 1) (f : Word → Word → Word) :
    salu2 f x = .ok (x.after (x.g.putU x.i.dst.toNat (f (x.g.ureg x.i.a.toNat) x.UB))) := by
  simp only [salu2, forGroup_ok hn, u32_ok ha, uB_ok hb, ok_bind]
  exact writeU_ok hd _

theorem push_ok {x : Ctx} (e : StackEntry) (h : x.g.stack.length < 32) : x.push e = .ok (e :: x.g.stack) := by
  simp only [Ctx.push, require_true (decide_eq_true h)]; rfl

theorem push_full {x : Ctx} (e : StackEntry) (h : x.g.stack.length = 32) : x.push e = .error (.fault .accessFault) := by
  simp only [Ctx.push, h]; rfl

theorem branch_all {x : Ctx} (t : DWord) (hn : x.sel ≠ 0) (h : x.sel = x.g.active) :
    x.branch t = .ok (x.s.putGroup x.r { x.g with pc := t }) := by
  unfold Ctx.branch; rw [if_neg hn, if_pos h]; rfl

theorem branch_some {x : Ctx} (t : DWord) (hn : x.sel ≠ 0) (h : x.sel ≠ x.g.active) (hl : (x.branchStack t).length ≤ 32) :
    x.branch t = .ok (x.after { x.g with stack := x.branchStack t, active := x.g.active &&& ~~~x.sel }) := by
  unfold Ctx.branch; rw [if_neg hn, if_neg h]
  unfold Ctx.branchStack at *
  cases e : x.g.stack with
  | nil => simp only [e, Ctx.push]; rfl
  | cons a l =>
    simp only [e] at hl ⊢
    split at hl <;> rename_i hc
    · simp only [if_pos hc]; rfl
    · simp only [if_neg hc]
      have : x.g.stack.length < 32 := by rw [e]; simp at hl ⊢; omega
      simp only [push_ok _ this, e, ok_bind]; rfl

theorem unwind_cons {g : Group} {e l} (h : e.mask &&& g.live ≠ 0) : g.unwind (e :: l) = { g with stack := l, active := e.mask &&& g.live, pc := if e.kind = .join then e.addr + 8 else e.addr } := by
  simp only [Group.unwind]; rw [if_neg h]

theorem width_ok {x : Ctx} (h : field x.i.mod 3 3 ≤ 4) : x.width = .ok (insWidth x.i) := by
  unfold Ctx.width widthOf insWidth; rw [if_pos h]; rfl

theorem localAddr_ok {x : Ctx} {w : Nat} (ha : x.vOk 1 x.i.a) (h : x.localOk w) : x.localAddr w = .ok x.localAt := by
  have e : ((lanesIn x.sel).all (fun l => decide (x.localAt l % w = 0) && decide (x.localAt l + w ≤ x.b.lmemSize))) = true := by
    simp only [List.all_eq_true, Bool.and_eq_true]
    exact fun l hl => ⟨decide_eq_true (h l hl).1, decide_eq_true (h l hl).2⟩
  simp only [Ctx.localAddr, v32_ok ha, ok_bind]
  have := require_true e
  unfold Ctx.localAt at this
  simp only [this]; rfl

theorem globalAddr_ok {x : Ctx} (h : x.vOk 2 x.i.a) : x.globalAddr = .ok x.globalAt := by
  simp only [Ctx.globalAddr, v64_ok h, ok_bind]; rfl

theorem checkLanes_ok {x : Ctx} {f : Nat → Nat} {w : Nat} {wr : Bool} (h : x.lanesOk f w wr) : x.checkLanes f w wr = .ok () := by
  refine require_true ?_
  simp only [List.all_eq_true, Bool.and_eq_true]
  intro l hl
  obtain ⟨h1, h2, hh, rw', h3, h4⟩ := h l hl
  rw [h3]
  refine ⟨(Bool.and_eq_true _ _).mpr ⟨decide_eq_true h1, decide_eq_true h2⟩, ?_⟩
  cases wr <;> simp_all

theorem gateAll_ok {x : Ctx} (h : x.ungated) : x.gateAll = .ok () := await_true (by simpa [Ctx.ungated] using h)

theorem gateWrites_ok {x : Ctx} (h : x.writesFree) : x.gateWrites = .ok () := await_true (by simpa [Ctx.writesFree, and_assoc] using h)

theorem released_ok {x : Ctx} {n : Nat} (h : x.s.releaseSet x.r n = []) : x.released n = .ok () := await_true (by simp [h])

theorem atomic_ok {x : Ctx} (op : AtomOp) (w : Nat) (ha : x.vOk 2 x.i.a) (hu : x.ungated)
   (hl : x.lanesOk (fun l => (laneAt (x.g.vreg (x.i.a.toNat + 1)) l ++ laneAt (x.g.vreg x.i.a.toNat) l : DWord).toNat) w true)
   (hd : x.i.mod.getLsbD 4 = true → x.vOk (regsFor w) x.i.dst)
   (hb : insImmValue x.i = none → x.vOk (regsFor w) x.i.b)
   (hc : op = .cas → insNoC x.i = false → x.vOk (regsFor w) x.i.c) :
   atomic op w x = .ok (((lineGroups (fun l => (laneAt (x.g.vreg (x.i.a.toNat + 1)) l ++ laneAt (x.g.vreg x.i.a.toNat) l : DWord).toNat) (lanesIn x.sel)).foldl
    (x.atomLanes op w (if x.i.mod.getLsbD 4 then some x.i.dst.toNat else none) (fun l => match insImmValue x.i with
        | some v => wrapInt (8 * w) v.toInt
        | none => x.vNum x.i.b.toNat (regsFor w) l) (fun l => if op = .cas ∧ insNoC x.i = false then x.vNum x.i.c.toNat (regsFor w) l else 0)
        (if x.i.mod.getLsbD 3 then x.heldAt (field x.i.mod 0 2) else x.held)) x.s).updGroup x.r
        (fun g => { g with pc := x.nextPc })) := by
  have e2 : x.atomB w = .ok (fun l => match insImmValue x.i with
        | some v => wrapInt (8 * w) v.toInt
        | none => x.vNum x.i.b.toNat (regsFor w) l) := by
    unfold Ctx.atomB
    cases e : insImmValue x.i with
    | some v => rfl
    | none => simp only [vTuple_ok (hb e)]; rfl
  have e3 (hq : op = .cas) : x.atomC w = .ok (fun l => if insNoC x.i = false then x.vNum x.i.c.toNat (regsFor w) l else 0) := by
    cases hn : insNoC x.i with
      | true => simp only [Ctx.atomC, hn, if_true]; rfl
      | false => simp only [if_true, Ctx.atomC, hn, vTuple_ok (hc hq hn), Bool.false_eq_true, if_false]; rfl
  unfold atomic
  by_cases h4 : x.i.mod.getLsbD 4 = true <;> by_cases hq : op = .cas <;> by_cases h3 : x.i.mod.getLsbD 3 = true
  all_goals
    simp only [h4, h3, hq, if_true, if_false, Bool.false_eq_true, pure_ok, ok_bind, v64_ok ha, true_and, false_and, gateAll_ok hu]
    try rw [vTuple_ok (hd h4)]
    try simp only [ok_bind]
    refine (bind_of_ok e2 _).trans ?_
    try refine (bind_of_ok (e3 hq) _).trans ?_
    refine (bind_of_ok (checkLanes_ok hl) _).trans ?_
    rfl

theorem raise_frame {s : State} {t f} : (s.raise t f).nextId = s.nextId ∧ (s.raise t f).reqs = s.reqs ∧ (s.raise t f).hbm = s.hbm ∧ (s.raise t f).tss = s.tss ∧ (s.raise t f).cores = s.cores := by
  unfold State.raise; split <;> simp [State.setTask]

theorem noteAccess_frame {s : State} {t p va h} : (s.noteAccess t p va h).nextId = s.nextId ∧ (s.noteAccess t p va h).reqs = s.reqs ∧ (s.noteAccess t p va h).hbm = s.hbm ∧ (s.noteAccess t p va h).tss = s.tss ∧ (s.noteAccess t p va h).cores = s.cores := by
  unfold State.noteAccess; dsimp only; split
  · simp
  · exact raise_frame

theorem stopFills_frame {s : State} {c o} : (s.stopFills c o).nextId = s.nextId ∧ (s.stopFills c o).hbm = s.hbm ∧ (s.stopFills c o).tss = s.tss ∧ (s.stopFills c o).cores = s.cores ∧ (s.stopFills c o).blocks = s.blocks := ⟨rfl, rfl, rfl, rfl, rfl⟩

theorem updGroup_frame {s : State} {r f} : (s.updGroup r f).nextId = s.nextId ∧ (s.updGroup r f).reqs = s.reqs ∧ (s.updGroup r f).hbm = s.hbm ∧ (s.updGroup r f).tss = s.tss ∧ (s.updGroup r f).cores = s.cores := by
  unfold State.updGroup; split
  · simp
  · unfold State.putGroup; split <;> simp [State.setBlock]

theorem barCount_ok {x : Ctx} (h : x.amountOk) : x.barCount = .ok (match x.i.long with
        | some w => field w 0 11
        | none => if insImm x.i then (insImm16 x.i).toNat else field (x.g.ureg x.i.b.toNat) 0 11) := by
  unfold Ctx.barCount
  cases e : x.i.long with
  | some w => rfl
  | none =>
    cases e2 : insImm x.i with
    | true => rfl
    | false => simp only [Bool.false_eq_true, if_false, u32_ok (h e e2)]; rfl

theorem barrier_ok {x : Ctx} (hold : Bool) (hn : x.sel ≠ 0) (hw : x.writesFree) (hr : x.s.releaseSet x.r 1 = [])
   (ha : x.i.mod.getLsbD 4 = true → x.amountOk) :
    let c := match x.i.long with
        | some w => field w 0 11
        | none => if insImm x.i then (insImm16 x.i).toNat else field (x.g.ureg x.i.b.toNat) 0 11
    let id := field x.i.mod 0 4
    let all := 32 * x.t.groups
    let count := if x.i.mod.getLsbD 4 then (if c = 0 ∨ all < c then all else c) else 0
    let first := ((x.b.bars.get Barrier.init id).opened).isNone
    barrier hold x = .ok (({ x.s with nextId := x.s.nextId + 1 }.setBlock x.r.block
          (((x.b.putGroup x.r.group.val { x.g with pc := x.nextPc, hold := if hold then .bar id x.g.pc x.s.nextId else .none }).arrive id
            (popCount 32 x.sel.toNat) count).settleBar id)).raise x.b.task
            (clampedIf (x.i.mod.getLsbD 4 && first && decide (c = 0 ∨ all < c)))) := by
  intro c id all count first
  unfold barrier
  simp only [forGroup_ok hn]
  by_cases h4 : x.i.mod.getLsbD 4 = true
  · simp only [h4, if_true]
    refine (bind_of_ok (barCount_ok (ha h4)) _).trans ?_
    simp only [gateWrites_ok hw, released_ok hr, ok_bind]
    simp [count, h4, c, all, id, first]
  · have h4' : x.i.mod.getLsbD 4 = false := by simpa using h4
    simp only [h4', if_false, Bool.false_eq_true, pure_ok, ok_bind, gateWrites_ok hw, released_ok hr, count, Bool.false_and]
    rfl

theorem semOperands_ok {x : Ctx} {h} (hu : uOk 2 x.i.a) (ha : x.amountOk) (h1 : (x.U64 x.i.a).toNat < 2 ^ 48) (h2 : (x.U64 x.i.a).toNat % 8 = 0)
   (h3 : x.s.locate x.t.part (x.U64 x.i.a).toNat = some (h, true)) : x.semOperands = .ok ((x.U64 x.i.a).toNat, h, x.amount) := by
  have e : addrOk 8 (x.U64 x.i.a).toNat = true := (Bool.and_eq_true _ _).mpr ⟨decide_eq_true h1, decide_eq_true h2⟩
  unfold Ctx.semOperands Ctx.amount
  simp only [u64_ok hu, ok_bind]
  cases e1 : x.i.long with
  | some w => simp only [pure_ok, ok_bind, require_true e, h3]
  | none =>
    cases e2 : insImm x.i with
    | true => simp only [pure_ok, ok_bind, require_true e, h3, if_true]
    | false => simp only [Bool.false_eq_true, if_false, u32_ok (ha e1 e2), pure_ok, ok_bind, require_true e, h3]

theorem tokenSlot_ok {x : Ctx} (hd : x.i.dst.toNat ≤ 7) (ht : x.g.tokens.get 0 x.i.dst.toNat < 15) : x.tokenSlot = .ok x.i.dst.toNat := by
  simp only [Ctx.tokenSlot, pField_ok hd, ok_bind, await_true (decide_eq_true ht)]; rfl

theorem uC_ok {x : Ctx} (h : insNoC x.i = false → uOk 1 x.i.c) : x.uC = .ok x.UC := by
  unfold Ctx.uC Ctx.UC
  cases e : insNoC x.i with
  | true => rfl
  | false => simp only [Bool.false_eq_true, if_false, u32_ok (h e)]

theorem tile_ok {x : Ctx} (st : Bool) (hn : x.sel ≠ 0) (hd : x.i.dst.toNat ≤ 7) (ht : x.g.tokens.get 0 x.i.dst.toNat < 15) (hu : uOk 2 x.i.a) (hb : x.ubOk 1)
   (hc : insNoC x.i = false → uOk 1 x.i.c) :
      let va := (x.U64 x.i.a).toNat
      let l := field x.UB 0 19
      let count := field x.UC 0 4 + 1
      let stride := field x.UC 8 24
      let hint := field x.i.mod 0 2
      let noted := (List.range count).foldl (fun s k => match s.homeOf x.t.part (tileVa va stride k) with
        | some h => s.noteAccess x.b.task x.t.part (tileVa va stride k) h
        | none => s) x.s
      va < 2 ^ 48 → va % 2048 = 0 → l % 2048 = 0 → l + 2048 * count ≤ x.b.lmemSize →
        x.ungated →
        (∀ k, k < count → tileVa va stride k < 2 ^ 48 ∧ tileVa va stride k % 2048 = 0
          ∧ ∃ h rw, x.s.locate x.t.part (tileVa va stride k) = some (h, rw) ∧ (st = true → rw = true)) →
        let raised := noted.raise x.b.task (clampedIf (st && hint = 3))
        let units := if st then [] else unitsIn l (2048 * count)
        let veils := units.map (fun u => ⟨u, x.r.group.val, x.i.dst.toNat, false⟩)
          ++ x.b.veils.filter (fun v => v.group ≠ x.r.group.val || !units.contains v.unit)
        let t := raised.smudge x.r.block units
        tileIssue st x = .ok ({ t with
            nextId := t.nextId + 1
            tileOps := t.tileOps.set t.nextId ⟨st, x.r.block, x.r.group.val, x.i.dst.toNat, x.t.part, va, l, count, stride,
              if st && hint = 3 then 0 else hint, x.g.pc, [], [], x.held.after, x.held.seen, []⟩ }.setBlock x.r.block
          ({ x.b with veils := veils }.putGroup x.r.group.val
            { x.g with pc := x.nextPc, tokens := x.g.tokens.put 0 x.i.dst.toNat (x.g.tokens.get 0 x.i.dst.toNat + 1) })) := by
  intro va l count stride hint noted h1 h2 h3 h4 hg ha raised units veils t
  have e1 : addrOk 2048 (x.U64 x.i.a).toNat = true := (Bool.and_eq_true _ _).mpr ⟨decide_eq_true h1, decide_eq_true h2⟩
  have e2 : (decide (field x.UB 0 19 % 2048 = 0) && decide (field x.UB 0 19 + 2048 * (field x.UC 0 4 + 1) ≤ x.b.lmemSize)) = true := (Bool.and_eq_true _ _).mpr ⟨decide_eq_true h3, decide_eq_true h4⟩
  have e3 : (List.range count).all (fun k =>
      match x.s.locate x.t.part (tileVa va stride k) with
      | some (_, rw) => addrOk 2048 (tileVa va stride k) && (!st || rw)
      | none => false) = true := by
    rw [List.all_eq_true]
    intro k hk
    obtain ⟨g1, g2, h, rw', g3, g4⟩ := ha k (by simpa using hk)
    rw [g3]
    refine (Bool.and_eq_true _ _).mpr ⟨(Bool.and_eq_true _ _).mpr ⟨decide_eq_true g1, decide_eq_true g2⟩, ?_⟩
    cases st <;> simp_all
  unfold tileIssue
  simp only [forGroup_ok hn, tokenSlot_ok hd ht, u64_ok hu, uB_ok hb, uC_ok hc, ok_bind, require_true e1, require_true e2]
  refine (bind_of_ok (require_true e3) _).trans ?_
  simp only [gateAll_ok hg, ok_bind]; rfl

theorem enqueue_ok {x : Ctx} (h : x.mxuReady) (op : MxOp) (us : List Nat) (slot : Option Nat) (g : Group) :
    x.enqueue op us slot g = .ok (x.queued op us slot g) := by
  have e1 : (!(x.s.mxu x.mxuNo).fenced) = true := by simp [h.unfenced]
  have e2 : (!(x.s.mxu x.mxuNo).queue.any (fun e => e.block = x.r.block && e.group = x.r.group.val && e.frees)) = true := by
    rw [Bool.not_eq_true', List.any_eq_false]
    intro e he; have := h.unreleased e he; simpa using this
  have e3 := h.held
  have e4 : (decide ((x.s.mxu x.mxuNo).queue.length < 16) && x.b.saved.all (fun e => e.group % 4 ≠ x.r.group.val % 4)) = true := by
    rw [Bool.and_eq_true, List.all_eq_true]
    exact ⟨decide_eq_true h.room, fun e he => decide_eq_true (h.unsaved e he)⟩
  simp only [Ctx.enqueue, await_true e1, await_true e2, ok_bind, e3, await_true e4]
  cases slot <;> rfl

end Sys2Proof.Machine
end

