-- ==== Sys2Proof/Laws/Mailbox.lean ====
section
/-! SUPPORT. What serving a mailbox request does: the request that was asked runs its command's own checks on its fields, and one that was
not dispatched to the command changes nothing. -/

namespace Sys2Proof.Machine

/-- A request asked of a command that its function may send is served by the command's body on the request's fields. -/
theorem serve_asked {r : Req} {code : Nat} {sizes fs : List Nat} {s : State} (h : AskedBy s r code sizes fs)
    (perm : State → List Nat → Bool) (body : List Nat → State → Serve) (hp : perm s fs = true) :
    serve r code sizes perm body s = match body fs s with
      | .error st => s.refuses r st
      | .ok a => if a.later then .next a.s else .next (a.s.answer r.fn r.slot a.status a.clamped a.detail a.payload) := by
  obtain ⟨⟨h1, h2, h3⟩, h4, h5⟩ := h
  unfold serve
  simp only [h5, hp, h4]
  rw [if_neg (by simp [h1, h2, h3]), if_neg (by simp), if_neg (by simp)]
  cases body fs s <;> rfl

/-- A body that answers MB_OK at once. -/
theorem serve_ok {r : Req} {code : Nat} {sizes fs : List Nat} {s t : State} {c : Bool} {d : Nat} {p : List Byte}
    (h : AskedBy s r code sizes fs) {perm : State → List Nat → Bool} {body : List Nat → State → Serve} (hp : perm s fs = true)
    (hb : body fs s = .ok ⟨t, .ok, c, d, p, false⟩) :
    serve r code sizes perm body s = .next (t.answer r.fn r.slot .ok c d p) := by
  rw [serve_asked h perm body hp, hb]; rfl

/-- A body that refuses. -/
theorem serve_error {r : Req} {code : Nat} {sizes fs : List Nat} {s : State} {st : MbStatus} (h : AskedBy s r code sizes fs)
    {perm : State → List Nat → Bool} {body : List Nat → State → Serve} (hp : perm s fs = true) (hb : body fs s = .error st) :
    serve r code sizes perm body s = s.refuses r st := by
  rw [serve_asked h perm body hp, hb]

/-- A command to which the slot's request was not dispatched changes nothing. -/
theorem serve_skip {r : Req} {code : Nat} {sizes : List Nat} {s : State} {perm : State → List Nat → Bool}
    {body : List Nat → State → Serve} (h : ¬Dispatched s r code) : serve r code sizes perm body s = .next s := by
  unfold serve
  rw [if_pos]
  by_cases h1 : ((s.fnRec r.fn).slot r.slot).state = .pending
  · by_cases h2 : ((s.fnRec r.fn).slot r.slot).busy = true
    · by_cases h3 : ((s.fnRec r.fn).slot r.slot).code = code
      · exact absurd ⟨h1, h2, h3⟩ h
      · simp [h3]
    · simp [h2]
  · simp [h1]

/-- A request of a function without the permission is denied. -/
theorem serve_denied {r : Req} {code : Nat} {sizes : List Nat} {s : State} {perm : State → List Nat → Bool}
    {body : List Nat → State → Serve} (h : Dispatched s r code)
    (hp : perm s (decodeFields sizes ((s.fnRec r.fn).slot r.slot).payload) = false) :
    serve r code sizes perm body s = s.refuses r .denied := by
  obtain ⟨h1, h2, h3⟩ := h
  unfold serve
  simp only [hp]
  rw [if_neg (by simp [h1, h2, h3])]
  rfl

/-- A request of another length is refused. -/
theorem serve_length {r : Req} {code : Nat} {sizes : List Nat} {s : State} {perm : State → List Nat → Bool}
    {body : List Nat → State → Serve} (h : Dispatched s r code)
    (hp : perm s (decodeFields sizes ((s.fnRec r.fn).slot r.slot).payload) = true)
    (hl : ((s.fnRec r.fn).slot r.slot).len ≠ encodedLen sizes) :
    serve r code sizes perm body s = s.refuses r .badLength := by
  obtain ⟨h1, h2, h3⟩ := h
  unfold serve
  simp only [hp]
  rw [if_neg (by simp [h1, h2, h3])]
  simp [hl, State.refuses]

/-- The PF may send every command. -/
theorem pfOnly_pf {r : Req} {s : State} {fs : List Nat} (h : r.fn = 0) : pfOnly r s fs = true := by simp [pfOnly, State.permits, h]

/-- No VF may send a command of the PF alone. -/
theorem pfOnly_vf {r : Req} {s : State} {fs : List Nat} (h : r.fn ≠ 0) : pfOnly r s fs = false := by simp [pfOnly, State.permits, h]

/-- The pairs that the list field of a request holds. -/
theorem pairList_fields (l : List (Nat × Nat)) (t : List Nat) :
    pairList (((l.map (fun x => [x.1, x.2])).flatten ++ t).take (2 * l.length)) = (pairsNamed l, pairsClamped l) := by
  induction l with
  | nil => simp [pairList, pairsNamed, pairsClamped]
  | cons a l ih =>
    have h : 2 * (a :: l).length = 2 * l.length + 1 + 1 := by simp; omega
    rw [h]
    simp only [List.map_cons, List.flatten_cons, List.cons_append, List.nil_append, List.take_succ_cons, pairList, ih]
    simp only [pairsNamed, pairsClamped, List.map_cons, List.any_cons, Prod.mk.injEq, true_and]
    cases l.any (fun x => decide (15 < x.1) || decide (15 < x.2)) <;> simp

/-- The count of the list at the front of a request. -/
theorem count_of_fields {p : List Byte} {sizes fs : List Nat} {n : Nat} (h : decodeFields (2 :: sizes) p = n :: fs) :
    numAt p 0 2 = n := by
  simp [decodeFields, layout, roundUp] at h; exact h.1

end Sys2Proof.Machine
end

