-- ==== Sys2Proof/Tests/Slice0.lean ====
section
/-! SUPPORT. The model's own tests: what each check of well-formedness refuses, single steps on small states with results worked out from
the tables of spec/, and for each statement with hypotheses a state and operands that meet them. -/

namespace Sys2Proof.Tests

open Sys2Proof Sys2Proof.Machine
set_option Elab.async false

/-! ## Well-formedness -/

theorem test_wf_access_empty : (Instr.registerWrite 0 none 0 []).wf = false := by decide
theorem test_wf_access_long : (Instr.registerWrite 0 none 0 (List.replicate 65 0)).wf = false := by decide
theorem test_wf_rid : (Instr.mbSubmit 0 (some 65536) 1).wf = false := by decide
theorem test_wf_fetch : (Instr.commandFetch 0 (some [0])).wf = false := by decide
theorem test_wf_nonce : (Instr.challenge []).wf = false := by decide
theorem test_wf_atom : (Instr.atom (.peer ⟨0, 0, none, 0, 4⟩ 0 8 0 0 false)).wf = false := by decide
theorem test_wf_sem : (Instr.semAcqRequest (.peer ⟨0, 0, none, 0, 4⟩ 1)).wf = false := by decide
theorem test_wf_line : (Instr.wr (.peer ⟨0, 0, none, 0, 64⟩ 0 0)).wf = false := by decide
theorem test_wf_tile_offset : (Instr.rdTile (.peer ⟨0, 0, none, 0, 128⟩)).wf = false := by decide
theorem test_wf_tile_lines : (Instr.dataTile 0 0 true []).wf = false := by decide
theorem test_wf_move_lines : (Instr.tileMove 0 [0]).wf = false := by decide
theorem test_wf_host_address : (Instr.cxlMemRead 32 0 0).wf = false := by decide
theorem test_wf_accepts : (Instr.cxlMemRead 64 0 0).wf = true ∧ (Instr.rdTile (.peer ⟨0, 0, none, 0, 2048⟩)).wf = true := by decide

/-! ## Instruction words -/

/-- The worked example of 03_cores_and_groups.md: FXADD128 of v8 to v11 at the address in v4 and v5. -/
theorem test_word_fxadd128 : Instr.ofWords ⟨2, 0⟩ 0x0002000804000208 0 = some (.fxadd128 ⟨2, 0⟩ ⟨none, 0, false, 0, 4, 8, 0, 2⟩) := by rfl
/-- Class 0xF is reserved, and so is opcode 0x7F of CTRL. -/
theorem test_word_reserved : Instr.ofWords ⟨2, 0⟩ 0xF 0 = none ∧ Instr.ofWords ⟨2, 0⟩ 0x7FA 0 = none := by exact ⟨rfl, rfl⟩

/-! ## A block on a core -/

/-- A task of one block and one group with 64 vector registers and all accumulator units. -/
def t0 : Task :=
  { cmd := 5, part := 0, ctx := 0, node := 0, poured := false, parent := 0, identity := 0, seed := 0, gridX := 1, gridY := 1, gridZ := 1
    groups := 1, nregs := 64, accUnits := 8, lmem := 65536, params := [], kernel := 0x1000, affKind := 0, affArg := 0, state := .ready
    status := .ok, detail := 0, flags := 0, placed := 1, finished := 0, killed := false, quads := [], order := 0, arena := 0, tags := [] }

/-- A group at its start. -/
def g0 : Group := Group.init 0x1000

/-- Its block, with 64 KiB of local memory, on core 0. -/
def b0 (g : Group) : Block := ⟨1, 0, 0, .resident, [g], 65536, .empty, .empty, .empty, 0, false, [], []⟩

/-- A partition with 64 KiB of host memory at 0, a read-only page at 64 KiB and 64 KiB of device memory at 128 KiB. -/
def p0 : Part :=
  { Part.init with
    state := .active, contexts := 1
    pages := ((Tab.empty.set 0 ⟨false, .host 0x10000, true, false⟩).set 1 ⟨false, .host 0x20000, false, false⟩).set 2
      ⟨false, .dev 0, true, false⟩ }

/-- The interleave set of the device memory: one channel. -/
def set0 : IntSet := ⟨0, [0], 0, 1024, .part 0, 0, none⟩

/-- A device on which the block is resident. -/
def st (g : Group) : State :=
  { State.reset with
    nextId := 10, tasks := Tab.empty.set 1 t0, blocks := Tab.empty.set 2 (b0 g), parts := Tab.empty.set 0 p0
    sets := Tab.empty.set 0 set0 }

/-- The block's group. -/
def ref : GroupRef := ⟨2, 0⟩

/-- What an instruction of the group sees. -/
def ctx (g : Group) (i : Ins) : Ctx := ⟨st g, ref, b0 g, g, t0, i, g.selected i⟩

/-- An instruction: DST 8, SRC_A 16, SRC_B 24, SRC_C 32. -/
def ins : Ins := ⟨none, 0, false, 8, 16, 24, 32, 0⟩

/-- The same under a guard that is false in every lane. -/
def off : Ins := { ins with guard := 1 }

/-- A group with two vector registers set, the same value in every lane. -/
def g2 (a b : Word) : Group := (g0.putV 16 0xFFFFFFFF (fun _ => a)).putV 24 0xFFFFFFFF (fun _ => b)

/-- The state after a command. -/
def next (o : Out) : State := match o with
  | .next s => s
  | _ => State.reset

/-- The block's group after a command. -/
def grp (o : Out) : Group := ((next o).group? ref).getD g0

/-- A vector register of that group in lane 0. -/
def lane0 (o : Out) (r : Nat) : Word := laneAt ((grp o).vreg r) 0

theorem canIssue (g : Group) (i : Ins) (h : g.hold = .none) (f : (ctx g i).fetched = true := by decide) :
    CanIssue (st g) ref i (ctx g i) where
  state := rfl
  place := rfl
  word := rfl
  block := rfl
  group := rfl
  task := rfl
  resident := rfl
  free := h
  running := fun h => TaskState.noConfusion h
  alive := rfl
  sound := rfl
  unhalted := rfl
  lanes := rfl
  fetched := f

/-! ## Single steps: results worked out from Tables 3-15 to 3-17 and 4-1 -/

theorem test_iadd_wraps : lane0 (exec (.iadd ref ins) (st (g2 0xFFFFFFFF 2))) 8 = 1 := by decide
theorem test_isub : lane0 (exec (.isub ref ins) (st (g2 1 2))) 8 = 0xFFFFFFFF := by decide
theorem test_imulhi_s : lane0 (exec (.imulhiS ref ins) (st (g2 0xFFFFFFFF 2))) 8 = 0xFFFFFFFF := by decide
theorem test_imulhi_u : lane0 (exec (.imulhiU ref ins) (st (g2 0xFFFFFFFF 2))) 8 = 1 := by decide
theorem test_shl_takes_five_bits : lane0 (exec (.shl ref ins) (st (g2 3 33))) 8 = 6 := by decide
theorem test_shr_s : lane0 (exec (.shrS ref ins) (st (g2 0x80000000 4))) 8 = 0xF8000000 := by decide
theorem test_clz_of_zero : lane0 (exec (.clz ref ins) (st (g2 0 0))) 8 = 32 := by decide
theorem test_fadd : lane0 (exec (.fadd ref ins) (st (g2 0x3F800000 0x40000000))) 8 = 0x40400000 := by decide
theorem test_fmul_sign : lane0 (exec (.fmul ref ins) (st (g2 0xBF800000 0))) 8 = 0x80000000 := by decide
theorem test_pc_moves_on : (grp (exec (.iadd ref ins) (st g0))).pc = 0x1008 := by decide
theorem test_guarded_off : lane0 (exec (.iadd ref off) (st (g2 1 2))) 8 = 0 := by decide
theorem test_isetp_signed :
    (grp (exec (.isetp ref { ins with dst := 1, mod := 0x40 }) (st (g2 0xFFFFFFFF 1)))).pred 1 = 0xFFFFFFFF := by decide
theorem test_exit_ends : (grp (exec (.exit ref ins) (st g0))).hold = .ended := by decide
theorem test_ret_on_empty_stack :
    ((next (exec (.ret ref ins) (st g0))).tasks.get? 1).map (fun t => t.status) = some .accessFault := by decide

/-! ## Instructions: what their statements suppose -/

theorem witness_StepRunsFrontCommand : State.reset.pending = [] := rfl

theorem witness_VectorArithmetic : CanIssue (st g0) ref ins (ctx g0 ins) ∧ (ctx g0 ins).aOk 1 ∧ (ctx g0 ins).bOk 1 ∧ (ctx g0 ins).cOk 1
    ∧ (ctx g0 ins).vOk 1 ins.dst ∧ (ctx g0 ins).aOk 2 ∧ (ctx g0 ins).bOk 2 ∧ (ctx g0 ins).cOk 2 ∧ (ctx g0 ins).vOk 2 ins.dst := by
  refine ⟨canIssue _ _ rfl, ?_⟩
  unfold Ctx.aOk Ctx.bOk Ctx.cOk Ctx.srcOk Ctx.vOk uOk
  and_intros <;> decide

/-- The highest register of the allocation. -/
theorem witness_VectorArithmetic_last : (ctx g0 { ins with dst := 63, a := 63 }).aOk 1 ∧ (ctx g0 { ins with dst := 62 }).vOk 2 62 := by
  unfold Ctx.aOk Ctx.srcOk Ctx.vOk uOk
  decide

/-- A comparison into p7 with code 9. -/
def cmp9 : Ins := { ins with dst := 7, mod := 0x120 }
/-- A comparison into p7 with code 7. -/
def cmp7 : Ins := { ins with dst := 7, mod := 0xE0 }
/-- A PLOP of p7 with code 5. -/
def plop5 : Ins := { ins with dst := 7, a := 7, b := 7, mod := 0xA0 }
/-- A conversion from FP32 to FP16. -/
def cvt16 : Ins := { ins with mod := 0x200 }

/-- Predicates: the last codes, and a conversion from FP32 to FP16. -/
theorem witness_VectorPredicatesAndConversions :
    CanIssue (st g0) ref cmp9 (ctx g0 cmp9) ∧ cmp9.dst.toNat ≤ 7 ∧ insCc cmp9 = 9 ∧ (ctx g0 cmp9).aOk 1 ∧ (ctx g0 cmp9).bOk 1
    ∧ (ctx g0 cmp9).aOk 2 ∧ (ctx g0 cmp9).bOk 2 ∧ insCc cmp7 = 7 ∧ insCc plop5 = 5 ∧ plop5.a.toNat ≤ 7 ∧ plop5.b.toNat ≤ 7
    ∧ (ctx g0 cvt16).vOk 1 cvt16.dst ∧ (EFmt.ofCode (field cvt16.mod 4 4)).isSome = true
    ∧ (EFmt.ofCode (field cvt16.mod 8 4)).isSome = true ∧ (field cvt16.mod 8 4, FFmt.fp16) ∈ [(1, FFmt.bf16), (2, FFmt.fp16)] := by
  refine ⟨canIssue _ _ rfl, ?_⟩
  unfold Ctx.aOk Ctx.bOk Ctx.srcOk Ctx.vOk uOk
  and_intros <;> decide

/-- The last pair of uniform registers; for LDP, the last tuple of four. -/
def uni : Ins := { ins with dst := 46, a := 46, b := 46, mod := 0x20 }

theorem witness_UniformInstructions :
    CanIssue (st g0) ref uni (ctx g0 uni) ∧ (ctx g0 uni).sel ≠ 0 ∧ uOk 1 uni.dst ∧ uOk 2 uni.dst ∧ uOk 1 uni.a ∧ uOk 2 uni.a
    ∧ (ctx g0 uni).ubOk 1 ∧ (ctx g0 uni).ubOk 2 ∧ (ctx g0 uni).vOk 1 uni.a ∧ field uni.mod 3 3 = 2 + 2
    ∧ uOk (2 ^ 2) { uni with dst := 44 }.dst
    ∧ (g0.ureg uni.a.toNat + ((insImmValue uni).getD 0).setWidth 32).toNat % (4 * 2 ^ 2) = 0 ∧ (ctx g0 off).sel = 0
    ∧ insCc { cmp9 with dst := 7 } ≤ 9 ∧ cmp9.dst.toNat ≤ 7 := by
  refine ⟨canIssue _ _ rfl, ?_⟩
  unfold Ctx.ubOk Ctx.vOk uOk
  decide

/-- A group with a stack. -/
def gs (l : List StackEntry) : Group := { g0 with stack := l }
/-- A group of which only the lower half of the lanes passes p1. -/
def gp : Group := { g0 with preds := Tab.empty.put 0 1 0xFFFF }
/-- An instruction guarded by p1. -/
def half : Ins := { ins with guard := 1 }

theorem witness_ControlFlow : CanIssue (st g0) ref ins (ctx g0 ins) ∧ (ctx g0 off).sel = 0 ∧ (ctx g0 ins).sel ≠ 0 ∧ uOk 2 ins.a
    ∧ (ctx g0 ins).sel = g0.active ∧ CanIssue (st gp) ref half (ctx gp half) ∧ (ctx gp half).sel ≠ 0 ∧ (ctx gp half).sel ≠ gp.active
    ∧ ((ctx gp half).branchStack 0x2000).length ≤ 32 ∧ g0.stack.length < 32 ∧ ins.dst.toNat ≤ 8 := by
  refine ⟨canIssue _ _ rfl, ?_, ?_, ?_, ?_, canIssue _ _ rfl, ?_⟩ <;> (try unfold uOk) <;> decide

/-- A DIV, a CALL and a JOIN entry. -/
def eDiv : StackEntry := ⟨.div, 0x3000, 1⟩
/-- A CALL entry. -/
def eCall : StackEntry := ⟨.call, 0x3000, 1⟩
/-- A JOIN entry of the group's own address. -/
def eJoin : StackEntry := ⟨.join, 0x1000, 1⟩
/-- A JOIN entry of another address. -/
def eFar : StackEntry := ⟨.join, 0x3000, 1⟩

/-- Returns and joins, and WAIT on the last slot. -/
theorem witness_ControlFlow_returns :
    CanIssue (st (gs [eDiv])) ref ins (ctx (gs [eDiv]) ins) ∧ CanIssue (st (gs [eJoin])) ref ins (ctx (gs [eJoin]) ins)
    ∧ eDiv.mask &&& (gs [eDiv]).live ≠ 0 ∧ eDiv.kind ≠ .join ∧ eDiv.kind = .div ∧ eJoin.mask &&& (gs [eJoin]).live ≠ 0
    ∧ eJoin.kind = .join ∧ eJoin.addr = (gs [eJoin]).pc ∧ cmp9.dst.toNat ≤ 7 ∧ (gs [eDiv]).tokens.get 0 7 = 0 := by
  refine ⟨canIssue _ _ rfl, canIssue _ _ rfl, ?_⟩
  decide

/-- A group of which half the lanes pass p1, with a full stack. -/
def gFull : Group := { gp with stack := List.replicate 32 eDiv }
/-- The instruction of a fetch that failed. -/
def blank : Ins := ⟨none, 0, false, 0, 0, 0, 0, 0⟩

theorem witness_ControlAndInstructionFaults :
    CanIssue (st gFull) ref half (ctx gFull half) ∧ gFull.stack.length = 32 ∧ (ctx gFull half).sel ≠ 0
    ∧ (ctx gFull half).sel ≠ gFull.active ∧ uOk 2 half.a ∧ ((ctx gFull half).branchStack 0x2000).length = 33 ∧ g0.stack = []
    ∧ CanIssue (st (gs [eCall])) ref ins (ctx (gs [eCall]) ins) ∧ eCall.kind = .call
    ∧ CanIssue (st (gs [eFar])) ref ins (ctx (gs [eFar]) ins) ∧ eFar.kind = .join ∧ eFar.addr ≠ (gs [eFar]).pc := by
  refine ⟨canIssue _ _ rfl, ?_, ?_, ?_, ?_, ?_, ?_, canIssue _ _ rfl, ?_, canIssue _ _ rfl, ?_, ?_⟩ <;> (try unfold uOk) <;> decide

/-- A pc that is not a multiple of 8, an unmapped one, and a second word past the last page. -/
theorem witness_ControlAndInstructionFaults_fetch :
    ((st { g0 with pc := 0x1004 }).ctx? ref blank).map (fun x => addrOk 8 x.g.pc.toNat) = some false
    ∧ ((st { g0 with pc := 0x40000 }).ctx? ref blank).map (fun x => x.s.mapped x.t.part x.g.pc.toNat) = some false
    ∧ ((st { g0 with pc := 0x2FFF8 }).ctx? ref { blank with long := some 0 }).map (fun x =>
        (x.fetched, x.s.mapped x.t.part x.g.pc.toNat, x.s.mapped x.t.part (x.g.pc.toNat + 8))) = some (false, true, false) := by decide

/-- A 16-byte access at the last 16 bytes of local memory. -/
def wide : Ins := { ins with mod := 0x20 }
/-- The group whose lanes all name them. -/
def gLocal : Group := g0.putV 16 0xFFFFFFFF (fun _ => 65520)

theorem witness_LocalMemory :
    CanIssue (st gLocal) ref wide (ctx gLocal wide) ∧ (ctx gLocal wide).vOk 1 wide.a ∧ field wide.mod 3 3 ≤ 4
    ∧ (ctx gLocal wide).vOk (regsFor (insWidth wide)) wide.dst ∧ (ctx gLocal wide).localOk (insWidth wide)
    ∧ (ctx gLocal wide).localOk 4 ∧ insImm wide = false ∧ (ctx gLocal wide).vOk 1 wide.b ∧ (ctx gLocal wide).vOk 1 wide.c := by
  refine ⟨canIssue _ _ rfl, ?_⟩
  unfold Ctx.localOk Ctx.vOk
  decide

/-- Fixed values: a 16-byte LDS reads what is there, lowest bytes in the lowest register (Table 3-8). -/
theorem test_lds_reads_zero : lane0 (exec (.lds ref wide) (st gLocal)) 11 = 0 := by decide +kernel

/-! ## Global memory, barriers, tiles and matrix units -/

/-- A group of which lane 31 alone passes p1; it names byte 65,520 of the host page. -/
def gGlobal : Group := { g0.putV 16 0xFFFFFFFF (fun _ => 65520) with preds := Tab.empty.put 0 1 0x80000000 }
/-- A 16-byte access of that lane. -/
def wideOne : Ins := { wide with guard := 1 }

theorem gGlobal_lanes : lanesIn (ctx gGlobal wideOne).sel = [31] := by decide

/-- The lane lies in the host page, at its last 16 bytes. -/
theorem gGlobal_ok (b : Bool) : (ctx gGlobal wideOne).lanesOk (ctx gGlobal wideOne).globalAt 16 b := by
  unfold Ctx.lanesOk
  rw [gGlobal_lanes]
  intro l hl
  obtain rfl : l = 31 := by simpa using hl
  exact ⟨by decide, by decide, .host 1023, true, by decide, fun _ => rfl⟩

theorem witness_GlobalLoadStorePrefetch :
    CanIssue (st gGlobal) ref wideOne (ctx gGlobal wideOne) ∧ (ctx gGlobal wideOne).vOk 2 wideOne.a ∧ field wideOne.mod 3 3 = 4
    ∧ (ctx gGlobal wideOne).vOk (regsFor (insWidth wideOne)) wideOne.dst
    ∧ (ctx gGlobal wideOne).lanesOk (ctx gGlobal wideOne).globalAt 16 true
    ∧ (ctx gGlobal wideOne).lanesOk (ctx gGlobal wideOne).globalAt 16 false
    ∧ (ctx gGlobal wideOne).ungated ∧ (ctx gGlobal wideOne).writesFree ∧ (st gGlobal).outstanding ref = []
    ∧ cvtOk (field wideOne.mod 7 2) (field wideOne.mod 9 4) (insWidth wideOne) = true := by
  refine ⟨canIssue _ _ rfl, ?_, ?_, ?_, gGlobal_ok _, gGlobal_ok _, ?_⟩
  · unfold Ctx.vOk; decide
  · decide
  · unfold Ctx.vOk; decide
  · unfold Ctx.ungated Ctx.writesFree; decide

/-- A group can issue in a state where its block is resident and its task runs. -/
theorem canIssueAt (s : State) (g : Group) (i : Ins) (b : s.blocks.get? 2 = some (b0 g)) (t : s.tasks.get? 1 = some t0)
    (f : s.fw.fatal = false) (c : (s.cores.get Core.init 0).halted = false) (h : g.hold = .none)
    (w : Ctx.fetched ⟨s, ref, b0 g, g, t0, i, g.selected i⟩ = true := by decide) :
    CanIssue s ref i ⟨s, ref, b0 g, g, t0, i, g.selected i⟩ where
  state := rfl
  place := rfl
  word := rfl
  block := b
  group := rfl
  task := t
  resident := rfl
  free := h
  running := fun h => TaskState.noConfusion h
  alive := rfl
  sound := f
  unhalted := c
  lanes := rfl
  fetched := w

/-- A 16-byte atomic of lane 31 with RET and a release at PARTITION scope. -/
def atomIns : Ins := { ins with guard := 1, mod := 0x1A }

/-- Atomics of each form and width up to 16 bytes, with RET, a release, a second operand and a third. -/
theorem witness_AtomicsAndRequests :
    CanIssue (st gGlobal) ref atomIns (ctx gGlobal atomIns) ∧ (ctx gGlobal atomIns).vOk 2 atomIns.a ∧ (ctx gGlobal atomIns).writesFree
    ∧ atomIns.mod.getLsbD 3 = true ∧ (st gGlobal).releaseSet ref (field atomIns.mod 0 2) = []
    ∧ (ctx gGlobal wideOne).lanesOk (ctx gGlobal wideOne).globalAt 16 true ∧ atomIns.mod.getLsbD 4 = true
    ∧ (ctx gGlobal atomIns).vOk (regsFor 16) atomIns.dst ∧ insImmValue atomIns = none ∧ (ctx gGlobal atomIns).vOk (regsFor 16) atomIns.b
    ∧ insNoC atomIns = false ∧ (ctx gGlobal atomIns).vOk (regsFor 16) atomIns.c := by
  refine ⟨canIssue _ _ rfl, ?_, ?_, ?_, ?_, gGlobal_ok _, ?_⟩ <;> (try unfold Ctx.vOk) <;> (try unfold Ctx.writesFree) <;> decide

/-- An L1 line that holds its last sector alone. -/
def l1e : L1Line := ⟨8, 0⟩
/-- Core 0 with that line of host memory in its L1. -/
def stL1 (g : Group) : State :=
  { st g with cores := Tab.empty.put Core.init 0 { Core.init with l1 := Tab.empty.set (Home.host 1023).l1Key l1e } }

/-- One line of an access: a load's whose sector the L1 holds, and one whose it does not. -/
theorem witness_AtomicsAndRequests_lines :
    (stL1 g0).homeOf t0.part (128 * 511) = some (.host 1023) ∧ (stL1 g0).group? ref = some g0
    ∧ ((stL1 g0).core 0).l1.get? (Home.host 1023).l1Key = some l1e ∧ l1e.valid &&& laneSectors [(31, 112)] 16 = laneSectors [(31, 112)] 16
    ∧ l1e.valid &&& laneSectors [(31, 95)] 1 ≠ laneSectors [(31, 95)] 1 := by decide +kernel

/-- A counted barrier instruction on barrier 15 with count 32. -/
def bar15 : Ins := { ins with mod := 0x1F, long := some 32 }

theorem witness_Barriers_issue :
    CanIssue (st g0) ref bar15 (ctx g0 bar15) ∧ (ctx g0 off).sel = 0 ∧ (ctx g0 bar15).sel ≠ 0 ∧ (ctx g0 bar15).writesFree
    ∧ (st g0).releaseSet ref 1 = [] ∧ bar15.mod.getLsbD 4 = true ∧ (ctx g0 bar15).amountOk := by
  refine ⟨canIssue _ _ rfl, ?_⟩
  unfold Ctx.writesFree Ctx.amountOk uOk
  decide

/-- A block whose barrier 15 has 31 arrivals of 32, and whose barrier 0 waits for all its threads, all there. -/
def bBars : Block := { b0 g0 with bars := (Tab.empty.put Barrier.init 0 ⟨32, some 0⟩).put Barrier.init 15 ⟨31, some 32⟩ }

theorem witness_Barriers_settle :
    (bBars.bars.get Barrier.init 0).opened = some 0 ∧ bBars.liveThreads ≤ (bBars.bars.get Barrier.init 0).arrivals
    ∧ (bBars.bars.get Barrier.init 15).opened = some 32 ∧ (bBars.bars.get Barrier.init 15).arrivals < 32 := by decide

/-- A group with uniform registers. -/
def gU (l : List (Nat × Word)) : Group := { g0 with uregs := l.foldl (fun t p => t.put 0 p.1 p.2) Tab.empty }
/-- The last aligned word of the host page, and amount 0. -/
def gSem0 : Group := gU [(16, 65528)]
/-- The same with amount 2³² − 1. -/
def gSem1 : Group := gU [(16, 65528), (24, 0xFFFFFFFF)]
/-- A semaphore instruction or fence at SYSTEM scope. -/
def sys : Ins := { ins with mod := 3 }

theorem witness_SemaphoresAndFencesIssue :
    CanIssue (st gSem0) ref sys (ctx gSem0 sys) ∧ CanIssue (st gSem1) ref sys (ctx gSem1 sys) ∧ (ctx gSem0 off).sel = 0
    ∧ (ctx gSem0 sys).sel ≠ 0 ∧ uOk 2 sys.a ∧ (ctx gSem0 sys).amountOk ∧ (ctx gSem0 sys).writesFree ∧ (ctx gSem0 sys).ungated
    ∧ ((ctx gSem0 sys).U64 sys.a).toNat = 65528 ∧ (st gSem0).locate t0.part 65528 = some (.host 1023, true)
    ∧ (ctx gSem0 sys).amount = 0 ∧ (st gSem0).readSet ref = [] ∧ (ctx gSem1 sys).amount = 2 ^ 32 - 1
    ∧ (st gSem0).releaseSet ref (field sys.mod 0 2) = [] := by
  refine ⟨canIssue _ _ rfl, canIssue _ _ rfl, ?_⟩
  unfold uOk Ctx.amountOk Ctx.writesFree Ctx.ungated uOk
  and_intros <;> decide

/-- Tile 0 of the device page and the last 2 KiB of local memory, in a group whose last token slot has counted up to 14. -/
def gTile : Group := { gU [(16, 0x20000), (24, 0xF800)] with tokens := Tab.empty.put 0 7 14 }
/-- TLD or TST with token slot 7. -/
def tile7 : Ins := { ins with dst := 7 }

theorem gTile_at : (ctx gTile tile7).s.locate 0 (tileVa 0x20000 0 0) = some (.dev 0, true) := by decide

theorem witness_TileInstructionsIssue :
    CanIssue (st gTile) ref tile7 (ctx gTile tile7) ∧ (ctx gTile off).sel = 0 ∧ (ctx gTile tile7).sel ≠ 0 ∧ tile7.dst.toNat ≤ 7
    ∧ gTile.tokens.get 0 7 < 15 ∧ uOk 2 tile7.a ∧ (ctx gTile tile7).ubOk 1 ∧ uOk 1 tile7.c
    ∧ ((ctx gTile tile7).U64 tile7.a).toNat = 0x20000 ∧ field (ctx gTile tile7).UB 0 19 = 0xF800
    ∧ 0xF800 + 2048 * (field (ctx gTile tile7).UC 0 4 + 1) ≤ (b0 gTile).lmemSize ∧ 0xF800 % 2048 = 0 ∧ 0x20000 % 2048 = 0
    ∧ (ctx gTile tile7).writesFree ∧ (ctx gTile tile7).ungated ∧ tileVa 0x20000 0 0 = 0x20000
    ∧ (st gTile).locate t0.part (tileVa 0x20000 0 0) = some (.dev 0, true) := by
  refine ⟨canIssue _ _ rfl, ?_⟩
  unfold uOk Ctx.ubOk uOk Ctx.writesFree Ctx.ungated
  and_intros <;> decide

/-! ## Matrix units -/

/-- A group that holds its footprint. -/
def gM (l : List (Nat × Word)) : Group := { gU l with foot := ⟨.held, .empty, [], false⟩, tokens := Tab.empty.put 0 7 14 }

theorem mxuReady (g : Group) (i : Ins) (h : g.foot.st = .held) : (ctx g i).mxuReady :=
  ⟨rfl, fun _ he => (nomatch he), h, (by decide : 0 < 16), fun _ he => (nomatch he)⟩

/-- Two BF16 descriptors at local address 0 and the last unit. -/
def gMma : Group := gM [(16, 0x80000), (24, 0x80000), (32, 7)]
/-- Two INT8 descriptors and the last FX128 accumulator. -/
def gMmaR : Group := gM [(16, 0x400000), (24, 0x400000), (32, 4)]
/-- The last 1 KiB of local memory and the last unit. -/
def gArd : Group := gM [(16, 64512), (32, 7)]
/-- The last 4 KiB of local memory and the last FX128 accumulator. -/
def gArd128 : Group := gM [(16, 61440), (32, 4)]
/-- MXI.ARD to INT32. -/
def ard32 : Ins := { tile7 with mod := 0xA0 }
/-- MXI.ACLR or MXI.ALD of FX128. -/
def fx : Ins := { tile7 with mod := 1 }

theorem witness_MatrixInstructionsQueue_mma :
    CanIssue (st gMma) ref tile7 (ctx gMma tile7) ∧ (ctx gMma tile7).mxuReady ∧ (ctx gMma tile7).sel ≠ 0 ∧ tile7.dst.toNat ≤ 7
    ∧ gMma.tokens.get 0 7 < 15 ∧ uOk 1 tile7.c ∧ uOk 2 tile7.a ∧ uOk 2 tile7.b
    ∧ Desc.ofWord ((ctx gMma tile7).U64 tile7.a) = some ⟨0, .flt .bf16, false, false, false, 0⟩
    ∧ pairOk false (.flt .bf16) (.flt .bf16) = true ∧ Desc.ok ⟨0, .flt .bf16, false, false, false, 0⟩ 1 1 65536 = true
    ∧ unitsOk false 7 1 8 = true
    ∧ CanIssue (st gMmaR) ref tile7 (ctx gMmaR tile7) ∧ (ctx gMmaR tile7).mxuReady
    ∧ Desc.ofWord ((ctx gMmaR tile7).U64 tile7.a) = some ⟨0, .int8, false, false, false, 0⟩ ∧ pairOk true .int8 .int8 = true
    ∧ Desc.ok ⟨0, .int8, false, false, false, 0⟩ 1 1 65536 = true ∧ unitsOk true 4 1 8 = true := by
  refine ⟨canIssue _ _ rfl, mxuReady _ _ rfl, ?_, ?_, ?_, ?_, ?_, ?_, ?_, ?_, ?_, ?_, canIssue _ _ rfl, mxuReady _ _ rfl, ?_⟩ <;>
    (try unfold uOk) <;> decide

theorem witness_MatrixInstructionsQueue_ports :
    (Shape.ofWord (gArd.ureg 32)).acc = 7 ∧ (Shape.ofWord (gArd.ureg 32)).nt = 1 ∧ (gArd.ureg 16).toNat % 128 = 0
    ∧ (gArd.ureg 16).toNat + 1 * 1024 ≤ (b0 gArd).lmemSize ∧ field ard32.mod 8 2 ≠ 3 ∧ field ard32.mod 4 4 = 10
    ∧ (gArd128.ureg 16).toNat + 1 * 4096 ≤ (b0 gArd128).lmemSize ∧ unitsOk (fx.mod.getLsbD 0) 4 1 8 = true
    ∧ (Shape.ofWord (gArd128.ureg 32)).acc = 4 := by decide

/-- MXF on two BF16 fragments, unit 7; and its collective form. -/
def mxf : Ins := { ins with mod := 0x8F }
/-- The collective form. -/
def mxfAll : Ins := { ins with mod := 0x408F, guard := 1 }
/-- MXF.MMA.R on two scaled FP8 fragments, the last FX128 accumulator. -/
def mxfR : Ins := { ins with mod := 0x219C }

theorem witness_MatrixInstructionsQueue_fragments :
    CanIssue (st (gM [])) ref mxf (ctx (gM []) mxf) ∧ (ctx (gM []) mxf).mxuReady ∧ (ctx (gM []) mxf).sel ≠ 0 ∧ insImm mxf = false
    ∧ EFmt.ofCode (field mxf.mod 3 4) = some (.flt .bf16) ∧ EFmt.ofCode (field mxf.mod 7 4) = some (.flt .bf16)
    ∧ unitsOk false (field mxf.mod 0 3) 1 8 = true ∧ (ctx (gM []) mxf).vOk 4 mxf.a ∧ (ctx (gM []) mxf).vOk 4 mxf.b
    ∧ (ctx (gM []) mxf).vOk 1 mxf.c ∧ (ctx (gM []) mxf).vOk 8 mxf.dst ∧ mxfR.mod.getLsbD 13 = true
    ∧ EFmt.ofCode (field mxfR.mod 3 4) = some (.flt .e4m3) ∧ EFmt.ofCode (field mxfR.mod 7 4) = some (.flt .e4m3)
    ∧ unitsOk true (field mxfR.mod 0 3) 1 8 = true
    ∧ CanIssue (st gp) ref mxfAll (ctx gp mxfAll) ∧ mxfAll.mod.getLsbD 14 = true ∧ (ctx gp mxfAll).sel ≠ 0
    ∧ (ctx gp mxfAll).sel ≠ 0xFFFFFFFF := by
  refine ⟨canIssue _ _ rfl, mxuReady _ _ rfl, ?_, ?_, ?_, ?_, ?_, ?_, ?_, ?_, ?_, ?_, ?_, ?_, ?_, canIssue _ _ rfl, ?_⟩ <;>
    (try unfold Ctx.vOk) <;> decide

/-- A queue entry of the block's group. -/
def mxe (op : MxOp) (started : Bool) (step : Nat) (slot : Option Nat) : MxEntry := ⟨20, 2, 0, 0x1000, slot, [7], op, started, step, []⟩
/-- A BF16 multiply into unit 7. -/
def opMma : MxOp := .mma false 0x80000 0x80000 7 0
/-- A fragment multiply of BF16 into unit 7. -/
def opFrag : MxOp := .frag false (List.replicate 4 zeroLanes) (List.replicate 4 zeroLanes) zeroLanes 0xFFFFFFFF 0x8F
/-- A reproducible one of INT8 fragments into units 4 to 7. -/
def opFragR : MxOp := .frag true (List.replicate 4 zeroLanes) (List.replicate 4 zeroLanes) zeroLanes 0xFFFFFFFF 0x444
/-- The device with an entry at the head of MXU 0. -/
def stM (e : MxEntry) : State := { st (gM []) with mxus := Tab.empty.put Mxu.init 0 ⟨[e], false, 0⟩ }

theorem witness_Footprints_first :
    CanIssue (st gTile) ref fx (ctx gTile fx) ∧ (ctx gTile fx).sel ≠ 0 ∧ gTile.foot.st = .none ∧ ((st gTile).mxu 0).fenced = false
    ∧ ((st gTile).mxu 0).queue = [] ∧ fx.dst.toNat ≤ 7 ∧ uOk 1 fx.c ∧ unitsOk true 0 1 t0.accUnits = true
    ∧ (Shape.ofWord (gTile.ureg fx.c.toNat)).acc = 0 ∧ (Shape.ofWord (gTile.ureg fx.c.toNat)).nt = 1 := by
  refine ⟨canIssue _ _ rfl, ?_⟩
  unfold uOk
  decide

/-- An entry that may start and one whose kind is wrong, and a release that reads its registers at its start. -/
theorem witness_MatrixUnits_start :
    ((stM (mxe opMma false 0 (some 7))).mxu 0).queue.find? (fun f => f.id = 20) = some (mxe opMma false 0 (some 7))
    ∧ (mxe opMma false 0 (some 7)).mayStart [] = true ∧ (mxe opMma false 0 (some 7)).kindOk (gM []).foot 8 = true
    ∧ (mxe opFragR false 0 none).kindOk (gM []).foot 8 = false ∧ (mxe (.ardf 8 0xFFFFFFFF 7) false 0 none).kindOk (gM []).foot 8 = true
    ∧ (stM (mxe opMma false 0 (some 7))).blocks.get? 2 = some (b0 (gM [])) ∧ (b0 (gM [])).group? 0 = some (gM [])
    ∧ (gM []).foot.away = false := by decide

/-- The last step of a multiply, of which every operand unit is marked zero; a step that is not skipped; and a reproducible one. -/
theorem witness_MatrixUnits_step :
    ((stM (mxe opMma true 3 (some 7))).mxu 0).queue.find? (fun f => f.started && f.op.isMma && decide (f.step < f.op.steps))
      = some (mxe opMma true 3 (some 7))
    ∧ opMma.steps = 4 ∧ ((mxe opMma true 3 (some 7)).stepIn (b0 (gM []))).map (fun p => p.2.2.1) = some true
    ∧ ((mxe opFrag true 0 none).stepIn (b0 (gM []))).map (fun p => p.2.2.1) = some false ∧ opFrag.repro = false ∧ opFrag.steps = 2
    ∧ opFragR.repro = true ∧ 0 < opFragR.steps
    ∧ ((mxe opFragR true 0 none).stepIn (b0 (gM []))).map (fun p => p.2.2.1) = some false := by decide

theorem witness_MatrixUnits_exact :
    ((mxe opFragR true 0 none).stepIn (b0 (gM []))).map (fun p => (p.2.1.runFx (gM []).foot p.1).2) = some false := by decide +kernel

/-- A multiply whose steps are done. -/
theorem witness_MatrixUnits_done :
    ((stM (mxe opMma true 4 (some 7))).mxu 0).queue.find? (fun f => f.id = 20) = some (mxe opMma true 4 (some 7))
    ∧ (mxe opMma true 4 (some 7)).op.steps ≤ (mxe opMma true 4 (some 7)).step ∧ (gM []).foot.bad = false := by decide

/-- A group that waits for a footprint. -/
def gWait : Group := { g0 with foot := ⟨.waiting 7, .empty, [], false⟩ }
/-- A group that holds one while a barrier holds the group. -/
def gHeld : Group := { gM [] with hold := .bar 0 0x1000 5 }
/-- Both on sub-core 0. -/
def stEvict : State := { st gWait with blocks := (Tab.empty.set 2 (b0 gWait)).set 3 (b0 gHeld) }

theorem witness_Footprints_acquire :
    (st gWait).firstWaiter 0 = some (2, 0, gWait, 1) ∧ (st gWait).unitsDecl 1 ≤ (st gWait).freeUnits 0 := by decide

theorem witness_Footprints_evict :
    stEvict.firstWaiter 0 = some (2, 0, gWait, 1) ∧ stEvict.freeUnits 0 < stEvict.unitsDecl 1
    ∧ stEvict.unitsDecl 1 ≤ stEvict.freeUnits 0 + ((stEvict.evictable 0).map (fun e => e.2.2.2)).foldl (· + ·) 0
    ∧ sortOn (fun x => x.2.2.1) (stEvict.evictable 0) = [(3, 0, 5, 8)] ∧ stEvict.group? ⟨3, 0⟩ = some gHeld ∧ gHeld.foot.bad = false := by
  decide

/-! ## Requests and their homes -/

/-- A request of the block's group to line 0 of the device page. -/
def req (k : ReqKind) (g : ReqStage) : MemReq := ⟨.grp 2 0, 0, 0x20000, .dev 0, k, 0, g, 0x1000, { Via.free with arr := some 0 }⟩
/-- The device with that request, number 9. -/
def stQ (k : ReqKind) (g : ReqStage) : State := { st g0 with reqs := Tab.empty.set 9 (req k g) }
/-- A load of lane 0. -/
def load0 : ReqKind := .load 8 4 false [(0, 0)] 11 2
/-- A store of line 0's last byte. -/
def store0 : ReqKind := .store (lineOf 127 5) (byteMask 127 1)
/-- An atomic add in line 0's last word. -/
def atom0 : ReqKind := .atom .addI 4 [⟨0, 124, 1, 0⟩] (some 8)

/-- Each kind of request reaches its home. -/
theorem witness_MessagesReachTheirHome :
    (stQ load0 .flight).fw.fatal = false ∧ ((stQ load0 .flight).serveReq 9).isSome = true ∧ ((stQ store0 .flight).serveReq 9).isSome = true
    ∧ ((stQ atom0 .flight).serveReq 9).isSome = true ∧ ((stQ .spent .flight).serveReq 9).isSome = true
    ∧ ((stQ (.semAcq 120 1) .flight).serveReq 9).isSome = true ∧ ((stQ (.semRel 120 1) .flight).serveReq 9).isSome = true
    ∧ ((stQ (.store 0 allBytes) .flight).serveReq 9).isSome = true ∧ ((stQ .prefetch .flight).serveReq 9).isSome = true := by
  decide +kernel

/-- Port 11 runs to device 3, which may write the first 128 bytes that number 255 opens to it. -/
def stPort : State :=
  { st g0 with lbx :=
      { (st g0).lbx with
        ports := Tab.empty.put LbxPort.init 11 { LbxPort.init with state := .active, peer := some (3, 0), idOk := true }
        exports := Tab.empty.set 255 ⟨0, 0x20000, 128, true, 8, none⟩ } }
/-- A request of device 3 to its last word. -/
def fromPeer : PeerMsg := ⟨3, 7, some 255, 0, 120⟩

theorem witness_MessagesReachTheirHome_peers :
    stPort.portGroup 3 ≠ [] ∧ stPort.admitPeer fromPeer 8 true = some (0, 0x20078, 0)
    ∧ stPort.admitPeer { fromPeer with off := 121 } 8 true = none ∧ byteMask 127 1 ≠ allBytes ∧ (stPort.placeOf (0 * 128)).isSome = true := by
  decide +kernel

/-- The state in which an access passed. -/
def passed (o : Option (Bool × State)) : State := match o with
  | some (_, t) => t
  | none => State.reset

/-- The state in which request 9 passed the directory. -/
def at9 (s : State) (k : ReqKind) (b : Bool) : State :=
  passed (s.access 0 (if b then (req k .flight).readEvent else (req k .flight).writeEvent) (some 9) false)

/-- A load of a ZERO tile. -/
theorem witness_HomesServe_zero :
    AtHome (stQ load0 .flight) 9 (req load0 .flight) 0 (.read none) (at9 (stQ load0 .flight) load0 true)
    ∧ (at9 (stQ load0 .flight) load0 true).readMeets 0 0 = .zero :=
  ⟨⟨by decide +kernel, by decide +kernel, rfl, rfl, by decide +kernel, by decide +kernel, ⟨0, rfl, by decide +kernel⟩, rfl,
    by decide +kernel, rfl⟩, by decide +kernel⟩

/-- The device with request 9 and the tile of line 0 in a state. -/
def stTss (k : ReqKind) (g : ReqStage) (e : Tss) : State := { stQ k g with tss := Tab.empty.put Tss.init 0 e }
/-- The same, with line 0 in the cache. -/
def stLlc (k : ReqKind) (g : ReqStage) (e : Tss) : State :=
  ((stTss k g e).llcPut ⟨false, 0⟩ ⟨0, .engine, 0⟩ 0 0xF 0).getD State.reset

/-- A load of a VALID tile that the cache holds, and one that it does not. -/
theorem witness_HomesServe_data :
    AtHome (stLlc load0 .flight ⟨.valid, 0, 0⟩) 9 (req load0 .flight) 0 (.read none) (at9 (stLlc load0 .flight ⟨.valid, 0, 0⟩) load0 true)
    ∧ (at9 (stLlc load0 .flight ⟨.valid, 0, 0⟩) load0 true).readMeets 0 0 = .data
    ∧ (at9 (stLlc load0 .flight ⟨.valid, 0, 0⟩) load0 true).heldSectors 0 &&& (req load0 .flight).need = (req load0 .flight).need
    ∧ ((((at9 (stLlc load0 .flight ⟨.valid, 0, 0⟩) load0 true).lookup 9 (req load0 .flight) true).1.llcReserve ⟨false, 0⟩
        (req load0 .flight).access).map (fun u => u.codedLost 0)) = some false
    ∧ AtHome (stTss load0 .flight ⟨.valid, 0, 0⟩) 9 (req load0 .flight) 0 (.read none) (at9 (stTss load0 .flight ⟨.valid, 0, 0⟩) load0 true)
    ∧ (at9 (stTss load0 .flight ⟨.valid, 0, 0⟩) load0 true).readMeets 0 0 = .data
    ∧ (at9 (stTss load0 .flight ⟨.valid, 0, 0⟩) load0 true).llcFind ⟨false, 0⟩ = none ∧ (req load0 .flight).need ≠ 0
    ∧ (at9 (stTss load0 .flight ⟨.valid, 0, 0⟩) load0 true).linePlace 0 = some (0, 0, 0)
    ∧ ((at9 (stTss load0 .flight ⟨.valid, 0, 0⟩) load0 true).lookup 9 (req load0 .flight) false).1.mcRoom (pseudoOf 0 0) false = true
    ∧ (((at9 (stTss load0 .flight ⟨.valid, 0, 0⟩) load0 true).lookup 9 (req load0 .flight) false).1.llcReserve ⟨false, 0⟩
        (req load0 .flight).access).isSome = true :=
  ⟨⟨by decide +kernel, by decide +kernel, rfl, rfl, by decide +kernel, by decide +kernel, ⟨0, rfl, by decide +kernel⟩, rfl,
    by decide +kernel, rfl⟩, by decide +kernel, by decide +kernel, by decide +kernel,
    ⟨by decide +kernel, by decide +kernel, rfl, rfl, by decide +kernel, by decide +kernel, ⟨0, rfl, by decide +kernel⟩, rfl,
    by decide +kernel, rfl⟩, by decide +kernel⟩

/-- A store, an atomic, a SEM.REL and a SEM.ACQ of a VALID tile take effect. -/
theorem witness_HomesServe_writes :
    AtHome (stTss store0 .flight ⟨.valid, 0, 0⟩) 9 (req store0 .flight) 0 .write (at9 (stTss store0 .flight ⟨.valid, 0, 0⟩) store0 false)
    ∧ AtHome (stTss atom0 .flight ⟨.valid, 0, 0⟩) 9 (req atom0 .flight) 0 .write (at9 (stTss atom0 .flight ⟨.valid, 0, 0⟩) atom0 false)
    ∧ (stTss store0 .flight ⟨.valid, 0, 0⟩).zeroHome (.dev 0) = .dev 0 ∧ (stTss store0 .flight ⟨.valid, 0, 0⟩).mirrored 0 = false
    ∧ (at9 (stTss store0 .flight ⟨.valid, 0, 0⟩) store0 false).mirrored 0 = false
    ∧ (req store0 .flight).isRead = false ∧ (stTss store0 .flight ⟨.valid, 0, 0⟩).lineTile 0 = some 0
    ∧ (at9 (stLlc store0 .flight ⟨.valid, 0, 0⟩) store0 false).fetchNeed (req store0 .flight) 0 = 0
    ∧ (at9 (stLlc store0 .flight ⟨.valid, 0, 0⟩) store0 false).lineBad 0 &&& (req store0 .flight).partSectors = 0
    ∧ (at9 (stTss atom0 .flight ⟨.valid, 0, 0⟩) atom0 false).fetchNeed (req atom0 .flight) 0 ≠ 0
    ∧ (((at9 (stTss atom0 .flight ⟨.valid, 0, 0⟩) atom0 false).lookup 9 (req atom0 .flight) false).1.askMemory 9 (req atom0 .flight) 0
        ((at9 (stTss atom0 .flight ⟨.valid, 0, 0⟩) atom0 false).fetchNeed (req atom0 .flight) 0)).isSome = true := by
  refine ⟨⟨by decide +kernel, by decide +kernel, rfl, rfl, by decide +kernel, by decide +kernel, ⟨0, rfl, by decide +kernel⟩, rfl,
    by decide +kernel, rfl⟩,
    ⟨by decide +kernel, by decide +kernel, rfl, rfl, by decide +kernel, by decide +kernel, ⟨0, rfl, by decide +kernel⟩, rfl,
    by decide +kernel, rfl⟩, ?_⟩
  decide +kernel

/-- The store is written and the line's waiters are evaluated. -/
theorem witness_HomesServe_store :
    ((((at9 (stLlc store0 .flight ⟨.valid, 0, 0⟩) store0 false).lookup 9 (req store0 .flight) true).1.lineWrite 0 0 (byteMask 127 1) (req store0 .flight).path).bind
      (fun u => u.wakeLine (.dev 0))).isSome = true := by decide +kernel

/-- The old line of an atomic or a semaphore operation that the cache holds. -/
theorem witness_HomesServe_old :
    (at9 (stLlc atom0 .flight ⟨.valid, 0, 0⟩) atom0 false).fetchNeed (req atom0 .flight) 0 = 0
    ∧ (match (at9 (stLlc atom0 .flight ⟨.valid, 0, 0⟩) atom0 false).rmwRead 9 (req atom0 .flight) (.dev 0)
        (sectorsOf (atomMask 4 [⟨0, 124, 1, 0⟩])) with
      | .ok (_, old) => old == 0
      | .error _ => false) = true := by decide +kernel

/-- A tile OPEN and a tile VALID. -/
theorem witness_HomesServe_spent :
    (stTss .spent .flight ⟨.opened, 0, 1⟩).tileOfLine 0 = some ⟨0, 0, 0⟩
    ∧ ((stTss .spent .flight ⟨.opened, 0, 1⟩).tssAt (TileAt.key ⟨0, 0, 0⟩)).state = .opened
    ∧ ((stTss .spent .flight ⟨.valid, 0, 0⟩).tssAt (TileAt.key ⟨0, 0, 0⟩)).state ≠ .opened := by decide +kernel

/-- The device with a transaction of line 0 that awaits agents 0, 1 and 9, agent 9 with data due. -/
def txn0 : Txn := ⟨0x203, 0x200, none, false, none, none⟩
/-- The same, whose returned data is discarded. -/
def txnDrop : Txn := { txn0 with drop := true }
/-- The device with a transaction of line 0. -/
def stTxn (x : Txn) : State := { stPort with txns := Tab.empty.set 0 x }

theorem witness_SnoopsAreAnswered :
    (stTxn txn0).txns.get? 0 = some txn0 ∧ (txn0.awaits.getLsbD 0 && txn0.awaits.getLsbD 1 && txn0.awaits.getLsbD 9) = true
    ∧ (stTxn txn0).cacheGone 1 0 = true ∧ (stTxn txn0).cacheGone 9 0 = true ∧ txnDrop.drop = true
    ∧ { stTxn txn0 with cCache := Tab.empty.set 0 false }.cCache.get? 0 = some false ∧ txn0.wbDue.getLsbD 9 = true
    ∧ ((stTxn { txn0 with data := some 5 }).lineWrite 0 5 allBytes (.outer 1)).isSome = true ∧ (stTxn txn0).tileMoving 0 = false
    ∧ stPort.txns.get? 0 = none ∧ { stPort with dir := Tab.empty.set 0 ⟨true, agentBit 9, 0⟩ }.dir.get? 0 = some ⟨true, agentBit 9, 0⟩
    ∧ stPort.portGroup (3 : Fin 8).val ≠ [] := by decide +kernel

/-! ## Answers -/

/-- A request that goes to a peer. -/
def far (k : ReqKind) : MemReq := { req k .waiting with home := .peer 3 255 0 }
/-- A group that waits for request 9. -/
def gWake : Group := { g0 with hold := .sem 9 4 }

theorem witness_AnswersReachRequests :
    (stQ load0 (.back 0)).reqs.get? 9 = some (req load0 (.back 0)) ∧ (far load0).remote = true ∧ (far load0).stage = .waiting
    ∧ (stQ atom0 (.back 0)).reqs.get? 9 = some (req atom0 (.back 0))
    ∧ { st gWake with reqs := Tab.empty.set 9 (req (.semAcq 120 1) (.back 0)) }.reqs.get? 9 = some (req (.semAcq 120 1) (.back 0))
    ∧ (st gWake).blocks.get? 2 = some (b0 gWake) ∧ (b0 gWake).phase = .resident ∧ (st gWake).group? ⟨2, Fin.ofNat 32 0⟩ = some gWake
    ∧ gWake.hold = .sem 9 4 := by decide +kernel

/-- A load that waits for line 0 of host memory. -/
def hostReq : MemReq := { req load0 .waiting with va := 0, home := .host 0 }
/-- The device with it, its host link up. -/
def stHost : State := { st g0 with reqs := Tab.empty.set 9 hostReq, host := { (st g0).host with up := true } }

theorem witness_HostLinesComeAndGo :
    stHost.host.up = true ∧ stHost.hostWaiting 0 = [(9, hostReq)]
    ∧ ((stHost.hostWrite (0 * 128) (lineBytes 5)).llcPut ⟨true, 0⟩ hostReq.access 5 0xF 0).isSome = true
    ∧ stHost.llcFind ⟨true, 0⟩ = none
    ∧ (((stHost.llcPut ⟨true, 0⟩ hostReq.access 5 0xF 1).getD stHost).llcFind ⟨true, 0⟩).map (fun p => p.2.dirty) = some 1 := by
  decide +kernel

/-! ## Tiles and device memory -/

/-- A TLD of tile 0 of the device page into the last 2 KiB of local memory. -/
def tld0 : TileOp := ⟨false, 2, 0, 7, 0, 0x20000, 0xF800, 1, 0, 0, 0x1000, [], [], [], [], []⟩
/-- The device with that TLD in flight, number 9, and its tile in a state. -/
def stTld (e : Tss) : State := { st g0 with tileOps := Tab.empty.set 9 tld0, tss := Tab.empty.put Tss.init 0 e }
/-- Tile 0. -/
def tile0 : TileAt := ⟨0, 0, 0⟩
/-- The state after the tile passed the directory. -/
def tilePassed (s : State) (ev : DirEvent) : State := passed (s.accessAll tile0.lines ev none false)
/-- The CRC-32C of a tile of zeros. -/
def zeroCrc : Word := 0xA489834F

/-- A tile's lines put into the cache. -/
def tileIn (s : State) : State := tile0.lines.foldl (fun s n => (s.llcPut ⟨false, n⟩ ⟨0, .tld, 0⟩ 0 0xF 0).getD s) s
/-- The TLD's request for its tile, number 10. -/
def tldReq : MemReq := { tld0.request 9 0x20000 (.dev 0) (.tile false 9 0) .waiting with hint := 0 }
/-- The state after the tile was looked up for it. -/
def tileAsked (s : State) : State :=
  passed ((tilePassed { s with nextId := s.nextId + 1 } (.read none)).askTile s.nextId tldReq tile0)

theorem oneTile (e : Tss) (s : State) (h : s = stTld e ∨ s = tileIn (stTld e)) (n : s.nextId = 10) (held : s.tileOps.get? 9 = some tld0)
    (f : s.fw.fatal = false) (b : s.blocks.get? 2 = some (b0 g0))
    (u : s.reqs.any (fun _ q => q.kind == .tile false 9 0) = false) (p : s.poolFailed 0 (tileVa 0x20000 0 0) = false)
    (m : s.homeOf 0 (tileVa 0x20000 0 0) = some (.dev 0))
    (t : TileRead { s with nextId := 11 } 10 tldReq 0 tile0 tldReq (tileAsked s)) : OneTile s 9 tld0 (b0 g0) tile0 tldReq (tileAsked s) where
  held := held
  load := rfl
  sound := f
  block := b
  resident := rfl
  one := rfl
  fresh := rfl
  unasked := u
  pool := p
  home := ⟨0, m, _, rfl, by rw [n]; exact t⟩

/-- A TLD of a ZERO tile, and of a VALID tile that the cache holds. -/
theorem witness_TldFollowsTileState :
    OneTile (stTld Tss.init) 9 tld0 (b0 g0) tile0 tldReq (tileAsked (stTld Tss.init))
    ∧ OneTile (tileIn (stTld ⟨.valid, zeroCrc, 0⟩)) 9 tld0 (b0 g0) tile0 tldReq (tileAsked (tileIn (stTld ⟨.valid, zeroCrc, 0⟩))) :=
  ⟨oneTile Tss.init _ (.inl rfl) rfl rfl rfl rfl rfl rfl (by decide +kernel)
      ⟨by decide +kernel, by decide +kernel, by decide +kernel,
        ⟨tilePassed { stTld Tss.init with nextId := 11 } (.read none), tilePassed { stTld Tss.init with nextId := 11 } (.read none),
          by decide +kernel, by decide +kernel, by decide +kernel⟩⟩,
    oneTile ⟨.valid, zeroCrc, 0⟩ _ (.inr rfl) (by decide +kernel) (by decide +kernel) (by decide +kernel) (by decide +kernel)
      (by decide +kernel) (by decide +kernel) (by decide +kernel)
      ⟨by decide +kernel, by decide +kernel, by decide +kernel,
        ⟨tilePassed { tileIn (stTld ⟨.valid, zeroCrc, 0⟩) with nextId := 11 } (.read none),
          tilePassed { tileIn (stTld ⟨.valid, zeroCrc, 0⟩) with nextId := 11 } (.read none),
          by decide +kernel, by decide +kernel, by decide +kernel⟩⟩⟩

theorem witness_TldFollowsTileState_states :
    ((tileAsked (stTld Tss.init)).tssAt tile0.key).state = .zero
    ∧ ((tileAsked (stTld ⟨.spent, 0, 0⟩)).tssAt tile0.key).state = .spent ∧ ((tileAsked (stTld ⟨.spent, 0, 0⟩)).part 0).spentFlag = false
    ∧ ((tileAsked (stTld ⟨.poison, 0, 0⟩)).tssAt tile0.key).state = .poison ∧ (tileAsked (stTld ⟨.poison, 0, 0⟩)).repairable 0 = false
    ∧ ((tileAsked (tileIn (stTld ⟨.opened, 0, 1⟩))).tssAt tile0.key).state = .opened
    ∧ ((tileAsked (tileIn (stTld ⟨.opened, 0, 1⟩))).openTiles.get ⟨0, 0, false, 0⟩ tile0.key).poisonMask = 0
    ∧ (tileAsked (tileIn (stTld ⟨.valid, zeroCrc, 0⟩))).codedLost 0 = false
    ∧ ((tileAsked (stTld ⟨.stale, 0, 0⟩)).tssAt tile0.key).state = .stale ∧ (tileAsked (stTld ⟨.stale, 0, 0⟩)).twinHere = false := by
  decide +kernel

/-- The register of the CRC after each line of zeros. -/
def zeroRegs : List Nat :=
  [0xFFFFFFFF, 0xF7D89B24, 0x478D4E6F, 0x4509D0C9, 0xCF03123F, 0x1FD80331, 0xC5C4C2F9,
   0xD77C4C0, 0x11512183, 0xA8448891, 0x72802FED, 0x6B47581E, 0xA6FD2D2, 0xFBD7265A, 0x5BCB999C, 0x50E61FFC, 0x5B767CB0]

theorem zeroRegs_next : ∀ k < 16, crcBytes (zeroRegs.getD k 0) (lineBytes 0) = zeroRegs.getD (k + 1) 0 := by decide +kernel

theorem zero_fold (k : Nat) (h : k ≤ 16) :
    (List.range k).foldl (fun c _ => crcBytes c (lineBytes 0)) 0xFFFFFFFF = zeroRegs.getD k 0 := by
  induction k with
  | zero => rfl
  | succ k ih => 
    rw [List.range_succ, List.foldl_append, ih (by omega), ← zeroRegs_next k (by omega), List.foldl_cons, List.foldl_nil]

theorem crc_lines (l : List Byte) (ks : List Nat) :
    crc32c (ks.map (fun _ => l)).flatten = BitVec.ofNat 32 (ks.foldl (fun c _ => crcBytes c l) 0xFFFFFFFF ^^^ 0xFFFFFFFF) := by
  unfold crc32c crcBytes
  rw [List.foldl_flatten, List.foldl_map]

theorem zero_crc : crc32c (tile0.lines.map (fun _ => lineBytes 0)).flatten = zeroCrc := by
  have h : tile0.lines = List.range 16 := by decide
  rw [crc_lines, h, zero_fold 16 le_rfl]
  decide

/-- Device memory with nothing written reads as zeros. -/
theorem zero_bytes (s : State) (h : ∀ n ∈ tile0.lines, s.devLine n = 0) :
    s.tileBytes tile0 = (tile0.lines.map (fun _ => lineBytes 0)).flatten :=
  congrArg List.flatten (List.map_congr_left fun n hn => by rw [h n hn])

theorem witness_TldFollowsTileState_crc :
    crc32c ((tileAsked (tileIn (stTld ⟨.valid, zeroCrc, 0⟩))).tileBytes tile0)
      = ((tileAsked (tileIn (stTld ⟨.valid, zeroCrc, 0⟩))).tssAt tile0.key).crc
    ∧ crc32c ((tileAsked (tileIn (stTld ⟨.valid, 1, 0⟩))).tileBytes tile0)
      ≠ ((tileAsked (tileIn (stTld ⟨.valid, 1, 0⟩))).tssAt tile0.key).crc := by
  rw [zero_bytes _ (by decide +kernel), zero_bytes _ (by decide +kernel), zero_crc]
  decide +kernel

/-- A TST of the last 2 KiB of local memory to tile 0, with its first 15 lines accepted. -/
def tst0 : TileOp := { tld0 with store := true, lines := List.range 15, opened := [0] }
/-- The same with every line accepted. -/
def tstAll : TileOp := { tst0 with lines := List.range 16 }
/-- The same before its first line. -/
def tstNew : TileOp := { tst0 with lines := [], opened := [] }
/-- The block with that local memory written. -/
def bTst : Block := { b0 g0 with unmarked := Tab.empty.put false 31 true }
/-- The device with a TST and its tile in a state. -/
def stTst (o : TileOp) (e : Tss) : State :=
  { st g0 with blocks := Tab.empty.set 2 bTst, tileOps := Tab.empty.set 9 o, tss := Tab.empty.put Tss.init 0 e }

/-- The request for a line of the TST. -/
def tstReq : MemReq := tstNew.request 9 0x20780 (.dev 15) (.store 0 allBytes) .flight

theorem witness_TstLines :
    (stTst tstNew Tss.init).tileOps.get? 9 = some tstNew ∧ (stTst tstNew Tss.init).blocks.get? 2 = some bTst
    ∧ tstNew.lines.contains (16 * 0 + 15) = false ∧ (stTst tstNew Tss.init).poolFailed 0 (tileVa 0x20000 0 0) = false
    ∧ (stTst tstNew Tss.init).anyUnplaced tstNew.after = false ∧ (stTst tstNew Tss.init).anyLeft tstNew.seen = false
    ∧ (stTst tstNew Tss.init).homeOf 0 (tileVa 0x20000 0 0) = some (.dev 0) ∧ (stTst tstNew Tss.init).zeroHome (.dev 0) = .dev 0
    ∧ (stTst tstNew Tss.init).forward 0 / 16 * 16 + 15 = 15 ∧ (stTst tstNew Tss.init).lineBusy 0 15 = false
    ∧ (stTst tstNew Tss.init).spentDue 15 = false ∧ bTst.marked ((0xF800 + 2048 * 0) / 2048) = false := by decide +kernel

theorem witness_TstLines_write :
    (stTst tstNew Tss.init).tssMeet 15 = stTst tstNew Tss.init
    ∧ (((((((stTst tstNew Tss.init).access 15 .write none false).bind (fun r => r.2.cross tstReq)).bind (fun r => r.1.beginWrite 15)).bind
        (fun v => (v.countLookup 0 .tld 0 (v.holdsAll (.dev 15) allBytes)).openLine 15 (tstNew.localLine bTst 0 15) (.alloc tstNew.access))).bind
          (fun w => w.wakeLine (.dev 15))).isSome) = true := ⟨rfl, by decide +kernel⟩

theorem witness_TstCompletion :
    (stTst tstAll Tss.init).tileOps.get? 9 = some tstAll ∧ 16 * tstAll.count ≤ tstAll.lines.length
    ∧ (stTst tstAll Tss.init).tstOpen 9 = false ∧ bTst.group? tstAll.group = some g0 := by decide +kernel

/-- Port 0 runs to device 3, which may read and write one tile; the tile is in a state. -/
def stPeerTile (e : Tss) : State :=
  { stPort with
    lbx := { stPort.lbx with
      ports := Tab.empty.put LbxPort.init 0 { LbxPort.init with state := .active, peer := some (3, 0), idOk := true }
      exports := Tab.empty.set 255 ⟨0, 0x20000, 2048, true, 8, none⟩ }
    tss := Tab.empty.put Tss.init 0 e }
/-- A request of device 3 for the tile. -/
def tilePeer : PeerMsg := { fromPeer with off := 0 }
/-- A tile asked of a peer. -/
def farTile : MemReq := far (.tile false 9 0)

theorem witness_TilesOfPeers :
    (stPeerTile Tss.init).portGroup 3 ≠ [] ∧ (stPeerTile Tss.init).fw.fatal = false
    ∧ (stPeerTile Tss.init).admitPeer { tilePeer with off := 1 } 2048 false = none
    ∧ (stPeerTile Tss.init).admitPeer tilePeer 2048 true = some (0, 0x20000, 0)
    ∧ (stPeerTile Tss.init).forward ((stPeerTile Tss.init).readLine (((stPeerTile Tss.init).portGroup 3).headD 0 / 6) 0) = 0
    ∧ ((tilePassed (stPeerTile ⟨.spent, 0, 0⟩) (.read none)).tssAt tile0.key).state = .spent
    ∧ farTile.kind = .tile false 9 0 ∧ (stPeerTile Tss.init).awaitsPeer farTile = true := by decide +kernel

/-- With no waiters, evaluating those of a line changes nothing. -/
theorem wakeLine_none (s : State) (h : Home) (w : s.waiters = .empty) : s.wakeLine h = some s := by
  have e : ∀ k, s.wakeWord h k = some s := fun k => by simp [State.wakeWord, w, Tab.get, Tab.get?, Tab.findIn, Tab.empty]
  unfold State.wakeLine
  generalize List.range 16 = l
  induction l with
  | nil => rfl
  | cons a l ih => rw [List.foldlM_cons, e]; exact ih

/-- Its lookups counted as a peer's. -/
def peerCounted : State :=
  tile0.lines.foldl (fun s l => s.countLookup 0 .peer 0 (s.holdsAll (.dev l) allBytes)) (tilePassed (stPeerTile ⟨.valid, 0, 0⟩) .write)

theorem witness_TilesOfPeers_write : ∃ v w, peerCounted.fullWrite 0 [1] (.outer 1) = some v
    ∧ tile0.lines.foldlM (fun s l => s.wakeLine (.dev l)) v = some w := by
  have h : ((peerCounted.fullWrite 0 [1] (.outer 1)).map (fun v => v.waiters)) = some .empty := by decide +kernel
  obtain ⟨v, hv, w⟩ := Option.map_eq_some_iff.mp h
  refine ⟨v, v, hv, ?_⟩
  generalize tile0.lines = l
  induction l with
  | nil => rfl
  | cons a l ih => rw [List.foldlM_cons, wakeLine_none v _ w]; exact ih

/-- A peer's read of the tile when it has arrived, number 10. -/
def tileCame (e : Tss) : State :=
  let s := tileIn (stPeerTile e)
  let r := s.addReq ⟨.outer 5 7 (some 255), 0, 0x20000, .dev 0, .tile false 0 0, 0, .flight, 0, .free⟩
  (r.2.arriveReq r.1).getD State.reset
/-- That read. -/
def peerRead : MemReq := ((tileCame ⟨.valid, 0, 0⟩).reqs.get? 10).getD (req load0 .flight)

theorem witness_TilesOfPeers_read :
    (tileIn (stPeerTile ⟨.valid, 0, 0⟩)).requestRoom tilePeer = true ∧ peerRead.home = .dev 0 ∧ peerRead.kind = .tile false 0 0
    ∧ peerRead.stage = .flight ∧ peerRead.src = .outer 5 7 (some 255) ∧ peerRead.via.arr.isSome = true := by decide +kernel

theorem witness_TilesOfPeers_passes :
    (tileCame ⟨.valid, 0, 0⟩).tssMeet 0 = tileCame ⟨.valid, 0, 0⟩ ∧ (∀ l ∈ tile0.lines, (tileCame ⟨.valid, 0, 0⟩).lineBusy 0 l = false)
    ∧ (match (tileCame ⟨.valid, 0, 0⟩).accessAll tile0.lines (.read none) none false with
      | some (true, v) => (match v.cross peerRead with
        | some (w, q) => (w.askTile 10 q tile0).map (fun r => (r.1, q.via.fetched))
        | none => none)
      | _ => none) = some (true, false) := by decide +kernel

/-- A fill of line 0 for request 9, in the queue of pseudo-channel 0. -/
def fill9 (issued : Bool) : McEntry := ⟨.fill 9, 0, 0, 0, 0, 0xF, 0, 0, issued, 0, 2⟩
/-- A write-back of the same line. -/
def back9 : McEntry := ⟨.writeBack, 0, 0, 0, 0, 0xF, allBytes, 5, false, 0, 2⟩
/-- The device with an entry in pseudo-channel 0. -/
def stMc (e : McEntry) : State :=
  { stTss load0 .waiting ⟨.valid, 0, 0⟩ with pseudo := Tab.empty.put PseudoChan.init 0 ⟨[e], none⟩ }

theorem witness_MemoryControllersWork :
    (stMc back9).memOpen 0 = true ∧ (stMc back9).halted = false
    ∧ ((stMc back9).pseudoChan 0).pick = some (0, back9) ∧ back9.writes = true
    ∧ ((stMc (fill9 false)).pseudoChan 0).pick = some (0, fill9 false) ∧ (fill9 false).writes = false
    ∧ ((stMc (fill9 true)).pseudoChan 0).entries[0]? = some (fill9 true)
    ∧ (stMc (fill9 true)).reqs.get? 9 = some (req load0 .waiting) ∧ (req load0 .waiting).isRead = true
    ∧ (stMc (fill9 true)).readMeets 0 (req load0 .waiting).need = .data
    ∧ ((stMc (fill9 true)).llcFill ⟨false, 0⟩ (req load0 .waiting).access ((stMc (fill9 true)).devLine 0) 0xF).isSome = true := by
  decide +kernel

/-- The half-replicated region: one set of one channel in each half, copies 0 and 1. -/
def stHalf (a b : Tss) : State :=
  { stPort with
    sets := (Tab.empty.set 0 ⟨0, [0], 0, 1024, .shared, 0, none⟩).set 1 ⟨0x400000, [128], 0, 1024, .shared, 1, none⟩
    tss := (Tab.empty.put Tss.init 0 a).put Tss.init (tileKey 128 0) b
    mm := { stPort.mm with shared := some ⟨2097152, true, false, [⟨0, 0, 2097152⟩, ⟨1, 0x400000, 2097152⟩]⟩ }
    lbx := { stPort.lbx with d := 2 }
    boot := { stPort.boot with ready := true } }

theorem witness_TilesAreRepaired :
    (stHalf ⟨.poison, 0, 0⟩ ⟨.poison, 0, 0⟩).tileOfLine 0 = some tile0
    ∧ ((stHalf ⟨.poison, 0, 0⟩ ⟨.poison, 0, 0⟩).tssAt tile0.key).state = .poison
    ∧ (stHalf ⟨.poison, 0, 0⟩ ⟨.poison, 0, 0⟩).repairable 0 = true ∧ ((stHalf ⟨.poison, 0, 0⟩ ⟨.poison, 0, 0⟩).repair 0).2 = false
    ∧ (stHalf ⟨.poison, 0, 0⟩ ⟨.poison, 0, 0⟩).otherCopy 0 = some 0x8000 ∧ (stHalf ⟨.poison, 0, 0⟩ ⟨.poison, 0, 0⟩).memOpen 0 = true
    ∧ (stHalf ⟨.poison, 0, 0⟩ ⟨.poison, 0, 0⟩).memOpen 128 = true ∧ (stHalf ⟨.poison, 0, 0⟩ ⟨.poison, 0, 0⟩).tileMoving 0 = false
    ∧ (stHalf ⟨.poison, 0, 0⟩ ⟨.poison, 0, 0⟩).tileMoving 0x8000 = false
    ∧ ((stHalf ⟨.stale, 0, 0⟩ Tss.init).tssAt tile0.key).state = .stale
    ∧ (stHalf ⟨.stale, 0, 0⟩ Tss.init).portGroup (stHalf ⟨.stale, 0, 0⟩ Tss.init).twinNum ≠ []
    ∧ (∀ l ∈ tile0.lines, (stHalf ⟨.stale, 0, 0⟩ Tss.init).tileMoving l = false)
    ∧ ((stHalf ⟨.stale, 0, 0⟩ Tss.init).fullWrite 0 [1] (.outer 1)).isSome = true
    ∧ (stHalf ⟨.stale, 0, 0⟩ Tss.init).power.selfRefresh = false ∧ (stHalf ⟨.stale, 0, 0⟩ Tss.init).boot.ready = true := by
  decide +kernel

/-- A tile whose other copy is sound. -/
def stGood : State := stHalf ⟨.poison, 0, 0⟩ ⟨.valid, zeroCrc, 0⟩

/-- The tile of the other copy. -/
def otherTile : TileAt := ⟨0x8000, 128, 0⟩
/-- The same once the other copy was read: no error is met. -/
def stRead : State := otherTile.lines.foldl (fun s n => s.foundBad n 0xF false) stGood

theorem other_zero : ∀ n ∈ otherTile.lines, stRead.devLine n = 0 := by decide +kernel

theorem witness_TilesAreRepaired_copy : (stGood.repair 0).2 = true := by
  have o : stGood.otherCopy 0 = some 0x8000 := by decide +kernel
  have t : stGood.tileOfLine 0 = some tile0 := by decide +kernel
  have u : stGood.tileOfLine 0x8000 = some otherTile := by decide +kernel
  have v : (stGood.tssAt otherTile.key).state = .valid := by decide +kernel
  have e : stRead.tssAt otherTile.key = ⟨.valid, zeroCrc, 0⟩ := by decide +kernel
  have h : crc32c (stRead.tileBytes otherTile) = zeroCrc := by
    have l : stRead.tileBytes otherTile = (tile0.lines.map (fun _ => lineBytes 0)).flatten :=
      congrArg List.flatten ((List.map_congr_left fun n hn => by rw [other_zero n hn]).trans (by simp [TileAt.lines]))
    rw [l, zero_crc]
  have r : (otherTile.lines.foldl (fun s n => s.foundBad n 0xF false) stGood) = stRead := rfl
  simp only [State.repair, o, t, u, v, if_true, r, e, h, and_self]

/-- A decoder of 2 MiB, whose window shows frame 0 of device memory and no other. -/
def stCxl : State :=
  { st g0 with host := { (st g0).host with up := true, memActive := true, decoder := some (0x400000, 0x400000), window := Tab.empty.set 0 0 } }

theorem witness_HostReadsAndWritesMemory :
    stCxl.host.decoder = some (0x400000, 0x400000) ∧ stCxl.host.up = true ∧ stCxl.suspended 0 = false ∧ stCxl.host.memActive = true
    ∧ stCxl.fw.fatal = false ∧ stCxl.windowAt 0x400000 0x7FFFC0 = none ∧ stCxl.windowAt 0x400000 0x400000 = some (0, true)
    ∧ { stCxl with fw := { stCxl.fw with fatal := true } }.fw.fatal = true := by decide +kernel

/-! ## Tasks, blocks and commands -/

/-- A started device: slice 0 gives quad 0 to partition 0, and its host link is up. -/
def stRun (g : Group) : State :=
  { st g with
    boot := { (st g).boot with ready := true }
    power := { (st g).power with state := .active }
    host := { (st g).host with up := true, vfEnable := true }
    slices := Tab.empty.set 0 ⟨1, 1, 0xFC0, some 0⟩ }
/-- A queue of 16 slots at host address 0, ACTIVE, with one command to fetch at its last slot. -/
def q0 : Queue := ⟨16, false, 0, 0x1000, 0x2000, true, .active, false, 0, 0, 15, 0, false, [], 0⟩
/-- Command 5 of queue 0. -/
def cmd0 (bytes : List Byte) (k : CmdStage) : Cmd :=
  ⟨0, 0x13C0, bytes, k, none, .ok, 0, 0, 0, [], some 3, 0, false, none, false, [], .empty, none, false⟩
/-- The bytes of a command: its opcode, its FLAGS, and the low bytes of the fields at 32, 40, 48, 56 and 60. -/
def cmdBytes (op flags : Byte) (a b c d e : List Byte) : List Byte :=
  let pad := fun (l : List Byte) n => l ++ List.replicate (n - l.length) 0
  pad [op, flags, 0, 0, 10] 32 ++ pad a 8 ++ pad b 8 ++ pad c 8 ++ pad d 4 ++ pad e 4
/-- A LAUNCH whose pour area is one entry in the host page. -/
def launch0 (k : CmdStage) : Cmd := cmd0 (cmdBytes 1 1 [] [] [] [1] []) k
/-- A node whose parameter block is 16 bytes at an address. -/
def node0 (len va : Nat) (pourOnly : Bool) : Node := ⟨0x1000, 1, 1, 1, 1, len, pourOnly, 0, 0, 0, 64, 8, 65536, va, [], false⟩
/-- Queue 0 with command 5, which runs version 3. -/
def stCmd (c : Cmd) (ns : List Node) : State :=
  { stRun g0 with queues := Tab.empty.set 0 q0, cmds := Tab.empty.set 5 c, versions := Tab.empty.set 3 ⟨ns, false⟩ }
/-- The task that waits. -/
def tWait (x mem : Nat) : Task := { t0 with state := .waiting, gridX := x, lmem := mem, placed := 0 }
/-- The device with that task. -/
def stWait (n : Node) (x mem : Nat) : State := { stCmd (launch0 .running) [n] with tasks := Tab.empty.set 1 (tWait x mem) }

theorem witness_TasksBecomeReady :
    (stWait (node0 0 0 false) 1 0).cmd? 5 = some (launch0 .running) ∧ (stWait (node0 0 0 false) 1 0).alive = true
    ∧ (stWait (node0 0 0 false) 1 0).predsDone (tWait 1 0) = true ∧ (stWait (node0 0 0 false) 1 0).predFailed (tWait 1 0) = false
    ∧ ((stWait (node0 0 0 false) 1 0).stepVer 5).nodes[0]? = some (node0 0 0 false)
    ∧ (stWait (node0 16 0x30000 false) 1 0).firstUnmapped 0 0x30000 16 = some 0x30000
    ∧ (stWait (node0 16 0xFFF0 false) 1 0).firstUnmapped 0 0xFFF0 16 = none
    ∧ (stWait (node0 16 0xFFF0 false) 1 0).frontStop 0 0xFFF0 16 = none ∧ (stWait (node0 16 0xFFF0 false) 1 0).frontFlags 0 0xFFF0 16 = 0
    ∧ { stWait (node0 16 0x20000 false) 1 0 with tss := Tab.empty.put Tss.init 0 ⟨.poison, 0, 0⟩ }.frontStop 0 0x20000 16 = some .poison
    ∧ (tWait 0 0).blocks = 0 ∧ (tWait 1 0).blocks ≠ 0 ∧ (stWait (node0 0 0 false) 1 0).openCores 0 = [0, 1, 2, 3]
    ∧ (tWait 1 524288).fitsCore 64 = false ∧ (tWait 1 0).fitsCore 64 = true := by decide +kernel

/-- A group whose u25 to u27 give the grid 1 × 1 × 2³² − 1, and u33 node 0 with key 65,535. -/
def gPour : Group := gU [(25, 1), (26, 1), (27, 0xFFFFFFFF), (33, 0xFFFF0000)]
/-- POUR with those. -/
def pourIns : Ins := { ins with b := 25, c := 33 }
/-- The device in which it executes. -/
def stPour (c : Cmd) : State := { stCmd c [node0 0 0 true] with blocks := (st gPour).blocks }
/-- What it sees. -/
def ctxPour (c : Cmd) (i : Ins) : Ctx := ⟨stPour c, ref, b0 gPour, gPour, t0, i, gPour.selected i⟩
/-- A LAUNCH without a pour area. -/
def launchNone : Cmd := cmd0 (cmdBytes 1 1 [] [] [] [] []) .running

theorem witness_Pour :
    CanIssue (stPour (launch0 .running)) ref pourIns (ctxPour (launch0 .running) pourIns) ∧ (ctxPour (launch0 .running) off).sel = 0
    ∧ (ctxPour (launch0 .running) pourIns).sel ≠ 0 ∧ (ctxPour (launch0 .running) pourIns).pourOk (launch0 .running) (node0 0 0 true) []
    ∧ (stPour (launch0 .running)).pourRoom 5 (launch0 .running) 0 = true ∧ (stPour launchNone).pourRoom 5 launchNone 0 = false := by
  refine ⟨canIssueAt _ _ _ rfl rfl rfl rfl rfl, by decide, by decide, ⟨?_, ?_, ?_, ?_, ?_, ?_, ?_, ?_, ?_⟩, ?_⟩ <;>
    (try unfold uOk) <;> (try unfold Ctx.writesFree) <;> (try exact .inl ⟨rfl, rfl⟩) <;> decide +kernel

/-- Every group of a block ended, and every group held at a barrier. -/
def gEnded : Group := { g0 with live := 0, hold := .ended }
/-- Held at a barrier. -/
def gBar : Group := { g0 with hold := .bar 0 0x1000 5 }
/-- The device of a command, with a group's block. -/
def stOf (g : Group) (c : Cmd) : State := { stCmd c [node0 0 0 false] with blocks := (st g).blocks }

theorem witness_BlocksEnd :
    (stOf gEnded (launch0 .running)).blocks.get? 2 = some (b0 gEnded) ∧ (stOf gEnded (launch0 .running)).fw.fatal = false
    ∧ (∀ g ∈ (b0 gEnded).groups, g.hold = .ended) ∧ (stOf gEnded (launch0 .running)).blockBusy 2 = false
    ∧ (stOf gBar (launch0 .running)).blocks.get? 2 = some (b0 gBar) ∧ (∀ g ∈ (b0 gBar).groups, g.live ≠ 0 → g.heldAt.isSome = true)
    ∧ ((b0 gBar).groups.filter (fun g => g.live ≠ 0)).filterMap Group.heldAt = [0x1000] := by decide +kernel

/-- A FILL of 8 bytes, at the end of the host page. -/
def fill0 (k : CmdStage) : Cmd := cmd0 (cmdBytes 3 3 [0xF8, 0xFF] [0x5A] [8] [] []) k

/-- The PF writes queue 0. -/
theorem queueWrite (s : State) (v : Queue) (rid : Option Nat) (d : Bool) (a : s.queue? (0 : Fin 1024) = some v) (b : s.host.up = true)
    (c : s.suspended 0 = false) (e : (s.fnRec 0).flr = false) (g : s.admits 0 rid d = true) (h : s.feHeard 0 v = true) :
    QueueWrite s 0 rid d 0 v := ⟨a, rfl, b, c, rfl, ⟨e, e⟩, g, h⟩

theorem witness_CommandsEnd :
    (stOf g0 (launch0 .running)).cmd? 5 = some (launch0 .running) ∧ (∀ t ∈ (stOf g0 (launch0 .running)).tasksOf 5, t.2.failed = false)
    ∧ (fill0 .running).pending = true ∧ (fill0 .running).why = none ∧ (fill0 .running).isLaunch = false ∧ (fill0 .running).op ≠ 4
    ∧ (launch0 .running).isLaunch = true ∧ QueueWrite (stOf g0 (launch0 .running)) 0 none false 0 q0
    ∧ ((stOf g0 (launch0 .draining)).onCore 0).any (fun r => ((stOf g0 (launch0 .draining)).tasks.get? r.2.task).any
        (fun t => t.cmd = 5)) = true
    ∧ { launch0 .draining with boundStarted := true }.boundStarted = true ∧ t0.cmd = 5 ∧ (launch0 .killing).stage = .killing := by
  refine ⟨rfl, by decide +kernel, rfl, rfl, rfl, by decide +kernel, rfl, queueWrite _ _ _ _ rfl rfl rfl rfl rfl rfl, ?_⟩
  decide +kernel

/-! ## Scheduling -/

/-- Partition 0 with its context 0 as owner. -/
def pOwn (q : Nat) : Part := { p0 with owner := some 0, quantaLeft := q }
/-- The device with a ready task of 640 blocks, of which one was placed. -/
def stSched (q : Nat) (placed : Nat) (pr : Option Nat) : State :=
  { stCmd (launch0 .running) [node0 0 0 false] with
    parts := Tab.empty.set 0 { pOwn q with owner := pr }
    tasks := Tab.empty.set 1 { t0 with gridX := 640, placed := placed } }

theorem witness_BlocksArePlaced :
    (stSched 1 1 (some 0)).alive = true ∧ (stSched 1 1 (some 0)).power.state ≠ .retain ∧ ((stSched 1 1 (some 0)).part 0).owner = some 0
    ∧ ((stSched 1 1 (some 0)).readyBlocks 0 0 0).findSome? (stSched 1 1 (some 0)).fitReady = some (.new 1, 1)
    ∧ ((stSched 1 1 (some 1)).readyBlocks 0 0 1).findSome? (stSched 1 1 (some 1)).fitReady = none
    ∧ (stSched 1 1 (some 1)).preempt 0 0 = none
    ∧ (stSched 1 1 (some 1)).backfill 0 0 = some (0, .new 1, 1) ∧ (stSched 1 1 (some 0)).blocks.get? 2 = some (b0 g0) := by
  decide +kernel

theorem witness_QuantumExpiry :
    ((stSched 2 1 (some 0)).part 0).owner.isSome = true ∧ 1 < ((stSched 2 1 (some 0)).part 0).quantaLeft
    ∧ ((stSched 1 1 (some 0)).part 0).quantaLeft ≤ 1 ∧ ((stSched 1 640 (some 0)).changeOwner 0).preempt 0 0 = none
    ∧ ((stSched 1 640 (some 0)).changeOwner 0).preempt 1 0 = none ∧ (stSched 1 640 (some 0)).alive = true := by decide +kernel

/-- Core 0 alone is open and holds a block of context 0; a task of context 1, the owner, waits for the room. -/
def stPreempt : State :=
  { stSched 1 1 (some 1) with
    closed := ((Tab.empty.set 1 true).set 2 true).set 3 true
    blocks := Tab.empty.set 2 { b0 g0 with lmemSize := 400000 }
    tasks := (Tab.empty.set 1 { t0 with lmem := 400000 }).set 6 { t0 with lmem := 400000, ctx := 1, placed := 0 } }

theorem witness_BlocksArePlaced_preempt :
    (stPreempt.part 0).owner = some 1 ∧ (stPreempt.readyBlocks 0 0 1).findSome? stPreempt.fitReady = none
    ∧ (stPreempt.preempt 0 0).isSome = true := by decide +kernel

/-- The block leaving its core, its group's footprint held, and a request of it in flight or not. -/
def stOut (f : Foot) (busy : Bool) : State :=
  { stRun g0 with
    blocks := Tab.empty.set 2 { b0 { g0 with foot := f } with phase := .leaving }
    reqs := if busy then Tab.empty.set 9 (req load0 .flight) else .empty }
/-- The state once its semaphore waits are withdrawn. -/
def outOf (s : State) : State := ((s.reqsOfBlock 2).foldl (fun s r => s.withdrawSem r.1 r.2) s).wakeAfter (s.reqsOfBlock 2)

theorem witness_SwitchOut :
    (stOut Foot.empty true).blocks.get? 2 = some { b0 { g0 with foot := Foot.empty } with phase := .leaving }
    ∧ (stOut Foot.empty true).fw.fatal = false
    ∧ (outOf (stOut Foot.empty true)).stillBusy 2 = true ∧ (outOf (stOut Foot.empty false)).stillBusy 2 = false
    ∧ (decide ((⟨.held, .empty, [], true⟩ : Foot).st = .held) && (⟨.held, .empty, [], true⟩ : Foot).bad) = true
    ∧ (outOf (stOut ⟨.held, .empty, [], true⟩ false)).stillBusy 2 = false := by decide +kernel

theorem witness_Saved :
    { stRun g0 with blocks := Tab.empty.set 2 { b0 g0 with phase := .stored } }.blocks.get? 2 = some { b0 g0 with phase := .stored }
    ∧ (stRun g0).tasks.get? (b0 g0).task = some t0 := by decide +kernel

/-! ## Queues -/

/-- Queue 0 in a state. -/
def stQueue (v : Queue) : State := { stRun g0 with queues := Tab.empty.set 0 v }

/-- VF 1 with routing ID 7 granted. -/
def stGrant : State := { stQueue q0 with fns := Tab.empty.put Fn.init 1 { Fn.init with ctx := some (0, 0), grants := [7] } }

theorem witness_QueueRegistersAreWritten :
    QueueWrite (stQueue { q0 with state := .disabled }) 0 none false 0 { q0 with state := .disabled }
    ∧ QueueWrite (stQueue q0) 0 none true 0 q0 ∧ QueueWrite stGrant 1 (some 7) true 0 q0
    ∧ (stQueue q0).mayRequest 0 0 = true ∧ ((stQueue q0).part 0).state = .active ∧ q0.state ≠ .disabled
    ∧ (stGrant.fnRec 1).grants.contains 8 = false ∧ stGrant.seesQueue 1 0 = true :=
  ⟨queueWrite _ _ _ _ rfl rfl rfl rfl rfl rfl, queueWrite _ _ _ _ rfl rfl rfl rfl rfl rfl, ⟨rfl, rfl, rfl, rfl, rfl, ⟨rfl, rfl⟩, rfl, rfl⟩,
    by decide +kernel⟩

/-- The bytes of a LAUNCH whose batch descriptor lies at the end of the host page, and past it. -/
def launchAt (b1 b2 : Byte) : List Byte := cmdBytes 1 1 [0, b1, b2] [] [] [] []

theorem witness_CommandsAreFetched :
    (stQueue q0).queue? (0 : Fin 1024) = some q0 ∧ (stQueue q0).canFetch 0 q0 = true ∧ (stQueue q0).isTurn 0 q0 = true
    ∧ (Cmd.ofSlot 0 0x13C0 (cmdBytes 5 1 [] [] [] [] [])).op ∉ [0, 1, 2, 3, 4, 8, 9, 10]
    ∧ (Cmd.ofSlot 0 0x13C0 (cmdBytes 10 1 [] [] [] [] [])).op = 10
    ∧ (Cmd.ofSlot 0 0x13C0 (launchAt 0xFE 0)).op = 1 ∧ (Cmd.ofSlot 0 0x13C0 (launchAt 0xFE 0)).batchVa = 0xFE00
    ∧ ((stQueue q0).firstUnmapped 0 0x2FF00 512).isSome = true
    ∧ (stQueue q0).firstUnmapped 0 0x20000 512 = none ∧ (stQueue q0).frontPlain (.fe 0) (some 1) 0 0x20000 512 = true
    ∧ { stQueue q0 with tss := Tab.empty.put Tss.init 0 ⟨.poison, 0, 0⟩ }.frontStop 0 0x20000 512 = some .poison := by decide +kernel

theorem readsAtOnce (s : State) (src : Src) (op : Option Nat) (p va n : Nat) (a : s.firstUnmapped p va n = none)
    (b : s.frontPlain src op p va n = true) (c : s.frontStop p va n = none) (d : s.frontFlags p va n = 0) : ReadsAtOnce s src op p va n :=
  ⟨a, b, c, d⟩

/-- A slot and a batch descriptor in device memory, and a task's parameter block, a graph and a patch there. -/
theorem witness_ReadsAtOnce :
    ReadsAtOnce (stQueue { q0 with sqLoc := true }) (.fe 0) (some 0) 0 0x20000 64 ∧ ReadsAtOnce (stQueue q0) (.fe 0) (some 1) 0 0x20000 512
    ∧ ReadsAtOnce (stWait (node0 16 0x20000 false) 1 0) (.cmd 5) (some 1) 0 0x20000 16
    ∧ ReadsAtOnce (stCmd (launch0 .fetched) []) (.cmd 5) (some 0) 0 0x2FF80 (128 * 1) :=
  ⟨readsAtOnce _ _ _ _ _ _ (by decide +kernel) (by decide +kernel) (by decide +kernel) (by decide +kernel),
    readsAtOnce _ _ _ _ _ _ (by decide +kernel) (by decide +kernel) (by decide +kernel) (by decide +kernel),
    readsAtOnce _ _ _ _ _ _ (by decide +kernel) (by decide +kernel) (by decide +kernel) (by decide +kernel),
    readsAtOnce _ _ _ _ _ _ (by decide +kernel) (by decide +kernel) (by decide +kernel) (by decide +kernel)⟩

/-- A command that is fetched. -/
def new0 (bytes : List Byte) : Cmd := { cmd0 bytes .fetched with version := none }
/-- The device with it, and graph 0 of partition 0 at version 3. -/
def stNew (bytes : List Byte) : State := { stCmd (new0 bytes) [node0 0 0 false] with graphs := Tab.empty.set 0 ⟨1, some 3⟩ }

theorem witness_CommandsStart :
    (stNew (cmdBytes 0 1 [] [] [] [] [])).mayStart 5 0 = some (new0 (cmdBytes 0 1 [] [] [] [] []))
    ∧ (stNew (cmdBytes 4 1 [0xF8, 0xFF] [1] [] [] [])).mayStart 5 4 = some (new0 (cmdBytes 4 1 [0xF8, 0xFF] [1] [] [] []))
    ∧ (stNew (cmdBytes 4 1 [0xF8, 0xFF] [1] [] [] [])).locate 0 (new0 (cmdBytes 4 1 [0xF8, 0xFF] [1] [] [] [])).semVa
      = some (.host 1023, true)
    ∧ (stNew (cmdBytes 4 1 [0, 0, 1] [] [] [] [])).locate 0 (new0 (cmdBytes 4 1 [0, 0, 1] [] [] [] [])).semVa
      = some (.host 1024, false)
    ∧ (stNew (cmdBytes 4 1 [0, 0, 3] [] [] [] [])).locate 0 (new0 (cmdBytes 4 1 [0, 0, 3] [] [] [] [])).semVa = none
    ∧ (stNew (fill0 .fetched).bytes).mayStart 5 3 = some (new0 (fill0 .fetched).bytes) ∧ (new0 (fill0 .fetched).bytes).copyLen = 8
    ∧ (stNew (cmdBytes 2 1 [] [] [] [] [])).mayStart 5 2 = some (new0 (cmdBytes 2 1 [] [] [] [] []))
    ∧ (new0 (cmdBytes 2 1 [] [] [] [] [])).copyLen = 0
    ∧ (stNew (cmdBytes 1 1 [] [1] [] [] [])).mayStart 5 1 = some (new0 (cmdBytes 1 1 [] [1] [] [] [])) := by decide +kernel

theorem witness_CommandsStart_graphs :
    ((stNew []).graph 0 0).current = some 3 ∧ (stNew []).versions.get? 3 = some ⟨[node0 0 0 false], false⟩
    ∧ ((stNew []).graph 0 255).current = none
    ∧ (stNew (cmdBytes 8 1 [0x80, 0xFF] [] [] [] [])).mayStart 5 8 = some (new0 (cmdBytes 8 1 [0x80, 0xFF] [] [] [] []))
    ∧ (stNew []).firstUnmapped 0 0xFF80 (128 * 1) = none ∧ (stNew []).frontStop 0 0xFF80 (128 * 1) = none
    ∧ ((stNew []).firstUnmapped 0 0x2FF80 (128 * 2)).isSome = true
    ∧ (stNew (cmdBytes 9 1 [] [0, 0, 0, 0, 1] [1] [] [])).mayStart 5 9 = some (new0 (cmdBytes 9 1 [] [0, 0, 0, 0, 1] [1] [] []))
    ∧ (stNew (cmdBytes 10 1 [] [] [] [] [])).mayStart 5 10 = some (new0 (cmdBytes 10 1 [] [] [] [] [])) := by decide +kernel

/-- A FILL of the first 8 bytes of the device page. -/
def fillDev : Cmd := cmd0 (cmdBytes 3 3 [0, 0, 2] [0x5A] [8] [] []) .running
/-- A FILL past the mapped pages. -/
def fillBad : Cmd := cmd0 (cmdBytes 3 3 [0, 0, 3] [0x5A] [8] [] []) .running

theorem witness_CopyEnginesMove :
    (stCmd fillDev []).alive = true ∧ (stCmd fillDev []).nextCopy 0 = some (0, 5, fillDev) ∧ fillDev.op = 3
    ∧ (stCmd fillDev []).locate 0 (fillDev.copyDst + fillDev.moved) = some (.dev 0, true)
    ∧ (stCmd fillDev []).poolFailed 0 (fillDev.copyDst + fillDev.moved) = false
    ∧ min (fillDev.copyLen - fillDev.moved) (2048 - (fillDev.copyDst + fillDev.moved) % 2048) = 8
    ∧ (stCmd fillBad []).nextCopy 0 = some (0, 5, fillBad)
    ∧ (stCmd fillBad []).locate 0 (fillBad.copyDst + fillBad.moved) = none := by decide +kernel

theorem witness_CopyEnginesMove_chunk :
    ({ stCmd fillDev [] with copyTurn := (stCmd fillDev []).copyTurn.put 15 0 0 }.writeChunk 5 fillDev 0x20000 (.dev 0)
      (List.replicate 8 0x5A)).map (fun (r : Bool × State) => (r.1, r.2.chunkFlags fillDev 0x20000 8)) = some (true, 0) := by decide +kernel

/-- A complete FILL with a record and a signal; one that wants neither. -/
def doneQuiet (k : CmdStage) : Cmd := cmd0 (cmdBytes 3 0 [0xF8, 0xFF] [0x5A] [8] [] []) k

theorem witness_CompletionsAndSignals :
    (stCmd (fill0 .complete) []).cmd? 5 = some (fill0 .complete) ∧ (stCmd (fill0 .complete) []).queue? 0 = some q0
    ∧ (stCmd (fill0 .complete) []).writesLeft 5 = false ∧ (stCmd (fill0 .complete) []).inFlr 0 0 = false
    ∧ { stCmd (fill0 .complete) [] with fns := Tab.empty.put Fn.init 0 { Fn.init with flr := true } }.inFlr 0 0 = true
    ∧ (stCmd (fill0 .complete) []).fw.fatal = false ∧ (stCmd (fill0 .complete) []).mayRequest 0 0 = true
    ∧ (stCmd (fill0 .complete) []).host.up = true ∧ { q0 with state := .stalled }.state = .stalled ∧ q0.state ≠ .stalled
    ∧ ((fill0 .complete).wantsRecord || (fill0 .complete).failed) = true ∧ (fill0 .complete).signals = true
    ∧ ((doneQuiet .complete).wantsRecord || (doneQuiet .complete).failed) = false ∧ (doneQuiet .complete).signals = false
    ∧ (fill0 .recorded).stage = .recorded ∧ (fill0 .recorded).signal.isSome = true := by decide +kernel

/-! ## Mailbox requests: a request of each kind that was dispatched, with what its statement supposes -/

/-- A function whose slot 0 holds a dispatched request: a code and its fields, each with its size. -/
def mbFn (code : Nat) (l : List (Nat × Nat)) : Fn :=
  let p := encodeFields l
  let q := bytesOf 2 code ++ bytesOf 2 (encodedLen (l.map (·.1))) ++ List.replicate 12 0 ++ p
  { Fn.init with slots := Tab.empty.set 0 ⟨.pending, [], q, [], 1, true⟩ }
/-- The PF asks. -/
def ask (s : State) (code : Nat) (l : List (Nat × Nat)) : State := { s with fns := Tab.empty.set 0 (mbFn code l) }
/-- VF 1, bound to context 0 of partition 0, asks. -/
def askVf (s : State) (code : Nat) (l : List (Nat × Nat)) : State :=
  { s with fns := Tab.empty.set 1 { mbFn code l with ctx := some (0, 0) } }
/-- The started device. -/
def sys0 : State := stRun g0

theorem asked (s : State) (code : Nat) (l : List (Nat × Nat))
    (h : ((mbFn code l).slot 0).code = code ∧ ((mbFn code l).slot 0).len = encodedLen (l.map (·.1))
      ∧ decodeFields (l.map (·.1)) ((mbFn code l).slot 0).payload = l.map (·.2)) :
    Asked (ask s code l) ⟨0, 0⟩ code (l.map (·.1)) (l.map (·.2)) :=
  ⟨⟨⟨rfl, rfl, h.1⟩, h.2.1, h.2.2⟩, rfl⟩

theorem askedVf (s : State) (code : Nat) (l : List (Nat × Nat))
    (h : ((mbFn code l).slot 0).code = code ∧ ((mbFn code l).slot 0).len = encodedLen (l.map (·.1))
      ∧ decodeFields (l.map (·.1)) ((mbFn code l).slot 0).payload = l.map (·.2)) :
    AskedBy (askVf s code l) ⟨1, 0⟩ code (l.map (·.1)) (l.map (·.2)) :=
  ⟨⟨rfl, rfl, h.1⟩, h.2.1, h.2.2⟩

/-- A request of MemoryIsLaidOut. -/
def mb_pageMap : State := ask sys0 0x4200 [(1, 0), (8, 140737488289792), (4, 1), (1, 0), (1, 0), (1, 1), (8, 0)]

/-- A request of MemoryIsLaidOut. -/
def mb_pageMapHost : State := ask sys0 0x4200 [(1, 0), (8, 140737488289792), (4, 1), (1, 0), (1, 2), (1, 1), (8, 0)]

/-- A request of MemoryIsLaidOut. -/
def mb_pageUnmap : State := ask sys0 0x4201 [(1, 0), (8, 131072), (4, 1)]

/-- A request of MemoryIsLaidOut. -/
def mb_pageQuery : State := ask sys0 0x0202 [(1, 0), (8, 131072)]

/-- A request of MemoryIsLaidOut. -/
def mb_sharedCreate : State := ask sys0 0x4203 [(8, 2097152), (1, 0)]

/-- A request of MemoryIsLaidOut. -/
def mb_sharedDestroy : State := ask ({ sys0 with mm := { sys0.mm with shared := some ⟨2097152, false, false, []⟩ } }) 0x4204 []

/-- A request of MemoryIsLaidOut. -/
def mb_quadSetL1 : State := ask sys0 0x4205 [(8, 1099511627775), (2, 256)]

/-- A request of MemoryIsLaidOut. -/
def mb_sliceDefine : State :=
  ask sys0 0x4300
    [(1, 63), (8, 1), (32, 57896044618658097711785492504343953926634992332820282019728792003956564819968), (2, 4095)]

/-- A request of MemoryIsLaidOut. -/
def mb_sliceDefinePast : State := ask sys0 0x4300 [(1, 64), (8, 1), (32, 0), (2, 0)]

/-- A request of MemoryIsLaidOut. -/
def mb_sharedLoad : State :=
  ask ({ sys0 with mm := { sys0.mm with shared := some ⟨2097152, false, false, []⟩ } }) 0x8705
    [(8, 0), (8, 2048), (8, 0)]

/-- A request of SlotsAreSubmittedAndTaken. -/
def mb_setLimit : State := ask sys0 0x4106 [(1, 63), (1, 7)]

/-- A request of PartitionsLive. -/
def mb_create : State := ask sys0 0x4301 [(1, 15), (1, 8), (1, 1), (1, 0), (1, 3)]

/-- A request of PartitionsLive. -/
def mb_createRefused : State := ask sys0 0x4301 [(1, 0), (1, 1), (1, 0), (1, 1), (1, 1)]

/-- A request of PartitionsLive. -/
def mb_addSlice : State :=
  ask ({ sys0 with parts := Tab.empty.set 0 { p0 with state := .built }, chans := Tab.empty, sets := .empty }) 0x4302
    [(1, 0), (1, 63)]

/-- A request of PartitionsLive. -/
def mb_removeSlice : State :=
  ask ({ sys0 with parts := Tab.empty.set 0 { p0 with state := .built }, chans := Tab.empty, sets := .empty }) 0x4303
    [(1, 0), (1, 0)]

/-- A request of PartitionsLive. -/
def mb_activate : State :=
  ask ({ sys0 with parts := Tab.empty.set 0 { p0 with state := .built }, chans := Tab.empty, sets := .empty }) 0x4304
    [(1, 0)]

/-- A request of PartitionsLive. -/
def mb_quiesce : State := ask sys0 0x4305 [(1, 0)]

/-- A request of PartitionsLive. -/
def mb_resume : State := ask ({ sys0 with parts := Tab.empty.set 0 { p0 with state := .quiesced } }) 0x4306 [(1, 0)]

/-- A request of PartitionsLive. -/
def mb_destroy : State := ask ({ sys0 with parts := Tab.empty.set 0 { p0 with state := .quiesced } }) 0x4307 [(1, 0)]

/-- A request of PartitionsLive. -/
def mb_rebindQuads : State := ask sys0 0x4309 [(1, 0), (1, 0), (8, 2), (8, 0)]

/-- A request of PartitionsLive. -/
def mb_rebindQuadsRefused : State := ask sys0 0x4309 [(1, 0), (1, 0), (8, 0), (8, 1)]

/-- A request of PartitionsLive. -/
def mb_rebindChannels : State := ask sys0 0x430A [(1, 0), (1, 0), (32, 2), (32, 1)]

/-- A request of PartitionsLive. -/
def mb_status : State := askVf sys0 0x030B [(1, 0), (1, 0)]

/-- A request of PartitionsLive. -/
def mb_migRate : State := ask sys0 0x430C [(2, 400)]

/-- A request of PartitionsLive. -/
def mb_evict : State := ask sys0 0x4D01 [(1, 0)]

/-- A request of PartitionsLive. -/
def mb_reconfigure : State :=
  ask ({ sys0 with parts := Tab.empty.set 0 { p0 with state := .quiesced } }) 0x4308
    [(1, 0), (1, 1), (1, 0), (1, 0), (1, 0), (2, 1), (1, 0)]

/-- A request of QueuesAndUnitsAreCommanded. -/
def mb_qCreate : State := ask sys0 0x4400 [(1, 0), (1, 7), (4, 65536), (1, 1), (8, 0), (8, 0)]

/-- A request of QueuesAndUnitsAreCommanded. -/
def mb_qDestroy : State := ask (stQueue { q0 with state := .disabled }) 0x4401 [(2, 0)]

/-- A request of QueuesAndUnitsAreCommanded. -/
def mb_qShadowRead : State :=
  ask ({ stQueue q0 with queues := Tab.empty.set 0 { q0 with state := .stalled, shadow := [⟨5, some [1], none⟩] } }) 0x0402
    [(2, 0), (1, 0)]

/-- A request of QueuesAndUnitsAreCommanded. -/
def mb_qStallAck : State :=
  ask ({ stQueue q0 with queues := Tab.empty.set 0 { q0 with state := .stalled, shadow := [⟨5, some [1], none⟩] } }) 0x4403
    [(2, 0), (1, 1)]

/-- A request of QueuesAndUnitsAreCommanded. -/
def mb_schedSet : State :=
  ask sys0 0x4500
    [(1, 0), (4, 100000), (1, 15), (1, 15), (1, 15), (1, 15), (1, 15), (1, 15), (1, 15), (1, 15), (1, 1)]

/-- A request of QueuesAndUnitsAreCommanded. -/
def mb_schedStatus : State := askVf sys0 0x0501 [(1, 0), (1, 0)]

/-- A request of QueuesAndUnitsAreCommanded. -/
def mb_keepQuota : State := ask sys0 0x4600 [(1, 0), (1, 12)]

/-- A request of QueuesAndUnitsAreCommanded. -/
def mb_spentPolicy : State := ask sys0 0x4700 [(1, 0), (1, 1)]

/-- A request of QueuesAndUnitsAreCommanded. -/
def mb_keepRelease : State := ask sys0 0x8601 [(1, 0), (8, 131072), (8, 0)]

/-- A request of QueuesAndUnitsAreCommanded. -/
def mb_flush : State := ask sys0 0x8602 [(1, 0), (8, 131072), (8, 128)]

/-- A request of QueuesAndUnitsAreCommanded. -/
def mb_tileState : State := ask sys0 0x0701 [(1, 0), (8, 131072)]

/-- A request of QueuesAndUnitsAreCommanded. -/
def mb_channelStatus : State := ask sys0 0x0702 [(1, 255), (1, 0)]

/-- A request of QueuesAndUnitsAreCommanded. -/
def mb_mapOut : State :=
  ask ({ sys0 with chans := Tab.empty.put Chan.init 255 { Chan.init with state := .inService, passed := false } }) 0x4703
    [(1, 255)]

/-- A request of QueuesAndUnitsAreCommanded. -/
def mb_admit : State :=
  ask ({ sys0 with chans := Tab.empty.put Chan.init 255 { Chan.init with state := .mappedOut, passed := true } }) 0x4704
    [(1, 255)]

/-- A request of QueuesAndUnitsAreCommanded. -/
def mb_pprSoft : State :=
  ask ({ sys0 with chans := Tab.empty.put Chan.init 255 { Chan.init with state := .mappedOut, passed := true } }) 0x4800
    [(1, 255), (1, 1), (1, 255), (2, 65535)]

/-- A request of QueuesAndUnitsAreCommanded. -/
def mb_pprHard : State :=
  ask ({ sys0 with chans := Tab.empty.put Chan.init 255 { Chan.init with state := .mappedOut, passed := true } }) 0x4801
    [(1, 255), (1, 1), (1, 255), (2, 65535)]

/-- A request of QueuesAndUnitsAreCommanded. -/
def mb_rowTest : State :=
  ask ({ sys0 with chans := Tab.empty.put Chan.init 255 { Chan.init with state := .mappedOut, passed := true } }) 0x4804
    [(1, 255), (1, 1), (1, 255), (2, 65535), (8, 0)]

/-- A request of QueuesAndUnitsAreCommanded. -/
def mb_setMode : State := ask sys0 0x4706 [(1, 1)]

/-- A request of QueuesAndUnitsAreCommanded. -/
def mb_laneMapRead : State := ask sys0 0x0802 [(1, 15), (1, 0)]

/-- A request of QueuesAndUnitsAreCommanded. -/
def mb_laneMapWrite : State :=
  ask ({ sys0 with chans := Tab.empty.put Chan.init 255 { Chan.init with state := .mappedOut, passed := true } }) 0x4803
    [(1, 15), (8, 5)]

/-- A request of QueuesAndUnitsAreCommanded. -/
def mb_hingeStatus : State := ask sys0 0x0900 [(1, 3), (1, 0)]

/-- A request of QueuesAndUnitsAreCommanded. -/
def mb_hingeRetrain : State := ask sys0 0x4901 [(1, 3)]

theorem witness_MemoryIsLaidOut :
    (Asked mb_pageMap ⟨0, 0⟩ 0x4200 [1, 8, 4, 1, 1, 1, 8] [0, 140737488289792, 1, 0, 0, 1, 0]
      ∧ (mb_pageMap.part 0).state ≠ .free
      ∧ (mb_pageMap.part 0).mappedAny (windowUnits - 1) 1 = false)
    ∧ (Asked mb_pageMapHost ⟨0, 0⟩ 0x4200 [1, 8, 4, 1, 1, 1, 8] [0, 140737488289792, 1, 0, 2, 1, 0]
      ∧ (mb_pageMapHost.part 0).mappedAny (windowUnits - 1) 1 = false
      ∧ (mb_pageMapHost.part 0).hostChanges = true)
    ∧ (Asked mb_pageUnmap ⟨0, 0⟩ 0x4201 [1, 8, 4] [0, 131072, 1]
      ∧ (mb_pageUnmap.part 0).state ≠ .free
      ∧ (mb_pageUnmap.part 0).pages.rows.filter (fun r => r.1 < 3 && 2 < r.1 + pageUnits r.2.large) = [(2, ⟨false, .dev 0, true, false⟩)]
      ∧ (mb_pageUnmap.unmapPages 0 [(2, ⟨false, .dev 0, true, false⟩)]).1 = true)
    ∧ (Asked mb_pageQuery ⟨0, 0⟩ 0x0202 [1, 8] [0, 131072])
    ∧ (Asked mb_sharedCreate ⟨0, 0⟩ 0x4203 [8, 1] [2097152, 0]
      ∧ mb_sharedCreate.mm.shared = none
      ∧ ((List.range ((mb_sharedCreate.spareChans 0).length + (mb_sharedCreate.spareChans 1).length + 1)).find?
        (fun n => decide (2097152 ≤ planBytes (mb_sharedCreate.sharedPlan false n)))).isSome = true)
    ∧ (Asked mb_sharedDestroy ⟨0, 0⟩ 0x4204 [] []
      ∧ mb_sharedDestroy.mm.shared.isSome = true
      ∧ (mb_sharedDestroy.recall mb_sharedDestroy.isShared).1 = true)
    ∧ (Asked mb_quadSetL1 ⟨0, 0⟩ 0x4205 [8, 2] [1099511627775, 256])
    ∧ (Asked mb_sliceDefine ⟨0, 0⟩ 0x4300 [1, 8, 32, 2] [63, 1, 57896044618658097711785492504343953926634992332820282019728792003956564819968, 4095]
      ∧ (mb_sliceDefine.slice 63).part = none)
    ∧ (Asked mb_sliceDefinePast ⟨0, 0⟩ 0x4300 [1, 8, 32, 2] [64, 1, 0, 0])
    ∧ (Asked mb_sharedLoad ⟨0, 0⟩ 0x8705 [8, 8, 8] [0, 2048, 0]
      ∧ mb_sharedLoad.mm.shared = some ⟨2097152, false, false, []⟩) := by
  refine ⟨⟨asked _ _ _ (by decide +kernel), by decide +kernel⟩,
    ⟨asked _ _ _ (by decide +kernel), by decide +kernel⟩,
    ⟨asked _ _ _ (by decide +kernel), by decide +kernel⟩,
    asked _ _ _ (by decide +kernel),
    ⟨asked _ _ _ (by decide +kernel), by decide +kernel⟩,
    ⟨asked _ _ _ (by decide +kernel), by decide +kernel⟩,
    asked _ _ _ (by decide +kernel),
    ⟨asked _ _ _ (by decide +kernel), by decide +kernel⟩,
    asked _ _ _ (by decide +kernel),
    ⟨asked _ _ _ (by decide +kernel), by decide +kernel⟩⟩

theorem witness_SlotsAreSubmittedAndTaken_requests :
    (Asked mb_setLimit ⟨0, 0⟩ 0x4106 [1, 1] [63, 7]) := asked _ _ _ (by decide +kernel)

theorem witness_PartitionsLive :
    (Asked mb_create ⟨0, 0⟩ 0x4301 [1, 1, 1, 1, 1] [15, 8, 1, 0, 3]
      ∧ (mb_create.part 15).state = .free)
    ∧ (Asked mb_createRefused ⟨0, 0⟩ 0x4301 [1, 1, 1, 1, 1] [0, 1, 0, 1, 1]
      ∧ (mb_createRefused.part 0).state ≠ .free)
    ∧ (Asked mb_addSlice ⟨0, 0⟩ 0x4302 [1, 1] [0, 63]
      ∧ (mb_addSlice.part 0).confidential = false
      ∧ (mb_addSlice.part 0).state = .built
      ∧ (mb_addSlice.slice 63).part = none)
    ∧ (Asked mb_removeSlice ⟨0, 0⟩ 0x4303 [1, 1] [0, 0]
      ∧ (mb_removeSlice.part 0).state = .built
      ∧ (mb_removeSlice.slice 0).part = some 0)
    ∧ (Asked mb_activate ⟨0, 0⟩ 0x4304 [1] [0]
      ∧ (mb_activate.part 0).state = .built
      ∧ mb_activate.quadsOf 0 ≠ 0
      ∧ mb_activate.chansOf 0 ≠ 0
      ∧ (mb_activate.part 0).confidential = false
      ∧ ((mb_activate.formSets (.part 0) false
        ((bitsOf 256 (mb_activate.chansOf 0).toNat).filter (fun c => (mb_activate.chan c).state = .unbound))).sets.any (fun _ e => e.owner = .part 0)) = true)
    ∧ (Asked mb_quiesce ⟨0, 0⟩ 0x4305 [1] [0]
      ∧ (mb_quiesce.part 0).state = .active)
    ∧ (Asked mb_resume ⟨0, 0⟩ 0x4306 [1] [0]
      ∧ (mb_resume.part 0).state = .quiesced
      ∧ (mb_resume.part 0).confidential = false)
    ∧ (Asked mb_destroy ⟨0, 0⟩ 0x4307 [1] [0]
      ∧ (mb_destroy.part 0).state = .quiesced
      ∧ mb_destroy.queuesOf 0 = []
      ∧ (mb_destroy.recall (mb_destroy.inPart 0)).1 = true
      ∧ ((mb_destroy.recall (mb_destroy.inPart 0)).2.servesLines ((mb_destroy.recall (mb_destroy.inPart 0)).2.inPart 0)) = false)
    ∧ (Asked mb_rebindQuads ⟨0, 0⟩ 0x4309 [1, 1, 8, 8] [0, 0, 2, 0]
      ∧ (mb_rebindQuads.part 0).state = .active
      ∧ (mb_rebindQuads.slice 0).part = some 0
      ∧ (mb_rebindQuads.part 0).rebind = none
      ∧ mb_rebindQuads.anyOpen ((mb_rebindQuads.quadsOf 0 ||| 2) &&& ~~~0) = true)
    ∧ (Asked mb_rebindQuadsRefused ⟨0, 0⟩ 0x4309 [1, 1, 8, 8] [0, 0, 0, 1]
      ∧ (mb_rebindQuadsRefused.part 0).state = .active
      ∧ (mb_rebindQuadsRefused.slice 0).part = some 0
      ∧ (mb_rebindQuadsRefused.part 0).rebind = none
      ∧ mb_rebindQuadsRefused.anyOpen ((mb_rebindQuadsRefused.quadsOf 0 ||| 0) &&& ~~~1) = false)
    ∧ (Asked mb_rebindChannels ⟨0, 0⟩ 0x430A [1, 1, 32, 32] [0, 0, 2, 1]
      ∧ (mb_rebindChannels.part 0).state = .active
      ∧ (mb_rebindChannels.slice 0).part = some 0)
    ∧ (AskedBy mb_status ⟨1, 0⟩ 0x030B [1, 1] [0, 0]
      ∧ mb_status.permits (1 : Fin 64) true = true
      ∧ mb_status.vfPart (1 : Fin 64) = 0)
    ∧ (Asked mb_migRate ⟨0, 0⟩ 0x430C [2] [400])
    ∧ (Asked mb_evict ⟨0, 0⟩ 0x4D01 [1] [0]
      ∧ (mb_evict.part 0).state = .active
      ∧ ((((((mb_evict.leaveMask 0).queuesOf 0).foldl
        (fun s q => s.drainQueue q.1) (mb_evict.leaveMask 0)).killPart 0).endRebind 0).part 0).confidential = false
      ∧ (((((mb_evict.leaveMask 0).queuesOf 0).foldl (fun s q => s.drainQueue q.1) (mb_evict.leaveMask 0)).killPart 0).endRebind 0).evicting 0 = false)
    ∧ (Asked mb_reconfigure ⟨0, 0⟩ 0x4308 [1, 1, 1, 1, 1, 2, 1] [0, 1, 0, 0, 0, 1, 0]
      ∧ (mb_reconfigure.part 0).state = .quiesced
      ∧ (mb_reconfigure.slice 0).part = some 0
      ∧ mb_reconfigure.holds 0 false 1 1 1 = true
      ∧ (mb_reconfigure.recall (mb_reconfigure.inPart 0)).1 = true) := by
  refine ⟨⟨asked _ _ _ (by decide +kernel), by decide +kernel⟩,
    ⟨asked _ _ _ (by decide +kernel), by decide +kernel⟩,
    ⟨asked _ _ _ (by decide +kernel), by decide +kernel⟩,
    ⟨asked _ _ _ (by decide +kernel), by decide +kernel⟩,
    ⟨asked _ _ _ (by decide +kernel), by decide +kernel⟩,
    ⟨asked _ _ _ (by decide +kernel), by decide +kernel⟩,
    ⟨asked _ _ _ (by decide +kernel), by decide +kernel⟩,
    ⟨asked _ _ _ (by decide +kernel), by decide +kernel⟩,
    ⟨asked _ _ _ (by decide +kernel), by decide +kernel⟩,
    ⟨asked _ _ _ (by decide +kernel), by decide +kernel⟩,
    ⟨asked _ _ _ (by decide +kernel), by decide +kernel⟩,
    ⟨askedVf _ _ _ (by decide +kernel), by decide +kernel⟩,
    asked _ _ _ (by decide +kernel),
    ⟨asked _ _ _ (by decide +kernel), by decide +kernel⟩,
    ⟨asked _ _ _ (by decide +kernel), by decide +kernel⟩⟩

theorem witness_QueuesAndUnitsAreCommanded :
    (Asked mb_qCreate ⟨0, 0⟩ 0x4400 [1, 1, 4, 1, 8, 8] [0, 7, 65536, 1, 0, 0]
      ∧ mb_qCreate.partExists 0 = true
      ∧ 0 < (mb_qCreate.part 0).contexts
      ∧ mb_qCreate.queue? 7 = none)
    ∧ (Asked mb_qDestroy ⟨0, 0⟩ 0x4401 [2] [0]
      ∧ mb_qDestroy.permits (0 : Fin 64) true = true
      ∧ mb_qDestroy.namedQueue (0 : Fin 64) 0 = some (0, { q0 with state := .disabled }))
    ∧ (Asked mb_qShadowRead ⟨0, 0⟩ 0x0402 [2, 1] [0, 0]
      ∧ (mb_qShadowRead.namedQueue (0 : Fin 64) 0).map (fun r => r.2.heldRecords) = some [[1]])
    ∧ (Asked mb_qStallAck ⟨0, 0⟩ 0x4403 [2, 1] [0, 1]
      ∧ (mb_qStallAck.namedQueue (0 : Fin 64) 0).map (fun r => r.2.state) = some .stalled)
    ∧ (Asked mb_schedSet ⟨0, 0⟩ 0x4500 [1, 4, 1, 1, 1, 1, 1, 1, 1, 1, 1] [0, 100000, 15, 15, 15, 15, 15, 15, 15, 15, 1]
      ∧ (mb_schedSet.part 0).state = .active)
    ∧ (AskedBy mb_schedStatus ⟨1, 0⟩ 0x0501 [1, 1] [0, 0]
      ∧ mb_schedStatus.permits (1 : Fin 64) true = true
      ∧ mb_schedStatus.vfPart (1 : Fin 64) = 0)
    ∧ (Asked mb_keepQuota ⟨0, 0⟩ 0x4600 [1, 1] [0, 12]
      ∧ mb_keepQuota.partExists 0 = true)
    ∧ (Asked mb_spentPolicy ⟨0, 0⟩ 0x4700 [1, 1] [0, 1]
      ∧ mb_spentPolicy.partExists 0 = true)
    ∧ (Asked mb_keepRelease ⟨0, 0⟩ 0x8601 [1, 8, 8] [0, 131072, 0]
      ∧ mb_keepRelease.partExists 0 = true)
    ∧ (Asked mb_flush ⟨0, 0⟩ 0x8602 [1, 8, 8] [0, 131072, 128]
      ∧ mb_flush.partExists 0 = true
      ∧ (mb_flush.flush (inLines (mb_flush.rangeLines 0 (llcRange 0x20000 128).1 (llcRange 0x20000 128).2.1))).1 = true)
    ∧ (Asked mb_tileState ⟨0, 0⟩ 0x0701 [1, 8] [0, 131072]
      ∧ mb_tileState.permits (0 : Fin 64) true = true
      ∧ (mb_tileState.part 0).confidential = false
      ∧ mb_tileState.locate 0 0x20000 = some (.dev 0, true)
      ∧ (mb_tileState.lineTile (mb_tileState.forward 0)).isSome = true)
    ∧ (Asked mb_channelStatus ⟨0, 0⟩ 0x0702 [1, 1] [255, 0])
    ∧ (Asked mb_mapOut ⟨0, 0⟩ 0x4703 [1] [255]
      ∧ (mb_mapOut.chan 255).state = .inService)
    ∧ (Asked mb_admit ⟨0, 0⟩ 0x4704 [1] [255]
      ∧ (mb_admit.chan 255).state = .mappedOut
      ∧ (mb_admit.chan 255).passed = true)
    ∧ (Asked mb_pprSoft ⟨0, 0⟩ 0x4800 [1, 1, 1, 2] [255, 1, 255, 65535]
      ∧ mb_pprSoft.repairOk 255 = true)
    ∧ (Asked mb_pprHard ⟨0, 0⟩ 0x4801 [1, 1, 1, 2] [255, 1, 255, 65535]
      ∧ mb_pprHard.repairOk 255 = true)
    ∧ (Asked mb_rowTest ⟨0, 0⟩ 0x4804 [1, 1, 1, 2, 8] [255, 1, 255, 65535, 0]
      ∧ mb_rowTest.repairOk 255 = true)
    ∧ (Asked mb_setMode ⟨0, 0⟩ 0x4706 [1] [1])
    ∧ (Asked mb_laneMapRead ⟨0, 0⟩ 0x0802 [1, 1] [15, 0])
    ∧ (Asked mb_laneMapWrite ⟨0, 0⟩ 0x4803 [1, 8] [15, 5]
      ∧ mb_laneMapWrite.repairOk (16 * 15 + 15) = true)
    ∧ (Asked mb_hingeStatus ⟨0, 0⟩ 0x0900 [1, 1] [3, 0])
    ∧ (Asked mb_hingeRetrain ⟨0, 0⟩ 0x4901 [1] [3]
      ∧ (mb_hingeRetrain.leaf 3).state ≠ .failed) := by
  refine ⟨⟨asked _ _ _ (by decide +kernel), by decide +kernel⟩,
    ⟨asked _ _ _ (by decide +kernel), by decide +kernel⟩,
    ⟨asked _ _ _ (by decide +kernel), by decide +kernel⟩,
    ⟨asked _ _ _ (by decide +kernel), by decide +kernel⟩,
    ⟨asked _ _ _ (by decide +kernel), by decide +kernel⟩,
    ⟨askedVf _ _ _ (by decide +kernel), by decide +kernel⟩,
    ⟨asked _ _ _ (by decide +kernel), by decide +kernel⟩,
    ⟨asked _ _ _ (by decide +kernel), by decide +kernel⟩,
    ⟨asked _ _ _ (by decide +kernel), by decide +kernel⟩,
    ⟨asked _ _ _ (by decide +kernel), by decide +kernel⟩,
    ⟨asked _ _ _ (by decide +kernel), by decide +kernel⟩,
    asked _ _ _ (by decide +kernel),
    ⟨asked _ _ _ (by decide +kernel), by decide +kernel⟩,
    ⟨asked _ _ _ (by decide +kernel), by decide +kernel⟩,
    ⟨asked _ _ _ (by decide +kernel), by decide +kernel⟩,
    ⟨asked _ _ _ (by decide +kernel), by decide +kernel⟩,
    ⟨asked _ _ _ (by decide +kernel), by decide +kernel⟩,
    asked _ _ _ (by decide +kernel),
    asked _ _ _ (by decide +kernel),
    ⟨asked _ _ _ (by decide +kernel), by decide +kernel⟩,
    asked _ _ _ (by decide +kernel),
    ⟨asked _ _ _ (by decide +kernel), by decide +kernel⟩⟩

/-- A request of PoolsAreCommanded. -/
def mb_poolCreate : State := ask sys0 0x4A00 [(1, 63), (1, 0), (1, 0), (32, 3), (8, 1073741824), (8, 65536), (1, 0), (1, 0), (2, 0)]

/-- A request of PoolsAreCommanded. -/
def mb_poolCreateRefused : State :=
  ask ({ sys0 with pools := Tab.empty.set 63 ⟨0, false, 3, 0x40000000, 65536, false, false, 0, false, []⟩ }) 0x4A00
    [(1, 63), (1, 0), (1, 0), (32, 3), (8, 1073741824), (8, 65536), (1, 0), (1, 0), (2, 0)]

/-- A request of PoolsAreCommanded. -/
def mb_poolMap : State :=
  ask ({ sys0 with pools := Tab.empty.set 63 ⟨0, false, 3, 0x40000000, 65536, false, false, 0, false, []⟩ }) 0x4A01
    [(1, 63), (8, 0), (4, 1), (8, 0)]

/-- A request of PoolsAreCommanded. -/
def mb_poolUnmap : State :=
  ask ({ sys0 with pools := Tab.empty.set 63 ⟨0, false, 3, 0x40000000, 65536, false, false, 0, false, []⟩ }) 0x4A02
    [(1, 63), (8, 0), (4, 1), (8, 0)]

/-- A request of PoolsAreCommanded. -/
def mb_poolRecall : State :=
  ask ({ sys0 with pools := Tab.empty.set 63 ⟨0, false, 3, 0x40000000, 65536, false, false, 0, false, []⟩ }) 0x8A03
    [(1, 63), (8, 0), (4, 1), (8, 0)]

/-- A request of PoolsAreCommanded. -/
def mb_poolLedger : State :=
  ask ({ sys0 with pools := Tab.empty.set 63 ⟨0, false, 3, 0x40000000, 65536, false, false, 0, false, []⟩ }) 0x4A04
    [(1, 63), (8, 1073741824), (8, 65536)]

/-- A request of PoolsAreCommanded. -/
def mb_poolMapNone : State :=
  ask ({ sys0 with pools := Tab.empty.set 63 ⟨0, false, 3, 0x40000000, 65536, false, false, 0, false, []⟩ }) 0x4A01
    [(1, 0), (8, 0), (4, 1), (8, 0)]

/-- A request of PoolsAreCommanded. -/
def mb_poolStatus : State :=
  askVf ({ sys0 with pools := Tab.empty.set 63 ⟨0, false, 3, 0x40000000, 65536, false, false, 0, false, []⟩ }) 0x0A05
    [(1, 63), (1, 0)]

/-- A request of PoolsAreCommanded. -/
def mb_ledgerScan : State :=
  ask ({ sys0 with pools := Tab.empty.set 63 ⟨0, false, 3, 0x40000000, 65536, false, false, 0, false, []⟩ }) 0x8A06
    [(1, 63)]

/-- Partition 0 of device 2, whose twin is device 3, with a trunk of six ports, and their pair in a state. -/
def stTwin (p : PairState) (naming : List Nat) : State :=
  { sys0 with
    lbx := { sys0.lbx with
      d := 2, twin := true
      ports := (List.range 6).foldl (fun t k =>
        t.put LbxPort.init k { LbxPort.init with state := .active, peer := some (3, k), idOk := true }) Tab.empty }
    pins := { sys0.pins with twinIn := true }
    pair := { sys0.pair with state := p, pairs := [(0, 0)], naming := naming } }

/-- A request of TwinsPairAndPart. -/
def mb_pair : State := ask (stTwin .unpaired []) 0x4A07 [(2, 1), (1, 0), (1, 0)]

/-- A request of TwinsPairAndPart. -/
def mb_detach : State := ask (stTwin .paired []) 0x4A08 [(2, 1), (1, 0)]

/-- A request of TwinsPairAndPart. -/
def mb_detachNamed : State := ask (stTwin .paired [0]) 0x4A08 [(2, 1), (1, 0)]

/-- A request of TwinsPairAndPart. -/
def mb_attach : State := ask (stTwin .solo []) 0x4A09 [(2, 1), (1, 0), (1, 0), (1, 1)]

/-- A request of TwinsPairAndPart. -/
def mb_attachNamed : State := ask (stTwin .paired [0]) 0x4A09 [(2, 1), (1, 0), (1, 0), (1, 0)]

/-- A request of TwinsPairAndPart. -/
def mb_twinStatus : State := askVf (stTwin .paired []) 0x0A0B [(1, 0)]

/-- A request of TwinsPairAndPart. -/
def mb_forceSolo : State := ask (stTwin .severed []) 0x0A0A []

/-- The twin's chunks, its timer, its trunk, and a peer that is lost. -/
theorem witness_TwinsPairAndPart_events :
    { stTwin .attaching [0] with mm := { sys0.mm with migs := [.attach 0 0] } }.mm.migs = [.attach 0 0]
    ∧ { stTwin .paired [] with pair := { (stTwin .paired []).pair with lowCount := true } }.pair.lowCount = true
    ∧ (stTwin .paired []).alive = true ∧ (stTwin .paired []).pair.state = .paired
    ∧ { stTwin .paired [] with lbx := { (stTwin .paired []).lbx with ports := .empty } }.trunkUp = false
    ∧ (5 : Fin 8).val ≠ (stTwin .paired []).lbx.d ∧ (5 : Fin 8).val ∉ (stTwin .paired []).lbx.lost
    ∧ (5 : Fin 8).val ≠ (stTwin .paired []).twinNum ∧ (stTwin .paired []).unreachable 5 = true := by decide +kernel

/-- A request of FunctionsAreCommanded. -/
def mb_vfBind : State := ask sys0 0x4B00 [(1, 63), (1, 0), (1, 0)]

/-- A request of FunctionsAreCommanded. -/
def mb_vfBindRefused : State := ask sys0 0x4B00 [(1, 63), (1, 0), (1, 1)]

/-- A request of FunctionsAreCommanded. -/
def mb_vfUnbind : State := ask sys0 0x4B01 [(1, 1)]

/-- A request of FunctionsAreCommanded. -/
def mb_vfStatus : State := askVf sys0 0x0B02 [(1, 1), (1, 0)]

/-- A request of FunctionsAreCommanded. -/
def mb_allow : State := ask sys0 0x4B03 [(1, 63), (2, 65535)]

/-- A request of FunctionsAreCommanded. -/
def mb_revoke : State := ask sys0 0x4B04 [(1, 63), (2, 65535)]

/-- A request of FunctionsAreCommanded. -/
def mb_windowMap : State := ask sys0 0x4B05 [(8, 0), (1, 0), (8, 4194304), (4, 0)]

/-- A request of FunctionsAreCommanded. -/
def mb_windowUnmap : State := ask sys0 0x4B06 [(8, 0), (4, 1)]

/-- A request of FunctionsAreCommanded. -/
def mb_logStart : State := ask sys0 0x4B07 [(1, 63), (8, 0), (8, 1), (8, 0), (8, 4096)]

/-- A request of FunctionsAreCommanded. -/
def mb_logSwap : State := ask sys0 0x4B08 [(1, 63)]

/-- A VF that is bound and logs. -/
theorem witness_FunctionsAreCommanded_bound :
    (({ ask sys0 0x4B01 [(1, 1)] with
        fns := (ask sys0 0x4B01 [(1, 1)]).fns.set 1 { Fn.init with ctx := some (0, 0), log := some ⟨0, 1, 0, 4096, false, 0⟩ } }).fnRec 1).ctx
      = some (0, 0) ∧ sys0.ctxQueues 0 0 = [] ∧ (sys0.part 0).confidential = false := by decide +kernel

/-- A request of LinksAreCommanded. -/
def mb_setId : State := ask sys0 0x4C00 [(1, 7), (1, 1)]

/-- A request of LinksAreCommanded. -/
def mb_lbxStatus : State := askVf sys0 0x0C01 [(1, 11), (1, 0)]

/-- A request of LinksAreCommanded. -/
def mb_retrain : State := ask sys0 0x4C02 [(1, 11)]

/-- A request of LinksAreCommanded. -/
def mb_retrainUp : State := ask ({ sys0 with pins := { sys0.pins with twinOut := true } }) 0x4C02 [(1, 11)]

/-- A request of LinksAreCommanded. -/
def mb_export : State := ask sys0 0x4C03 [(1, 255), (1, 0), (8, 131072), (8, 65536), (1, 1), (1, 8)]

/-- A request of LinksAreCommanded. -/
def mb_unexport : State :=
  ask ({ sys0 with lbx := { sys0.lbx with exports := Tab.empty.set 255 ⟨0, 0x20000, 65536, true, 8, none⟩ } }) 0x4C04
    [(1, 255)]

/-- A request of LinksAreCommanded. -/
def mb_unexportRefused : State :=
  ask ({ sys0 with lbx := { sys0.lbx with exports := Tab.empty.set 255 ⟨0, 0x20000, 65536, true, 8, none⟩ } }) 0x4C04
    [(1, 0)]

/-- A request of LinksAreCommanded. -/
def mb_import : State := ask sys0 0x4C05 [(1, 0), (8, 262144), (4, 1), (1, 7), (1, 255), (8, 0)]

/-- A request of SecurityIsCommanded. -/
def mb_secStatus : State := ask sys0 0x0D00 [(1, 0)]

/-- A request of SecurityIsCommanded. -/
def mb_report : State := askVf sys0 0x8D02 [(1, 0), (32, 5), (8, 64)]

/-- A request of SecurityIsCommanded. -/
def mb_reportFree : State := ask sys0 0x8D02 [(1, 15), (32, 5), (8, 64)]

/-- A request of SecurityIsCommanded. -/
def mb_secPageQuery : State := askVf sys0 0x0D03 [(1, 0), (8, 131072)]

/-- A request of SecurityIsCommanded. -/
def mb_authorize : State := ask sys0 0x4D04 [(2, 1), (16, 5), (2, 3600)]

/-- A request of SecurityIsCommanded. -/
def mb_authorizeOpen : State := ask ({ sys0 with sec := { sys0.sec with session := some 1 } }) 0x4D04 [(2, 1), (16, 5), (2, 3600)]

/-- A request of SecurityIsCommanded. -/
def mb_dbgRevoke : State := ask sys0 0x4D05 []

/-- A request of SecurityIsCommanded. -/
def mb_traceStart : State := ask sys0 0x4D06 [(8, 4096), (8, 1073741824)]

/-- A request of SecurityIsCommanded. -/
def mb_traceStop : State := ask ({ sys0 with sec := { sys0.sec with trace := some (0, 4096, 0) } }) 0x4D07 []

/-- A request of SecurityIsCommanded. -/
def mb_traceStopNone : State := ask sys0 0x4D07 []

/-- A request of PowerAndFirmwareAreCommanded. -/
def mb_setCap : State := ask sys0 0x4E00 [(2, 2400), (2, 850), (4, 100000)]

/-- A request of PowerAndFirmwareAreCommanded. -/
def mb_pwrStatus : State := askVf sys0 0x0E01 [(1, 0)]

/-- A request of PowerAndFirmwareAreCommanded. -/
def mb_setState : State := ask sys0 0x4E02 [(1, 1)]

/-- A request of PowerAndFirmwareAreCommanded. -/
def mb_setStateLeave : State := ask ({ sys0 with power := { sys0.power with state := .retain, retainReq := 1 } }) 0x4E02 [(1, 0)]

/-- A request of PowerAndFirmwareAreCommanded. -/
def mb_setStateRefused : State := ask ({ sys0 with power := { sys0.power with state := .retain, retainReq := 2 } }) 0x4E02 [(1, 0)]

/-- A request of PowerAndFirmwareAreCommanded. -/
def mb_errCounts : State := ask sys0 0x0E03 [(1, 8), (1, 0)]

/-- A request of PowerAndFirmwareAreCommanded. -/
def mb_inject : State :=
  ask ({ sys0 with chans := Tab.empty.put Chan.init 255 { Chan.init with state := .inService } }) 0x4E04
    [(1, 1), (2, 255), (4, 1048575), (1, 63)]

/-- A request of PowerAndFirmwareAreCommanded. -/
def mb_injectMxu : State := ask sys0 0x4E04 [(1, 3), (2, 639), (4, 0), (1, 0)]

/-- A request of PowerAndFirmwareAreCommanded. -/
def mb_injectLeaf : State := ask sys0 0x4E04 [(1, 4), (2, 3), (4, 0), (1, 0)]

/-- A request of PowerAndFirmwareAreCommanded. -/
def mb_injectPort : State := ask sys0 0x4E04 [(1, 5), (2, 11), (4, 0), (1, 0)]

/-- A request of PowerAndFirmwareAreCommanded. -/
def mb_devStatus : State := askVf sys0 0x0100 [(1, 0)]

/-- A request of PowerAndFirmwareAreCommanded. -/
def mb_fwStatus : State := ask sys0 0x0101 [(1, 0)]

/-- A request of PowerAndFirmwareAreCommanded. -/
def mb_logRead : State := ask sys0 0x8102 [(8, 0), (4, 1), (8, 0)]

/-- A request of PowerAndFirmwareAreCommanded. -/
def mb_fwUpdate : State := ask sys0 0x8103 [(8, 0), (8, 4194304)]

/-- A request of PowerAndFirmwareAreCommanded. -/
def mb_fwLoad : State := ask ({ sys0 with boot := { sys0.boot with minimal := true } }) 0x8104 [(8, 0), (8, 4194304)]

/-- A request of PowerAndFirmwareAreCommanded. -/
def mb_fwUpdateAgain : State :=
  ask ({ sys0 with flash := { sys0.flash with writing := some (Image.reset, 0, 0, false) } }) 0x8103
    [(8, 0), (8, 4194304)]

/-- A request of PowerAndFirmwareAreCommanded. -/
def mb_restart : State := ask sys0 0x0105 [(1, 1)]

/-- A request of MailboxRequestsAreChecked. -/
def mb_bad : State := ask sys0 0x4304 [(1, 0), (1, 0)]

/-- A request of MailboxRequestsAreChecked. -/
def mb_vf : State := askVf sys0 0x4304 [(1, 0)]

/-- No request was dispatched; a VF that is bound to nothing. -/
theorem witness_MailboxRequestsAreChecked_idle :
    ((sys0.fnRec 0).slot 0).state ≠ .pending
    ∧ Dispatched { sys0 with fns := Tab.empty.set 1 (mbFn 0x0100 [(1, 0)]) } ⟨1, 0⟩ 0x0100
    ∧ ({ sys0 with fns := Tab.empty.set 1 (mbFn 0x0100 [(1, 0)]) }.fnRec 1).ctx = none :=
  ⟨by decide +kernel, ⟨rfl, rfl, by decide +kernel⟩, rfl⟩

/-- A register window that takes writes, a request area, and a request to take. -/
def fnWait : Fn :=
  { Fn.init with slots := Tab.empty.set 0 ⟨.pending, [], bytesOf 2 0x0101 ++ bytesOf 2 1 ++ List.replicate 13 0, [], 1, false⟩ }

theorem witness_SlotsAreSubmittedAndTaken :
    sys0.host.up = true ∧ sys0.suspended 0 = false ∧ sys0.fnExists 63 = true ∧ (sys0.fnRec 63).flr = false ∧ (sys0.fnRec 0).flr = false
    ∧ (areaAt 0 0x4000 0x4000 64).isSome = true ∧ ((sys0.fnRec 0).slot 0).state = .free
    ∧ ({ sys0 with fns := Tab.empty.set 0 fnWait, fw := { sys0.fw with running := true } }.nextRequest).map (fun (r : Nat × Nat × Slot) => (r.1, r.2.1))
      = some (0, 0)
    ∧ 0x0101 ∈ commandCodes ∧ { sys0 with fw := { sys0.fw with running := true } }.served 0 = true ∧ sys0.fw.hung = false
    ∧ sys0.servesCode 0x0101 = true := by decide +kernel

theorem witness_PoolsAreCommanded :
    (Asked mb_poolCreate ⟨0, 0⟩ 0x4A00 [1, 1, 1, 32, 8, 8, 1, 1, 2] [63, 0, 0, 3, 1073741824, 65536, 0, 0, 0]
      ∧ mb_poolCreate.pools.get? 63 = none
      ∧ mb_poolCreate.ledgerOk (63 + 64 * mb_poolCreate.lbx.d) 0 false false = true
      ∧ (mb_poolCreate.part 0).confidential = false
      ∧ (mb_poolCreate.part 0).state ≠ .free)
    ∧ (Asked mb_poolCreateRefused ⟨0, 0⟩ 0x4A00 [1, 1, 1, 32, 8, 8, 1, 1, 2] [63, 0, 0, 3, 1073741824, 65536, 0, 0, 0]
      ∧ (mb_poolCreateRefused.pools.get? 63).isSome = true)
    ∧ (Asked mb_poolMap ⟨0, 0⟩ 0x4A01 [1, 8, 4, 8] [63, 0, 1, 0]
      ∧ mb_poolMap.pools.get? 63 = some ⟨0, false, 3, 0x40000000, 65536, false, false, 0, false, []⟩
      ∧ (mb_poolMap.part 0).mappedAny (0x40000000 / 65536) 1 = false)
    ∧ (Asked mb_poolUnmap ⟨0, 0⟩ 0x4A02 [1, 8, 4, 8] [63, 0, 1, 0]
      ∧ mb_poolUnmap.pools.get? 63 = some ⟨0, false, 3, 0x40000000, 65536, false, false, 0, false, []⟩
      ∧ (mb_poolUnmap.unmapPages 0 []).1 = true)
    ∧ (Asked mb_poolRecall ⟨0, 0⟩ 0x8A03 [1, 8, 4, 8] [63, 0, 1, 0]
      ∧ mb_poolRecall.pools.get? 63 = some ⟨0, false, 3, 0x40000000, 65536, false, false, 0, false, []⟩)
    ∧ (Asked mb_poolLedger ⟨0, 0⟩ 0x4A04 [1, 8, 8] [63, 1073741824, 65536]
      ∧ mb_poolLedger.pools.get? 63 = some ⟨0, false, 3, 0x40000000, 65536, false, false, 0, false, []⟩)
    ∧ (Asked mb_poolMapNone ⟨0, 0⟩ 0x4A01 [1, 8, 4, 8] [0, 0, 1, 0]
      ∧ mb_poolMapNone.pools.get? 0 = none)
    ∧ (AskedBy mb_poolStatus ⟨1, 0⟩ 0x0A05 [1, 1] [63, 0]
      ∧ mb_poolStatus.pools.get? 63 = some ⟨0, false, 3, 0x40000000, 65536, false, false, 0, false, []⟩
      ∧ mb_poolStatus.permits (1 : Fin 64) true = true
      ∧ mb_poolStatus.vfPart (1 : Fin 64) = 0)
    ∧ (Asked mb_ledgerScan ⟨0, 0⟩ 0x8A06 [1] [63]
      ∧ mb_ledgerScan.pools.get? 63 = some ⟨0, false, 3, 0x40000000, 65536, false, false, 0, false, []⟩) := by
  refine ⟨⟨asked _ _ _ (by decide +kernel), by decide +kernel⟩,
    ⟨asked _ _ _ (by decide +kernel), by decide +kernel⟩,
    ⟨asked _ _ _ (by decide +kernel), by decide +kernel⟩,
    ⟨asked _ _ _ (by decide +kernel), by decide +kernel⟩,
    ⟨asked _ _ _ (by decide +kernel), by decide +kernel⟩,
    ⟨asked _ _ _ (by decide +kernel), by decide +kernel⟩,
    ⟨asked _ _ _ (by decide +kernel), by decide +kernel⟩,
    ⟨askedVf _ _ _ (by decide +kernel), by decide +kernel⟩,
    ⟨asked _ _ _ (by decide +kernel), by decide +kernel⟩⟩

theorem witness_TwinsPairAndPart :
    (Asked mb_pair ⟨0, 0⟩ 0x4A07 [2, 1, 1] [1, 0, 0]
      ∧ pairFields [(0, 0)] = [1, 0, 0]
      ∧ (mb_pair.part 0).confidential = false
      ∧ mb_pair.trunkUp = true
      ∧ mb_pair.pins.twinIn = true
      ∧ mb_pair.pair.state = .unpaired)
    ∧ (Asked mb_detach ⟨0, 0⟩ 0x4A08 [2, 1] [1, 0]
      ∧ mb_detach.pair.state = .paired
      ∧ mb_detach.pair.naming = []
      ∧ mb_detach.pair.pairs.any (fun x => x.1 = 0) = true)
    ∧ (Asked mb_detachNamed ⟨0, 0⟩ 0x4A08 [2, 1] [1, 0]
      ∧ mb_detachNamed.pair.naming ≠ []
      ∧ mb_detachNamed.detachDone = false)
    ∧ (Asked mb_attach ⟨0, 0⟩ 0x4A09 [2, 1, 1, 1] [1, 0, 0, 1]
      ∧ mb_attach.pair.state = .solo
      ∧ mb_attach.pair.naming = []
      ∧ mb_attach.trunkUp = true)
    ∧ (Asked mb_attachNamed ⟨0, 0⟩ 0x4A09 [2, 1, 1, 1] [1, 0, 0, 0]
      ∧ mb_attachNamed.pair.naming ≠ []
      ∧ mb_attachNamed.pair.state ≠ .attaching
      ∧ mb_attachNamed.pair.ret = false)
    ∧ (AskedBy mb_twinStatus ⟨1, 0⟩ 0x0A0B [1] [0]
      ∧ mb_twinStatus.permits (1 : Fin 64) true = true
      ∧ mb_twinStatus.pair.pairs.any (fun x => x.1 = mb_twinStatus.vfPart (1 : Fin 64)) = true)
    ∧ (Asked mb_forceSolo ⟨0, 0⟩ 0x0A0A [] []
      ∧ mb_forceSolo.pair.state = .severed) := by
  refine ⟨⟨asked _ _ _ (by decide +kernel), by decide +kernel⟩,
    ⟨asked _ _ _ (by decide +kernel), by decide +kernel⟩,
    ⟨asked _ _ _ (by decide +kernel), by decide +kernel⟩,
    ⟨asked _ _ _ (by decide +kernel), by decide +kernel⟩,
    ⟨asked _ _ _ (by decide +kernel), by decide +kernel⟩,
    ⟨askedVf _ _ _ (by decide +kernel), by decide +kernel⟩,
    ⟨asked _ _ _ (by decide +kernel), by decide +kernel⟩⟩

theorem witness_FunctionsAreCommanded :
    (Asked mb_vfBind ⟨0, 0⟩ 0x4B00 [1, 1, 1] [63, 0, 0]
      ∧ (mb_vfBind.part 0).state ≠ .free
      ∧ 0 < (mb_vfBind.part 0).contexts
      ∧ mb_vfBind.fns.any (fun g v => v.ctx = some (0, 0) && g ≠ 63) = false
      ∧ isVf 63 = true
      ∧ (mb_vfBind.fnRec 63).ctx = none
      ∧ mb_vfBind.host.vfEnable = true)
    ∧ (Asked mb_vfBindRefused ⟨0, 0⟩ 0x4B00 [1, 1, 1] [63, 0, 1]
      ∧ (mb_vfBindRefused.part 0).contexts ≤ 1)
    ∧ (Asked mb_vfUnbind ⟨0, 0⟩ 0x4B01 [1] [1]
      ∧ isVf 1 = true
      ∧ (mb_vfUnbind.fnRec 1).ctx = none)
    ∧ (AskedBy mb_vfStatus ⟨1, 0⟩ 0x0B02 [1, 1] [1, 0]
      ∧ min 1 63 = (1 : Fin 64).val)
    ∧ (Asked mb_allow ⟨0, 0⟩ 0x4B03 [1, 2] [63, 65535]
      ∧ 65535 ∉ (mb_allow.fnRec 63).grants
      ∧ (mb_allow.fnRec 63).grants.length < 16)
    ∧ (Asked mb_revoke ⟨0, 0⟩ 0x4B04 [1, 2] [63, 65535])
    ∧ (Asked mb_windowMap ⟨0, 0⟩ 0x4B05 [8, 1, 8, 4] [0, 0, 4194304, 0]
      ∧ (mb_windowMap.part 0).confidential = false
      ∧ (mb_windowMap.part 0).state ≠ .free)
    ∧ (Asked mb_windowUnmap ⟨0, 0⟩ 0x4B06 [8, 4] [0, 1]
      ∧ (mb_windowUnmap.recallHost (fun _ => false)).1 = true)
    ∧ (Asked mb_logStart ⟨0, 0⟩ 0x4B07 [1, 8, 8, 8, 8] [63, 0, 1, 0, 4096]
      ∧ isVf 63 = true
      ∧ (mb_logStart.fnRec 63).log = none)
    ∧ (Asked mb_logSwap ⟨0, 0⟩ 0x4B08 [1] [63]
      ∧ isVf 63 = true
      ∧ (mb_logSwap.fnRec 63).log = none) := by
  refine ⟨⟨asked _ _ _ (by decide +kernel), by decide +kernel⟩,
    ⟨asked _ _ _ (by decide +kernel), by decide +kernel⟩,
    ⟨asked _ _ _ (by decide +kernel), by decide +kernel⟩,
    ⟨askedVf _ _ _ (by decide +kernel), by decide +kernel⟩,
    ⟨asked _ _ _ (by decide +kernel), by decide +kernel⟩,
    asked _ _ _ (by decide +kernel),
    ⟨asked _ _ _ (by decide +kernel), by decide +kernel⟩,
    ⟨asked _ _ _ (by decide +kernel), by decide +kernel⟩,
    ⟨asked _ _ _ (by decide +kernel), by decide +kernel⟩,
    ⟨asked _ _ _ (by decide +kernel), by decide +kernel⟩⟩

theorem witness_LinksAreCommanded :
    (Asked mb_setId ⟨0, 0⟩ 0x4C00 [1, 1] [7, 1])
    ∧ (AskedBy mb_lbxStatus ⟨1, 0⟩ 0x0C01 [1, 1] [11, 0]
      ∧ mb_lbxStatus.permits (1 : Fin 64) true = true)
    ∧ (Asked mb_retrain ⟨0, 0⟩ 0x4C02 [1] [11]
      ∧ mb_retrain.pins.twinOut = false)
    ∧ (Asked mb_retrainUp ⟨0, 0⟩ 0x4C02 [1] [11]
      ∧ mb_retrainUp.pins.twinOut = true)
    ∧ (Asked mb_export ⟨0, 0⟩ 0x4C03 [1, 1, 8, 8, 1, 1] [255, 0, 131072, 65536, 1, 8]
      ∧ mb_export.lbx.exports.get? 255 = none
      ∧ (mb_export.part 0).confidential = false)
    ∧ (Asked mb_unexport ⟨0, 0⟩ 0x4C04 [1] [255]
      ∧ mb_unexport.lbx.exports.get? 255 = some ⟨0, 0x20000, 65536, true, 8, none⟩)
    ∧ (Asked mb_unexportRefused ⟨0, 0⟩ 0x4C04 [1] [0]
      ∧ mb_unexportRefused.lbx.exports.get? 0 = none)
    ∧ (Asked mb_import ⟨0, 0⟩ 0x4C05 [1, 8, 4, 1, 1, 8] [0, 262144, 1, 7, 255, 0]
      ∧ (mb_import.part 0).confidential = false
      ∧ 7 ≠ mb_import.lbx.d
      ∧ (mb_import.part 0).state ≠ .free
      ∧ (mb_import.part 0).mappedAny 4 1 = false) := by
  refine ⟨asked _ _ _ (by decide +kernel),
    ⟨askedVf _ _ _ (by decide +kernel), by decide +kernel⟩,
    ⟨asked _ _ _ (by decide +kernel), by decide +kernel⟩,
    ⟨asked _ _ _ (by decide +kernel), by decide +kernel⟩,
    ⟨asked _ _ _ (by decide +kernel), by decide +kernel⟩,
    ⟨asked _ _ _ (by decide +kernel), by decide +kernel⟩,
    ⟨asked _ _ _ (by decide +kernel), by decide +kernel⟩,
    ⟨asked _ _ _ (by decide +kernel), by decide +kernel⟩⟩

theorem witness_SecurityIsCommanded :
    (Asked mb_secStatus ⟨0, 0⟩ 0x0D00 [1] [0]
      ∧ mb_secStatus.permits (0 : Fin 64) true = true)
    ∧ (AskedBy mb_report ⟨1, 0⟩ 0x8D02 [1, 32, 8] [0, 5, 64]
      ∧ mb_report.permits (1 : Fin 64) true = true
      ∧ (mb_report.part (mb_report.vfPart (1 : Fin 64))).state = .active)
    ∧ (Asked mb_reportFree ⟨0, 0⟩ 0x8D02 [1, 32, 8] [15, 5, 64]
      ∧ mb_reportFree.permits (0 : Fin 64) true = true
      ∧ (mb_reportFree.part 15).state ≠ .active
      ∧ (mb_reportFree.part 15).state ≠ .quiesced)
    ∧ (AskedBy mb_secPageQuery ⟨1, 0⟩ 0x0D03 [1, 8] [0, 131072]
      ∧ mb_secPageQuery.permits (1 : Fin 64) true = true)
    ∧ (Asked mb_authorize ⟨0, 0⟩ 0x4D04 [2, 16, 2] [1, 5, 3600]
      ∧ mb_authorize.sec.session = none)
    ∧ (Asked mb_authorizeOpen ⟨0, 0⟩ 0x4D04 [2, 16, 2] [1, 5, 3600]
      ∧ mb_authorizeOpen.sec.session.isSome = true)
    ∧ (Asked mb_dbgRevoke ⟨0, 0⟩ 0x4D05 [] [])
    ∧ (Asked mb_traceStart ⟨0, 0⟩ 0x4D06 [8, 8] [4096, 1073741824]
      ∧ mb_traceStart.anyConfidential = false)
    ∧ (Asked mb_traceStop ⟨0, 0⟩ 0x4D07 [] []
      ∧ mb_traceStop.sec.trace.isSome = true)
    ∧ (Asked mb_traceStopNone ⟨0, 0⟩ 0x4D07 [] []
      ∧ mb_traceStopNone.sec.trace = none) := by
  refine ⟨⟨asked _ _ _ (by decide +kernel), by decide +kernel⟩,
    ⟨askedVf _ _ _ (by decide +kernel), by decide +kernel⟩,
    ⟨asked _ _ _ (by decide +kernel), by decide +kernel⟩,
    ⟨askedVf _ _ _ (by decide +kernel), by decide +kernel⟩,
    ⟨asked _ _ _ (by decide +kernel), by decide +kernel⟩,
    ⟨asked _ _ _ (by decide +kernel), by decide +kernel⟩,
    asked _ _ _ (by decide +kernel),
    ⟨asked _ _ _ (by decide +kernel), by decide +kernel⟩,
    ⟨asked _ _ _ (by decide +kernel), by decide +kernel⟩,
    ⟨asked _ _ _ (by decide +kernel), by decide +kernel⟩⟩

theorem witness_PowerAndFirmwareAreCommanded :
    (Asked mb_setCap ⟨0, 0⟩ 0x4E00 [2, 2, 4] [2400, 850, 100000])
    ∧ (AskedBy mb_pwrStatus ⟨1, 0⟩ 0x0E01 [1] [0]
      ∧ mb_pwrStatus.permits (1 : Fin 64) true = true)
    ∧ (Asked mb_setState ⟨0, 0⟩ 0x4E02 [1] [1]
      ∧ mb_setState.power.state ≠ .retain)
    ∧ (Asked mb_setStateLeave ⟨0, 0⟩ 0x4E02 [1] [0]
      ∧ mb_setStateLeave.power.state = .retain
      ∧ mb_setStateLeave.power.retainReq ≠ 2)
    ∧ (Asked mb_setStateRefused ⟨0, 0⟩ 0x4E02 [1] [0]
      ∧ mb_setStateRefused.power.state = .retain
      ∧ mb_setStateRefused.power.retainReq = 2)
    ∧ (Asked mb_errCounts ⟨0, 0⟩ 0x0E03 [1, 1] [8, 0])
    ∧ (Asked mb_inject ⟨0, 0⟩ 0x4E04 [1, 2, 4, 1] [1, 255, 1048575, 63]
      ∧ mb_inject.confidentialUnit 1 255 = false
      ∧ mb_inject.anyConfidential = false
      ∧ (mb_inject.chan 255).state = .inService)
    ∧ (Asked mb_injectMxu ⟨0, 0⟩ 0x4E04 [1, 2, 4, 1] [3, 639, 0, 0]
      ∧ mb_injectMxu.confidentialUnit 3 639 = false
      ∧ mb_injectMxu.anyConfidential = false)
    ∧ (Asked mb_injectLeaf ⟨0, 0⟩ 0x4E04 [1, 2, 4, 1] [4, 3, 0, 0]
      ∧ mb_injectLeaf.anyConfidential = false)
    ∧ (Asked mb_injectPort ⟨0, 0⟩ 0x4E04 [1, 2, 4, 1] [5, 11, 0, 0]
      ∧ mb_injectPort.anyConfidential = false)
    ∧ (AskedBy mb_devStatus ⟨1, 0⟩ 0x0100 [1] [0]
      ∧ mb_devStatus.permits (1 : Fin 64) true = true)
    ∧ (Asked mb_fwStatus ⟨0, 0⟩ 0x0101 [1] [0])
    ∧ (Asked mb_logRead ⟨0, 0⟩ 0x8102 [8, 4, 8] [0, 1, 0])
    ∧ (Asked mb_fwUpdate ⟨0, 0⟩ 0x8103 [8, 8] [0, 4194304]
      ∧ mb_fwUpdate.flash.writing = none)
    ∧ (Asked mb_fwLoad ⟨0, 0⟩ 0x8104 [8, 8] [0, 4194304]
      ∧ mb_fwLoad.flash.writing = none
      ∧ mb_fwLoad.boot.minimal = true)
    ∧ (Asked mb_fwUpdateAgain ⟨0, 0⟩ 0x8103 [8, 8] [0, 4194304]
      ∧ mb_fwUpdateAgain.flash.writing = some (Image.reset, 0, 0, false))
    ∧ (Asked mb_restart ⟨0, 0⟩ 0x0105 [1] [1]
      ∧ mb_restart.flash.writing = none) := by
  refine ⟨asked _ _ _ (by decide +kernel),
    ⟨askedVf _ _ _ (by decide +kernel), by decide +kernel⟩,
    ⟨asked _ _ _ (by decide +kernel), by decide +kernel⟩,
    ⟨asked _ _ _ (by decide +kernel), by decide +kernel⟩,
    ⟨asked _ _ _ (by decide +kernel), by decide +kernel⟩,
    asked _ _ _ (by decide +kernel),
    ⟨asked _ _ _ (by decide +kernel), by decide +kernel⟩,
    ⟨asked _ _ _ (by decide +kernel), by decide +kernel⟩,
    ⟨asked _ _ _ (by decide +kernel), by decide +kernel⟩,
    ⟨asked _ _ _ (by decide +kernel), by decide +kernel⟩,
    ⟨askedVf _ _ _ (by decide +kernel), by decide +kernel⟩,
    asked _ _ _ (by decide +kernel),
    asked _ _ _ (by decide +kernel),
    ⟨asked _ _ _ (by decide +kernel), by decide +kernel⟩,
    ⟨asked _ _ _ (by decide +kernel), by decide +kernel⟩,
    ⟨asked _ _ _ (by decide +kernel), by decide +kernel⟩,
    ⟨asked _ _ _ (by decide +kernel), by decide +kernel⟩⟩

theorem witness_MailboxRequestsAreChecked_requests :
    (Asked mb_bad ⟨0, 0⟩ 0x4304 [1, 1] [0, 0]
      ∧ ((mb_bad.fnRec 0).slot 0).len ≠ encodedLen [1])
    ∧ (AskedBy mb_vf ⟨1, 0⟩ 0x4304 [1] [0]
      ∧ (1 : Fin 64) ≠ 0) := by
  refine ⟨⟨asked _ _ _ (by decide +kernel), by decide +kernel⟩,
    ⟨askedVf _ _ _ (by decide +kernel), by decide +kernel⟩⟩

/-! ## Hinge, clocks, power and heat -/

/-- The reset device with leaf 3 in a state. -/
def stLeaf (l : Leaf) : State := { State.reset with leaves := Tab.empty.put Leaf.init 3 l }
/-- A leaf in training, one in confirmation, one that runs. -/
def leafTrain : Leaf := { Leaf.init with state := .train }
/-- Both ends offered all groups and confirmed width 4. -/
def leafConfirm : Leaf :=
  { Leaf.init with
    state := .confirm, end0 := ⟨some 15, some (4, 15), 15, true, false⟩, end1 := ⟨some 15, some (4, 15), 15, false, false⟩ }
/-- At full width. -/
def leafRuns : Leaf := { Leaf.init with state := .active, width := 4, groups := 15 }

theorem witness_HingeTrainsAndCarries :
    { State.reset with boot := { State.reset.boot with running := true, stage := 6 } }.boot.stage ≤ 6
    ∧ State.reset.hinge.resend.get false 127 = false
    ∧ { State.reset with hinge := { State.reset.hinge with resend := Tab.empty.put false 127 true } }.hinge.resend.get false 127 = true
    ∧ ((stLeaf leafTrain).leaf 3).state = .train ∧ ((stLeaf leafConfirm).leaf 3).state = .confirm
    ∧ leafTrain.end0.offer = none ∧ leafConfirm.end0.offer = some 15 ∧ leafConfirm.end1.offer = some 15
    ∧ (15 : BitVec 4) &&& 15 ≠ 0 ∧ (1 : BitVec 4) &&& 2 = 0 ∧ popCount 4 (3 &&& 6) < min (popCount 4 3) (popCount 4 6)
    ∧ leafConfirm.end0.confirm = leafConfirm.end1.confirm ∧ ((4, 15) : Nat × BitVec 4) ≠ (2, 3)
    ∧ { leafConfirm with forced := true }.forced = true ∧ leafConfirm.fails + 1 < 3 ∧ 3 ≤ { leafConfirm with fails := 2 }.fails + 1
    ∧ leafConfirm.common ≠ 0 ∧ leafTrain.common = 0 ∧ leafConfirm.end0.resetSeen = true ∧ leafConfirm.end1.gotReset = false
    ∧ leafConfirm.fresh = false ∧ ((stLeaf leafRuns).leaf 3).state = .active ∧ leafRuns.retrained = false
    ∧ { State.reset with fw := { State.reset.fw with running := true } }.fw.running = true ∧ leafRuns.runs = true
    ∧ (stLeaf leafRuns).suspended 29 = false ∧ (stLeaf leafRuns).suspended 30 = false
    ∧ (leafRuns.up.send 256 0).isSome = true ∧ leafRuns.inject = false := by decide

/-- The reset device with a PLL in a state. -/
def stPll (site : Nat) (p : Pll) : State := { State.reset with clocks := { State.reset.clocks with plls := Tab.empty.put .unlocked site p } }

theorem witness_ClocksAreLost :
    State.reset.clocks.boardRef = true ∧ State.reset.clocks.hostRef = true ∧ State.reset.boot.running = false
    ∧ State.reset.clocks.pairs.getLsbD 1 = true ∧ (stPll 31 .locked).clocks.plls.get .unlocked 31 = .locked
    ∧ (stPll 31 .relocking).clocks.plls.get .unlocked 31 = .relocking ∧ (stPll 31 .failed).clocks.plls.get .unlocked 31 ≠ .locked
    ∧ { State.reset with clocks := { State.reset.clocks with hostRef := false } }.clocks.hostRef = false
    ∧ { State.reset with boot := { State.reset.boot with running := true } }.boot.ready = false := by decide

/-- The reset device with power settings that wait. -/
def stCap (cap allow : Nat) (est : Nat) : State :=
  { State.reset with power := { State.reset.power with cap := cap, capAllow := allow, est := Tab.empty.put 0 0 est } }

theorem witness_PowerAndHeat_cap :
    (stCap 1000 16 1001).power.nextCap = none ∧ (stCap 1000 16 1001).power.cap < (stCap 1000 16 1001).power.p
    ∧ (stCap 1000 15 949).power.p ≤ 1000 ∧ 100 * (stCap 1000 15 949).power.p < 95 * 1000 ∧ (stCap 1000 15 949).power.capAllow < 16
    ∧ 95 * 1000 ≤ 100 * (stCap 1000 15 950).power.p
    ∧ { State.reset.power with nextCap := some (2400, 850, 100) }.nextCap = some (2400, 850, 100) := by decide

/-- An idle device, ACTIVE or in another power state. -/
def stIdle (p : PowerState) (req : Nat) : State :=
  { State.reset with
    boot := { State.reset.boot with ready := true }
    power := { State.reset.power with state := p, retainReq := req }
    chans := Tab.empty.put Chan.init 255 { Chan.init with state := .inService, ceHour := 10001, ueAfter := [1, 2, 3] } }

theorem witness_PowerAndHeat_states :
    (stIdle .active 0).power.state = .active ∧ (stIdle .active 0).quiet = true ∧ (stIdle .idle 1).power.retainReq ≠ 0
    ∧ (stIdle .idle 1).flash.writing = none ∧ (∀ p ∈ (stIdle .idle 1).parts.vals, p.rebind = none)
    ∧ (stIdle .retain 1).power.state = .retain ∧ { (stIdle .retain 1).power with d3hot := true }.d3hot = true
    ∧ (stIdle .active 0).boot.ready = true ∧ ((stIdle .active 0).chan 255).state = .inService
    ∧ 3 ≤ ((stIdle .active 0).chan 255).ueAfter.length ∧ 10000 < ((stIdle .active 0).chan 255).ceHour
    ∧ (∃ q, q = (2 : Nat) ∧ (stIdle .active 0).temps.droop.get 0 39 < q ∧ q < 3) ∧ (stIdle .active 0).temps.droop.get 0 39 < 3
    ∧ (91 : Int) < 92 ∧ (105 : Int) ≤ 105 ∧ (92 : Int) < 93 ∧ (93 : Int) < 95 ∧ (81 : Int) < 82 ∧ (100 : Int) ≤ 100 := by
  refine ⟨?_, ?_, ?_, ?_, ?_, ?_, ?_, ?_, ?_, ?_, ?_, ⟨2, rfl, ?_⟩, ?_⟩ <;> decide

/-! ## Links, starts, debug and moves -/

/-- Device 2 of twins, with port 11 in a state. -/
def stLink (p : LbxPort) (twin : Bool) : State :=
  { State.reset with
    lbx := { State.reset.lbx with d := 2, twin := twin, ports := Tab.empty.put LbxPort.init 11 p }
    pins := { State.reset.pins with twinOut := true } }
/-- A port in training whose peer was identified. -/
def portTrains : LbxPort := { LbxPort.init with state := .training, peer := some (5, 3), idOk := true, attempts := 2 }

theorem witness_PeerLinksTrainAndCarry :
    ((stLink portTrains false).port 11).state = .training ∧ (stLink portTrains false).identityReason 11 5 3 false true = 0
    ∧ (stLink portTrains false).identityReason 11 2 3 false true = 1 ∧ portTrains.idOk = true ∧ portTrains.peer = some (5, 3)
    ∧ 3 ≤ portTrains.attempts + 1 ∧ LbxPort.init.attempts + 1 < 3
    ∧ ((stLink { portTrains with state := .half } false).port 11).runs = true
    ∧ ((stLink { portTrains with state := .half } false).portGroup 5).length ≤ 1 ∧ (stLink portTrains true).lbx.twin = true
    ∧ (stLink portTrains true).pins.twinOut = true ∧ portTrains.inject = false
    ∧ ((FlitDir.init.accepted + 1) % 4096 = 0) := by decide

/-- A VF in a function level reset, bound or not. -/
def stFlr (fn : Nat) : State := { sys0 with fns := Tab.empty.set fn { Fn.init with ctx := if fn = 0 then none else some (0, 0), flr := true } }

theorem witness_HostLinkAndResetsOfFunctions :
    0x10000000 % 2 ^ 28 = 0 ∧ 2 ^ 28 ≤ 509 * 2 ^ 30 ∧ 0x10000000 + 509 * 2 ^ 30 ≤ 2 ^ 52 ∧ sys0.host.up = true
    ∧ (63 : Fin 64) ≠ 0 ∧ sys0.fnExists 63 = true ∧ (sys0.fnRec 63).flr = false ∧ (sys0.fnRec 0).flr = false
    ∧ (sys0.fnRec 63).ctx = none ∧ ((stFlr 63).fnRec 63).flr = true ∧ ((stFlr 63).fnRec 63).ctx = some (0, 0)
    ∧ (stFlr 63).flrBusy (fun a b => decide (some (0, 0) = some (a, b))) = false
    ∧ (stCmd (fill0 .running) []).flrBusy (fun a b => decide (some (0, 0) = some (a, b))) = true
    ∧ ((stFlr 0).fnRec 0).flr = true ∧ (stFlr 0).flrBusy (fun _ _ => true) = false
    ∧ { sys0.host with ideIo := true, ideCxl := true }.ideCxl = true ∧ { sys0.sec with ideKeys := 3 }.ideKeys = 3
    ∧ State.reset.host.up = false ∧ (stPll 0 .locked).clocks.plls.get .unlocked 0 = .locked := by decide +kernel

/-- A start at a step. -/
def stStage (n : Nat) : State := { State.reset with boot := { State.reset.boot with running := true, stage := n } }

theorem witness_DeviceStartsAndResets :
    State.reset.pins.pwrgd = true ∧ State.reset.pins.perst = true ∧ State.reset.pins.coldRst = true ∧ State.reset.flash.writing = none
    ∧ { State.reset.pins with pwrgd := false }.pwrgd = false ∧ State.reset.boot.stage = 0 ∧ (stStage 1).boot.stage = 1
    ∧ (stStage 13).boot.stage = 13 ∧ (stStage 13).boot.running = true
    ∧ (stStage 5).flash.image.check (stStage 5).fuses.rollback = 0
    ∧ ({ Image.reset with keys := false } : Image).check (stStage 5).fuses.rollback ≠ 0
    ∧ { State.reset.flash with writing := some (Image.reset, 0, 0, true) }.writing = some (Image.reset, 0, 0, true)
    ∧ State.reset.boot.restart = none ∧ State.reset.fw.running = false
    ∧ { State.reset.fw with running := true, ms := 999 }.running = true ∧ (999 + 1) % 1000 = 0 ∧ (998 + 1) % 1000 ≠ 0 := by decide

/-- A debug session on partition 0, in a started device whose firmware runs, with a token armed or a session open. -/
def stDebug (token : Option (List Byte × BitVec 16)) (session : Option (BitVec 16)) (l : List Nat) : State :=
  { sys0 with
    sec := { sys0.sec with token := token, session := session, spdm := l }
    fw := { sys0.fw with running := true }
    mgmt := { sys0.mgmt with i3c := some 9 }
    tss := Tab.empty.put Tss.init 0 ⟨.valid, 0, 0⟩ }

theorem witness_DebugAndManagementAnswer :
    (stDebug (some (bytesOf 16 5, 1)) none []).sec.token = some (bytesOf 16 (5 : BitVec 128).toNat, 1)
    ∧ (stDebug (some (bytesOf 16 5, 1)) none []).sec.session = none ∧ (5 : BitVec 128) ≠ 0
    ∧ (stDebug none (some 1) []).debugs 0 = true ∧ (stDebug none (some 1) []).coreIn 0 3 = true
    ∧ (stDebug none (some 1) []).coreIn 0 4 = false ∧ (stDebug none (some 1) []).debugs 1 = false
    ∧ (stDebug none (some 1) []).blocks.get? ref.block = some (b0 g0) ∧ (b0 g0).group? ref.group.val = some g0
    ∧ (stDebug none (some 1) []).tasks.get? (b0 g0).task = some t0 ∧ (stDebug none (some 1) []).debugs t0.part = true
    ∧ (b0 g0).phase = .resident ∧ (65532 : BitVec 19).toNat + 4 ≤ (b0 g0).lmemSize
    ∧ (stDebug none none []).debugs t0.part = false
    ∧ (stDebug none (some 1) []).locate 0 (0x2FFFF : BitVec 48).toNat = some (.dev 511, true)
    ∧ ((stDebug none (some 1) []).lineWrite 0 (lineOf 127 5) (byteMask 127 1) (.outer 1)).isSome = true
    ∧ (stDebug none (some 1) []).locate 0 (0xFFFF : BitVec 48).toNat = some (.host 1023, true)
    ∧ (stDebug none (some 1) []).llcFind ⟨true, 1023⟩ = none
    ∧ (stDebug none none [1]).host.up = true ∧ (stDebug none none [1]).boot.minimal = false ∧ (stDebug none none [1]).fw.running = true
    ∧ (1 : BitVec 3).toNat < 2 ∧ (stDebug none none [1]).sec.spdm.length < 2 ∧ 2 ≤ (stDebug none none [1, 2]).sec.spdm.length
    ∧ 1 ∈ (stDebug none none [1]).sec.spdm ∧ (stDebug none none [1]).mgmt.i3c.isSome = true ∧ State.reset.mgmt.i3c = none
    ∧ State.reset.host.up = false := by decide +kernel

/-- The device with a migration at the head, and its set's shadow entry. -/
def stMig (m : Migration) (sh : Option Shadow) : State :=
  { sys0 with
    mm := { sys0.mm with migs := [m] }
    sets := Tab.empty.set 0 { set0 with shadow := sh } }
/-- A set that moves to channel 1, tile 0 held. -/
def shadow0 : Shadow := ⟨[1], 0, 1024, [], [0], 0⟩
/-- A page that moves within the set, tile 0 held. -/
def page0 : Migration := .page 0 2 0 0x10000 32 [0] []

theorem witness_TilesMigrate :
    (stMig (.set 0 0) (some shadow0)).mm.migs = [.set 0 0]
    ∧ (stMig (.set 0 0) (some shadow0)).sets.get? 0 = some { set0 with shadow := some shadow0 }
    ∧ (stMig (.set 0 0) none).sets.get? 0 = some { set0 with shadow := none } ∧ 0 ∈ shadow0.held ∧ 1023 < shadow0.tiles
    ∧ (match (stMig (.set 0 0) (some shadow0)).lift ((0 + 1023 * 2048) / 128) with
      | .ok _ => true
      | .error _ => false) = true
    ∧ (match (stMig page0 none).lift ((0 + 31 * 2048) / 128) with
      | .ok _ => true
      | .error _ => false) = true
    ∧ (stMig page0 none).tileOfLine 0 = some ⟨0, 0, 0⟩ ∧ (stMig page0 none).placeOf 0x10000 = some (0, 32)
    ∧ (stMig (.recall 0 2 0 32 []) none).mm.migs = [.recall 0 2 0 32 []]
    ∧ (({ stMig (.rekey 0) none with mm := { (stMig (.rekey 0) none).mm with migs := [] } }).rekey 0).isSome = true
    ∧ (stMig (.detach 0 [64] []) none).detachTiles 0 ≠ [] ∧ (stMig (.attach 0 0) none).mm.migs = [.attach 0 0] := by decide +kernel

/-! ## Rules stated whole -/

/-- The special register 0x10. -/
def special16 : Ins := { ins with a := 0x10 }

theorem witness_PredicatesAndSpecialRegistersRead :
    CanIssue (st g0) ref special16 (ctx g0 special16) ∧ 0x10 ≤ special16.a.toNat ∧ (ctx g0 special16).vOk 1 special16.dst
    ∧ (ctx g0 special16).sel ≠ 0 ∧ uOk 1 special16.dst := by
  refine ⟨canIssue _ _ rfl, ?_⟩
  unfold Ctx.vOk uOk
  decide

/-- A full stack whose top is a DIV entry of the address after the instruction, in a group half of whose lanes pass p1. -/
def gMerge : Group := { gp with stack := ⟨.div, 0x1008, 0xFF0000⟩ :: List.replicate 31 eDiv }
/-- The same, with that address in u16. -/
def gMergeX : Group := { gMerge with uregs := Tab.empty.put 0 16 0x1008 }

theorem witness_RepeatedDivergenceMerges :
    CanIssue (st gMerge) ref { half with mod := 0, a := 0, b := 0, c := 0 } (ctx gMerge { half with mod := 0, a := 0, b := 0, c := 0 })
    ∧ (ctx gMerge half).sel ≠ 0 ∧ (ctx gMerge half).sel ≠ gMerge.active ∧ gMerge.stack.length = 32
    ∧ (0x1008 : DWord) = (ctx gMerge { half with mod := 0, a := 0, b := 0, c := 0 }).nextPc
      + insOff24 { half with mod := 0, a := 0, b := 0, c := 0 }
    ∧ CanIssue (st gMergeX) ref half (ctx gMergeX half) ∧ uOk 2 half.a ∧ (0x1008 : DWord) = (ctx gMergeX half).U64 half.a := by
  refine ⟨canIssue _ _ rfl, by decide, by decide, by decide, by decide, canIssue _ _ rfl, ?_⟩
  unfold uOk
  decide

/-- POUR of node 1, which the version does not have; and of node 0, which is not POUR_ONLY. -/
def stNoPour : State := { stCmd (launch0 .running) [node0 0 0 false] with blocks := (st gPour).blocks }
/-- What the instruction sees. -/
def ctxNoPour : Ctx := ⟨stNoPour, ref, b0 gPour, gPour, t0, pourIns, gPour.selected pourIns⟩

theorem witness_PourOfOtherNodesFaults :
    CanIssue stNoPour ref pourIns ctxNoPour ∧ ctxNoPour.sel ≠ 0 ∧ pourIns.b.toNat + 3 ≤ 48 ∧ uOk 1 pourIns.c
    ∧ (stNoPour.stepVer ctxNoPour.t.cmd).nodes[ctxNoPour.pourNode.1]? = some (node0 0 0 false)
    ∧ (node0 0 0 false).pourOnly = false := by
  refine ⟨canIssueAt _ _ _ rfl rfl rfl rfl rfl, ?_⟩
  unfold uOk
  decide +kernel

/-- A group whose lane 31 names the last byte of the host page, and one that names the read-only page. -/
def gOdd (lo hi : Word) : Group :=
  { (g0.putV 16 0xFFFFFFFF (fun _ => lo)).putV 17 0xFFFFFFFF (fun _ => hi) with preds := Tab.empty.put 0 1 0x80000000 }

theorem witness_MisalignedAccessesFault :
    CanIssue (st (gOdd 65535 0)) ref wideOne (ctx (gOdd 65535 0) wideOne) ∧ (ctx (gOdd 65535 0) wideOne).vOk 2 wideOne.a
    ∧ 31 ∈ lanesIn (ctx (gOdd 65535 0) wideOne).sel ∧ (ctx (gOdd 65535 0) wideOne).globalAt 31 % insWidth wideOne ≠ 0
    ∧ 2 ^ 48 ≤ (ctx (gOdd 0 0x10000) wideOne).globalAt 31 ∧ (ctx (gOdd 65535 0) wideOne).vOk (regsFor (insWidth wideOne)) wideOne.dst
    ∧ cvtOk (field wideOne.mod 7 2) (field wideOne.mod 9 4) (insWidth wideOne) = true
    ∧ (ctx (gOdd 65535 0) wideOne).vOk (regsFor 16) wideOne.b ∧ (ctx (gOdd 65535 0) wideOne).vOk (regsFor 16) wideOne.c
    ∧ (st (gOdd 0x10000 0)).locate t0.part 0x10000 = some (.host 1024, false) := by
  refine ⟨canIssue _ _ rfl, ?_⟩
  unfold Ctx.vOk
  decide

/-- A sound state. -/
theorem witness_EveryCommandKeepsTheMachineSound : State.reset.sound :=
  ⟨rfl, rfl, List.Pairwise.nil, fun _ h => nomatch h⟩

theorem witness_InstructionsChangeOnlyTheirTask :
    Instr.iadd ∈ instructionCommands ∧ exec (.iadd ref ins) (st g0) = .next (next (exec (.iadd ref ins) (st g0)))
    ∧ (st g0).blocks.get? ref.block = some (b0 g0) := by
  refine ⟨by simp [instructionCommands], rfl, rfl⟩

theorem witness_MemoryWritesChangeOnlyTheirBytes :
    (byteMask 127 1).getLsbD 127 = true ∧ ((stMc back9).pseudoChan 0).pick = some (0, back9) ∧ back9.writes = true
    ∧ back9.mask.getLsbD 127 = true := by decide +kernel

/-! ## More forms of the statements -/

/-- A flit with the bits of its bytes 0 to 247 and those of its CRC field. -/
def flitOf (head crc : Nat) : BitVec 2048 := BitVec.ofNat 2048 (head + 2 ^ 1984 * crc)

theorem crc64Bit_lt (c : Nat) (h : c < 2 ^ 64) : crc64Bit c < 2 ^ 64 := by
  unfold crc64Bit
  split
  · exact Nat.xor_lt_two_pow (Nat.mod_lt _ (by decide)) (by decide)
  · omega

theorem foldl_lt {α : Type} (f : Nat → α → Nat) (l : List α) (hf : ∀ c, ∀ a ∈ l, c < 2 ^ 64 → f c a < 2 ^ 64) (c : Nat)
    (h : c < 2 ^ 64) : l.foldl f c < 2 ^ 64 := by
  induction l generalizing c with
  | nil => exact h
  | cons a l ih => exact ih (fun c b m => hf c b (List.mem_cons_of_mem _ m)) _ (hf c a List.mem_cons_self h)

theorem flitCrc_lt (f : BitVec 2048) : flitCrc f < 2 ^ 64 :=
  foldl_lt _ _ (fun c i _ h => foldl_lt _ _ (fun c _ _ h => crc64Bit_lt c h) _
    (Nat.xor_lt_two_pow h (by rw [Nat.shiftLeft_eq]; have : field f (8 * i) 8 < 2 ^ 8 := Nat.mod_lt _ (by decide); omega))) _ (by decide)

theorem pack_lt (head crc a b n : Nat) (h : head < 2 ^ a) (c : crc < 2 ^ b) (e : n = a + b) : head + 2 ^ a * crc < 2 ^ n := by
  refine Nat.lt_of_lt_of_le (Nat.add_lt_add_right h _) ?_
  rw [Nat.add_comm, ← Nat.mul_succ, e, Nat.pow_add]
  exact Nat.mul_le_mul_left _ c

theorem flitOf_toNat (head crc : Nat) (h : head < 2 ^ 1984) (c : crc < 2 ^ 64) : (flitOf head crc).toNat = head + 2 ^ 1984 * crc := by
  rw [flitOf, BitVec.toNat_ofNat, Nat.mod_eq_of_lt (pack_lt head crc 1984 64 2048 h c rfl)]

theorem flitOf_crc (head crc : Nat) (h : head < 2 ^ 1984) (c : crc < 2 ^ 64) :
    field (flitOf head crc) 1984 64 = crc ∧ flitCrc (flitOf head crc) = flitCrc (flitOf head 0) := by
  refine ⟨?_, ?_⟩
  · rw [field, flitOf_toNat _ _ h c, Nat.shiftRight_eq_div_pow, Nat.add_mul_div_left _ _ (Nat.two_pow_pos _), Nat.div_eq_of_lt h, Nat.zero_add,
      Nat.mod_eq_of_lt c]
  · unfold flitCrc
    refine List.foldl_ext _ _ _ (fun x i m => ?_)
    rw [List.mem_range] at m
    have e : (2 : Nat) ^ 1984 = 2 ^ (8 * i) * (2 ^ 8 * 2 ^ (1984 - 8 * i - 8)) := by
      rw [← Nat.pow_add, ← Nat.pow_add]
      congr 1
      omega
    rw [field, field, flitOf_toNat _ _ h c, flitOf_toNat _ 0 h (Nat.two_pow_pos 64), Nat.mul_zero, Nat.add_zero, Nat.shiftRight_eq_div_pow,
      Nat.shiftRight_eq_div_pow, e, Nat.mul_assoc, Nat.add_mul_div_left _ _ (Nat.two_pow_pos _), Nat.mul_assoc, Nat.add_mul_mod_self_left]

/-- A flit with the CRC of its bytes. -/
def goodFlit (head : Nat) : BitVec 2048 := flitOf head (flitCrc (flitOf head 0))
/-- A header is shorter than 248 bytes. -/
theorem header_lt (head : Nat) (h : head < 2 ^ 64) : head < 2 ^ 1984 := Nat.lt_of_lt_of_le h (Nat.pow_le_pow_right (i := 64) (j := 1984) (Nat.succ_pos 1) (by omega))

theorem goodFlit_crc (head : Nat) (h : head < 2 ^ 64) : field (goodFlit head) 1984 64 = flitCrc (goodFlit head) := by
  have := flitOf_crc head _ (header_lt _ h) (flitCrc_lt (flitOf head 0))
  rw [goodFlit, this.1, this.2]

theorem goodFlit_field (head lo n : Nat) (h : head < 2 ^ 64) (p : lo + n ≤ 64) : field (goodFlit head) lo n = (head / 2 ^ lo) % 2 ^ n := by
  have e : (2 : Nat) ^ 1984 = 2 ^ lo * (2 ^ n * 2 ^ (1984 - lo - n)) := by
    rw [← Nat.pow_add, ← Nat.pow_add]
    congr 1
    omega
  rw [field, goodFlit, flitOf_toNat _ _ (header_lt _ h) (flitCrc_lt _), Nat.shiftRight_eq_div_pow, e, Nat.mul_assoc,
    Nat.add_mul_div_left _ _ (Nat.two_pow_pos _), Nat.mul_assoc, Nat.add_mul_mod_self_left]

/-- Every 2,048 bits are a flit of some SEQ, ACK and upper bits. -/
theorem wholeFlit_parts (f : BitVec 2048) : wholeFlit (f.extractLsb' 0 12) (f.extractLsb' 12 12) (f.extractLsb' 24 2024) = f := by
  unfold wholeFlit
  refine BitVec.eq_of_getLsbD_eq (fun i h => ?_)
  rw [BitVec.getLsbD_append, BitVec.getLsbD_append, BitVec.getLsbD_extractLsb', BitVec.getLsbD_extractLsb', BitVec.getLsbD_extractLsb']
  by_cases a : i < 12
  · simp [a]
  · by_cases b : i - 12 < 12
    · simp [a, b, show 12 + (i - 12) = i by omega]
    · simp [a, b, show 24 + (i - 12 - 12) = i by omega, show i - 12 - 12 < 2024 by omega]

theorem witness_HingeTrainsAndCarries_flits :
    (∃ seq ack rest, wholeFlit seq ack rest = goodFlit 0)
    ∧ (∀ head ∈ [0, 2 ^ 24], field (goodFlit head) 1984 64 = flitCrc (goodFlit head))
    ∧ flitKind (goodFlit 0) = 0 ∧ flitKind (goodFlit (2 ^ 24)) ≠ 0 ∧ field (goodFlit 0) 24 2 ≠ 2 ∧ field (goodFlit (2 ^ 25)) 24 2 = 2
    ∧ field (flitOf 0 ((flitCrc (flitOf 0 0) + 1) % 2 ^ 64)) 1984 64 ≠ flitCrc (flitOf 0 ((flitCrc (flitOf 0 0) + 1) % 2 ^ 64))
    ∧ (stLeaf leafRuns).halted = false
    ∧ (leafRuns.up.send 256 (field (goodFlit 0) 0 12)).isSome = true ∧ leafRuns.up.send 256 (field (goodFlit 5) 0 12) = none := by
  refine ⟨⟨_, _, _, wholeFlit_parts _⟩, fun head m => goodFlit_crc head (by simp at m; omega), ?_, ?_, ?_, ?_, ?_, rfl, ?_, ?_⟩
  · rw [flitKind, goodFlit_field 0 24 2 (by decide) (by decide)]; decide
  · rw [flitKind, goodFlit_field (2 ^ 24) 24 2 (by decide) (by decide)]; decide
  · rw [goodFlit_field 0 24 2 (by decide) (by decide)]; decide
  · rw [goodFlit_field (2 ^ 25) 24 2 (by decide) (by decide)]; decide
  · have := flitOf_crc 0 ((flitCrc (flitOf 0 0) + 1) % 2 ^ 64) (header_lt 0 (Nat.two_pow_pos _)) (Nat.mod_lt _ (by decide))
    rw [this.1, this.2]
    have := flitCrc_lt (flitOf 0 0)
    omega
  · rw [goodFlit_field 0 0 12 (by decide) (by decide)]; decide
  · rw [goodFlit_field 5 0 12 (by decide) (by decide)]; decide

/-- A leaf whose steering buckets are those of its width. -/
def stCarries : State := { stLeaf leafRuns with hinge := { State.reset.hinge with buckets := [0, 0, 0, 4] } }
/-- A request that crosses leaf 3, which is owed a change of buckets or not. -/
def stSteer (n : Nat) : State :=
  { stLeaf leafRuns with
    hinge := { State.reset.hinge with buckets := [0, 0, 0, n] }
    reqs := Tab.empty.set 9 { req load0 .flight with via := { Via.free with leaf := some 3 } } }

theorem witness_HingeTrainsAndCarries_buckets :
    stCarries.leafOpen 3 = true ∧ stCarries.leafOpen 2 = false
    ∧ (∀ r ∈ (stSteer 4).reqs.rows, ∀ k, r.2.via.leaf = some k → (stSteer 4).steerDue k = false)
    ∧ (∃ r ∈ (stSteer 3).reqs.rows, ∃ k, r.2.via.leaf = some k ∧ (stSteer 3).steerDue k = true) := by
  refine ⟨by decide, by decide, ?_, ⟨_, List.mem_singleton.mpr rfl, 3, rfl, by decide⟩⟩
  intro r m k h
  cases List.mem_singleton.mp m
  cases h
  decide

theorem witness_ClocksAreLost_sites :
    ∀ p ∈ [1, 6, 7, 22, 23, 30], (stPll p .relocking).clocks.plls.get .unlocked p = .relocking := by decide

theorem witness_HingeTrainsAndCarries_bonded :
    (State.reset.hinge.resend.get false 159 = false)
    ∧ { State.reset with hinge := { State.reset.hinge with resend := Tab.empty.put false 159 true } }.hinge.resend.get false 159 = true := by
  decide

/-- A port that runs, with one credit of virtual channel 0 or none, and with or without a message that waits. -/
def portRuns (n : Nat) (waits : Bool) : LbxPort :=
  { portTrains with state := .active, credits := [n, 0, 0, 0], wait := if waits then [.lbx 5 0x10 [] []] else [] }

theorem witness_PeerLinksTrainAndCarry_credits :
    (portRuns 1 false).canSend (Msg.lbx 5 0x10 [] []).vc = true ∧ (portRuns 0 false).canSend (Msg.lbx 5 0x10 [] []).vc = false
    ∧ (portRuns 1 false).runs = true
    ∧ (∃ w ∈ (portRuns 1 true).wait, w.vc = (Msg.lbx 5 0x10 [] []).vc) ∧ field (goodFlit 0) 26 2 < (portRuns 0 false).credits.length := by
  refine ⟨by decide, by decide, by decide, ⟨_, List.mem_singleton.mpr rfl, rfl⟩, ?_⟩
  rw [goodFlit_field 0 26 2 (by decide) (by decide)]
  decide


/-- A parameter block in a page of peer memory or of the host's, of whose line nothing has come yet. -/
def stAway : State := stWait (node0 16 0xFF80 false) 1 0

theorem witness_TasksBecomeReady_waits :
    (match ({ stAway with tss := .empty }).frontRead (.cmd 5) (some 1) 0 0xFF80 16 0 with
      | .wait _ => true
      | _ => false) = true := by decide +kernel

theorem witness_BlocksEnd_heard :
    (stOf gEnded (launch0 .running)).coreHeard 0 5 = true ∧ (stOf g0 (launch0 .draining)).coreHeard 0 5 = true
    ∧ 0 ∈ { launch0 .killing with drained := [0] }.drained := by decide +kernel

/-- The repair commands' device, a session open on stack 15. -/
def sysOpen : State :=
  { sys0 with
    chans := Tab.empty.put Chan.init 255 { Chan.init with state := .mappedOut, passed := true }
    mm := { sys0.mm with session := Tab.empty.put false 15 true } }
/-- The same in RETAIN, where no channel may be repaired. -/
def sysRetain : State := { sysOpen with power := { sysOpen.power with state := .retain } }

theorem witness_QueuesAndUnitsAreCommanded_repairs :
    Asked (ask sysOpen 0x4800 [(1, 255), (1, 1), (1, 255), (2, 65535)]) ⟨0, 0⟩ 0x4800 [1, 1, 1, 2] [255, 1, 255, 65535]
    ∧ Asked (ask sysOpen 0x4801 [(1, 255), (1, 1), (1, 255), (2, 65535)]) ⟨0, 0⟩ 0x4801 [1, 1, 1, 2] [255, 1, 255, 65535]
    ∧ Asked (ask sysOpen 0x4804 [(1, 255), (1, 1), (1, 255), (2, 65535), (8, 7)]) ⟨0, 0⟩ 0x4804 [1, 1, 1, 2, 8] [255, 1, 255, 65535, 7]
    ∧ Asked (ask sysOpen 0x4800 [(1, 255), (1, 2), (1, 255), (2, 65535)]) ⟨0, 0⟩ 0x4800 [1, 1, 1, 2] [255, 2, 255, 65535]
    ∧ Asked (ask sysRetain 0x4800 [(1, 255), (1, 1), (1, 255), (2, 65535)]) ⟨0, 0⟩ 0x4800 [1, 1, 1, 2] [255, 1, 255, 65535]
    ∧ sysOpen.repairOk 255 = true ∧ sysRetain.repairOk 255 = false ∧ Tab.get false sysOpen.mm.session (255 / 16) = true
    ∧ Tab.get false mb_pprSoft.mm.session (255 / 16) = false := by
  refine ⟨asked _ _ _ (by decide +kernel), asked _ _ _ (by decide +kernel), asked _ _ _ (by decide +kernel),
    asked _ _ _ (by decide +kernel), asked _ _ _ (by decide +kernel), ?_⟩
  decide +kernel

theorem witness_QueuesAndUnitsAreCommanded_lanes :
    Asked (ask sysOpen 0x0802 [(1, 15), (1, 0)]) ⟨0, 0⟩ 0x0802 [1, 1] [15, 0]
    ∧ Asked (ask sysRetain 0x0802 [(1, 15), (1, 0)]) ⟨0, 0⟩ 0x0802 [1, 1] [15, 0]
    ∧ Asked (ask sysOpen 0x4803 [(1, 15), (8, 5)]) ⟨0, 0⟩ 0x4803 [1, 8] [15, 5]
    ∧ Asked (ask sysRetain 0x4803 [(1, 15), (8, 5)]) ⟨0, 0⟩ 0x4803 [1, 8] [15, 5] ∧ Asked (ask sys0 0x4803 [(1, 16), (8, 5)]) ⟨0, 0⟩ 0x4803 [1, 8] [16, 5]
    ∧ (∀ j, j < 16 → sysRetain.repairOk (16 * 15 + j) = false) ∧ (∃ j, j < 16 ∧ sysOpen.repairOk (16 * 15 + j) = true)
    ∧ sysOpen.power.state ≠ .retain ∧ mb_laneMapRead.mm.session.get false 15 = false ∧ mb_laneMapWrite.mm.session.get false 15 = false := by
  refine ⟨asked _ _ _ (by decide +kernel), asked _ _ _ (by decide +kernel), asked _ _ _ (by decide +kernel),
    asked _ _ _ (by decide +kernel), asked _ _ _ (by decide +kernel), by decide +kernel, ⟨15, by decide +kernel⟩, ?_⟩
  decide +kernel

theorem witness_QueuesAndUnitsAreCommanded_denied :
    sys0.partExists 15 = false ∧ Asked (ask sys0 0x4600 [(1, 15), (1, 12)]) ⟨0, 0⟩ 0x4600 [1, 1] [15, 12]
    ∧ Asked (ask sys0 0x4700 [(1, 15), (1, 12)]) ⟨0, 0⟩ 0x4700 [1, 1] [15, 12]
    ∧ Asked (ask sys0 0x8601 [(1, 16), (8, 0), (8, 0)]) ⟨0, 0⟩ 0x8601 [1, 8, 8] [16, 0, 0]
    ∧ Asked (ask sys0 0x8602 [(1, 16), (8, 0), (8, 0)]) ⟨0, 0⟩ 0x8602 [1, 8, 8] [16, 0, 0] := by
  refine ⟨by decide +kernel, asked _ _ _ (by decide +kernel), asked _ _ _ (by decide +kernel), asked _ _ _ (by decide +kernel),
    asked _ _ _ (by decide +kernel)⟩

/-- A shared region in the set, a tile of which is held for a move or not, a line of which a host holds or not. -/
def sysShared (m : Option Shadow) (owned : Bool) : State :=
  { sys0 with
    sets := Tab.empty.set 0 { set0 with owner := .shared, shadow := m }
    mm := { sys0.mm with shared := some ⟨2097152, false, false, [⟨0, 0, 2097152⟩]⟩ }
    dir := if owned then Tab.empty.set 0 ⟨true, agentBit 0, 0⟩ else .empty }
/-- SHARED_LOAD of its first tile. -/
def mb_load (m : Option Shadow) (owned : Bool) : State := ask (sysShared m owned) 0x8705 [(8, 0), (8, 2048), (8, 0)]

theorem witness_MemoryIsLaidOut_loads :
    Asked (mb_load none false) ⟨0, 0⟩ 0x8705 [8, 8, 8] [0, 2048, 0]
    ∧ Asked (mb_load (some ⟨[1], 0, 1024, [], [0], 0⟩) false) ⟨0, 0⟩ 0x8705 [8, 8, 8] [0, 2048, 0]
    ∧ Asked (mb_load none true) ⟨0, 0⟩ 0x8705 [8, 8, 8] [0, 2048, 0]
    ∧ (mb_load (some ⟨[1], 0, 1024, [], [0], 0⟩) false).tileMoving 0 = true ∧ (mb_load none true).tileMoving 0 = false
    ∧ ((mb_load none false).recall (fun n => [0].contains (n / 16 * 16))).1 = true
    ∧ ((mb_load none true).recall (fun n => [0].contains (n / 16 * 16))).1 = false := by
  refine ⟨asked _ _ _ (by decide +kernel), asked _ _ _ (by decide +kernel), asked _ _ _ (by decide +kernel), ?_⟩
  decide +kernel

theorem witness_PowerAndHeat_channels :
    (∀ ue, ({ Chan.init with state := .inService, ueAfter := ue } : Chan).state = .inService)
    ∧ 3 ≤ ({ Chan.init with ueAfter := [1, 2, 3] } : Chan).ueAfter.length ∧ Chan.init.ueAfter.length < 3 := by
  refine ⟨fun _ => rfl, by decide, by decide⟩

theorem witness_TilesMigrate_moves :
    (stMig (.leave 255) none).mm.migs = [.leave 255]
    ∧ (stMig page0 none).memOpen 0 = true
    ∧ { stMig page0 none with power := { sys0.power with selfRefresh := true } }.memOpen 0 = false
    ∧ ((stMig (.rekey 0) none).flush (inLines ((stMig (.rekey 0) none).rangeLines 0 0 windowEnd))).1 = true
    ∧ ({ stMig (.rekey 0) none with txns := Tab.empty.set 0 txn0 }.flush
        (inLines ({ stMig (.rekey 0) none with txns := Tab.empty.set 0 txn0 }.rangeLines 0 0 windowEnd))).1 = false := by decide +kernel

theorem witness_DebugAndManagementAnswer_writes :
    (((stDebug none (some 1) []).lineWrite 0 (lineOf 127 5) (byteMask 127 1) (.outer 1)).bind (fun t => t.wakeLine (.dev 0))).isSome = true
    ∧ (((stDebug none (some 1) []).hostWrite (1023 * 128 + 127) [5]).wakeLine (.host 1023)).isSome = true := by decide +kernel

theorem witness_MemoryWritesChangeOnlyTheirBytes_issue :
    (stMc back9).txns.rows = [] ∧ (stMc back9).memOpen 0 = true ∧ back9.line < 16 := by decide +kernel

end Sys2Proof.Tests
end

section
/-! The pour of a node that cannot be poured (R46). -/

namespace Sys2Proof.Machine

/-- A condition that does not hold ends the task with ACCESS_FAULT (R86). -/
theorem require_false {c : Bool} (h : c = false) : require c = accessFault := by simp [require, h]

/-- A POUR whose grid registers exist reads the grid that it names (R84, R104). -/
theorem pourGrid_ok {x : Ctx} (h : insImmValue x.i = none → x.i.b.toNat + 3 ≤ 48) :
    ∃ g, x.pourGrid = .ok g ∧ (g.1.toNat, g.2.1.toNat, g.2.2.toNat) = x.grid := by
  unfold Ctx.pourGrid Ctx.grid
  cases e : insImmValue x.i with
  | some w => exact ⟨_, rfl, by simp only [apply_ite BitVec.toNat]; rfl⟩
  | none =>
    have hb := h e
    have e1 : (x.i.b + 1).toNat = x.i.b.toNat + 1 := by bv_omega
    have e2 : (x.i.b + 2).toNat = x.i.b.toNat + 2 := by bv_omega
    have u0 : uOk 1 x.i.b := ⟨by omega, .inl rfl⟩
    have u1 : uOk 1 (x.i.b + 1) := ⟨by omega, .inl rfl⟩
    have u2 : uOk 1 (x.i.b + 2) := ⟨by omega, .inl rfl⟩
    refine ⟨(x.g.ureg x.i.b.toNat, x.g.ureg (x.i.b + 1).toNat, x.g.ureg (x.i.b + 2).toNat), ?_, ?_⟩
    · simp only [u32_ok u0, u32_ok u1, u32_ok u2, ok_bind, pure_ok]
    · simp only [e1, e2]

/-- A POUR of a group that can issue, whose operands are readable, ends its task with ACCESS_FAULT unless the step's graph version has the
named node and that node is POUR_ONLY (R46). -/
theorem execPour_fault_of_node {s : State} {r : GroupRef} {i : Ins} {x : Ctx} (h : CanIssue s r i x) (hn : x.sel ≠ 0)
    (hg : insImmValue x.i = none → x.i.b.toNat + 3 ≤ 48) (hc : insNoC x.i = false → uOk 1 x.i.c)
    (hbad : ∀ n, (s.stepVer x.t.cmd).nodes[x.pourNode.1]? = some n → n.pourOnly = false) :
    execPour r i s = .next (s.endTask x.b.task .accessFault x.g.pc) := by
  obtain ⟨g, hg3, -⟩ := pourGrid_ok hg
  unfold Ctx.pourNode at hbad
  refine issue_fault h ?_
  simp only [forGroup_ok hn, hg3, uC_ok hc, ok_bind]
  cases hcmd : s.cmd? x.t.cmd with
  | none => rfl
  | some c =>
    cases hnode : (s.stepVer x.t.cmd).nodes[field x.UC 0 12]? with
    | none => rfl
    | some n =>
      simp only [require_false (hbad n hnode)]
      rfl

/-- Settles O55: both kinds of bad node leave no POUR_ONLY node under the number that the POUR names. -/
theorem pourOfOtherNodesFaults : Obligations.PourOfOtherNodesFaults := by
  intro s r i x h hn hg hc hnode
  obtain rfl := h.word
  refine execPour_fault_of_node h hn hg hc fun n hsome => ?_
  rcases hnode with hnone | ⟨m, hm, hpo⟩
  · simp [hnone] at hsome
  · obtain rfl : m = n := by simpa [hm] using hsome
    exact hpo

end Sys2Proof.Machine
end

section
/-! Predicates and the special registers that Table 3-2 does not list (R70, R72). -/

namespace Sys2Proof.Machine

/-- p0 reads as true in every lane (R70). -/
@[simp] theorem Group.pred_zero (g : Group) : g.pred 0 = 0xFFFFFFFF := rfl

/-- p0 discards writes (R70). -/
@[simp] theorem Group.putPred_zero (g : Group) (v : Mask) : g.putPred 0 v = g := rfl

/-- A predicate other than p0 is kept in its table (R70). -/
theorem Group.pred_of_pos (g : Group) {p : Nat} (h : 1 ≤ p) : g.pred p = g.preds.get 0 p := if_neg (by omega)

/-- A write of a predicate other than p0 goes to its table (R70). -/
theorem Group.putPred_of_pos (g : Group) {p : Nat} (h : 1 ≤ p) (v : Mask) :
    g.putPred p v = { g with preds := g.preds.put 0 p v } := if_neg (by omega)

/-- A predicate other than p0 holds what is written (R70). -/
theorem Group.pred_putPred_self (g : Group) {p : Nat} (h : 1 ≤ p) (v : Mask) : (g.putPred p v).pred p = v := by
  simp [g.putPred_of_pos h, Group.pred_of_pos _ h]

/-- A write of a predicate leaves every other predicate as it was (R70). -/
theorem Group.pred_putPred_ne (g : Group) {p q : Nat} (h : q ≠ p) (v : Mask) : (g.putPred p v).pred q = g.pred q := by
  unfold Group.putPred
  split
  · rfl
  · simp only [Group.pred, Tab.get_put_ne (0 : Mask) g.preds h]

/-- A special register that Table 3-2 does not list reads as zero, and its read changes nothing (R72). -/
theorem special_unlisted (x : Ctx) {n : Nat} (h : 0x10 ≤ n) : x.special n = (0, x.s) := by
  unfold Ctx.special
  split
  case h_15 => rfl
  all_goals omega

/-- S2V of an unlisted special register writes zero to the selected lanes (R72, R108). -/
theorem execS2v_unlisted {s : State} {r : GroupRef} {i : Ins} {x : Ctx} (h : CanIssue s r i x) (ha : 0x10 ≤ i.a.toNat)
    (hd : x.vOk 1 i.dst) : execS2v r i s = .next (x.after (x.with32 (fun _ => 0))) := by
  obtain rfl := h.word
  refine issue_next h ?_
  simp only [vTuple_ok hd, ok_bind, special_unlisted x ha]
  refine congrArg (fun v => x.doneIn x.s (x.g.putV x.i.dst.toNat x.sel v)) (funext fun l => ?_)
  split
  case h_3 => rfl
  all_goals omega

/-- S2U of an unlisted special register writes zero to the uniform register (R72, R109). -/
theorem execS2u_unlisted {s : State} {r : GroupRef} {i : Ins} {x : Ctx} (h : CanIssue s r i x) (ha : 0x10 ≤ i.a.toNat)
    (hn : x.sel ≠ 0) (hd : uOk 1 i.dst) : execS2u r i s = .next (x.after (x.g.putU i.dst.toNat 0)) := by
  refine issue_next h ?_
  simp only [forGroup_ok hn, uTuple_ok hd, ok_bind, special_unlisted x ha]
  rfl

/-- Settles O53: the predicates by the laws of a table, the special registers by `special_unlisted`. -/
theorem predicatesAndSpecialRegistersRead : Obligations.PredicatesAndSpecialRegistersRead := by
  refine ⟨fun g v => ⟨g.pred_zero, g.putPred_zero v⟩, fun g p q v hp _ _ => ?_, fun s r i x h ha =>
    ⟨execS2v_unlisted h ha, execS2u_unlisted h ha⟩⟩
  split
  case isTrue hq => rw [hq, g.pred_putPred_self hp]
  case isFalse hq => exact g.pred_putPred_ne hq v

end Sys2Proof.Machine
end

section
/-! Accesses to global memory that end their task (R88, R102). -/

namespace Sys2Proof.Machine

section
variable {s : State} {r : GroupRef} {i : Ins} {x : Ctx} {f : Nat → Nat} {w l : Nat}

/-- A step that ends well before one that faults whatever value it is given. -/
theorem bind_eq_error {ε α β : Type} {m : Except ε α} {k : α → Except ε β} {e : ε} (hm : ∃ a, m = .ok a)
    (hk : ∀ a, k a = .error e) : (m >>= k) = .error e := by
  obtain ⟨a, rfl⟩ := hm
  exact hk a

/-- A misaligned address, or one of more than 48 bits, is refused (R88). -/
theorem addrOk_eq_false {w va : Nat} : addrOk w va = false ↔ 2 ^ 48 ≤ va ∨ va % w ≠ 0 := by
  simp only [addrOk, Bool.and_eq_false_iff, decide_eq_false_iff_not, not_lt, ne_eq]

/-- One selected lane with a refused address, or one that writes a read-only page, fails the check of all lanes (R34, R88). -/
theorem checkLanes_fault {write : Bool} (hl : l ∈ lanesIn x.sel)
    (hbad : addrOk w (f l) = false ∨ write = true ∧ ∃ h, x.s.locate x.t.part (f l) = some (h, false)) :
    x.checkLanes f w write = accessFault := by
  refine require_false (List.all_eq_false.mpr ⟨l, hl, ?_⟩)
  rcases hbad with hva | ⟨rfl, h, hro⟩
  · simp [hva]
  · simp [hro]

/-- The operand of an atomic is an immediate, or a readable tuple's value (R84). -/
theorem atomB_isOk (h : insImmValue x.i = none → x.vOk (regsFor w) x.i.b) : ∃ b, x.atomB w = .ok b := by
  unfold Ctx.atomB
  cases e : insImmValue x.i with
  | some v => exact ⟨_, rfl⟩
  | none => exact ⟨_, by simp only [vTuple_ok (h e), ok_bind]; rfl⟩

/-- The new value of a CAS is zero where it is absent, or a readable tuple's value (R84, R99). -/
theorem atomC_isOk (h : insNoC x.i = false → x.vOk (regsFor w) x.i.c) : ∃ c, x.atomC w = .ok c := by
  unfold Ctx.atomC
  cases e : insNoC x.i with
  | true => exact ⟨_, rfl⟩
  | false => exact ⟨_, by simp only [vTuple_ok (h e), ok_bind]; rfl⟩

/-- An atomic of which a selected lane is refused or writes a read-only page faults, where its operands are readable (R102). -/
theorem atomic_fault {op : AtomOp} (ha : x.vOk 2 x.i.a)
    (hd : x.i.mod.getLsbD 4 = true → x.vOk (regsFor w) x.i.dst)
    (hb : insImmValue x.i = none → x.vOk (regsFor w) x.i.b)
    (hc : op = .cas → insNoC x.i = false → x.vOk (regsFor w) x.i.c)
    (hbad : x.checkLanes (fun l => (laneAt (x.g.vreg (x.i.a.toNat + 1)) l ++ laneAt (x.g.vreg x.i.a.toNat) l : DWord).toNat)
      w true = accessFault) :
    atomic op w x = accessFault := by
  unfold atomic
  extract_lets via tail
  have htail : ∀ ret, tail ret = accessFault := fun ret => by
    refine (bind_of_ok (v64_ok ha) _).trans ?_
    refine bind_eq_error (atomB_isOk hb) fun b => ?_
    extract_lets f last
    have hlast : ∀ c, last c = accessFault := fun c => by
      simp only [last, f, hbad]
      rfl
    split
    case isTrue hop => exact bind_eq_error (atomC_isOk (hc hop)) hlast
    case isFalse => exact hlast _
  split
  case isTrue hret => exact bind_eq_error ⟨_, vTuple_ok (hd hret)⟩ fun n => htail (some n)
  case isFalse => exact htail none

/-- A PREFETCH with a refused lane ends its task (R87, R88). -/
theorem execPrefetch_fault (h : CanIssue s r i x) (ha : x.vOk 2 i.a) (hw : field i.mod 3 3 ≤ 4) (hl : l ∈ lanesIn x.sel)
    (hbad : addrOk (insWidth i) (x.globalAt l) = false) :
    execPrefetch r i s = .next (s.endTask x.b.task .accessFault x.g.pc) := by
  obtain rfl := h.word
  have hall : (lanesIn x.sel).all (fun l => addrOk (insWidth x.i) (x.globalAt l)) = false :=
    List.all_eq_false.mpr ⟨l, hl, by simp [hbad]⟩
  refine issue_fault h ?_
  simp only [width_ok hw, globalAddr_ok ha, ok_bind, require_false hall]
  rfl

/-- An LD with a refused lane ends its task (R87, R88). -/
theorem execLd_fault (h : CanIssue s r i x) (ha : x.vOk 2 i.a) (hw : field i.mod 3 3 ≤ 4) (hl : l ∈ lanesIn x.sel)
    (hbad : addrOk (insWidth i) (x.globalAt l) = false) (hd : x.vOk (regsFor (insWidth i)) i.dst) :
    execLd r i s = .next (s.endTask x.b.task .accessFault x.g.pc) := by
  obtain rfl := h.word
  refine issue_fault h ?_
  simp only [width_ok hw, vTuple_ok hd, globalAddr_ok ha, ok_bind, checkLanes_fault hl (.inl hbad)]
  rfl

/-- An ST with a refused lane ends its task (R87, R88). -/
theorem execSt_fault (h : CanIssue s r i x) (ha : x.vOk 2 i.a) (hw : field i.mod 3 3 ≤ 4) (hl : l ∈ lanesIn x.sel)
    (hbad : addrOk (insWidth i) (x.globalAt l) = false) (hd : x.vOk (regsFor (insWidth i)) i.dst)
    (hcvt : cvtOk (field i.mod 7 2) (field i.mod 9 4) (insWidth i) = true) :
    execSt r i s = .next (s.endTask x.b.task .accessFault x.g.pc) := by
  obtain rfl := h.word
  refine issue_fault h ?_
  simp only [width_ok hw, require_true hcvt, vTuple_ok hd, globalAddr_ok ha, ok_bind, checkLanes_fault hl (.inl hbad)]
  rfl

end

/-- Settles O56: the lane that the statement names fails the instruction's check of its lanes, which stands before any access. -/
theorem misalignedAccessesFault : Obligations.MisalignedAccessesFault := by
  intro s r i x h ha
  refine ⟨fun hw ⟨l, hl, hbad⟩ => ?_, fun p hp => ?_⟩
  · have hva := addrOk_eq_false.mpr hbad
    exact ⟨execPrefetch_fault h ha hw hl hva, fun hd =>
      ⟨execLd_fault h ha hw hl hva hd, execSt_fault h ha hw hl hva hd⟩⟩
  · intro addr hd hb hc ⟨l, hl, hbad⟩
    obtain rfl := h.word
    obtain rfl := h.state
    obtain ⟨op, hcas, hexec⟩ : ∃ op : AtomOp, (op = .cas → p.2.2 = true)
        ∧ exec (p.1 r x.i) x.s = issue r x.i (atomic op p.2.1) x.s := by
      fin_cases hp <;> exact ⟨_, by decide, rfl⟩
    rw [hexec]
    refine issue_fault h (atomic_fault ha hd hb (fun hop => hc (hcas hop)) (checkLanes_fault hl ?_))
    exact hbad.imp (fun hmis => addrOk_eq_false.mpr (.inr hmis)) (fun hro => ⟨rfl, hro⟩)

end Sys2Proof.Machine
end

section
/-! The merge of a repeated divergence (R118). -/

namespace Sys2Proof.Machine

section
variable {s t : State} {r : GroupRef} {i : Ins} {x : Ctx} {tgt : DWord} {e : StackEntry} {l : List StackEntry}

/-- The group after a branch whose divergence merges into the DIV entry `e` on top of `l` (R118). -/
def Ctx.merged (x : Ctx) (e : StackEntry) (l : List StackEntry) : Group :=
  { x.g with stack := { e with mask := e.mask ||| x.sel } :: l, active := x.g.active &&& ~~~x.sel }

/-- A branch taken by some active lanes, to the address of the DIV entry on top, pushes nothing, so that no bound on the stack is asked
for (R118, R120). -/
theorem branch_merges (hn : x.sel ≠ 0) (hp : x.sel ≠ x.g.active) (hs : x.g.stack = e :: l) (hk : e.kind = .div)
    (hd : e.addr = tgt) : x.branch tgt = .ok (x.after (x.merged e l)) := by
  have htop : e.kind = .div ∧ e.addr = tgt := ⟨hk, hd⟩
  unfold Ctx.branch
  simp only [if_neg hn, if_neg hp, hs, if_pos htop, pure_ok, ok_bind]
  exact done_eq _

/-- BRA goes on as the branch to its offset from the next instruction does (R84). -/
theorem execBra_next (h : CanIssue s r i x) (hb : x.branch (x.nextPc + insOff24 i) = .ok t) : execBra r i s = .next t := by
  obtain rfl := h.word
  exact issue_next h hb

/-- BRX with a selected lane goes on as the branch to the address in the uniform pair of SRC_A does (log 13). -/
theorem execBrx_next (h : CanIssue s r i x) (hn : x.sel ≠ 0) (hu : uOk 2 i.a) (hb : x.branch (x.U64 i.a) = .ok t) :
    execBrx r i s = .next t := by
  obtain rfl := h.word
  refine issue_next h ?_
  simp only [if_neg hn, u64_ok hu, ok_bind, hb]

end

/-- Settles O54: both branches come to `Ctx.branch`, whose merge pushes nothing. -/
theorem repeatedDivergenceMerges : Obligations.RepeatedDivergenceMerges := by
  intro s r i x e l h hn hp hs hk
  exact ⟨fun hd => execBra_next h (branch_merges hn hp hs hk hd),
    fun hu hd => execBrx_next h hn hu (branch_merges hn hp hs hk hd)⟩

end Sys2Proof.Machine
end

section
/-! The block, and the vector and uniform instructions (chapter 3). -/

namespace Sys2Proof.Machine

/-- Settles O1: both halves are the two branches of `step`. -/
theorem stepRunsFrontCommand : Obligations.StepRunsFrontCommand :=
  ⟨fun _ _ _ => rfl, fun s h => by unfold step; rw [h]⟩

section
variable {s : State} {r : GroupRef} {i : Ins} {x : Ctx}

/-- Division by a power of two is the shift by which BFE.U reads its field (Table 3-15). -/
theorem bfeU_eq (a b : Word) :
    bfeU a b = BitVec.ofNat 32 (a.toNat / 2 ^ field b 0 5 % 2 ^ min (field b 8 6) 32) := by
  simp only [bfeU, bitFieldOf, Nat.shiftRight_eq_div_pow]

theorem sel_ok (ha : x.aOk 1) (hb : x.bOk 1) (hd : x.vOk 1 x.i.dst) (p : Nat → Bool) :
    (do let a ← x.srcA
        let b ← x.srcB
        x.write32 (fun l => if p l then a l else b l))
      = .ok (x.after (x.with32 (fun l => if p l then x.A l else x.B l))) := by
  simp only [srcA_ok ha, srcB_ok hb, ok_bind]
  exact write32_ok hd _

/-- Settles O2: one equation for each shape of operation, cited for every instruction of that shape. -/
theorem vectorArithmetic : Obligations.VectorArithmetic := by
  refine ⟨?_, ?_, ?_⟩
  · intro s r i x h ha hd
    obtain rfl := h.word
    have one (f : Word → Word) : issue r x.i (valu1 f) s = .next (x.after (x.with32 fun l => f (x.A l))) :=
      issue_next h (valu1_ok ha hd f)
    simp only [List.forall_mem_cons, List.not_mem_nil, IsEmpty.forall_iff, implies_true, and_true]
    exact ⟨one _, one _, one _, one clz32, one _, one _, one _, one _, one _, one _, one _, one _, one _, one _, one _, one _,
      one _, one _, one _⟩
  · intro s r i x h ha hb hd
    obtain rfl := h.word
    have two (f : Word → Word → Word) :
        issue r x.i (valu2 f) s = .next (x.after (x.with32 fun l => f (x.A l) (x.B l))) :=
      issue_next h (valu2_ok ha hb hd f)
    have move (f : Nat → Word → Int) :
        issue r x.i (shuffle f) s = .next (x.after (x.with32 fun l => x.A (shflLane x.sel l (f l (x.B l))))) :=
      issue_next h (shuffle_ok ha hb hd f)
    simp only [List.forall_mem_cons, List.not_mem_nil, IsEmpty.forall_iff, implies_true, and_true, ← bfeU_eq]
    exact ⟨two _, two _, two _, two _, two _, two _, two _, two _, two _, two _, two _, two _, two _, two _, two _, two bfeU, two _,
      two _, two _, two _, two _, two _, two _, two _, two _, two _, two _, move _, move _, move _, move _,
      issue_next h (sel_ok ha hb hd _)⟩
  · intro s r i x h
    obtain rfl := h.word
    refine ⟨fun ha hb hc hd => ?_, fun ha hd => ?_, fun ha hb hd => ?_, fun ha hb hc hd => ?_⟩
    · have three (f : Word → Word → Word → Word) :
          issue r x.i (valu3 f) s = .next (x.after (x.with32 fun l => f (x.A l) (x.B l) (x.C l))) :=
        issue_next h (valu3_ok ha hb hc hd f)
      simp only [List.forall_mem_cons, List.not_mem_nil, IsEmpty.forall_iff, implies_true, and_true]
      exact ⟨three _, three _, three _, three _⟩
    · refine issue_next h ?_
      simp only [pairA_ok ha, ok_bind]
      exact write64_ok hd _
    · exact ⟨issue_next h (valuPair_ok ha hb hd _), issue_next h (valuPair_ok ha hb hd _)⟩
    · exact ⟨issue_next h (valuWide_ok ha hb hc hd _), issue_next h (valuWide_ok ha hb hc hd _)⟩

end

end Sys2Proof.Machine
end

section
/-! Predicates, conversions and uniform instructions (Tables 3-15 to 3-17). -/

namespace Sys2Proof.Machine

section
variable {s : State} {r : GroupRef} {i : Ins} {x : Ctx}

/-- The codes that Table 3-16 gives for integers. -/
theorem intCompare_isSome {w cc : Nat} (h : cc ≤ 9) (a b : BitVec w) : (intCompare cc a b).isSome = true := by
  interval_cases cc <;> rfl

/-- The codes that Table 3-16 gives for FP32. -/
theorem floatCompare_isSome {cc : Nat} (h : cc ≤ 7) (a b : FVal) : (floatCompare cc a b).isSome = true := by
  interval_cases cc <;> rfl

/-- The codes that Table 3-16 gives for predicates. -/
theorem predLogic_isSome {cc : Nat} (h : cc ≤ 5) (a b : Bool) : (predLogic cc a b).isSome = true := by
  interval_cases cc <;> rfl

theorem getD_false_eq_decide (o : Option Bool) : o.getD false = decide (o = some true) := by
  rcases o with _ | _ | _ <;> rfl

theorem setPred_decide {c : Nat → Option Bool} (hc : (c 0).isSome = true) (h : x.i.dst.toNat ≤ 7) :
    setPred c x = .ok (x.after (x.withP (fun l => decide (c l = some true)))) := by
  simp only [setPred_ok hc h, getD_false_eq_decide]

/-- The second predicate of PLOP, named by the field or by the immediate in its place (log 97). -/
theorem predB_ok (h : ((insImmValue x.i).map BitVec.toNat).getD x.i.b.toNat ≤ 7) :
    x.predB = .ok (((insImmValue x.i).map BitVec.toNat).getD x.i.b.toNat) := by
  unfold Ctx.predB
  cases hv : insImmValue x.i with
  | none =>
    rw [hv] at h
    exact pField_ok h
  | some w =>
    rw [hv] at h
    simp only [require_true (decide_eq_true (show w.toNat ≤ 7 from h)), ok_bind]
    rfl

end

/-- Settles O3: each instruction's sources are read, its code is one of Table 3-16, and the shared write gives its result. -/
theorem vectorPredicatesAndConversions : Obligations.VectorPredicatesAndConversions := by
  intro s r i x h
  obtain rfl := h.word
  refine ⟨fun hd => ⟨fun hc ha hb => ?isetp, fun hc ha hb => ?isetp64, fun hc ha hb => ?fsetp, fun hc ha hq => ?plop⟩,
    fun hd ha => ?v2p, fun hd => ⟨issue_next h (writeP_ok hd _), issue_next h (writeP_ok hd _)⟩,
    fun hd => ⟨issue_next h (write32_ok hd _), issue_next h (write32_ok hd _), ?s2v⟩,
    fun ha hd sf df hs hf => ?cvt, fun ha hb hd f hf => ?cvt2⟩
  case isetp =>
    refine issue_next h ?_
    simp only [srcA_ok ha, srcB_ok hb, ok_bind]
    exact setPred_decide (intCompare_isSome hc _ _) hd
  case isetp64 =>
    refine issue_next h ?_
    simp only [pairA_ok ha, pairB_ok hb, ok_bind]
    exact setPred_decide (intCompare_isSome hc _ _) hd
  case fsetp =>
    refine issue_next h ?_
    simp only [srcA_ok ha, srcB_ok hb, ok_bind]
    exact setPred_decide (floatCompare_isSome hc _ _) hd
  case plop =>
    refine issue_next h ?_
    simp only [pField_ok ha, predB_ok hq, ok_bind]
    exact setPred_decide (predLogic_isSome hc _ _) hd
  case v2p =>
    refine issue_next h ?_
    simp only [srcA_ok ha, ok_bind]
    exact writeP_ok hd _
  case s2v =>
    refine issue_next h ?_
    obtain rfl := h.place
    simp only [vTuple_ok hd, ok_bind]
    rfl
  case cvt =>
    refine issue_next h ?_
    simp only [srcA_ok ha, ok_bind, hs, hf]
    exact write32_ok hd _
  case cvt2 =>
    refine issue_next h ?_
    simp only [List.mem_cons, Prod.mk.injEq, List.not_mem_nil, or_false] at hf
    rcases hf with ⟨hk, rfl⟩ | ⟨hk, rfl⟩
    all_goals
      simp only [srcA_ok ha, srcB_ok hb, ok_bind, hk]
      exact write32_ok hd _

section
variable {x : Ctx}

theorem intCompare_map {w cc : Nat} (h : cc ≤ 9) (a b : BitVec w) :
    ∃ c, intCompare cc a b = some c := Option.isSome_iff_exists.mp (intCompare_isSome h a b)

/-- The register count of LDP is two to the power of its width code less two (Table 3-17). -/
theorem ldp_width {k w : Nat} (hk : k ≤ 2) (hw : w = k + 2) : (decide (2 ≤ w) && decide (w ≤ 4)) = true ∧ w - 2 = k := by
  subst hw
  exact ⟨by simp; omega, by omega⟩

end

/-- Settles O4: with a lane selected the body runs for the group, with none the group only goes on. -/
theorem uniformInstructions : Obligations.UniformInstructions := by
  refine ⟨?_, ?_⟩
  · intro s r i x h hn hd ha hb
    obtain rfl := h.word
    have two (f : Word → Word → Word) :
        issue r x.i (salu2 f) s = .next (x.after (x.g.putU x.i.dst.toNat (f (x.g.ureg x.i.a.toNat) x.UB))) :=
      issue_next h (salu2_ok hn hd ha hb f)
    simp only [List.forall_mem_cons, List.not_mem_nil, IsEmpty.forall_iff, implies_true, and_true]
    refine ⟨two _, two _, two _, two _, two _, two _, two _, two _, two _, two _, two _, two _, two _, ?umov, ?usel⟩
    case umov =>
      refine issue_next h ?_
      simp only [forGroup_ok hn, u32_ok ha, ok_bind]
      exact writeU_ok hd _
    case usel =>
      refine issue_next h ?_
      simp only [forGroup_ok hn, u32_ok ha, uB_ok hb, ok_bind]
      exact writeU_ok hd _
  · intro s r i x h
    obtain rfl := h.word
    refine ⟨fun hn => ⟨fun hd ha => ?umov64, fun hd ha hb => ?uadd64, fun hd ha hb hc => ?usetp, fun hd => ?s2u, fun hd ha => ?r2u,
      fun k hk hw ha hd off ho hm => ?ldp⟩, fun hn => ?none⟩
    case umov64 =>
      refine issue_next h ?_
      simp only [forGroup_ok hn, u64_ok ha, ok_bind]
      exact writeU64_ok hd _
    case uadd64 =>
      refine issue_next h ?_
      simp only [forGroup_ok hn, u64_ok ha, uB64_ok hb, ok_bind]
      exact writeU64_ok hd _
    case usetp =>
      refine issue_next h ?_
      obtain ⟨c, hc⟩ := intCompare_map hc (x.g.ureg x.i.a.toNat) x.UB
      simp only [forGroup_ok hn, u32_ok ha, uB_ok hb, pField_ok hd, ok_bind, hc, Option.some.injEq]
      exact done_eq _
    case s2u =>
      refine issue_next h ?_
      obtain rfl := h.place
      simp only [forGroup_ok hn, uTuple_ok hd, ok_bind]
      rfl
    case r2u =>
      refine issue_next h ?_
      simp only [forGroup_ok hn, v32_ok ha, ok_bind]
      exact writeU_ok hd _
    case ldp =>
      refine issue_next h ?_
      subst ho
      obtain ⟨hr, hk'⟩ := ldp_width hk hw
      simp only [forGroup_ok hn, u32_ok ha, ok_bind, hk', require_true hr, uTuple_ok hd, require_true (decide_eq_true hm)]
      exact done_eq _
    case none =>
      have idle (body : Ctx → Except Stop State) :
          issue r x.i (fun x => x.forGroup (body x)) s = .next (x.after x.g) := issue_next h (forGroup_none hn)
      simp only [List.forall_mem_cons, List.not_mem_nil, IsEmpty.forall_iff, implies_true, and_true]
      exact ⟨idle _, idle _, idle _, idle _, idle _, idle _, idle _, idle _, idle _, idle _, idle _, idle _, idle _, idle _, idle _,
        idle _, idle _, idle _, idle _, idle _, idle _⟩

end Sys2Proof.Machine
end

section
/-! Control instructions and their faults (chapter 4, R83, R86), and how every instruction of a group issues. -/

namespace Sys2Proof.Machine

section
variable {s : State} {r : GroupRef} {i : Ins} {x : Ctx}

/-- Every instruction is a body that issues for its group (R82, R86, R112). -/
theorem instruction_issues : ∀ c ∈ instructionCommands ++ [.pour], ∀ r i s, ∃ body, exec (c r i) s = issue r i body s := by
  repeat refine List.forall_mem_cons.2 ⟨fun _ _ _ => ⟨_, rfl⟩, ?_⟩
  refine List.forall_mem_cons.2 ⟨fun r i s => ⟨_, show execNop r i s = _ from rfl⟩, ?_⟩
  repeat refine List.forall_mem_cons.2 ⟨fun _ _ _ => ⟨_, rfl⟩, ?_⟩
  exact List.forall_mem_nil _

/-- An instruction whose words cannot be fetched ends its task (R86). -/
theorem issue_unfetched {body : Ctx → Except Stop State} (h : s.ctx? r i = some x) (hf : x.fetched = false) :
    issue r i body s = .next (s.endTask x.b.task .accessFault x.g.pc) := by
  simp [issue, h, hf]

theorem ctx?_state (h : s.ctx? r i = some x) : x.s = s ∧ x.r = r ∧ x.i = i := by
  unfold State.ctx? at h
  split at h
  · cases h
  · split at h
    · split at h
      · cases h
        exact ⟨rfl, rfl, rfl⟩
      · cases h
    · cases h

/-- The three ways in which the words of an instruction cannot be fetched (R86). -/
theorem fetched_eq_false (h : addrOk 8 x.g.pc.toNat = false ∨ x.s.mapped x.t.part x.g.pc.toNat = false
    ∨ (x.i.long.isSome = true ∧ x.s.mapped x.t.part (x.g.pc.toNat + 8) = false)) : x.fetched = false := by
  unfold Ctx.fetched
  rcases h with h | h | ⟨hl, hm⟩
  · simp [h]
  · simp [h]
  · cases hi : x.i.long with
    | none => simp [hi] at hl
    | some w => simp [hm]

/-- The group after a control transfer from the entry `e` on top of the stack `e :: l` (R116, R117). -/
def Ctx.popped (x : Ctx) (e : StackEntry) (l : List StackEntry) : Group :=
  { x.g with stack := l, active := e.mask &&& x.g.live, pc := if e.kind = .join then e.addr + 8 else e.addr }

theorem execRet_next {e : StackEntry} {l : List StackEntry} (h : CanIssue s r i x) (hs : x.g.stack = e :: l)
    (hm : e.mask &&& x.g.live ≠ 0) (hk : e.kind ≠ .join) : execRet r i s = .next (s.putGroup r (x.popped e l)) := by
  refine issue_next h ?_
  obtain rfl := h.state
  obtain rfl := h.place
  have hgo : x.goto (x.g.unwind (e :: l)) = .ok (x.s.putGroup x.r (x.popped e l)) := by rw [unwind_cons hm]; rfl
  simp only [hs, Ctx.resumeDiv, hgo]
  cases hkind : e.kind with
  | join => exact absurd hkind hk
  | div => rfl
  | call => rfl

theorem execJoin_next {e : StackEntry} {l : List StackEntry} (h : CanIssue s r i x) (hs : x.g.stack = e :: l)
    (hm : e.mask &&& x.g.live ≠ 0) (hk : e.kind = .div ∨ e.kind = .join ∧ e.addr = x.g.pc) :
    execJoin r i s = .next (s.putGroup r (x.popped e l)) := by
  refine issue_next h ?_
  obtain rfl := h.state
  obtain rfl := h.place
  have hgo : x.goto (x.g.unwind (e :: l)) = .ok (x.s.putGroup x.r (x.popped e l)) := by rw [unwind_cons hm]; rfl
  simp only [hs, Ctx.resumeDiv, hgo]
  rcases hk with hk | ⟨hk, ha⟩
  · simp only [hk]
  · simp only [hk, ha, if_true]

end

/-- Settles O5: each instruction by what its body answers; RET and JOIN by the entry on top of the stack. -/
theorem controlFlow : Obligations.ControlFlow := by
  intro s r i x h
  obtain rfl := h.word
  obtain rfl := h.state
  obtain rfl := h.place
  refine ⟨issue_next (body := fun x => x.done x.g) h (done_eq _), fun hn => ?idle, fun hn => ?branch, fun hn hl => ?call, fun hl => ?push, fun e l hs hm =>
    ⟨fun hk => ?ret, fun hk => ?joinDiv, fun hk ha => ?join⟩, fun hn hp => ?some, fun hn hp => ?all, fun hn hd => ⟨fun ht => ?wait,
      fun ht => ?held⟩⟩
  case idle =>
    simp only [List.forall_mem_cons, List.not_mem_nil, IsEmpty.forall_iff, implies_true, and_true]
    exact ⟨issue_next h (if_pos hn), issue_next h (if_pos hn), issue_next h (forGroup_none hn), issue_next h (forGroup_none hn),
      issue_next h (forGroup_none hn)⟩
  case branch =>
    simp only [List.forall_mem_cons, List.not_mem_nil, IsEmpty.forall_iff, implies_true, and_true]
    exact ⟨fun _ => ⟨fun hp => execBra_next h (branch_all _ hn hp), fun hp hl => execBra_next h (branch_some _ hn hp hl)⟩,
      fun hu => ⟨fun hp => execBrx_next h hn hu (branch_all _ hn hp), fun hp hl => execBrx_next h hn hu (branch_some _ hn hp hl)⟩⟩
  case call =>
    refine issue_next h ?_
    simp only [forGroup_ok hn, push_ok _ hl, ok_bind]
    rfl
  case push =>
    refine issue_next h ?_
    simp only [push_ok _ hl, ok_bind]
    exact done_eq _
  case ret => exact (execRet_next h hs hm hk).trans (by rw [Ctx.popped, if_neg hk])
  case joinDiv => exact (execJoin_next h hs hm (.inl hk)).trans (by rw [Ctx.popped, if_neg (by simp [hk])])
  case join => exact (execJoin_next h hs hm (.inr ⟨hk, ha⟩)).trans (by rw [Ctx.popped, if_pos hk])
  case some =>
    refine issue_next h ?_
    simp only [forGroup_ok hn, if_neg hp]
  case all =>
    refine issue_next h ?_
    simp only [forGroup_ok hn, if_pos hp]
  case wait =>
    refine issue_next h ?_
    simp only [forGroup_ok hn, pField_ok hd, await_true (decide_eq_true ht), ok_bind]
  case held =>
    refine issue_wait h ?_
    simp only [forGroup_ok hn, pField_ok hd, ok_bind, await, ht]
    rfl

section
variable {s : State} {r : GroupRef} {i : Ins} {x : Ctx}

/-- A branch that not every active lane takes, of which the stack has no room for the new entry (R120). -/
theorem branch_full {t : DWord} (hs : x.g.stack.length = 32) (hn : x.sel ≠ 0) (hp : x.sel ≠ x.g.active)
    (hl : (x.branchStack t).length = 33) : x.branch t = .error (.fault .accessFault) := by
  unfold Ctx.branch
  simp only [if_neg hn, if_neg hp]
  unfold Ctx.branchStack at hl
  cases e : x.g.stack with
  | nil => simp [e] at hs
  | cons a l =>
    simp only [e] at hl ⊢
    split at hl
    case isTrue hc =>
      rw [e] at hs
      simp only [List.length_cons] at hl hs
      omega
    case isFalse hc =>
      simp only [if_neg hc, push_full _ hs]
      rfl

theorem execRet_fault (h : CanIssue s r i x) (hs : x.g.stack = [] ∨ ∃ e l, x.g.stack = e :: l ∧ e.kind = .join) :
    execRet r i s = .next (s.endTask x.b.task .accessFault x.g.pc) := by
  refine issue_fault h ?_
  rcases hs with hs | ⟨e, l, hs, hk⟩
  · simp only [hs]
    rfl
  · simp only [hs, hk]
    rfl

theorem execJoin_fault (h : CanIssue s r i x) (hs : x.g.stack = [] ∨ ∃ e l, x.g.stack = e :: l
      ∧ (e.kind = .call ∨ e.kind = .join ∧ e.addr ≠ x.g.pc)) :
    execJoin r i s = .next (s.endTask x.b.task .accessFault x.g.pc) := by
  refine issue_fault h ?_
  rcases hs with hs | ⟨e, l, hs, hk | ⟨hk, ha⟩⟩
  · simp only [hs]
    rfl
  · simp only [hs, hk]
    rfl
  · simp only [hs, hk, if_neg ha]
    rfl

end

/-! ## Instruction words (Table 3-6) -/

section
variable {c : BitVec 4} {op : BitVec 7} {long gneg : Bool} {guard : BitVec 3} {dst a b sc : BitVec 8} {mod : BitVec 16}

/-- The number that the fields of a first word spell (Table 3-6). -/
def wordOfFields (c : BitVec 4) (op : BitVec 7) (long gneg : Bool) (guard : BitVec 3) (dst a b sc : BitVec 8) (mod : BitVec 16) : Nat :=
  c.toNat + 2 ^ 4 * op.toNat + 2 ^ 11 * long.toNat + 2 ^ 12 * guard.toNat + 2 ^ 15 * gneg.toNat
    + 2 ^ 16 * dst.toNat + 2 ^ 24 * a.toNat + 2 ^ 32 * b.toNat + 2 ^ 40 * sc.toNat + 2 ^ 48 * mod.toNat

/-- A bit field of a word of 64 bits is a quotient modulo a power of two. -/
theorem toNat_extract_ofNat {n k len : Nat} (h : n < 2 ^ 64) :
    ((BitVec.ofNat 64 n).extractLsb' k len).toNat = n / 2 ^ k % 2 ^ len := by
  simp only [BitVec.extractLsb'_toNat, BitVec.toNat_ofNat, Nat.shiftRight_eq_div_pow, Nat.mod_eq_of_lt h]

/-- A bit of a word of 64 bits is a remainder of two. -/
theorem getLsbD_ofNat_eq {n k : Nat} {v : Bool} (hk : k < 64) (h : n / 2 ^ k % 2 = v.toNat) : (BitVec.ofNat 64 n).getLsbD k = v := by
  simp only [BitVec.getLsbD_ofNat, Nat.testBit_eq_decide_div_mod_eq, h, hk, decide_true, Bool.true_and]
  cases v <;> rfl

/-- The fields of a first word do not overlap (Table 3-6). -/
theorem fields_of_wordOfFields :
    let n := wordOfFields c op long gneg guard dst a b sc mod
    n < 2 ^ 64 ∧ n / 2 ^ 0 % 2 ^ 4 = c.toNat ∧ n / 2 ^ 4 % 2 ^ 7 = op.toNat ∧ n / 2 ^ 11 % 2 = long.toNat
      ∧ n / 2 ^ 12 % 2 ^ 3 = guard.toNat ∧ n / 2 ^ 15 % 2 = gneg.toNat ∧ n / 2 ^ 16 % 2 ^ 8 = dst.toNat ∧ n / 2 ^ 24 % 2 ^ 8 = a.toNat
      ∧ n / 2 ^ 32 % 2 ^ 8 = b.toNat ∧ n / 2 ^ 40 % 2 ^ 8 = sc.toNat ∧ n / 2 ^ 48 % 2 ^ 16 = mod.toNat := by
  have h1 := c.isLt
  have h2 := op.isLt
  have h3 := guard.isLt
  have h4 := dst.isLt
  have h5 := a.isLt
  have h6 := b.isLt
  have h7 := sc.isLt
  have h8 := mod.isLt
  have h9 := Bool.toNat_le long
  have h10 := Bool.toNat_le gneg
  simp only [wordOfFields]
  norm_num at *
  refine ⟨?_, ?_, ?_, ?_, ?_, ?_, ?_, ?_, ?_, ?_, ?_⟩ <;> omega

/-- No reserved class has an opcode (Table 3-7). -/
theorem classOps_reserved {k : Nat} (h : 11 ≤ k) : classOps k = [] := by
  unfold classOps
  split
  case h_12 => rfl
  all_goals omega

end

/-- Settles O6: the faults of the stack, the fetch that fails for every instruction alike, and the fields of a word. -/
theorem controlAndInstructionFaults : Obligations.ControlAndInstructionFaults := by
  refine ⟨?stack, ?reserved, ?fetch, ?fetchFault, ?word⟩
  case stack =>
    intro s r i x h
    obtain rfl := h.word
    refine ⟨fun hl => ?_, fun hl hn => ?_, fun hl hn hp hb => ?_, fun hl hn hp hu hb => ?_, fun hs => ?_, fun e l hs => ?_⟩
    · refine issue_fault h ?_
      simp only [push_full _ hl]
      rfl
    · refine issue_fault h ?_
      simp only [forGroup_ok hn, push_full _ hl]
      rfl
    · exact issue_fault h (branch_full hl hn hp hb)
    · refine issue_fault h ?_
      simp only [if_neg hn, u64_ok hu, ok_bind]
      exact branch_full hl hn hp hb
    · exact ⟨execRet_fault h (.inl hs), execJoin_fault h (.inl hs)⟩
    · exact ⟨fun hk => execRet_fault h (.inr ⟨e, l, hs, hk⟩), fun hk => execJoin_fault h (.inr ⟨e, l, hs, .inl hk⟩),
        fun hk ha => execJoin_fault h (.inr ⟨e, l, hs, .inr ⟨hk, ha⟩⟩)⟩
  case reserved =>
    intro s r x h
    exact issue_fault (body := fun _ => accessFault) h rfl
  case fetch =>
    intro s r i x hx hbad c hc
    obtain ⟨rfl, rfl, rfl⟩ := ctx?_state hx
    obtain ⟨body, hbody⟩ := instruction_issues c hc x.r x.i x.s
    rw [hbody]
    exact issue_unfetched hx (fetched_eq_false hbad)
  case fetchFault =>
    intro s r x hx hbad
    obtain ⟨rfl, rfl, -⟩ := ctx?_state hx
    exact issue_unfetched hx (fetched_eq_false (hbad.imp_right .inl))
  case word =>
    intro c op long gneg guard dst a b sc mod second w i
    obtain ⟨hlt, hc, hop, hlong, hguard, hgneg, hdst, ha, hb, hsc, hmod⟩ := fields_of_wordOfFields
      (c := c) (op := op) (long := long) (gneg := gneg) (guard := guard) (dst := dst) (a := a) (b := b) (sc := sc) (mod := mod)
    have hw : w = BitVec.ofNat 64 (wordOfFields c op long gneg guard dst a b sc mod) := rfl
    have hins : Ins.ofWord w second = i := by
      simp only [Ins.ofWord, hw, getLsbD_ofNat_eq (by omega) hlong, getLsbD_ofNat_eq (by omega) hgneg]
      congr 1 <;> (apply BitVec.eq_of_toNat_eq; rw [toNat_extract_ofNat hlt]; assumption)
    have hclass : insClass w = c.toNat := (toNat_extract_ofNat hlt).trans hc
    have hopc : insOp w = op.toNat := (toNat_extract_ofNat hlt).trans hop
    refine ⟨hins, hclass, hopc, fun g => ⟨?_, fun hres => ?_⟩⟩
    · rw [Instr.ofWords, hclass, hopc, hins]
    · rw [Instr.ofWords, hclass, classOps_reserved hres]
      rfl

end Sys2Proof.Machine
end

section
/-! Local memory, global memory and atomics as they issue (chapters 3 and 7). -/

namespace Sys2Proof.Machine

/-! ## Local memory -/

/-- One lane of a local atomic: the block and the group after it (R110). -/
def Ctx.atomStep (x : Ctx) (useC : Bool) (f : Word → Word → Word → Word) (acc : Block × Group) (l : Nat) : Block × Group :=
  let old := BitVec.ofNat 32 (ofBytes (acc.1.readL (x.localAt l) 4))
  (acc.1.writeL (x.localAt l) (bytesOf 4 (f old (laneAt (x.g.vreg x.i.b.toNat) l)
      (if useC then laneAt (x.g.vreg x.i.c.toNat) l else 0)).toNat),
    if x.i.mod.getLsbD 7 then acc.2.putLane x.i.dst.toNat 1 l old.toNat else acc.2)

/-- What a local atomic answers once its operands are allowed and its gates are open (R110, R240). -/
theorem localAtomic_ok {x : Ctx} {useC : Bool} (f : Word → Word → Word → Word) (ha : x.vOk 1 x.i.a) (hl : x.localOk 4)
    (hw : x.writesFree) (himm : x.i.long = none → insImm x.i = false) (hb : x.vOk 1 x.i.b) (hc : useC = true → x.vOk 1 x.i.c)
    (hd : x.i.mod.getLsbD 7 = true → x.vOk 1 x.i.dst) :
    localAtomic useC f x = x.doneBlock ((lanesIn x.sel).foldl (x.atomStep useC f) (x.b, x.g)).1
      ((lanesIn x.sel).foldl (x.atomStep useC f) (x.b, x.g)).2 (x.laneUnits x.localAt) := by
  have hreq : (!(insImm x.i && x.i.long.isNone)) = true := by
    cases hlong : x.i.long with
    | none => simp [himm hlong]
    | some w => simp
  unfold localAtomic
  simp only [require_true hreq, v32_ok hb, localAddr_ok ha hl, gateWrites_ok hw, ok_bind]
  have hstep : x.atomStep useC f = fun acc l =>
      let old := BitVec.ofNat 32 (ofBytes (acc.1.readL (x.localAt l) 4))
      (acc.1.writeL (x.localAt l) (bytesOf 4 (f old (laneAt (x.g.vreg x.i.b.toNat) l)
          (if useC then laneAt (x.g.vreg x.i.c.toNat) l else 0)).toNat),
        if x.i.mod.getLsbD 7 then acc.2.putLane x.i.dst.toNat 1 l old.toNat else acc.2) := rfl
  rw [hstep]
  cases useC <;> cases h7 : x.i.mod.getLsbD 7
  case false.false => simp only [Bool.false_eq_true, if_false, pure_ok, ok_bind]
  case false.true => simp only [Bool.false_eq_true, if_false, if_true, pure_ok, ok_bind, vTuple_ok (hd h7)]
  case true.false => simp only [Bool.false_eq_true, if_false, if_true, pure_ok, ok_bind, v32_ok (hc rfl)]
  case true.true => simp only [if_true, ok_bind, v32_ok (hc rfl), vTuple_ok (hd h7)]

/-- Settles O7: the operands are read and the gates are open, so that each body answers its lanes' fold. -/
theorem localMemory : Obligations.LocalMemory := by
  intro s r i x h ha
  obtain rfl := h.word
  obtain rfl := h.state
  obtain rfl := h.place
  refine ⟨fun hw hd hl => ⟨fun hg => ?lds, fun hf => ?sts⟩, fun hl hf himm hb hd => ?atoms⟩
  case lds =>
    refine issue_next h ?_
    simp only [width_ok hw, vTuple_ok hd, localAddr_ok ha hl, gateAll_ok hg, ok_bind]
    exact done_eq _
  case sts =>
    refine issue_next h ?_
    simp only [width_ok hw, vTuple_ok hd, localAddr_ok ha hl, gateWrites_ok hf, ok_bind]
    rfl
  case atoms =>
    have one (useC : Bool) (f : Word → Word → Word → Word) (hc : useC = true → x.vOk 1 x.i.c) : ∃ acc : Block × Group,
        acc = (lanesIn x.sel).foldl (x.atomStep useC f) (x.b, x.g)
        ∧ issue x.r x.i (localAtomic useC f) x.s = .next ((x.s.setBlock x.r.block
            (acc.1.putGroup x.r.group.val { acc.2 with pc := x.nextPc })).smudge x.r.block (x.laneUnits x.localAt)) :=
      ⟨_, rfl, issue_next h (localAtomic_ok f ha hl hf himm hb hc hd)⟩
    simp only [List.forall_mem_cons, List.not_mem_nil, IsEmpty.forall_iff, implies_true, and_true]
    exact ⟨fun hc => one false (fun o b _ => o + b) hc,
      fun hc => one false (fun o b _ => if (if x.i.mod.getLsbD 6 then b.slt o else b.ult o) then b else o) hc,
      fun hc => one false (fun o b _ => if (if x.i.mod.getLsbD 6 then o.slt b else o.ult b) then b else o) hc,
      fun hc => one false (fun _ b _ => b) hc, fun hc => one true (fun o b c => if o = b then c else o) fun _ => hc trivial⟩

/-! ## Global memory -/

section
variable {s : State} {r : GroupRef} {i : Ins} {x : Ctx}

/-- No line of the load has an older read of the group in flight (R214). -/
theorem loads_not_passed {f : Nat → Nat} (h : ∀ p ∈ lineGroups f (lanesIn x.sel), ∀ a, s.homeOf x.t.part (128 * p.1) = some a →
      ∀ q ∈ s.outstanding r, ¬(q.2.reads = true ∧ q.2.home = a)) :
    (lineGroups f (lanesIn x.sel)).all (fun p => match s.homeOf x.t.part (128 * p.1) with
      | some a => !((s.outstanding r).any (fun q => q.2.reads && q.2.home == a))
      | none => true) = true := by
  rw [List.all_eq_true]
  intro p hp
  cases ha : s.homeOf x.t.part (128 * p.1) with
  | none => rfl
  | some a =>
    simp only [Bool.not_eq_true', List.any_eq_false]
    intro q hq
    simpa using h p hp a ha q hq

end

/-- Settles O8: the addresses are allowed and the gate is open, so that each body answers its fold over the lines. -/
theorem globalLoadStorePrefetch : Obligations.GlobalLoadStorePrefetch := by
  intro s r i x h ha hw
  obtain rfl := h.word
  obtain rfl := h.state
  obtain rfl := h.place
  refine ⟨fun hd hl hg hp => ?ld, fun hcvt hd hl hg => ?st, fun hok hg => ?prefetch⟩
  case ld =>
    refine issue_next h ?_
    simp only [width_ok hw, vTuple_ok hd, globalAddr_ok ha, ok_bind, checkLanes_ok hl, gateAll_ok hg]
    exact bind_of_ok (await_true (loads_not_passed hp)) _
  case st =>
    refine issue_next h ?_
    simp only [width_ok hw, require_true hcvt, vTuple_ok hd, globalAddr_ok ha, ok_bind, checkLanes_ok hl, gateAll_ok hg]
    rfl
  case prefetch =>
    have hall : ((lanesIn x.sel).all (fun l => addrOk (insWidth x.i) (x.globalAt l))) = true := by
      rw [List.all_eq_true]
      intro l hl
      obtain ⟨h48, hmod⟩ := hok l hl
      exact (Bool.and_eq_true _ _).mpr ⟨decide_eq_true h48, decide_eq_true hmod⟩
    refine issue_next h ?_
    simp only [width_ok hw, globalAddr_ok ha, ok_bind, require_true hall, gateAll_ok hg]
    rfl

/-! ## Lines of an access -/

section
variable {x : Ctx} {s : State} {g : Group} {a : Home} {n : Nat} {lanes : List (Nat × Nat)}

/-- A load's line is asked of its home unless the core's L1 holds every sector that it needs (R213). -/
theorem loadLine_asks {dst w hint op : Nat} {signed cache : Bool} {ids : List Nat} (hh : s.homeOf x.t.part (128 * n) = some a)
    (hg : s.group? x.r = some g) (hmiss : cache = false ∨ ∀ e, (s.core x.b.core).l1.get? a.l1Key = some e →
      e.valid &&& laneSectors lanes w ≠ laneSectors lanes w) :
    x.loadLine dst w hint op signed cache (s, ids) (n, lanes)
      = ({ s with nextId := s.nextId + 1, reqs := s.reqs.set s.nextId ⟨.grp x.r.block x.r.group.val, x.t.part, 128 * n, a,
            .load dst w signed lanes op (if s.atomPending x.b.core a then 0 else if cache then 2 else 1), hint, .flight, x.g.pc,
            .free⟩ }.putGroup x.r { g with busy := ⟨dst, regsFor w, s.nextId⟩ :: g.busy }, s.nextId :: ids) := by
  unfold Ctx.loadLine
  simp only [hh, hg]
  cases cache with
  | false => rfl
  | true =>
    cases he : (s.core x.b.core).l1.get? a.l1Key with
    | none => rfl
    | some e =>
      have hne := hmiss.resolve_left (by simp) e he
      simp only [if_true, if_neg hne]
      rfl

theorem l1Store_frame (c : Nat) (d : BitVec 1024) (m : BitVec 128) :
    (s.l1Store c a d m).nextId = s.nextId ∧ (s.l1Store c a d m).hbm = s.hbm ∧ (s.l1Store c a d m).tss = s.tss := by
  unfold State.l1Store
  extract_lets t
  split <;> exact ⟨rfl, rfl, rfl⟩

/-- A line dropped from an L1 is no longer in it (R100). -/
theorem l1Drop_core (c : Nat) (a : Home) : ((s.l1Drop c a).core c).l1.get? a.l1Key = none := by
  simp [State.l1Drop, State.core, State.setCore, State.stopFills]

/-- What a line of a store changes: one request, which carries its bytes (R82, R213). -/
theorem storeLanes_request {hint w : Nat} {val : Nat → Nat} (hh : s.homeOf x.t.part (128 * n) = some a) :
    let dm := lanes.foldl (fun (a : BitVec 1024 × BitVec 128) l =>
      (mergeLine a.1 (lineOf l.2 (val l.1)) (byteMask l.2 w), a.2 ||| byteMask l.2 w)) (0, 0)
    let t := x.storeLanes hint w val s (n, lanes)
    t.nextId = s.nextId + 1
      ∧ t.reqs.get? s.nextId
        = some ⟨.grp x.r.block x.r.group.val, x.t.part, 128 * n, a, .store dm.1 dm.2, hint, .flight, x.g.pc, x.held⟩
      ∧ t.hbm = s.hbm ∧ t.tss = s.tss := by
  intro dm t
  obtain ⟨hid, hhbm, htss⟩ := l1Store_frame (s := s) (a := a) x.b.core dm.1 dm.2
  obtain ⟨nid, -, nhbm, ntss, -⟩ := noteAccess_frame (s := s.l1Store x.b.core a dm.1 dm.2) (t := x.b.task) (p := x.t.part)
    (va := 128 * n) (h := a)
  have ht : t = (((s.l1Store x.b.core a dm.1 dm.2).noteAccess x.b.task x.t.part (128 * n) a).addReq
      ⟨.grp x.r.block x.r.group.val, x.t.part, 128 * n, a, .store dm.1 dm.2, hint, .flight, x.g.pc, x.held⟩).2 := by
    simp only [t, Ctx.storeLanes, hh]
    rfl
  rw [ht]
  refine ⟨?_, ?_, nhbm.trans hhbm, ntss.trans htss⟩
  · rw [← hid, ← nid]
    rfl
  · rw [← hid, ← nid]
    exact Tab.get?_set_self _ _ _

/-- What a line of an atomic changes: one request, and the copy of the line leaves the core's L1 (R100). -/
theorem atomLanes_request {op : AtomOp} {w : Nat} {ret : Option Nat} {b c : Nat → Nat} {v : Via}
    (hh : s.homeOf x.t.part (128 * n) = some a) :
    let t := x.atomLanes op w ret b c v s (n, lanes)
    t.nextId = s.nextId + 1
      ∧ t.reqs.get? s.nextId = some ⟨.grp x.r.block x.r.group.val, x.t.part, 128 * n, a,
          .atom op w (lanes.map (fun l => ⟨l.1, l.2, b l.1, c l.1⟩)) ret, 0, .flight, x.g.pc, v⟩
      ∧ (t.core x.b.core).l1.get? a.l1Key = none ∧ t.hbm = s.hbm ∧ t.tss = s.tss := by
  obtain ⟨nid, nreqs, nhbm, ntss, ncores⟩ := noteAccess_frame (s := s.l1Drop x.b.core a) (t := x.b.task) (p := x.t.part)
    (va := 128 * n) (h := a)
  simp only [Ctx.atomLanes, hh]
  refine ⟨updGroup_frame.1.trans (congrArg (· + 1) nid), ?_, ?_, updGroup_frame.2.2.1.trans nhbm,
    updGroup_frame.2.2.2.1.trans ntss⟩
  · rw [updGroup_frame.2.1, show s.nextId = ((s.l1Drop x.b.core a).noteAccess x.b.task x.t.part (128 * n) a).nextId from nid.symm]
    exact Tab.get?_set_self _ _ _
  · unfold State.core
    rw [updGroup_frame.2.2.2.2]
    exact (congrArg (fun c => (c.get Core.init x.b.core).l1.get? a.l1Key) ncores).trans (l1Drop_core _ _)

end

/-- Settles O9: the operands are read once for every operation, and each line of an access makes its one request. -/
theorem atomicsAndRequests : Obligations.AtomicsAndRequests := by
  refine ⟨?issue, ?lines⟩
  case issue =>
    intro s r i x h ha hg
    obtain rfl := h.word
    obtain rfl := h.state
    obtain rfl := h.place
    have one (op : AtomOp) (w : Nat) hl hd hb hc := issue_next h (atomic_ok op w ha hg hl hd hb hc)
    iterate 23 refine List.forall_mem_cons.2 ⟨one _ _, ?_⟩
    exact List.forall_mem_nil _
  case lines =>
    intro x s g a n lanes hh hg
    refine ⟨fun dst w hint op signed cache ids => ⟨fun e hc he hv => ?_, fun hmiss => ?_⟩, fun hint w val => storeLanes_request hh,
      fun op w ret b c v => atomLanes_request hh⟩
    · unfold Ctx.loadLine
      simp only [hh, hg, hc, if_true, he, if_pos hv]
    · rw [loadLine_asks hh hg hmiss]
      exact ⟨rfl, rfl⟩

end Sys2Proof.Machine
end

section
/-! Barriers, semaphores, fences and tile instructions as they issue (chapters 3, 4 and 7). -/

namespace Sys2Proof.Machine

/-! ## Barriers -/

/-- A group of the released block: held on the barrier, it goes on (R125). -/
theorem settleBar_groups {b : Block} {id c : Nat} (ho : (b.bars.get Barrier.init id).opened = some c)
    (hc : b.expected c ≤ (b.bars.get Barrier.init id).arrivals) :
    b.settleBar id = { (b.release id) with
      bars := b.bars.put Barrier.init id Barrier.init, veils := b.veils.filter (fun v => !v.waited) } := by
  simp only [Block.settleBar, ho, if_pos hc]

/-- A phase whose arrivals do not yet reach its count goes on (R125). -/
theorem settleBar_waits {b : Block} {id c : Nat} (ho : (b.bars.get Barrier.init id).opened = some c)
    (hc : ¬b.expected c ≤ (b.bars.get Barrier.init id).arrivals) : b.settleBar id = b := by
  simp only [Block.settleBar, ho, if_neg hc]

/-- Settles O10: the arrivals by `barrier_ok`, the end of a phase by what `settleBar` answers. -/
theorem barriers : Obligations.Barriers := by
  refine ⟨?issue, ?settle⟩
  case issue =>
    intro s r i x h
    obtain rfl := h.word
    obtain rfl := h.state
    obtain rfl := h.place
    refine ⟨fun hn => ?_, fun hn hw hr ha => ?_⟩
    · iterate 2 refine List.forall_mem_cons.2 ⟨issue_next h (forGroup_none hn), ?_⟩
      exact List.forall_mem_nil _
    · refine List.forall_mem_cons.2 ⟨issue_next h (barrier_ok true hn hw hr ha), ?_⟩
      refine List.forall_mem_cons.2 ⟨issue_next h (barrier_ok false hn hw hr ha), ?_⟩
      exact List.forall_mem_nil _
  case settle =>
    intro b id c ho
    refine ⟨fun hc => ?_, fun hc => settleBar_waits ho (not_le.mpr hc)⟩
    rw [settleBar_groups ho hc]
    refine ⟨Tab.get_put_self _ _ _ _, fun k g hk => ?_, fun j hj => Tab.get_put_ne _ _ hj _⟩
    exact List.getElem?_map.trans (congrArg (Option.map _) hk)

/-! ## Semaphores and fences -/

/-- The L1 of the core is empty after an acquire (R218). -/
theorem l1Invalidate_core (s : State) (c : Nat) : (s.l1Invalidate c).core c = { s.core c with l1 := .empty } := by
  simp [State.l1Invalidate, State.core, State.setCore, State.stopFills]

section
variable {x : Ctx}

theorem readSet_free {s : State} {r : GroupRef} (h : s.readSet r = []) : await ((s.readSet r).isEmpty) = .ok () :=
  await_true (by simp [h])

/-- What FENCE.ACQ and FENCE.AR leave of the state: the L1 emptied at PARTITION and SYSTEM scope, unless NOINV (R218, Table 7-4). -/
theorem acquired_eq (s : State) (i : Ins) (c : Nat) :
    (if insNoInv i then s else s.acquire c (field i.mod 0 2))
      = if i.mod.getLsbD 2 then s else if 2 ≤ field i.mod 0 2 then s.l1Invalidate c else s := rfl

end

/-- Settles O11: the operands of the semaphores by `semOperands_ok`, the fences by what they wait for. -/
theorem semaphoresAndFencesIssue : Obligations.SemaphoresAndFencesIssue := by
  refine ⟨?sems, ?fences⟩
  case sems =>
    intro s r i x h
    obtain rfl := h.word
    obtain rfl := h.state
    obtain rfl := h.place
    refine ⟨fun hn => ?_, fun hn hu ha hg => ?_⟩
    · iterate 2 refine List.forall_mem_cons.2 ⟨issue_next h (forGroup_none hn), ?_⟩
      exact List.forall_mem_nil _
    · intro va scope h48 h8 a hloc noted
      have hops : x.semOperands = .ok (va, a, x.amount) := semOperands_ok hu ha h48 h8 hloc
      refine ⟨fun h0 hr => ?_, fun h0 => ?_, ?_⟩
      · refine issue_next h ?_
        simp only [forGroup_ok hn, hops, gateAll_ok hg, ok_bind, if_pos h0, readSet_free hr]
        rfl
      · refine issue_next h ?_
        simp only [forGroup_ok hn, hops, gateAll_ok hg, ok_bind, if_neg h0]
        rfl
      · refine issue_next h ?_
        simp only [forGroup_ok hn, hops, gateAll_ok hg, ok_bind]
        rfl
  case fences =>
    intro s r i x h
    obtain rfl := h.word
    obtain rfl := h.state
    obtain rfl := h.place
    intro scope acquired left
    refine ⟨fun hn => ?_, fun hn hr hg => ?_, fun hn => ⟨fun hs => ?_, fun hs => ?_⟩, fun hn hr hl hw => ?_, fun hn => ?_,
      l1Invalidate_core _ _⟩
    · iterate 4 refine List.forall_mem_cons.2 ⟨issue_next h (forGroup_none hn), ?_⟩
      exact List.forall_mem_nil _
    · refine issue_next h ?_
      simp only [forGroup_ok hn, readSet_free hr, gateAll_ok hg, ok_bind, acquired_eq]
      rfl
    · refine issue_next h ?_
      simp only [forGroup_ok hn, if_neg (show ¬field x.i.mod 0 2 = 3 from hs)]
      exact done_eq _
    · refine issue_next h ?_
      simp only [forGroup_ok hn, if_pos (show field x.i.mod 0 2 = 3 from hs)]
      exact done_eq _
    · have hrel : x.released (field x.i.mod 0 2) = .ok () := released_ok hl
      refine issue_next h ?_
      simp only [forGroup_ok hn, readSet_free hr, hrel, gateWrites_ok hw, ok_bind, acquired_eq]
      rfl
    · refine issue_next h ?_
      simp only [forGroup_ok hn]
      exact done_eq _

/-! ## Tile instructions -/

/-- Settles O12, by `tile_ok`. -/
theorem tileInstructionsIssue : Obligations.TileInstructionsIssue := by
  intro s r i x h
  obtain rfl := h.word
  obtain rfl := h.state
  obtain rfl := h.place
  refine ⟨fun hn => ?_, fun hn hd ht hu hb hc => ?_⟩
  · iterate 2 refine List.forall_mem_cons.2 ⟨issue_next h (forGroup_none hn), ?_⟩
    exact List.forall_mem_nil _
  · intro va l count stride hint noted h48 hva hl hlen
    have one (st : Bool) hg hk := issue_next h (tile_ok st hn hd ht hu hb hc h48 hva hl hlen hg hk)
    iterate 2 refine List.forall_mem_cons.2 ⟨one _, ?_⟩
    exact List.forall_mem_nil _

end Sys2Proof.Machine
end

section
/-! Matrix instructions as they enter their queue (chapter 5). -/

namespace Sys2Proof.Machine

theorem and_true_of {a b : Bool} (ha : a = true) (hb : b = true) : (a && b) = true := by rw [ha, hb]; rfl

section
variable {s : State} {r : GroupRef} {i : Ins} {x : Ctx}

/-- MXI.MMA and MXI.MMA.R whose operands are allowed (Tables 5-6 and 5-7). -/
theorem mxiMma_ok {repro : Bool} {a b : Desc} (hn : x.sel ≠ 0) (hr : x.mxuReady) (hd : x.i.dst.toNat ≤ 7)
    (ht : x.g.tokens.get 0 x.i.dst.toNat < 15) (hc : uOk 1 x.i.c) (hua : uOk 2 x.i.a) (hub : uOk 2 x.i.b)
    (ha : Desc.ofWord (x.U64 x.i.a) = some a) (hb : Desc.ofWord (x.U64 x.i.b) = some b) (hp : pairOk repro a.fmt b.fmt = true)
    (hs : a.scaled = b.scaled) (hao : a.ok 1 (Shape.ofWord (x.g.ureg x.i.c.toNat)).kc x.b.lmemSize = true)
    (hbo : b.ok (Shape.ofWord (x.g.ureg x.i.c.toNat)).nt (Shape.ofWord (x.g.ureg x.i.c.toNat)).kc x.b.lmemSize = true)
    (huo : unitsOk repro (Shape.ofWord (x.g.ureg x.i.c.toNat)).acc (Shape.ofWord (x.g.ureg x.i.c.toNat)).nt x.t.accUnits = true) :
    mxiMma repro x = .ok (x.queued (.mma repro (x.U64 x.i.a) (x.U64 x.i.b) (x.g.ureg x.i.c.toNat) x.i.mod)
      (unitsOf repro (Shape.ofWord (x.g.ureg x.i.c.toNat)).acc (Shape.ofWord (x.g.ureg x.i.c.toNat)).nt) (some x.i.dst.toNat) x.g) := by
  have hsc : (a.scaled == b.scaled) = true := by simp [hs]
  simp only [mxiMma, forGroup_ok hn, tokenSlot_ok hd ht, u64_ok hua, u64_ok hub, u32_ok hc, ok_bind, ha, hb,
    require_true (and_true_of hp hsc), require_true (and_true_of hao hbo), require_true huo, enqueue_ok hr]

/-- The output formats of MXI.ARD and their sizes in bytes (Table 5-9a). -/
theorem ardFormat {fmt size : Nat} (h : (fmt, size) ∈ [(0, 4), (1, 2), (2, 2), (3, 1), (4, 1), (8, 1), (10, 4)]) :
    (decide (fmt ≤ 4) || decide (fmt = 8) || decide (fmt = 10)) = true
      ∧ ∃ f, EFmt.ofCode fmt = some f ∧ f.bits / 8 = size := by
  simp only [List.mem_cons, Prod.mk.injEq, List.not_mem_nil, or_false] at h
  rcases h with ⟨rfl, rfl⟩ | ⟨rfl, rfl⟩ | ⟨rfl, rfl⟩ | ⟨rfl, rfl⟩ | ⟨rfl, rfl⟩ | ⟨rfl, rfl⟩ | ⟨rfl, rfl⟩ <;> exact ⟨rfl, _, rfl, rfl⟩

/-- A collective form under a partial mask ends its task (R138). -/
theorem mxfMma_diverged {repro : Bool} (hn : x.sel ≠ 0) (hm : x.i.mod.getLsbD 14 = true) (hs : x.sel ≠ 0xFFFFFFFF) :
    mxfMma repro false x = .error (.fault .diverged) := by
  exact (forGroup_ok hn).trans (if_pos (and_true_of (and_true_of rfl hm) (decide_eq_true hs)))

/-- The four registers of a fragment from register `n`, unselected lanes zero in the masked forms (R167). -/
def Ctx.fragment (x : Ctx) (masked : Bool) (n : Nat) : List Lanes :=
  (List.range 4).map (fun j =>
    if masked then lanesOf (fun l => if x.sel.getLsbD l then laneAt (x.g.vreg (n + j)) l else 0) else x.g.vreg (n + j))

/-- The block scales of a fragment (R167). -/
def Ctx.fragmentScale (x : Ctx) (masked : Bool) : Lanes :=
  if masked then lanesOf (fun l => if x.sel.getLsbD l then laneAt (x.g.vreg x.i.c.toNat) l else 0) else x.g.vreg x.i.c.toNat

/-- An MXF multiply whose operands are allowed (R163 to R167). -/
theorem mxfMma_ok {repro masked : Bool} {fa fb : EFmt} (hn : x.sel ≠ 0) (hr : x.mxuReady)
    (hm : masked = false → x.i.mod.getLsbD 14 = true → x.sel = 0xFFFFFFFF) (hi : insImm x.i = false)
    (ha : EFmt.ofCode (field x.i.mod 3 4) = some fa) (hb : EFmt.ofCode (field x.i.mod 7 4) = some fb)
    (hp : pairOk repro fa fb = true) (hs : x.i.mod.getLsbD 13 = true → fa.scalable = true ∧ fb.scalable = true)
    (hu : unitsOk repro (field x.i.mod 0 3) 1 x.t.accUnits = true) (hva : x.vOk 4 x.i.a) (hvb : x.vOk 4 x.i.b) (hvc : x.vOk 1 x.i.c) :
    mxfMma repro masked x = .ok (x.queued (.frag repro (x.fragment masked x.i.a.toNat) (x.fragment masked x.i.b.toNat)
      (x.fragmentScale masked) x.sel x.i.mod) (unitsOf repro (field x.i.mod 0 3) 1) none x.g) := by
  have hwhole : (!masked && x.i.mod.getLsbD 14 && decide (x.sel ≠ 0xFFFFFFFF)) = false := by
    cases masked <;> cases h14 : x.i.mod.getLsbD 14 <;> simp_all
  have hscale : (!x.i.mod.getLsbD 13 || (fa.scalable && fb.scalable)) = true := by
    cases h13 : x.i.mod.getLsbD 13 with
    | false => rfl
    | true => exact and_true_of (hs h13).1 (hs h13).2
  have himm : (!insImm x.i) = true := by rw [hi]; rfl
  simp only [mxfMma, forGroup_ok hn, hwhole, Bool.false_eq_true, if_false, require_true himm, ok_bind, ha, hb,
    require_true (and_true_of hp hscale), require_true hu, vTuple_ok hva, vTuple_ok hvb, vTuple_ok hvc, enqueue_ok hr]
  rfl

end

/-- Settles O13: each instruction's checks hold, so that `enqueue_ok` gives its entry. -/
theorem matrixInstructionsQueue : Obligations.MatrixInstructionsQueue := by
  refine ⟨?mxi, ?mxf⟩
  case mxi =>
    intro s r i x h hn hr hd ht hc
    obtain rfl := h.word
    intro w sh slot
    refine ⟨?mma, fun hu => ⟨?aclr, fun ha h128 hlen => ?ald⟩, fun ha hb hu hrnd fmt size hfmt hcode h128 hlen => ?ard,
      fun ha hu h128 hlen => ?ard128⟩
    case mma =>
      have one (repro : Bool) hua hub a b ha hb hp hs hao hbo huo :=
        issue_next h (mxiMma_ok (repro := repro) (a := a) (b := b) hn hr hd ht hc hua hub ha hb hp hs hao hbo huo)
      iterate 2 refine List.forall_mem_cons.2 ⟨one _, ?_⟩
      exact List.forall_mem_nil _
    case aclr =>
      refine issue_next h ?_
      simp only [forGroup_ok hn, tokenSlot_ok hd ht, u32_ok hc, ok_bind]
      refine (bind_of_ok (require_true hu) _).trans ?_
      exact enqueue_ok hr _ _ _ _
    case ald =>
      refine issue_next h ?_
      simp only [forGroup_ok hn, tokenSlot_ok hd ht, u32_ok ha, u32_ok hc, ok_bind]
      refine (bind_of_ok (require_true hu) _).trans ?_
      refine (bind_of_ok (require_true (and_true_of (decide_eq_true h128) (decide_eq_true hlen))) _).trans ?_
      exact enqueue_ok hr _ _ _ _
    case ard =>
      obtain ⟨hok, f, hf, hsize⟩ := ardFormat hfmt
      subst hcode
      refine issue_next h ?_
      simp only [forGroup_ok hn, tokenSlot_ok hd ht, u32_ok ha, u32_ok hb, u32_ok hc, ok_bind, require_true hok,
        require_true (decide_eq_true hrnd), hf, hsize]
      refine (bind_of_ok (require_true hu) _).trans ?_
      refine (bind_of_ok (require_true (and_true_of (decide_eq_true h128) (decide_eq_true hlen))) _).trans ?_
      exact enqueue_ok hr _ _ _ _
    case ard128 =>
      refine issue_next h ?_
      simp only [forGroup_ok hn, tokenSlot_ok hd ht, u32_ok ha, u32_ok hc, ok_bind]
      refine (bind_of_ok (require_true hu) _).trans ?_
      refine (bind_of_ok (require_true (and_true_of (decide_eq_true h128) (decide_eq_true hlen))) _).trans ?_
      exact enqueue_ok hr _ _ _ _
  case mxf =>
    intro s r i x h hn
    obtain rfl := h.word
    refine ⟨?mma, fun hr hi hd hu => ?ard⟩
    case mma =>
      have whole (repro : Bool) (hm : x.i.mod.getLsbD 14 = true) (hs : x.sel ≠ 0xFFFFFFFF) :=
        issue_fault h (mxfMma_diverged (repro := repro) hn hm hs)
      have one (repro masked : Bool) hr hm hi fa fb ha hb hp hs hu hva hvb hvc := issue_next h
        (mxfMma_ok (repro := repro) (masked := masked) (fa := fa) (fb := fb) hn hr hm hi ha hb hp hs hu hva hvb hvc)
      iterate 2 refine List.forall_mem_cons.2 ⟨⟨fun _ => whole _, one _ _⟩, ?_⟩
      iterate 2 refine List.forall_mem_cons.2 ⟨⟨fun hm => (nomatch hm), one _ _⟩, ?_⟩
      exact List.forall_mem_nil _
    case ard =>
      obtain rfl := h.state
      have himm : (!insImm x.i) = true := by rw [hi]; rfl
      refine issue_next h ?_
      simp only [forGroup_ok hn, require_true himm, vTuple_ok hd, ok_bind]
      refine (bind_of_ok (require_true hu) _).trans ?_
      exact enqueue_ok hr _ _ _ _

end Sys2Proof.Machine
end

section
/-! The matrix unit at work: footprints, starts, steps and completions (chapter 5). -/

namespace Sys2Proof.Machine

section
variable {x : Ctx}

/-- A group without a footprint puts itself among those that wait for one (R144). -/
theorem enqueue_waits (hf : (x.s.mxu x.mxuNo).fenced = false)
    (hq : ∀ e ∈ (x.s.mxu x.mxuNo).queue, ¬(e.block = x.r.block ∧ e.group = x.r.group.val ∧ e.frees = true))
    (hst : x.g.foot.st = .none) (op : MxOp) (us : List Nat) (slot : Option Nat) (g : Group) :
    x.enqueue op us slot g = .ok { x.s.putGroup x.r { x.g with foot := { x.g.foot with st := .waiting x.s.nextId } } with
      nextId := x.s.nextId + 1 } := by
  have e1 : (!(x.s.mxu x.mxuNo).fenced) = true := by rw [hf]; rfl
  have e2 : (!(x.s.mxu x.mxuNo).queue.any (fun e => e.block = x.r.block && e.group = x.r.group.val && e.frees)) = true := by
    rw [Bool.not_eq_true', List.any_eq_false]
    intro e he
    simpa using hq e he
  simp only [Ctx.enqueue, await_true e1, await_true e2, ok_bind, hst]

end

section
variable {s : State} {u : Fin 640} {e : MxEntry} {b : Block} {g : Group} {t : Task}

/-- What MXU_INSTRUCTION_START does with an entry that may start (R147, R149, R152). -/
theorem mxuInstructionStart_eq (hb : s.blocks.get? e.block = some b) (hg : b.group? e.group = some g)
    (ht : s.tasks.get? b.task = some t) (hp : b.phase = .resident) (ha : g.foot.away = false) (hf : (s.mxu u).fenced = false)
    (he : (s.mxu u).queue.find? (fun f => f.id = e.id) = some e) (hs : e.started = false)
    (hm : e.mayStart ((s.mxu u).queue.takeWhile (fun f => !(f.id == e.id))) = true) (storage : Bool) :
    execMxuInstructionStart u ⟨e.id, storage⟩ s
      = if !(e.kindOk g.foot t.accUnits) then .next (s.endTask b.task .accessFault e.pc)
        else match e.op with
          | .ardf dst sel md =>
            if storage || g.foot.bad then .next ((s.spoil e.block e.group).fenceSubCore u b.task e.pc)
            else .next ((s.setMxu u ((s.mxu u).without e.id)).setBlock e.block
              (b.putGroup e.group (g.ardFrag e.id dst sel md))).refill
          | _ => .next (s.setMxu u ((s.mxu u).upd e.id (fun e => { e with started := true }))) := by
  unfold execMxuInstructionStart
  simp only [he, hb, hg, ht, hs, hf, hp, ha, hm]
  rfl

/-- What MXU_STEP does with the instruction in progress, where no error was injected and its storage is sound (R169 to R174). -/
theorem mxuStep_eq (hb : s.blocks.get? e.block = some b) (hg : b.group? e.group = some g)
    (ht : s.tasks.get? b.task = some t) (hp : b.phase = .resident) (ha : g.foot.away = false) (hf : (s.mxu u).fenced = false)
    (he : (s.mxu u).queue.find? (fun f => f.started && f.op.isMma && decide (f.step < f.op.steps)) = some e)
    {unit : Nat} {x : StepIn} {strict : Bool} (hx : e.stepIn (b.blur e.smudged s.freeCtr) = some (unit, x, false, strict))
    (hi : (s.mxu u).inject = 0) (hbad : g.foot.bad = false) :
    execMxuStep u .fail s = .next (s.fenceSubCore u b.task e.pc)
      ∧ execMxuStep u .storage s = .next ((s.spoil e.block e.group).fenceSubCore u b.task e.pc)
      ∧ ((if e.op.repro then x.runFx g.foot unit else (x.runFp g.foot unit, false)).2 = false →
        execMxuStep u .pass s = .next ((((if e.smudged = [] then s else { s with freeCtr := s.freeCtr + 1 }).setMxu u
            ((s.mxu u).advance e)).countMxu t.part 0 1).updGroup ⟨e.block, Fin.ofNat 32 e.group⟩
              (fun g' => { g' with foot := (if e.op.repro then x.runFx g.foot unit else (x.runFp g.foot unit, false)).1 })).refill) := by
  unfold execMxuStep
  simp only [he, hb, hg, ht, hx, hf, hp, ha, hi, hbad]
  refine ⟨rfl, rfl, fun hr => ?_⟩
  simp [hr]

/-- A skipped step changes no accumulator and is not checked (R174). -/
theorem mxuStep_skip (hb : s.blocks.get? e.block = some b) (hg : b.group? e.group = some g)
    (ht : s.tasks.get? b.task = some t) (hp : b.phase = .resident) (ha : g.foot.away = false) (hf : (s.mxu u).fenced = false)
    (he : (s.mxu u).queue.find? (fun f => f.started && f.op.isMma && decide (f.step < f.op.steps)) = some e)
    {unit : Nat} {x : StepIn} {strict : Bool} (hx : e.stepIn (b.blur e.smudged s.freeCtr) = some (unit, x, true, strict))
    (check : Residue) :
    execMxuStep u check s = .next ((s.setMxu u ((s.mxu u).advance e)).countMxu t.part 1 1).refill := by
  unfold execMxuStep
  simp only [he, hb, hg, ht, hx, hf, hp, ha]
  rfl

/-- What MXI_TOKEN_COMPLETE does with an entry whose steps are done (R152). -/
theorem mxiTokenComplete_eq (hb : s.blocks.get? e.block = some b) (hg : b.group? e.group = some g)
    (ht : s.tasks.get? b.task = some t) (hp : b.phase = .resident) (ha : g.foot.away = false)
    (he : (s.mxu u).queue.find? (fun f => f.id = e.id) = some e) (hs : e.started = true) (hd : e.op.steps ≤ e.step)
    {slot : Nat} (hsl : e.slot = some slot) (storage : Bool) :
    execMxiTokenComplete u ⟨e.id, storage⟩ s
      = if e.op.reads && (storage || g.foot.bad) then .next ((s.spoil e.block e.group).fenceSubCore u b.task e.pc)
        else .next (((if e.smudged = [] then s else { s with freeCtr := s.freeCtr + 1 }).setMxu u ((s.mxu u).without e.id)).setBlock
          e.block (((e.finish b s.freeCtr g.foot t.identity).1.putGroup e.group
            ((if e.frees then { g with foot := Foot.empty }
              else { g with foot := (e.finish b s.freeCtr g.foot t.identity).2 }).tokenDone slot)).settleBars)).refill := by
  have hlt : ¬e.step < e.op.steps := by omega
  unfold execMxiTokenComplete
  simp only [he, hb, hg, ht, hsl, hs, hp, ha, hlt, Group.freeFoot]
  rfl

/-- A waiting group takes its footprint, or a held one is evicted for it (R144, R146). -/
theorem accFootprint {r : GroupRef} {task : Nat} (hb : s.blocks.get? r.block = some b)
    (hw : s.firstWaiter (b.subCore r.group.val) = some (r.block, r.group.val, g, task)) :
    (s.unitsDecl task ≤ s.freeUnits (b.subCore r.group.val) →
      execAccFootprintAcquire r s = .next (s.putGroup r { g with foot := { g.foot with st := .held } }))
    ∧ (∀ e, s.freeUnits (b.subCore r.group.val) < s.unitsDecl task →
      s.unitsDecl task ≤ s.freeUnits (b.subCore r.group.val)
        + ((s.evictable (b.subCore r.group.val)).map (fun e => e.2.2.2)).foldl (· + ·) 0 →
      sortOn (fun x => x.2.2.1) (s.evictable (b.subCore r.group.val)) = [e] →
      ∀ v vb vt, s.group? ⟨e.1, Fin.ofNat 32 e.2.1⟩ = some v → v.foot.bad = false → s.blocks.get? e.1 = some vb →
      s.tasks.get? vb.task = some vt →
      execAccFootprintEvict ⟨r, none⟩ s = .next ((s.updGroup ⟨e.1, Fin.ofNat 32 e.2.1⟩
        (fun g => { g with foot := { g.foot with st := .evicted } })).countMxu vt.part 3 1)) := by
  refine ⟨fun hu => ?_, fun e hlt hle hsort v vb vt hv hbad hvb hvt => ?_⟩
  · unfold execAccFootprintAcquire
    simp only [hb, hw]
    exact if_pos ⟨trivial, trivial, hu⟩
  · unfold execAccFootprintEvict
    have h1 : ¬s.unitsDecl task ≤ s.freeUnits (b.subCore r.group.val) := by omega
    have h2 : ¬s.freeUnits (b.subCore r.group.val)
        + ((s.evictable (b.subCore r.group.val)).map (fun e => e.2.2.2)).foldl (· + ·) 0 < s.unitsDecl task := by omega
    simp only [hb, hw, h1, h2, hsort, List.foldl_cons, List.foldl_nil, hvb, Option.map_some, Option.getD_some, hvt, hv,
      Option.any_some, hbad]
    rfl

end

/-- Settles O14: each command by what it answers for an entry in its place. -/
theorem footprintsAndMatrixUnits : Obligations.FootprintsAndMatrixUnits := by
  refine ⟨?waits, ?unit⟩
  case waits =>
    intro s r i x h hn hst hf hq hd ht hc hu
    obtain rfl := h.word
    obtain rfl := h.state
    obtain rfl := h.place
    refine issue_next h ?_
    simp only [forGroup_ok hn, tokenSlot_ok hd ht, u32_ok hc, ok_bind, require_true hu]
    exact enqueue_waits hf hq hst _ _ _ _
  case unit =>
    intro s u e b g t hb hg ht hp ha hf
    refine ⟨?start, ?step, ?token, fun r b g task hb hw => accFootprint hb hw⟩
    case start =>
      intro he hs hm storage
      have hstart := mxuInstructionStart_eq hb hg ht hp ha hf he hs hm
      refine ⟨fun hk => ?_, fun hk hsl hop => ?_, fun hk d l m hop => ⟨fun hst hbad => ?_, fun hst => ?_⟩⟩
      · exact (hstart storage).trans (by simp only [hk]; rfl)
      · refine (hstart storage).trans ?_
        simp only [hk]
        cases hcase : e.op with
        | ardf d l m => exact absurd hcase (hop d l m)
        | _ => rfl
      · exact (hstart storage).trans (by simp only [hk, hop, hst, hbad]; rfl)
      · exact (hstart storage).trans (by simp only [hk, hop, hst]; rfl)
    case step =>
      intro he unit x skip strict hx drawn
      refine ⟨fun hskip check => ?_, fun hskip hi hbad => ?_⟩
      · subst hskip
        exact mxuStep_skip hb hg ht hp ha hf he hx check
      · subst hskip
        obtain ⟨hfail, hstorage, hpass⟩ := mxuStep_eq hb hg ht hp ha hf he hx hi hbad
        refine ⟨fun hr => ?_, fun hr hev => ?_, hfail, hstorage⟩
        · simp only [hr, Bool.false_eq_true, if_false, forall_const] at hpass
          exact hpass
        · simp only [hr, if_true] at hpass
          exact hpass hev
    case token =>
      intro he hs hd slot hsl r drawn g'
      have hdone := mxiTokenComplete_eq hb hg ht hp ha he hs hd hsl
      refine ⟨fun hbad => ?_, fun hr => ?_⟩
      · refine (hdone false).trans ?_
        simp only [hbad, Bool.or_false, Bool.and_false]
        rfl
      · refine (hdone true).trans ?_
        simp only [hr]
        rfl

end Sys2Proof.Machine
end

section
/-! Messages on their way to their home (Table 8-11). -/

namespace Sys2Proof.Machine

section
variable {s : State} {id : Nat} {q : MemReq}

/-- A message that carries a request of its own kind brings it to its home (Table 8-11). -/
theorem deliver_next (hq : s.reqs.get? id = some q) (hf : s.fw.fatal = false) {p : MemReq → Bool} (hp : p q = true) :
    deliver id p s = .next (s.advance id) := by
  simp [deliver, hq, hp, hf]

/-- Where its request does not arrive, a request is served where it is. -/
theorem advance_of_none (h : s.arriveReq id = none) : s.advance id = (s.serveReq id).getD s := by
  simp [State.advance, h]

theorem advance_of_some {t : State} (h : s.arriveReq id = some t) : s.advance id = (t.serveReq id).getD t := by
  simp [State.advance, h]

/-- What keeps a request on its way (R82, R214, R219). -/
theorem arriveReq_none (hq : s.reqs.get? id = some q)
    (h : q.home.away = true ∨ q.unsent = false ∨ s.released q.via = false ∨ s.older id q = true) : s.arriveReq id = none := by
  have hc : (q.home.away || !q.unsent || !s.released q.via || s.older id q) = true := by
    rcases h with h | h | h | h <;> simp [h]
  simp only [State.arriveReq, hq, hc, if_true]

/-- A request that crosses to its home and finds an entry there is in the slice's queue (R286, R290). -/
theorem arriveReq_some (hq : s.reqs.get? id = some q) {t : State} {q' : MemReq} (ha : q.home.away = false) (hu : q.unsent = true)
    (hr : s.released q.via = true) (ho : s.older id q = false) (hc : s.cross q = some (t, q')) (hroom : t.queueRoom q' = true) :
    s.arriveReq id
      = some ({ t with nextId := t.nextId + 1 }.setReq id { q' with via := { q'.via with arr := some t.nextId } }) := by
  simp [State.arriveReq, hq, ha, hu, hr, ho, hc, hroom]

/-- The request that a peer's admitted message becomes. -/
def peerRequest (m : PeerMsg) (part va line : Nat) (kind : Nat → ReqKind) : MemReq :=
  ⟨.outer (2 + m.d.val) m.tag (m.exp.map (·.val)), part, va, .dev line, kind (va % 128), 0, .flight, 0, .free⟩

section
variable {m : PeerMsg} {len : Nat} {write : Bool}

theorem arrive_refused (hp : s.portGroup m.d.val ≠ []) (hf : s.fw.fatal = false) (hr : s.requestRoom m = true)
    (kind : Nat → ReqKind) (h : s.admitPeer m len write = none) : arrive m len write kind s = .next (s.refusePeer m) := by
  simp [arrive, hp, hf, hr, h]

theorem arrive_admitted (hp : s.portGroup m.d.val ≠ []) (hf : s.fw.fatal = false) (hr : s.requestRoom m = true)
    (kind : Nat → ReqKind) {part va line : Nat} (h : s.admitPeer m len write = some (part, va, line)) :
    arrive m len write kind s
      = .next ((s.addReq (peerRequest m part va line kind)).2.advance (s.addReq (peerRequest m part va line kind)).1) := by
  simp only [arrive, hp, hf, hr, h, peerRequest]
  rfl

end

/-- The partition that a request of the Hithen controller's cache counts for: the owner of the line's set, or none. -/
def State.lineOwner (s : State) (line : Nat) : Nat :=
  match s.setOfLine line with
  | some (_, e) => match e.owner with
    | .part p => p
    | _ => 30
  | none => 30

/-- A read of the Hithen controller's cache becomes a request of this device (R269). -/
theorem outerRead_hithen {line tag part : Nat} (hp : (s.placeOf (line * 128)).isSome) (cache : Option Bool)
    (hpart : part = s.lineOwner line) :
    outerRead (.hithen line tag) cache s
      = .next ((s.addReq ⟨.outer 1 tag none, part, 128 * line, .dev line, .read 0xF cache, 0, .flight, 0, .free⟩).2.advance
          (s.addReq ⟨.outer 1 tag none, part, 128 * line, .dev line, .read 0xF cache, 0, .flight, 0, .free⟩).1) := by
  have hn : (s.placeOf (line * 128)).isNone = false := by simpa [Option.isSome_iff_ne_none] using hp
  subst hpart
  unfold outerRead State.lineOwner
  simp only [hn]
  cases s.setOfLine line with
  | none => rfl
  | some r =>
    obtain ⟨k, base, chans, row0, rows, owner, copy, shadow⟩ := r
    cases owner <;> rfl

end

/-- Settles O15: a message by `deliver_next`, a peer's by `arrive_refused` and `arrive_admitted`, the Hithen cache's by
`outerRead_hithen`. -/
theorem messagesReachTheirHome : Obligations.MessagesReachTheirHome := by
  intro s hf
  refine ⟨fun id q hq => ⟨?held, fun t => advance_of_some, advance_of_none, arriveReq_none hq, fun t q' ha hu hr ho => arriveReq_some hq ha hu hr ho⟩,
    fun m need size arg new ret add n value data mask hp hr hm => ?peer, fun line tag hp => ?hithen⟩
  case held =>
    have outer (c : Option Bool) (hk : ∃ n, q.kind = .read n c) : outerRead (.held id) c s = .next (s.advance id) := by
      obtain ⟨n, hk⟩ := hk
      exact deliver_next hq hf (by simp [hk])
    refine List.forall_mem_cons.2 ⟨fun h => deliver_next hq hf h, ?_⟩
    refine List.forall_mem_cons.2 ⟨?rds, List.forall_mem_cons.2 ⟨?rdo, List.forall_mem_cons.2 ⟨?rdna, ?_⟩⟩⟩
    case rds | rdo | rdna =>
      intro h
      dsimp only at h
      split at h
      case h_1 hk => exact outer _ ⟨_, hk⟩
      case h_2 => cases h
    refine List.forall_mem_cons.2 ⟨fun h => deliver_next hq hf h, ?_⟩
    refine List.forall_mem_cons.2 ⟨fun h => deliver_next (p := fun q => q.kind == .spent) hq hf ?_, ?_⟩
    · cases hk : q.kind <;> simp_all
    iterate 4 refine List.forall_mem_cons.2 ⟨fun h => deliver_next hq hf h, ?_⟩
    exact List.forall_mem_nil _
  case peer =>
    have one (len : Nat) (write : Bool) (kind : Nat → ReqKind) :
        (s.admitPeer m len write = none → arrive m len write kind s = .next (s.refusePeer m))
        ∧ ∀ part va line, s.admitPeer m len write = some (part, va, line) → arrive m len write kind s
          = .next ((s.addReq (peerRequest m part va line kind)).2.advance (s.addReq (peerRequest m part va line kind)).1) :=
      ⟨arrive_refused hp hf hr kind, fun part va line => arrive_admitted hp hf hr kind⟩
    have hwr : execWr (.peer m data allBytes) s = arrive m 128 true (fun _ => .store data allBytes) s := by
      unfold execWr
      exact if_pos rfl
    have hwrp : execWrp (.peer m data mask) s = arrive m 1 true (fun _ => .store data mask) s := by
      unfold execWrp
      exact if_neg hm
    have wr := one 128 true (fun _ => .store data allBytes)
    have wrp := one 1 true (fun _ => .store data mask)
    refine List.forall_mem_cons.2 ⟨one 1 false (fun _ => .read need none), ?_⟩
    refine List.forall_mem_cons.2 ⟨one 1 false (fun _ => .read need (some false)), ?_⟩
    refine List.forall_mem_cons.2 ⟨one 1 false (fun _ => .read need (some true)), ?_⟩
    refine List.forall_mem_cons.2 ⟨one 1 false (fun _ => .read need none), ?_⟩
    refine List.forall_mem_cons.2 ⟨one size.val true (fun off => .atom .addI size.val [⟨0, off, arg.toNat, new.toNat⟩]
      (if ret then some 0 else none)), ?_⟩
    refine List.forall_mem_cons.2 ⟨one size.val true (fun off => .atom .cas size.val [⟨0, off, arg.toNat, new.toNat⟩]
      (if ret then some 0 else none)), ?_⟩
    refine List.forall_mem_cons.2 ⟨one 1 true (fun _ => .spent), ?_⟩
    refine List.forall_mem_cons.2 ⟨one 8 true (fun off => .semAcq off n.toNat), ?_⟩
    refine List.forall_mem_cons.2 ⟨one 8 true (fun off => .semRel off n.toNat), ?_⟩
    refine List.forall_mem_cons.2 ⟨⟨fun h => hwr.trans (wr.1 h), fun part va line h => hwr.trans (wr.2 part va line h)⟩, ?_⟩
    refine List.forall_mem_cons.2 ⟨⟨fun h => hwrp.trans (wrp.1 h), fun part va line h => hwrp.trans (wrp.2 part va line h)⟩, ?_⟩
    refine List.forall_mem_cons.2 ⟨one 8 true (fun off =>
      if add then .semRel off value.toNat else .store (lineOf off value.toNat) (byteMask off 8)), ?_⟩
    exact List.forall_mem_nil _
  case hithen =>
    simp only [List.forall_mem_cons, List.not_mem_nil, IsEmpty.forall_iff, implies_true, and_true]
    exact ⟨outerRead_hithen hp (some false) rfl, outerRead_hithen hp _ rfl, outerRead_hithen hp _ rfl⟩

end Sys2Proof.Machine
end

section
/-! What a request meets at its home (R91, R212, R253, R264, R310). -/

namespace Sys2Proof.Machine

section
variable {s t : State} {id : Nat} {q : MemReq} {line : Nat} {ev : DirEvent}

/-- What a home does with a request that is served next, by its kind. -/
def State.serveAt (s : State) (id : Nat) (q : MemReq) (line : Nat) : Option State :=
  match q.kind with
  | .spent => s.serveSpent id q line
  | .tile _ _ _ => none
  | _ => if q.isRead then s.serveRead id q line else s.serveWrite id q line

/-- A request that is served next at its home, and that reads or whose write takes effect here, is served by its kind (R286, R398). -/
theorem AtHome.served (h : AtHome s id q line ev t) (hr : q.isRead = true ∨ s.zeroHome (.dev line) = .dev line) :
    s.advance id = (s.serveAt id q line).getD s := by
  obtain ⟨n, hn, hl⟩ := h.home
  obtain ⟨a, ha⟩ := Option.isSome_iff_exists.1 h.arrived
  have hu : q.unsent = false := by simp [MemReq.unsent, ha]
  have hz : (!q.isRead && decide (s.zeroHome (.dev line) ≠ .dev line) && !s.fromTwin q) = false := by
    rcases hr with hr | hr <;> simp [hr]
  rw [advance_of_none (arriveReq_none h.held (.inr (.inl hu)))]
  congr 1
  simp only [State.serveReq, h.held, h.stage, h.pool, hn, ha, h.first, ← hl, h.entry, hz, h.idle]
  rfl

/-- A command that delivers such a request serves it. -/
theorem AtHome.deliver_served (h : AtHome s id q line ev t) (hr : q.isRead = true ∨ s.zeroHome (.dev line) = .dev line)
    {p : MemReq → Bool} (hp : p q = true) : deliver id p s = .next ((s.serveAt id q line).getD s) := by
  rw [deliver_next h.held h.sound hp, h.served hr]

/-! ## Loads -/

@[simp] theorem lookup_src (b : Bool) : (s.lookup id q b).2.src = q.src := by
  unfold State.lookup; split <;> rfl

@[simp] theorem lookup_kind (b : Bool) : (s.lookup id q b).2.kind = q.kind := by
  unfold State.lookup; split <;> rfl

@[simp] theorem lookup_noAlloc (b : Bool) : (s.lookup id q b).2.noAlloc = q.noAlloc := by
  unfold State.lookup; split <;> rfl

@[simp] theorem lookup_access (b : Bool) : (s.lookup id q b).2.access = q.access := by
  unfold State.lookup; split <;> rfl

theorem lookup_linePlace (b : Bool) : (s.lookup id q b).1.linePlace line = s.linePlace line := by
  unfold State.lookup; split <;> rfl

/-- A load at its home is a read that meets its tile. -/
theorem AtHome.load_served (h : AtHome s id q line q.readEvent t) {dst w : Nat} {sg : Bool} {lanes : List (Nat × Nat)} {op fill : Nat}
    (hk : q.kind = .load dst w sg lanes op fill) : exec (.rd (.held id)) s = .next ((t.readTile id q line).getD s) := by
  have hr : q.isRead = true := by simp [MemReq.isRead, hk]
  refine (h.deliver_served (p := _) (.inl hr) (by rw [hk])).trans ?_
  simp only [State.serveAt, hk, hr, State.serveRead, h.passes]
  rfl

theorem readTile_zero (h : t.readMeets line 0 = .zero) :
    t.readTile id q line = some ((t.lookup id q false).1.answered id (t.lookup id q false).2 .data 0 true false) := by
  simp only [State.readTile, h]
  rfl

/-- A read whose sectors the cache holds takes the line from it (R253, R255). -/
theorem readTile_hit (h : t.readMeets line 0 = .data) (hq : q.noAlloc = false) (hh : t.heldSectors line &&& q.need = q.need) {u : State}
    (hu : (t.lookup id q true).1.llcReserve ⟨false, line⟩ q.access = some u) (hc : u.codedLost line = false) :
    t.readTile id q line = some (u.answered id (t.lookup id q true).2 .data (u.devLine line) false false) := by
  have h' : t.readMeets line 0#4 = .data := h
  simp [State.readTile, h', hh, hq, hu, State.readData, hc]

/-- A read of sectors that the cache lacks takes a way for the line and asks memory for them (R253, R271). -/
theorem readTile_miss (h : t.readMeets line 0 = .data) (hq : q.noAlloc = false) (hf : t.llcFind ⟨false, line⟩ = none) (hn : q.need ≠ 0)
    {ch row j : Nat} (hp : t.linePlace line = some (ch, row, j)) (hm : (t.lookup id q false).1.mcRoom (pseudoOf ch j) false = true)
    {u : State} (hu : (t.lookup id q false).1.llcReserve ⟨false, line⟩ q.access = some u) :
    t.readTile id q line = some ((u.mcPush ⟨.fill id, ch, row, j, line, q.need, 0, 0, false, 0, 2⟩).stageReq id
      (t.lookup id q false).2 .waiting) := by
  have hh : t.heldSectors line = 0 := by simp [State.heldSectors, hf]
  have h' : t.readMeets line 0#4 = .data := h
  have hd : ¬ 0#4 = q.need := Ne.symm hn
  have ha : q.need &&& 15#4 = q.need := BitVec.and_allOnes
  simp [State.readTile, h', hh, hq, State.askMemory, lookup_linePlace, hp, hm, hu, hd, ha]

/-! ## Writes -/

/-- Whether a request is a store, an atomic or a semaphore operation. -/
def MemReq.changes (q : MemReq) : Bool :=
  match q.kind with
  | .store _ _ => true
  | .atom _ _ _ _ => true
  | .semRel _ _ => true
  | .semAcq _ _ => true
  | _ => false

/-- A home serves a write that takes effect there (R212, R237). -/
theorem AtHome.write_served (h : AtHome s id q line q.writeEvent t) (hw : s.writesHere line) (hk : q.changes = true)
    {p : MemReq → Bool} (hp : p q = true) : deliver id p s = .next ((s.serveWrite id q line).getD s) := by
  rw [h.deliver_served (.inr hw.1) hp]
  unfold MemReq.changes at hk
  split at hk <;> simp_all [State.serveAt, MemReq.isRead]

/-- A write to a SPENT tile waits while memory admits no access. -/
def State.spentShut (s : State) (line : Nat) : Bool :=
  (s.lineTile line).any (fun t => (s.tssAt t).state = .spent) && (s.placeOf (line * 128)).any (fun p => !s.memOpen p.1)

theorem spentShut_false (h : (s.lineTile line).map (fun k => (s.tssAt k).state) = some .spent →
    ∀ p, s.placeOf (line * 128) = some p → s.memOpen p.1 = true) : s.spentShut line = false := by
  unfold State.spentShut
  cases hp : s.placeOf (line * 128) with
  | none => simp
  | some p =>
    have ht : s.lineTile line = some (tileKey p.1 p.2) := by simp [State.lineTile, hp]
    by_cases hs : (s.tssAt (tileKey p.1 p.2)).state = .spent
    · simp [h (by simp [ht, hs]) p hp]
    · simp [ht, hs]

/-- A write that lacks sectors of its line asks memory for them (R254). -/
theorem serveWrite_fetch (ha : s.access line q.writeEvent (some id) false = some (true, t)) (hs : s.spentShut line = false)
    (hv : t.fetchNeed q line ≠ 0) {u : State}
    (hu : (t.lookup id q false).1.askMemory id (t.lookup id q false).2 line (t.fetchNeed q line) = some u) :
    s.serveWrite id q line = some (u.stageReq id (t.lookup id q false).2 .waiting) := by
  unfold State.spentShut at hs
  have hv' : ¬ t.fetchNeed q line = 0#4 := hv
  simp [State.serveWrite, hs, ha, hv', hu]

/-- A write whose line is at hand takes effect (R212). -/
theorem serveWrite_effect (ha : s.access line q.writeEvent (some id) false = some (true, t)) (hs : s.spentShut line = false)
    (hv : t.fetchNeed q line = 0) (hb : t.lineBad line &&& q.partSectors = 0) (hm : t.mirrored line = false) {u : State}
    (hu : t.homeEffect id q (.dev line) = some u) : s.serveWrite id q line = some u := by
  have hd : t.discoverBad line q.partSectors = t := by simp [State.discoverBad, hb]
  have hf : t.mirrorFirst id q line = some none := by simp [State.mirrorFirst, hm]
  unfold State.spentShut at hs
  simp [State.serveWrite, hs, ha, hv, hd, hf, hu]

theorem homeEffect_store {d : BitVec 1024} {m : BitVec 128} (hk : q.kind = .store d m) {u v : State}
    (hu : (t.lookup id q (t.holdsAll (.dev line) m)).1.lineWrite line d m q.path = some u) (hv : u.wakeLine (.dev line) = some v) :
    t.homeEffect id q (.dev line) = some (v.ordered id q false) := by
  simp [State.homeEffect, hk, State.homeWrite, hu, hv]

theorem homeEffect_atom {op : AtomOp} {w : Nat} {lanes : List AtomLane} {ret : Option Nat} (hk : q.kind = .atom op w lanes ret)
    {t' : State} {old : BitVec 1024} (hr : t.rmwRead id q (.dev line) (sectorsOf (atomMask w lanes)) = .ok (t', old)) {u v : State}
    (hu : (t'.lookup id q (t'.holdsAll (.dev line) (atomMask w lanes))).1.lineWrite line (atomLine op w lanes old).1 (atomMask w lanes)
      q.path = some u) (hv : u.wakeLine (.dev line) = some v) :
    t.homeEffect id q (.dev line) = some (v.answered id q .atomRsp old false false) := by
  simp [State.homeEffect, hk, hr, State.homeWrite, MemReq.change, hu, hv]

theorem homeEffect_semRel {off n : Nat} (hk : q.kind = .semRel off n) {t' : State} {old : BitVec 1024}
    (hr : t.rmwRead id q (.dev line) (sectorsOf (byteMask off 8)) = .ok (t', old)) {byCommand : Bool}
    (hc : byCommand = match q.src with
      | .cmd _ => true
      | _ => false) {noted : State}
    (hn : noted = if 2 ^ 64 ≤ lineNum old off 8 + n ∧ byCommand = false then t'.reqRaise q flagClamped else t') {u v : State}
    (hu : (noted.lookup id q (noted.holdsAll (.dev line) (byteMask off 8))).1.lineWrite line
      (lineOf off (min (lineNum old off 8 + n) (2 ^ 64 - 1))) (byteMask off 8) q.path = some u)
    (hv : u.wakeLine (.dev line) = some v) :
    t.homeEffect id q (.dev line) = some (v.ordered id q (decide (2 ^ 64 ≤ lineNum old off 8 + n))) := by
  have hn' : (if decide (2 ^ 64 ≤ lineNum old off 8 + n) && !byCommand then t'.reqRaise q flagClamped else t') = noted := by
    simp [hn]
  clear hn
  subst hc hn'
  simp only [State.homeEffect, hk, hr, State.homeWrite, MemReq.change]
  exact Option.bind_eq_some_iff.2 ⟨u, hu, Option.bind_eq_some_iff.2 ⟨v, hv, rfl⟩⟩

theorem homeEffect_semAcq {off n : Nat} (hk : q.kind = .semAcq off n) {t' : State} {old : BitVec 1024}
    (hr : t.rmwRead id q (.dev line) (sectorsOf (byteMask off 8)) = .ok (t', old)) {r : State × MemReq}
    (hl : r = t'.lookup id q (t'.holdsAll (.dev line) (byteMask off 8))) {queued : State}
    (hq : queued = r.1.stageReq id { r.2 with home := .dev line } .waiting) {u : State}
    (hu : ({ queued with
        waiters := queued.waiters.put [] (semKey (.dev line) off) (queued.waiters.get [] (semKey (.dev line) off) ++ [id]) }).wakeWord
          (.dev line) off = some u) :
    t.homeEffect id q (.dev line) = some u := by
  subst hq hl
  simp only [State.homeEffect, hk, hr]
  exact hu

/-! ## Spent hints (R264) -/

@[simp] theorem countEvent_tssAt (p n k : Nat) : (s.countEvent p n).tssAt k = s.tssAt k := rfl
@[simp] theorem countEvent_openTiles (p n : Nat) : (s.countEvent p n).openTiles = s.openTiles := rfl

/-- A discarded line leaves the cache without a write, so no tile is touched. -/
theorem llcEvict_openTiles (key : Nat) (e : LlcLine) : (s.llcEvict key e true).openTiles = s.openTiles := by
  unfold State.llcEvict State.tagDrop
  cases e.host
  · simp only [Bool.false_eq_true, if_false, Bool.true_or, if_true]
    split
    · rfl
    · split <;> rfl
  · rfl

theorem dropTile_openTiles (x : TileAt) : (s.dropTile x).openTiles = s.openTiles := by
  unfold State.dropTile
  induction x.lines generalizing s with
  | nil => rfl
  | cons n ns ih =>
    rw [List.foldl_cons, ih]
    split
    · exact llcEvict_openTiles _ _
    · rfl

@[simp] theorem tileTo_openTiles (k : Nat) (st : TileState) : (s.tileTo k st).openTiles = s.openTiles := rfl

/-- A tile set to a state has it, with no CRC. -/
theorem tileTo_tssAt (k : Nat) (st : TileState) : (s.tileTo k st).tssAt k = ⟨st, 0, 0⟩ := Tab.get_put_self ..

theorem spentHint_closed {x : TileAt} (hx : s.tileOfLine line = some x) (ho : (s.tssAt x.key).state ≠ .opened) (part : Nat) :
    s.spentHint line part = ((s.dropTile x).tileTo x.key .spent).countEvent part 3 := by
  simp [State.spentHint, hx, ho]

theorem spentHint_opened {x : TileAt} (hx : s.tileOfLine line = some x) (ho : (s.tssAt x.key).state = .opened) (part : Nat) :
    s.spentHint line part = { s with
      openTiles := s.openTiles.set x.key { s.openTiles.get ⟨0, 0, false, 0⟩ x.key with spentPending := true } } := by
  simp [State.spentHint, hx, ho]

theorem MemReq.noAlloc_grp {b k : Nat} (h : q.src = .grp b k) : q.noAlloc = false := by simp [MemReq.noAlloc, h]

end

/-- Settles O16: a load by `AtHome.load_served` and the cases of its tile, a write by `AtHome.write_served` and the effect of its kind, a spent
hint by `spentHint_closed` and `spentHint_opened`. -/
theorem homesServe : Obligations.HomesServe := by
  refine ⟨fun s t id q line b k dst w sg lanes op fill h hsrc hk => ⟨fun hz => ?zero, fun hd => ⟨fun u hh hu hc => ?hit,
    fun u ch row j hf hn hp hm hu => ?miss⟩, fun u d zero => ?back⟩,
    fun s t id q line h hw hmir hread hsp => ⟨fun hv u hu => ?fetch, fun hv hb => ⟨fun d m u v hk hu hwk => ?store,
      fun op w lanes ret t' old u v hk hr hu hwk => ?atom, fun off n t' old u v hk hr => ?semRel, fun off n t' old hk hr => ?semAcq⟩⟩,
    fun s line part x hx => ⟨fun ho => ?closed, fun ho => ?opened⟩⟩
  case zero => rw [h.load_served hk, readTile_zero hz]; rfl
  case hit => rw [h.load_served hk, readTile_hit hd (MemReq.noAlloc_grp hsrc) hh hu hc]; rfl
  case miss => rw [h.load_served hk, readTile_miss hd (MemReq.noAlloc_grp hsrc) hf hn hp hm hu]; rfl
  case back => simp [State.answered, hsrc, hk]
  case fetch =>
    have served (p : MemReq → Bool) (hp : p q = true) (hk : q.changes = true) :
        deliver id p s = .next (u.stageReq id (t.lookup id q false).2 .waiting) := by
      rw [h.write_served hw hk hp, serveWrite_fetch h.passes (spentShut_false hsp) hv hu]
      rfl
    have changes (p : ReqKind → Bool) (hp : p q.kind = true) (hq : ∀ k, p k = true → ({ q with kind := k }).changes = true) :
        q.changes = true := hq q.kind hp
    refine List.forall_mem_cons.2 ⟨fun hk => served _ hk (changes (fun k => match k with
      | .store _ m => m != allBytes
      | _ => false) hk (by intro k; cases k <;> simp [MemReq.changes])), ?_⟩
    refine List.forall_mem_cons.2 ⟨fun hk => served _ hk (changes (fun k => match k with
      | .atom _ _ _ _ => true
      | _ => false) hk (by intro k; cases k <;> simp [MemReq.changes])), ?_⟩
    refine List.forall_mem_cons.2 ⟨fun hk => served _ hk (changes (fun k => match k with
      | .semRel _ _ => true
      | _ => false) hk (by intro k; cases k <;> simp [MemReq.changes])), ?_⟩
    refine List.forall_mem_cons.2 ⟨fun hk => served _ hk (changes (fun k => match k with
      | .semAcq _ _ => true
      | _ => false) hk (by intro k; cases k <;> simp [MemReq.changes])), ?_⟩
    exact List.forall_mem_nil _
  case store =>
    have hc : q.changes = true := by simp [MemReq.changes, hk]
    have he := serveWrite_effect h.passes (spentShut_false hsp) hv hb hmir (homeEffect_store hk hu hwk)
    split
    next hm =>
      refine (h.write_served (p := _) hw hc (by rw [hk]; simpa using hm)).trans ?_
      rw [he]; rfl
    next hm =>
      refine (h.write_served (p := _) hw hc (by rw [hk]; simpa using hm)).trans ?_
      rw [he]; rfl
  case atom =>
    refine (h.write_served (p := _) hw (by simp [MemReq.changes, hk]) (by rw [hk])).trans ?_
    rw [serveWrite_effect h.passes (spentShut_false hsp) hv hb hmir (homeEffect_atom hk hr hu hwk)]; rfl
  case semRel =>
    intro byCommand noted hu hwk
    refine (h.write_served (p := _) hw (by simp [MemReq.changes, hk]) (by rw [hk])).trans ?_
    rw [serveWrite_effect h.passes (spentShut_false hsp) hv hb hmir (homeEffect_semRel hk hr rfl rfl hu hwk)]; rfl
  case semAcq =>
    intro r queued u hu
    refine (h.write_served (p := _) hw (by simp [MemReq.changes, hk]) (by rw [hk])).trans ?_
    rw [serveWrite_effect h.passes (spentShut_false hsp) hv hb hmir (homeEffect_semAcq hk hr rfl rfl hu)]; rfl
  case closed =>
    rw [spentHint_closed hx ho]
    rw [countEvent_tssAt, tileTo_tssAt, countEvent_openTiles, tileTo_openTiles, dropTile_openTiles]
    exact ⟨rfl, rfl⟩
  case opened =>
    rw [spentHint_opened hx ho]
    exact ⟨rfl, by simp [Tab.get, Tab.get?_set_self]⟩

end Sys2Proof.Machine
end

section
/-! Snoop answers (Tables 8-9 and 8-10), the answers that reach requests, and host lines (R82, R131, R212, R286). -/

namespace Sys2Proof.Machine

section
variable {s : State} {line : Nat} {x : Txn}

/-- An awaited answer is taken into the line's transaction (R282). -/
theorem snoopAnswer_awaited (hx : s.txns.get? line = some x) {a : Nat} (ha : x.awaits.getLsbD a = true) (keeps due : Bool)
    (data : Option (BitVec 1024)) :
    snoopAnswer a line keeps due data s
      = .next ({ s with txns := s.txns.set line { x.answer a keeps (due && x.data.isNone) with data := data.or x.data } }.closeTxn line) := by
  simp [snoopAnswer, hx, ha]

/-- A transaction that awaits an answer or a write-back goes on. -/
theorem closeTxn_awaiting (hx : s.txns.get? line = some x) (h : x.awaits ≠ 0 ∨ x.wbDue ≠ 0) : s.closeTxn line = s := by
  have hc : (decide (x.awaits ≠ 0) || decide (x.wbDue ≠ 0) || s.tileMoving line) = true := by
    rcases h with h | h <;> simp only [ne_eq, h, not_false_eq_true, decide_true, Bool.true_or, Bool.or_true]
  simp only [State.closeTxn, hx, hc, if_true]

/-- The end of a transaction in the state in which its data is merged. -/
def State.endTxn (s : State) (line : Nat) (x : Txn) : State :=
  let ended := { s with txns := s.txns.erase line }.dirPut line x.next
  let served := match x.cause with
    | some id => (ended.serveReq id).getD ended
    | none => ended
  if x.data.isSome then (served.wakeLine (.dev line)).getD served else served

/-- A transaction whose every answer has come ends; dirty data that is kept is merged first, and waits where it finds no room (R284). -/
theorem closeTxn_ended (hx : s.txns.get? line = some x) (hm : s.tileMoving line = false) (ha : x.awaits = 0) (hw : x.wbDue = 0) :
    s.closeTxn line
      = (((match if x.drop then none else x.data with
        | some d => s.lineWrite line d allBytes (.outer 1)
        | none => some s) : Option State).map (fun u => u.endTxn line x)).getD s := by
  have hc : (decide (x.awaits ≠ 0) || decide (x.wbDue ≠ 0) || s.tileMoving line) = false := by
    simp only [ha, hw, hm, ne_eq, not_true_eq_false, decide_false, Bool.or_false]
  simp only [State.closeTxn, hx, hc, Bool.false_eq_true, if_false]
  cases (if x.drop then none else x.data) with
  | none => rfl
  | some d =>
    dsimp only
    cases s.lineWrite line d allBytes (.outer 1) <;> rfl

theorem closeTxn_without_data (hx : s.txns.get? line = some x) (hm : s.tileMoving line = false) (ha : x.awaits = 0) (hw : x.wbDue = 0)
    (hd : x.data = none ∨ x.drop = true) : s.closeTxn line = s.endTxn line x := by
  have hn : (if x.drop then none else x.data) = none := by rcases hd with hd | hd <;> simp [hd]
  rw [closeTxn_ended hx hm ha hw, hn]
  rfl

theorem closeTxn_with_data (hx : s.txns.get? line = some x) (hm : s.tileMoving line = false) (ha : x.awaits = 0) (hw : x.wbDue = 0)
    (hd : x.drop = false) {d : BitVec 1024} (hdata : x.data = some d) {u : State} (hu : s.lineWrite line d allBytes (.outer 1) = some u) :
    s.closeTxn line = u.endTxn line x := by
  have hn : (if x.drop then none else x.data) = some d := by simp [hd, hdata]
  rw [closeTxn_ended hx hm ha hw, hn]
  simp [hu]

end

/-- Settles O17: an awaited answer by `snoopAnswer_awaited`, the end of a transaction by `closeTxn_ended`. -/
theorem snoopsAreAnswered : Obligations.SnoopsAreAnswered := by
  intro s line x
  refine ⟨fun a hx ha => ?answers, fun a data => ⟨fun hx d hd he hag => ?owned, fun hx ha => ?due⟩,
    fun hx hm => ⟨closeTxn_awaiting hx, closeTxn_without_data hx hm, fun ha hw hd d u hdata hu => ?merged⟩,
    fun hx ha hc => ?hithen, fun d hp => ⟨if_neg hp, if_neg hp⟩⟩
  case answers =>
    intro taken
    have answer := snoopAnswer_awaited hx ha
    refine ⟨fun h0 hg => ⟨?rspI, fun crossing => ?rspNp⟩, fun h0 hc => ?rspS, fun h0 hc data => ?rspFwd, fun h0 shared => ?birsp⟩
    case rspI => exact (if_neg (by simp [h0, hg])).trans (answer false false none)
    case rspNp => exact (if_neg (by simp [h0, hg])).trans (answer false crossing none)
    case rspS => exact (if_neg (by simpa [h0] using hc)).trans (answer true false none)
    case rspFwd => exact (if_neg (by simpa [h0] using hc)).trans (answer (s.cacheKeeps a.val line) false (some data))
    case birsp => exact (congrArg (fun n => snoopAnswer n line shared false none s) h0.symm).trans (answer shared false none)
  case owned =>
    show execWbData a line data s = _
    simp [execWbData, hx, hd, he, hag]
  case due =>
    show execWbData a line data s = _
    simp only [execWbData, hx, ha, Bool.not_true, Bool.false_eq_true, if_false]
  case merged =>
    rw [closeTxn_with_data hx hm ha hw hd hdata hu]
    exact if_pos (by simp [hdata])
  case hithen =>
    have hn (inv : Bool) : snoopReceived none line inv s
        = .next { s with cCache := if inv then s.cCache.erase line else s.cCache.set line false } := by
      simp only [snoopReceived, hx, ha, hc, Bool.and_self, if_true]
    exact ⟨hn true, hn false⟩

section
variable {s : State} {id : Nat} {q : MemReq}

/-- Data that its home sends comes back by the leaf of its transaction to the registers (R290). -/
theorem execData_home (hq : s.reqs.get? id = some q) {d : BitVec 1024} (hb : q.stage = .back d)
    (hk : (∃ dst w sg lanes op fill, q.kind = .load dst w sg lanes op fill) ∨ ∃ op w lanes ret, q.kind = .atom op w lanes ret) {u : State}
    (hu : s.comeBack q 3 (32 * popCount 4 q.need.toNat) = some u) (rep : Option PeerData) :
    execData id rep s = .next (u.deliverData id q d) := by
  rcases hk with ⟨_, _, _, _, _, _, hk⟩ | ⟨_, _, _, _, hk⟩ <;> simp only [execData, hq, hk, hb] <;> rw [hu]

/-- A load waits for a peer where its home is away. -/
theorem awaitsPeer_away (hw : q.stage = .waiting) (ha : q.home.away = true) : s.awaitsPeer q = true := by
  cases hh : q.home <;> simp_all [State.awaitsPeer, Home.away]

end

/-- Settles O18: each answer by the case of its command that its request's kind and stage select. -/
theorem answersReachRequests : Obligations.AnswersReachRequests := by
  intro s id q hq
  refine ⟨fun d rep dst w sg lanes op fill hk hb u hu => execData_home hq hb (.inl ⟨_, _, _, _, _, _, hk⟩) hu rep,
    fun d rep op w lanes ret hk hb u hu => execData_home hq hb (.inr ⟨_, _, _, _, hk⟩) hu rep,
    fun cls n h => by simp only [State.comeBack, h], fun d dst w sg lanes op fill hk hw ha => ?peer,
    fun d op w lanes ret hk hw hr => ?atomRsp, fun d m sat hk hw hr => ?store, fun off n sat hk hw hr => ?semRel,
    fun off n hk hw hr => ?grant, fun off n d b k blk g since hk hb hsrc hblk hres hg hh hopen => ?wake, fun hw hr => ?refused⟩
  case peer =>
    have hp := awaitsPeer_away (s := s) hw ha
    constructor
    · show execData id _ s = _
      simp only [execData, hq, hk, hw, hp]
      rfl
    · show execData id _ s = _
      simp [execData, hq, hk, hw, hp, ha]
  case atomRsp =>
    show execAtomRsp id d s = _
    simp [execAtomRsp, hq, hk, hw, hr]
  case store =>
    show execCmp ⟨id, sat⟩ s = _
    cases hh : q.home <;> simp_all [execCmp, MemReq.remote]
  case semRel =>
    show execCmp ⟨id, sat⟩ s = _
    cases hh : q.home <;> simp_all [execCmp, MemReq.remote]
    cases q.src <;> cases sat <;> rfl
  case grant =>
    show execSemGrant id s = _
    simp [execSemGrant, hq, hk, hw, hr, State.stageReq]
  case wake =>
    have hf : s.halfOf q = halfOfCore blk.core := by simp [State.halfOf, hsrc, hblk]
    show execSemWake id s = _
    simp only [execSemWake, hq, hf, hopen, hk, hb, hsrc, hblk, hg, hres, hh, Bool.not_true, Bool.false_eq_true, if_false, if_true,
      ne_eq, not_true_eq_false]
  case refused =>
    show execRspErr id s = _
    simp [execRspErr, hq, hw, hr]

section
variable {s : State} {line : Nat}

/-- A host line for which requests wait is filled and serves them in order of arrival (R131, R212, R286). -/
theorem execHostCacheResponse_waiting (own : Bool) (data : BitVec 1024) (hu : s.host.up = true) {r : Nat × MemReq} {ws : List (Nat × MemReq)}
    (hw : s.hostWaiting line = r :: ws) {t : State}
    (ht : (s.hostWrite (line * 128) (lineBytes data)).llcFill ⟨true, line⟩ r.2.access data 0xF = some t) {t1 t2 t3 : State}
    (h1 : t1 = { t with hostLines := t.hostLines.set line (if own then .exclusive else .shared) })
    (h2 : t2 = (r :: ws).foldl (fun s r => s.setReq r.1 { r.2 with stage := .flight, via := { r.2.via with fetched := true } }) t1)
    (h3 : t3 = (sortOn (fun (r : Nat × MemReq) => r.2.via.arr.getD 0) (r :: ws)).foldl (fun s r => (s.serveReq r.1).getD s) t2) :
    execHostCacheResponse line own data s = .next (if own then (t3.wakeLine (.host line)).getD t3 else t3) := by
  subst h1 h2 h3
  have hc : (!s.host.up || (decide (r :: ws = []) && !(s.hostWaiters line && !s.hostHeld line own))) = false := by simp [hu]
  have ha : (((r :: ws).head?.map (fun r => r.2.access)).getD ⟨30, .engine, 0⟩) = r.2.access := rfl
  simp only [execHostCacheResponse, hw, hc, ha, ht]
  rfl

end

/-- Settles O19: a line that arrives by `execHostCacheResponse_waiting`, a snoop by the cases of whether the slice holds the line. -/
theorem hostLinesComeAndGo : Obligations.HostLinesComeAndGo := by
  intro s line
  refine ⟨fun own data r ws t hu hw ht => execHostCacheResponse_waiting own data hu hw ht rfl rfl rfl, fun inv h => ?none,
    fun key e c hf hc => ?held⟩
  case none =>
    show execH2dSnoop line inv s = _
    unfold execH2dSnoop
    split
    · simp_all
    · rfl
  case held =>
    intro t u
    constructor
    · show execH2dSnoop line false s = _
      simp only [execH2dSnoop, hf, hc]
      rfl
    · show execH2dSnoop line true s = _
      simp only [execH2dSnoop, hf, hc]
      exact (apply_ite _ _ _ _).symm

end Sys2Proof.Machine
end

section
/-! TLD and TST at their tiles, and tiles of peers (R94 to R97, R309, R313, Table 3-10). -/

namespace Sys2Proof.Machine

/-! ## What a tile's state means to a reader (Table 3-10) -/

section
variable {s : State} {t : TileAt}

theorem tileMeets_zero (h : (s.tssAt t.key).state = .zero) : s.tileMeets t = .zero := by simp only [State.tileMeets, h]
theorem tileMeets_spent (h : (s.tssAt t.key).state = .spent) : s.tileMeets t = .spent := by simp only [State.tileMeets, h]
theorem tileMeets_stale (h : (s.tssAt t.key).state = .stale) : s.tileMeets t = .stale := by simp only [State.tileMeets, h]

theorem tileMeets_bad (h : (s.tssAt t.key).state = .poison
    ∨ ((s.tssAt t.key).state = .opened ∧ (s.openTiles.get ⟨0, 0, false, 0⟩ t.key).poisonMask ≠ 0)) : s.tileMeets t = .bad := by
  rcases h with h | ⟨h, hm⟩
  · simp only [State.tileMeets, h]
  · simp only [State.tileMeets, h]; exact if_pos hm

theorem tileMeets_unverified (h : (s.tssAt t.key).state = .opened) (hm : (s.openTiles.get ⟨0, 0, false, 0⟩ t.key).poisonMask = 0) :
    s.tileMeets t = .unverified := by
  simp only [State.tileMeets, h]; exact if_neg (not_not.2 hm)

theorem tileMeets_sound (h : (s.tssAt t.key).state = .valid) (hc : crc32c (s.tileBytes t) = (s.tssAt t.key).crc) :
    s.tileMeets t = .sound := by
  simp only [State.tileMeets, h]; exact if_pos hc

theorem tileMeets_corrupt (h : (s.tssAt t.key).state = .valid) (hc : ¬crc32c (s.tileBytes t) = (s.tssAt t.key).crc) :
    s.tileMeets t = .corrupt := by
  simp only [State.tileMeets, h]; exact if_neg hc

end

/-! ## Whole tiles at their home -/

/-- A request whose tile is at hand finds every line there (R242). -/
theorem TileRead.read {s : State} {id : Nat} {q0 : MemReq} {n0 : Nat} {t : TileAt} {q : MemReq} {u : State}
    (h : TileRead s id q0 n0 t q u) : s.tileRead id q0 n0 = (u, some (q, t, true)) := by
  obtain ⟨v, w, hv, hw, hu⟩ := h.answered
  have hl : t.lines.any (fun l => s.lineBusy 0 l) = false := by simpa using h.idle
  simp only [State.tileRead, h.tile, h.entry, hl, hv, hw, hu, Bool.false_eq_true, if_false]

/-- How the last tile of a TLD ends its TLD_TOKEN_COMPLETE, by what fetching it came to. -/
def Fetch.tldEnd (f : Fetch) (o : TileOp) (op : Nat) : Out :=
  match f with
  | .got s => .next ((s.tldTook op 0).tokenDone o op)
  | .held s => .next s
  | .ended s => .next { s with tileOps := s.tileOps.erase op }

section
variable {s w : State} {op : Nat} {o : TileOp} {b : Block} {t : TileAt} {q : MemReq}

/-- A TLD of one tile of this device ends as fetching the tile does (R94). -/
theorem OneTile.completes (h : OneTile s op o b t q w) :
    ∃ u : State, u.comeBack q 3 2048 = some w ∧ exec (.tldTokenComplete op) s = (u.tldMeets s.nextId q o b.task 0 t).tldEnd o op := by
  obtain ⟨n0, hn, u, hu, hr⟩ := h.home
  refine ⟨u, hu, ?_⟩
  have hf : s.fetchDev op o b.task 0 n0 = u.tldMeets s.nextId q o b.task 0 t := by
    simp only [State.fetchDev, hr.read]
  have ht : s.fetchTile op o b.task 0 = u.tldMeets s.nextId q o b.task 0 t := by
    simp only [State.fetchTile, h.unasked, h.pool, hn, hf, Bool.false_eq_true, if_false]
  have hl : (List.range o.count).filter (fun k => !o.lines.contains (16 * k)) = [0] := by simp [h.one, h.fresh]
  have hc : (o.store || s.fw.fatal || decide (b.phase ≠ .resident) && decide (b.phase ≠ .leaving)) = false := by
    simp [h.load, h.sound, h.resident]
  show execTldTokenComplete op s = _
  simp only [execTldTokenComplete, h.held, h.block, hc, hl, State.fetchTiles, ht, Bool.false_eq_true, if_false]
  cases u.tldMeets s.nextId q o b.task 0 t <;> rfl

/-- What a TLD's tile comes to in the state in which it came back over the hinge (Table 3-10). -/
def State.tldBack (w : State) (id : Nat) (q : MemReq) (o : TileOp) (task k : Nat) (t : TileAt) : Fetch :=
  match w.tileMeets t with
  | .zero => .got ((w.endReq id q).putTile o k none)
  | .spent =>
    if !(w.part o.part).spentFlag then .ended ((w.endReq id q).endTask task .spentRead o.pc)
    else .got ((((w.endReq id q).spentTileBytes t).2.raise task flagSpentSeen).putTile o k (some ((w.endReq id q).spentTileBytes t).1))
  | .bad => if w.repairable t.line0 then .held (w.stageReq id q .waiting) else .ended ((w.endReq id q).endTask task .poison o.pc)
  | .stale =>
    if !w.twinHere then .ended ((w.endReq id q).endTask task .peerUnreachable o.pc)
    else if w.portGroup w.twinNum = [] then .held (w.endReq id q)
    else .held (((w.stageReq id q .waiting).raise task flagFallback).askTwin id t.line0 .rdTile)
  | .corrupt => .ended (((w.endReq id q).corruptTile t).endTask task .tileCorrupt o.pc)
  | .unverified => .got (((w.endReq id q).raise task flagUnverified).putTile o k (some (w.tileBytes t)))
  | .sound =>
    .got ((if w.codedLost t.line0 then (w.endReq id q).raise task flagFallback else w.endReq id q).putTile o k (some (w.tileBytes t)))

theorem tldMeets_back {u : State} (hu : u.comeBack q 3 2048 = some w) (id task k : Nat) :
    u.tldMeets id q o task k t = w.tldBack id q o task k t := by
  simp only [State.tldMeets, hu]
  rfl

end

/-- Settles O20: `OneTile.completes` and what the tile's state means (`tileMeets_…`). -/
theorem tldFollowsTileState : Obligations.TldFollowsTileState := by
  intro s w op o b t q h back copied ends st masked sums
  obtain ⟨u, hu, he⟩ := h.completes
  have meets (f : Fetch) (hf : w.tldBack s.nextId q o b.task 0 t = f) : exec (.tldTokenComplete op) s = f.tldEnd o op :=
    he.trans (congrArg (·.tldEnd o op) ((tldMeets_back hu s.nextId b.task 0).trans hf))
  refine ⟨fun hs => ?zero, fun hs hp => ?spentRead, fun hs hp => ?spentSeen, fun hs hr => ?bad, fun hs hm => ?opened,
    fun hs hc => ?corrupt, fun hs hc hl => ?sound, fun hs ht => ?twinGone, fun hs ht hp => ?twin⟩
  case zero => exact meets (.got (back.putTile o 0 none)) (by simp only [State.tldBack, tileMeets_zero hs]; rfl)
  case spentRead => exact meets (.ended (back.endTask b.task .spentRead o.pc)) (by simp only [State.tldBack, tileMeets_spent hs, hp]; rfl)
  case spentSeen =>
    exact meets (.got (((back.spentTileBytes t).2.raise b.task flagSpentSeen).putTile o 0 (some (back.spentTileBytes t).1)))
      (by simp only [State.tldBack, tileMeets_spent hs, hp]; rfl)
  case bad => exact meets (.ended (back.endTask b.task .poison o.pc)) (by simp only [State.tldBack, tileMeets_bad hs, hr]; rfl)
  case opened =>
    exact meets (.got ((back.raise b.task flagUnverified).putTile o 0 (some (w.tileBytes t))))
      (by simp only [State.tldBack, tileMeets_unverified hs hm]; rfl)
  case corrupt =>
    exact meets (.ended ((back.corruptTile t).endTask b.task .tileCorrupt o.pc)) (by simp only [State.tldBack, tileMeets_corrupt hs hc]; rfl)
  case sound => exact meets (.got (back.putTile o 0 (some (w.tileBytes t)))) (by simp only [State.tldBack, tileMeets_sound hs hc, hl]; rfl)
  case twinGone => exact meets (.ended (back.endTask b.task .peerUnreachable o.pc)) (by simp only [State.tldBack, tileMeets_stale hs, ht]; rfl)
  case twin =>
    exact meets (.held (((w.stageReq s.nextId q .waiting).raise b.task flagFallback).askTwin s.nextId t.line0 .rdTile))
      (by simp only [State.tldBack, tileMeets_stale hs, ht]; exact if_neg hp)

end Sys2Proof.Machine
end

section
/-! Lines of a TST at their tile and its token (R97, R309). -/

namespace Sys2Proof.Machine

section
variable {s : State} {op : Nat} {o : TileOp} {b : Block} {k l : Nat}

/-- A line of a TST whose unit was not written since reads the block as it is (R98). -/
theorem tstBlock_calm (h : o.smudged = []) : s.tstBlock o b = (s, b) := if_pos h

/-- What lets a line of a TST go to its tile (R97, R219). -/
structure TstReady (s : State) (op : Nat) (o : TileOp) (b : Block) (k l : Nat) : Prop where
  held : s.tileOps.get? op = some o
  store : o.store = true
  block : s.blocks.get? o.block = some b
  count : k < o.count
  fresh : o.lines.contains (16 * k + l) = false
  placed : s.anyUnplaced o.after = false
  left : s.anyLeft o.seen = false
  pool : s.poolFailed o.part (tileVa o.va o.stride k) = false

/-- A line of a TST goes to its tile of this device. -/
theorem TstReady.dev (h : TstReady s op o b k l) {n0 : Nat}
    (hh : ∃ h, s.homeOf o.part (tileVa o.va o.stride k) = some h ∧ s.zeroHome h = .dev n0) :
    s.tstLine op k l = (s.tstDev op o b (s.forward n0) k l).map State.retryTxns := by
  obtain ⟨g, hg, hz⟩ := hh
  have hc : (!o.store || decide (o.count ≤ k) || o.lines.contains (16 * k + l) || s.anyUnplaced o.after || s.anyLeft o.seen) = false := by
    have hk : ¬ o.count ≤ k := Nat.not_le.2 h.count
    simp only [h.store, hk, h.fresh, h.placed, h.left, Bool.not_true, decide_false, Bool.or_self]
  simp only [State.tstLine, h.held, h.block, hg, hz, hc, h.pool, Bool.false_eq_true, if_false]

/-- A line of a TST goes as a whole tile to its peer. -/
theorem TstReady.peer (h : TstReady s op o b k l) (hs : o.smudged = []) {d e n : Nat}
    (hh : ∃ h, s.homeOf o.part (tileVa o.va o.stride k) = some h ∧ s.zeroHome h = .peer d e n) (hd : s.lbx.lost.contains d = false)
    (hp : s.portsTo o.part d ≠ []) (ht : s.pins.twinOut = true) (hr : s.reqs.any (fun _ q => q.kind == .tile true op k) = false)
    {c : State} {q : MemReq}
    (hx : s.cross (o.request op (tileVa o.va o.stride k) (.peer d e n) (.tile true op k) .waiting) = some (c, q)) :
    s.tstLine op k l = some ((c.addReq q).2.toPeer d n .wrTile [(c.addReq q).1, e, n] (o.tileData b k)) := by
  obtain ⟨g, hg, hz⟩ := hh
  have hc : (!o.store || decide (o.count ≤ k) || o.lines.contains (16 * k + l) || s.anyUnplaced o.after || s.anyLeft o.seen) = false := by
    have hk : ¬ o.count ≤ k := Nat.not_le.2 h.count
    simp only [h.store, hk, h.fresh, h.placed, h.left, Bool.not_true, decide_false, Bool.or_self]
  have hw : (decide (s.portsTo o.part d = []) || !s.pins.twinOut || s.reqs.any (fun _ q => q.kind == .tile true op k)) = false := by
    simp only [hp, ht, hr, decide_false, Bool.not_true, Bool.or_self]
  simp only [State.tstLine, h.held, h.block, hg, hz, hc, h.pool, hd, hw, tstBlock_calm hs, Bool.false_eq_true, if_false]
  exact Option.bind_eq_some_iff.2 ⟨(c, q), hx, rfl⟩

/-- What the home of a TST's line needs before the line is taken: nothing keeps the line busy and it passes the directory as a write, which
leaves the state `u` (R279, R305). -/
structure TstPasses (s : State) (line : Nat) (u : State) : Prop where
  calm : s.spentDue line = false
  idle : s.lineBusy 0 line = false
  entry : s.tssMeet line = s
  passes : s.access line .write none false = some (true, u)
  single : u.mirrored line = false

variable {base : Nat} {u : State}

/-- A line of a TST is written at its tile: the first line begins the write and the last ends it (R97, R309). -/
theorem tstDev_line (h : TstPasses s (base / 16 * 16 + l) u) (hs : o.smudged = [])
    (hm : b.marked ((o.laddr + 2048 * k) / 2048) = false ∨ o.opened.contains k = true) {c : State} {q : MemReq}
    (hc : u.cross (o.request op (tileVa o.va o.stride k + 128 * l) (.dev (base / 16 * 16 + l)) (.store 0 allBytes) .flight) = some (c, q))
    {v w x : State} (hv : (if o.opened.contains k then some c else c.beginWrite (base / 16 * 16 + l)) = some v)
    (hw : (v.countLookup o.part .tld o.hint (v.holdsAll (.dev (base / 16 * 16 + l)) allBytes)).openLine (base / 16 * 16 + l)
      (o.localLine b k l) (.alloc o.access) = some w) {mine : List Nat} (hmine : mine = (16 * k + l) :: o.lines)
    (hx : (if (mine.filter (fun n => n / 16 = k)).length = 16 then w.endWrite (base / 16 * 16 + l) else w).wakeLine
      (.dev (base / 16 * 16 + l)) = some x) :
    s.tstDev op o b base k l
      = some (x.setTileOp op { o with lines := mine, opened := if o.opened.contains k then o.opened else k :: o.opened }) := by
  have hmark : (b.marked ((o.laddr + 2048 * k) / 2048) && !o.opened.contains k) = false := by
    rcases hm with hm | hm <;> simp only [hm, Bool.false_and, Bool.not_true, Bool.and_false]
  have hmir : (u.mirrored (base / 16 * 16 + l) && !o.opened.contains (100 + k)) = false := by simp only [h.single, Bool.false_and]
  have ht : w.tstTook op o k l (base / 16 * 16 + l)
      = some (x.setTileOp op { o with lines := mine, opened := if o.opened.contains k then o.opened else k :: o.opened }) := by
    subst hmine
    exact Option.bind_eq_some_iff.2 ⟨x, hx, rfl⟩
  simp only [State.tstDev, h.calm, h.idle, h.entry, h.passes, Bool.and_false, Bool.false_eq_true, if_false]
  refine Option.bind_eq_some_iff.2 ⟨(true, u), rfl, ?_⟩
  simp only [tstBlock_calm hs, hmir, hmark, Bool.not_true, Bool.false_eq_true, if_false]
  refine Option.bind_eq_some_iff.2 ⟨(c, q), hc, ?_⟩
  by_cases hop : o.opened.contains k = true
  · rw [if_pos hop] at hv ⊢
    exact Option.bind_eq_some_iff.2 ⟨v, hv, Option.bind_eq_some_iff.2 ⟨w, hw, ht⟩⟩
  · rw [if_neg hop] at hv ⊢
    exact Option.bind_eq_some_iff.2 ⟨v, hv, Option.bind_eq_some_iff.2 ⟨w, hw, ht⟩⟩

/-- A zero-marked unit of a TST makes its tile ZERO at once (R97). -/
theorem tstDev_zero (h : TstPasses s (base / 16 * 16 + l) u) (hs : o.smudged = [])
    (hm : b.marked ((o.laddr + 2048 * k) / 2048) = true) (ho : o.opened.contains k = false) {v : State}
    (hv : u.accessAll ((List.range 16).map (fun j => base / 16 * 16 + j)) .write none false = some (true, v)) {c : State} {q : MemReq}
    (hc : v.cross { o.request op (tileVa o.va o.stride k + 128 * l) (.dev (base / 16 * 16 + l)) (.store 0 allBytes) .flight with
      kind := .spent } = some (c, q)) {w : State} (hw : c.zeroTile (base / 16 * 16 + l) = some w) :
    s.tstDev op o b base k l = some (w.setTileOp op (o.acceptTile k)) := by
  have hmir : (u.mirrored (base / 16 * 16 + l) && !o.opened.contains (100 + k)) = false := by simp only [h.single, Bool.false_and]
  simp only [State.tstDev, h.calm, h.idle, h.entry, h.passes, Bool.and_false, Bool.false_eq_true, if_false]
  refine Option.bind_eq_some_iff.2 ⟨(true, u), rfl, ?_⟩
  simp only [tstBlock_calm hs, hmir, hm, ho, Bool.not_true, Bool.not_false, Bool.and_self, Bool.false_eq_true, if_false, if_true]
  exact Option.bind_eq_some_iff.2 ⟨(true, v), hv, Option.bind_eq_some_iff.2 ⟨(c, q), hc, Option.bind_eq_some_iff.2 ⟨w, hw, rfl⟩⟩⟩

/-- The token of a TST whose lines are accepted completes (R93, R97). -/
theorem execTstTokenComplete_done (ho : s.tileOps.get? op = some o) (hs : o.store = true) (hb : s.blocks.get? o.block = some b)
    (hl : 16 * o.count ≤ o.lines.length) (ht : s.tstOpen op = false) {g : Group} (hg : b.group? o.group = some g) (hlt : o.group < 32) :
    execTstTokenComplete op s = .next ({ s with tileOps := s.tileOps.erase op }.setBlock o.block
      (b.putGroup o.group (g.tokenDone o.slot)).settleBars) := by
  have hc : (!o.store || s.tstOpen op || decide (o.lines.length < 16 * o.count)) = false := by
    have hn : ¬ o.lines.length < 16 * o.count := Nat.not_lt.2 hl
    simp only [hs, ht, hn, decide_false, Bool.not_true, Bool.or_self]
  have hn : (Fin.ofNat 32 o.group).val = o.group := Nat.mod_eq_of_lt hlt
  simp only [execTstTokenComplete, ho, hc, State.tokenDone, State.group?, hb, Option.bind, hn, hg, Bool.false_eq_true, if_false]

end

/-- Settles O21: a line by `TstReady.dev` and `tstDev_line` or `tstDev_zero`, a peer's tile by `TstReady.peer`, the token by
`execTstTokenComplete_done`. -/
theorem tstLinesAndCompletion : Obligations.TstLinesAndCompletion := by
  intro s op o b ho hstore hb hf
  have wr (k l : Fin 16) {t : State} (h : s.tstLine op k.val l.val = some t) : exec (.wr (.tst op k l)) s = .next t := by
    show execWr (.tst op k l) s = _
    simp only [execWr, hf, h, Bool.false_eq_true, if_false, Option.getD_some]
  refine ⟨?dev, ?peer, fun hl ht g hg hlt => execTstTokenComplete_done ho hstore hb hl ht hg hlt⟩
  case dev =>
    intro k l n0 line q u c v w x hk hl ha hseen hsm hp hh hline hsd hbusy htss hacc hmir r marked mine
    subst hline
    have hr : TstReady s op o b k l := ⟨ho, hstore, hb, hk, hl, ha, hseen, hp⟩
    have hpass : TstPasses s (s.forward n0 / 16 * 16 + l) u := ⟨hsd, hbusy, htss, hacc, hmir⟩
    refine ⟨fun hm hc hv hw hx => wr k l ?_, fun hm hop hv hc hw => wr k l ?_⟩
    · rw [hr.dev hh, tstDev_line hpass hsm hm hc hv hw rfl hx]; rfl
    · rw [hr.dev hh, tstDev_zero hpass hsm hm hop hv hc hw]; rfl
  case peer =>
    intro k l d e n c q hk hl ha hseen hsm hp hh hlost hports htw hreq hx r
    exact wr k l (TstReady.peer ⟨ho, hstore, hb, hk, hl, ha, hseen, hp⟩ hsm hh hlost hports htw hreq hx)

end Sys2Proof.Machine
end

section
/-! Whole tiles of peers, memory controllers, repair of tiles and the host's memory accesses (R271, R301 to R305, R313, R320, R466, R503). -/

namespace Sys2Proof.Machine

/-! ## Tiles of peers -/

section
variable {s : State} {id : Nat} {q : MemReq}

/-- A peer's read of a tile is answered over its port. -/
theorem answerTile_outer {a tag : Nat} {x : Option Nat} (hs : q.src = .outer a tag x) (code : Nat) (good : Bool) (data : List Byte) :
    s.answerTile id q code good data
      = (((s.comeBack q 3 data.length).getD s).endReq id q).toPeer (a - 2)
          ((((s.comeBack q 3 data.length).getD s).endReq id q).peerLine q) .dataTile [tag, code, if good then 1 else 0] data := by
  simp only [State.answerTile, hs]

/-- A peer's read of a tile that the port admits enters its home and is served there as its tile is met. -/
theorem serveTile_meets {q0 : MemReq} {n : Nat} {t : TileAt} {u : State} (hq : s.reqs.get? id = some q0) (hh : q0.home = .dev n)
    {op k : Nat} (hk : q0.kind = .tile false op k) (hs : q0.stage = .flight) (ha : q0.via.arr.isSome = true)
    (hr : TileRead s id q0 n t q u) : s.serveTile id = u.peerMeets id q t := by
  have hc : (q0.via.arr.isNone || decide (q0.stage ≠ .flight)) = false := by
    rw [← Option.not_isSome, ha, hs]
    rfl
  simp only [State.serveTile, hq, hk, hh, hc, hr.read, Bool.false_eq_true, if_false]

/-- A tile that a peer returns is taken for the request that awaits it. -/
theorem execDataTile_awaited {op k : Nat} (hq : s.reqs.get? id = some q) (hk : q.kind = .tile false op k) (hp : s.awaitsPeer q = true)
    (state : Fin 6) (crcOk : Bool) (data : List (BitVec 1024)) {bytes : List Byte}
    (hb : bytes = ((List.range 16).map (fun l => lineBytes (data.getD l 0))).flatten) {v : State}
    (hv : v = if q.home.away then (s.comeBack q 3 bytes.length).getD s else s) :
    execDataTile id state crcOk data s
      = match state.val, crcOk with
        | 0, true => .next (v.takeTile id op k q (some bytes))
        | 0, false => .next (v.tileFail id q .tileCorrupt)
        | 1, _ => .next ((v.reqRaise q flagUnverified).takeTile id op k q (some bytes))
        | 2, _ => .next (v.takeTile id op k q none)
        | 3, _ =>
          if !q.outer && !(v.part q.part).spentFlag then .next (v.tileFail id q .spentRead)
          else .next (({ v with freeCtr := v.freeCtr + 1 }.reqRaise q flagSpentSeen).takeTile id op k q
            (some ((List.range 16).map (fun l => lineBytes (Config.freeLine v.freeCtr l))).flatten))
        | 4, true => .next ((v.reqRaise q flagReplayed).takeTile id op k q (some bytes))
        | 4, false => .next (v.tileFail id q .poison)
        | _, true => .next ((v.reqRaise q flagFallback).takeTile id op k q (some bytes))
        | _, false => .next (v.tileFail id q .peerUnreachable) := by
  subst hv hb
  simp only [execDataTile, hq, hk, hp, Bool.not_true, Bool.false_eq_true, if_false] <;> rfl

/-- A peer's tile write that its home takes at once is acknowledged (R503). -/
theorem execWrTile_written {m : PeerMsg} (hp : s.portGroup m.d.val ≠ []) (hf : s.fw.fatal = false) {p va n0 : Nat}
    (ha : s.admitPeer m 2048 true = some (p, va, n0)) {t : TileAt} (ht : s.tileOfLine (s.forward n0) = some t)
    (hi : ∀ l ∈ t.lines, s.lineBusy 0 l = false) {u : State} (hu : s.accessAll t.lines .write none false = some (true, u))
    {data : List (BitVec 1024)} (hd : data ≠ []) {v : State}
    (hv : (t.lines.foldl (fun s l => s.countLookup p .peer 0 (s.holdsAll (.dev l) allBytes)) u).fullWrite (s.forward n0) data (.outer 1)
      = some v) {w : State} (hw : t.lines.foldlM (fun s l => s.wakeLine (.dev l)) v = some w) :
    execWrTile m data s = .next (w.retryTxns.toPeer m.d.val (s.forward n0) .cmp [m.tag, 0] []) := by
  have hl : t.lines.any (fun l => s.lineBusy 0 l) = false := by simpa using hi
  simp only [execWrTile, hp, hf, ha, ht, hl, hu, hd, hv, hw, decide_false, Bool.or_self, Bool.false_eq_true, if_false, Option.bind]

end

/-- Settles O22: a read by `serveTile_meets` and what the tile's state means, a write by `execWrTile_written`, a returned tile by
`execDataTile_awaited`. -/
theorem tilesOfPeers : Obligations.TilesOfPeers := by
  intro s m hp hf
  refine ⟨fun hr ha => ?readRefused, fun data ha => ?writeRefused, ?read,
    fun p va n0 data t u v w ha ht hi hu hd hv hw => execWrTile_written hp hf ha ht hi hu hd hv hw, ?back⟩
  case readRefused =>
    show execRdTile (.peer m) s = _
    simp [execRdTile, hp, hf, hr, ha]
  case writeRefused =>
    show execWrTile m data s = _
    simp [execWrTile, hp, hf, ha]
  case read =>
    intro p va n a q0 q t u hr ha r harr hq0 hhome hkind hstage hsrc hvia htr hsrc' sends st masked sums
    have met : exec (.rdTile (.peer m)) s = .next (u.peerMeets r.1 q t) := by
      show execRdTile (.peer m) s = _
      simp only [execRdTile, hp, hf, hr, ha, decide_false, Bool.not_true, Bool.or_self, Bool.false_eq_true, if_false]
      exact congrArg Host.Outcome.next ((congrArg (fun x => State.serveTile (Option.getD x r.2) r.1) harr).trans
        (serveTile_meets hq0 hhome hkind hstage hvia htr))
    have hs : q.src = .outer (2 + m.d.val) m.tag (m.exp.map (·.val)) := hsrc'.trans hsrc
    have answered (v : State) (code : Nat) (good : Bool) (data : List Byte) :
        Host.Outcome.next (v.answerTile r.1 q code good data) = sends v code (if good then 1 else 0) data := by
      rw [answerTile_outer hs, Nat.add_sub_cancel_left]
    refine ⟨fun hst hc hfe => ?_, fun hst hc => ?_, fun hst hm => ?_, fun hst => ?_, fun hst => ?_, fun hst hrep => ?_⟩
    · rw [met, State.peerMeets, tileMeets_sound hst hc, hfe]
      exact answered u 0 true _
    · rw [met, State.peerMeets, tileMeets_corrupt hst hc]
      simp only [State.tileFail, hs]
      exact answered (u.corruptTile t) 0 false _
    · rw [met, State.peerMeets, tileMeets_unverified hst hm]
      exact answered u 1 true _
    · rw [met, State.peerMeets, tileMeets_zero hst]
      exact answered u 2 true _
    · rw [met, State.peerMeets, tileMeets_spent hst]
      exact answered u 3 true _
    · rw [met, State.peerMeets, tileMeets_bad hst]
      simp only [hrep, Bool.false_eq_true, if_false, State.tileFail, hs]
      exact answered u 4 false _
  case back =>
    intro id q op k data hq hk hw bytes v free
    have back (state : Fin 6) (ok : Bool) := execDataTile_awaited hq hk hw state ok data (bytes := bytes) rfl (v := v) rfl
    refine ⟨back 0 true, back 0 false, fun ok => ⟨?_, ?_, fun ho hs => ?_, fun hs => ?_⟩, back 4 true, back 4 false, back 5 true, back 5 false⟩
    · exact back 1 ok
    · exact back 2 ok
    · exact (back 3 ok).trans (if_pos (by simp only [ho, hs, Bool.not_false, Bool.and_self]))
    · exact (back 3 ok).trans (if_neg (by simp only [hs, Bool.not_true, Bool.and_false, Bool.false_eq_true, not_false_eq_true]))

end Sys2Proof.Machine
end

section
/-! Memory controllers, repair of tiles, and the host's memory accesses (R271, R301 to R305, R320, R323, R466). -/

namespace Sys2Proof.Machine

section
variable {s : State}

/-! ## TSS entries -/

theorem tssAt_setTss (t k : Nat) (e : Tss) : (s.setTss t e).tssAt k = if k = t then e else s.tssAt k := by
  by_cases h : k = t
  · subst h; simp [State.tssAt, State.setTss, Tab.get_put_self]
  · simp [State.tssAt, State.setTss, Tab.get_put_ne, h]

theorem tssAt_tileTo (t k : Nat) (st : TileState) : (s.tileTo t st).tssAt k = if k = t then ⟨st, 0, 0⟩ else s.tssAt k :=
  tssAt_setTss t k ⟨st, 0, 0⟩

/-- An event changes no tile. -/
@[simp] theorem eventAt_tss (code unit data : Nat) : (s.eventAt code unit data).tss = s.tss := by
  simp only [State.eventAt]
  split_ifs <;> rfl

@[simp] theorem rowEvent_tssAt (code ch row k : Nat) : (s.rowEvent code ch row).tssAt k = s.tssAt k := by
  simp [State.tssAt, State.rowEvent]

/-- Tiles made POISON one after the other are POISON. -/
theorem foldl_poison (key : Nat → Nat) {l : List Nat} {k : Nat} (f : State → Nat → State)
    (hf : ∀ s j i, (f s j).tssAt i = if i = key j then ⟨.poison, 0, 0⟩ else s.tssAt i)
    (h : k ∈ l ∨ (s.tssAt (key k)).state = .poison) : ((l.foldl f s).tssAt (key k)).state = .poison := by
  induction l generalizing s with
  | nil => simpa using h
  | cons j l ih =>
    refine ih ?_
    rw [hf]
    by_cases hj : key k = key j
    · simp [hj]
    · rcases h with h | h
      · rcases List.mem_cons.1 h with rfl | h
        · exact absurd rfl hj
        · exact .inl h
      · exact .inr (by rw [if_neg hj, h])

/-- A lost TSS line makes each of its sixteen tiles POISON (R305). -/
theorem tssLost_poison (ch row k : Nat) (h : k < 16) : ((s.tssLost ch row).tssAt (tileKey ch (row / 16 * 16 + k))).state = .poison := by
  unfold State.tssLost
  rw [rowEvent_tssAt]
  exact foldl_poison (fun k => tileKey ch (row / 16 * 16 + k)) _ (fun s j i => tssAt_tileTo _ _ _) (.inl (List.mem_range.2 h))

/-! ## Memory controllers -/

/-- An access that may issue has no older access to the same sector before it. -/
theorem mem_ready {p : PseudoChan} {k : Nat} {e : McEntry} (h : (k, e) ∈ p.ready) :
    p.entries[k]? = some e ∧ e.issued = false ∧ ∀ o ∈ p.entries.take k, o.clash e = false := by
  simp only [PseudoChan.ready, List.mem_map, List.mem_filter, Prod.exists, Prod.mk.injEq, Bool.and_eq_true, Bool.not_eq_true'] at h
  obtain ⟨a, i, ⟨hm, hi, hc⟩, rfl, rfl⟩ := h
  refine ⟨List.mem_zipIdx_iff_getElem?.1 hm, hi, fun o ho => ?_⟩
  simpa using List.any_eq_false.1 hc o ho

/-- The access picked is one that may issue (R271). -/
theorem pick_mem_ready {p : PseudoChan} {k : Nat} {e : McEntry} (h : p.pick = some (k, e)) : (k, e) ∈ p.ready := by
  unfold PseudoChan.pick at h
  split at h
  · cases h
  · rename_i a l hr
    rw [hr]
    split at h
    · cases h; exact List.mem_cons_self
    · rename_i r hf
      have hm := List.mem_of_find?_eq_some hf
      split at h <;> cases h
      · exact List.mem_cons_self
      · exact hm

end

section
variable {s : State}

/-- A read of a request whose tile holds data is answered with the line that memory returned (R253). -/
theorem readBack_data {e : McEntry} {id : Nat} {q : MemReq} {fill : Bool} {v w : State} (hv : s.discoverBad e.dpaLine e.sectors = v)
    (hw : (if fill then v.llcFill ⟨false, e.dpaLine⟩ q.access (v.devLine e.dpaLine) (e.sectors &&& ~~~(v.lineBad e.dpaLine))
      else some v) = some w) (hk : ∀ st op k, q.kind ≠ .tile st op k) (hr : q.isRead = true)
    (hm : w.readMeets e.dpaLine q.need = .data) : s.readBack e id q fill = some (w.readData id q e.dpaLine) := by
  have answered : (match w.readMeets e.dpaLine q.need with
      | .data => some (w.readData id q e.dpaLine)
      | m => w.readOther id q e.dpaLine m) = some (w.readData id q e.dpaLine) := by rw [hm]
  cases fill
  · obtain rfl : v = w := Option.some.inj hw
    simp only [State.readBack, hv, Bool.false_eq_true, if_false, hr, if_true]
    exact answered
  · rw [if_pos rfl] at hw
    simp only [State.readBack, hv, if_true, hr, hw]
    exact answered

/-- An issued read that returns does so to the request that waits for it, in the state in which its reports are counted (R301, R305). -/
theorem execMemReadComplete_back {pc : Fin 512} {k : Nat} {corrected bad : BitVec 4} {also : ReadReport} {e : McEntry}
    (he : (s.pseudoChan pc).entries[k]? = some e) (hi : e.issued = true) (hh : s.halted = false) {id : Nat} {q : MemReq}
    (hq : s.reqs.get? id = some q) (hs : q.stage = .waiting) {left found u : State}
    (hl : left = { s with
      pseudo := s.pseudo.put PseudoChan.init pc { s.pseudoChan pc with entries := (s.pseudoChan pc).entries.eraseIdx k } })
    (hf : found = ((left.corrected e.ch (popCount 4 ((corrected ||| s.latentIn e.ch e.row e.line 1) &&& e.sectors).toNat)).placeBad
      e.ch e.row e.line (bad &&& e.sectors)).onDieEcc e.ch also.onDie)
    (hu : u = if also.tssBad then found.tssLost e.ch e.row else found) :
    (e.kind = .fill id → execMemReadComplete pc k corrected bad also s = .next ((u.readBack e id q true).getD s))
    ∧ (e.kind = .outerRead id → execMemReadComplete pc k corrected bad also s = .next ((u.readBack e id q false).getD s)) := by
  subst hl hf hu
  constructor <;> intro hk <;>
    simp only [execMemReadComplete, he, hi, hh, hk, hq, hs, Bool.not_true, Bool.or_self, Bool.false_eq_true, if_false, if_true]

@[simp] theorem hbmWrite_pseudo (dpa tile line : Nat) (d : BitVec 1024) (m : BitVec 128) :
    (s.hbmWrite dpa tile line d m).pseudo = s.pseudo := rfl

theorem execMcIssue_write {pc : Fin 512} {k : Nat} {e : McEntry} (ho : s.memOpen (pc.val / 2) = true)
    (hp : (s.pseudoChan pc).pick = some (k, e)) (hw : e.writes = true) {aged : List McEntry}
    (ha : aged = (s.pseudoChan pc).entries.zipIdx.map (fun r =>
      if r.2 < k && !r.1.issued then { r.1 with age := r.1.age + 1 } else r.1)) {v : State}
    (hv : v = s.hbmWrite e.dpaLine (tileKey e.ch e.row) e.line e.data e.mask) :
    execMcIssue pc s = .next { v with pseudo := v.pseudo.put PseudoChan.init pc ⟨aged.eraseIdx k, some e.row⟩ }.retryTxns := by
  subst ha hv
  simp only [execMcIssue, ho, hp, hw, Bool.not_true, Bool.false_eq_true, if_false, if_true]

theorem execMcIssue_read {pc : Fin 512} {k : Nat} {e : McEntry} (ho : s.memOpen (pc.val / 2) = true)
    (hp : (s.pseudoChan pc).pick = some (k, e)) (hw : e.writes = false) {aged : List McEntry}
    (ha : aged = (s.pseudoChan pc).entries.zipIdx.map (fun r =>
      if r.2 < k && !r.1.issued then { r.1 with age := r.1.age + 1 } else r.1)) :
    execMcIssue pc s
      = .next { s with pseudo := s.pseudo.put PseudoChan.init pc ⟨aged.set k { e with issued := true }, some e.row⟩ } := by
  subst ha
  simp only [execMcIssue, ho, hp, hw, Bool.not_true, Bool.false_eq_true, if_false]

end

/-- Settles O23: the pick by `mem_ready`, the issue by `execMcIssue_picked`, a read that returns by `execMemReadComplete_back` and
`readBack_data`, a lost TSS line by `tssLost_poison`. -/
theorem memoryControllersWork : Obligations.MemoryControllersWork := by
  refine ⟨fun p k e h => mem_ready (pick_mem_ready h), fun s pc k e ho hp => ⟨fun hw => ?write, fun hw => ?read⟩, ?back,
    fun s ch row k hk => tssLost_poison ch row k hk⟩
  case write => 
    refine (execMcIssue_write ho hp hw rfl rfl).trans ?_
    rw [hbmWrite_pseudo]
  case read => exact execMcIssue_read ho hp hw rfl
  case back =>
    intro s pc k id corrected bad tssBad onDie e he hi hh queue left n found u v q hq hs hk hr hd
    have back := execMemReadComplete_back (corrected := corrected) (bad := bad) (also := ⟨tssBad, onDie⟩) he hi hh hq hs
      (left := left) rfl (found := found) rfl (u := u) rfl
    refine ⟨fun hkind w hw hm => (back.1 hkind).trans ?_, fun hkind => (back.2 hkind).trans ?_⟩
    · rw [readBack_data (fill := true) (v := v) rfl hw hk hr hm]; rfl
    · rw [readBack_data (fill := false) (v := v) rfl rfl hk hr hd]; rfl

section
variable {s : State} {line o : Nat} {t w : TileAt}

/-! ## Repair (R320, R321, R323) -/

/-- The state in which a repair has read the other copy, whose errors are found (R303, R320). -/
def State.repairRead (s : State) (w : TileAt) : State :=
  if (s.tssAt w.key).state = .valid then w.lines.foldl (fun s n => s.foundBad n 0xF false) s else s

theorem repair_eq (ho : s.otherCopy line = some o) (ht : s.tileOfLine line = some t) (hw : s.tileOfLine o = some w) :
    s.repair line
      = if ((s.repairRead w).tssAt w.key).state = .valid ∧ crc32c ((s.repairRead w).tileBytes w) = ((s.repairRead w).tssAt w.key).crc then
          (((List.range 16).foldl (fun v k => v.memWrite (t.line0 + k) t.ch t.row k ((w.lines.map (s.repairRead w).devLine).getD k 0) allBytes)
            ((s.repairRead w).dropTile t)).setTss t.key ⟨.valid, ((s.repairRead w).tssAt w.key).crc, 0⟩, true)
        else (((s.repairRead w).tileTo w.key .poison).tileTo t.key .poison, false) := by
  simp only [State.repair, ho, ht, hw]
  rfl

/-- What a repair does to a tile whose other copy lies at a tile: it is rewritten VALID, or both are POISON. -/
theorem repair_spec (ho : s.otherCopy line = some o) (ht : s.tileOfLine line = some t) (hw : s.tileOfLine o = some w) {u : State}
    {good : Bool} (h : s.repair line = (u, good)) :
    if good then (u.tssAt t.key).state = .valid else (u.tssAt t.key).state = .poison ∧ (u.tssAt w.key).state = .poison := by
  rw [repair_eq ho ht hw] at h
  split at h
  · obtain ⟨hu, rfl⟩ := Prod.mk.inj h
    simp only [← hu, tssAt_setTss, if_true]
  · obtain ⟨hu, rfl⟩ := Prod.mk.inj h
    simp only [← hu, tssAt_tileTo, if_true, Bool.false_eq_true, if_false, true_and]
    split <;> rfl

/-- What lets HALF_REPLICA_REPAIR work on a tile. -/
theorem execHalfReplicaRepair_runs (ht : s.tileOfLine line = some t) (hs : (s.tssAt t.key).state = .poison)
    (hr : s.repairable line = true) (ho : s.otherCopy line = some o) (hw : s.tileOfLine o = some w) (hmt : s.memOpen t.ch = true)
    (hmw : s.memOpen w.ch = true) (hl : s.tileMoving line = false) (hlo : s.tileMoving o = false) :
    execHalfReplicaRepair line s = match s.repair line with
      | (s, false) =>
        .next ({ s with mm := { s.mm with shared := s.mm.shared.map (fun (r : SharedRegion) => { r with quarantined := true }) } }.releaseTile line 0)
      | (s, true) =>
        let v := s.releaseTile line flagReplayed
        let n := v.repaired.get 0 t.key + 1
        let w : State := { v with repaired := v.repaired.put 0 t.key n }.rowEvent 0x202 t.ch t.row
        if n < 2 then .next w
        else .next { w with
          chans := w.chans.upd Chan.init t.ch (fun c => { c with softPpr := min (c.softPpr + 1) 255 })
          flash := { w.flash with repairs := w.flash.repairs ++ [⟨t.ch / 16, t.ch % 16, Config.bankRow t.row⟩] } : State } := by
  obtain ⟨p, hp, hpw⟩ : ∃ p, s.placeOf (o * 128) = some p ∧ (⟨o / 16 * 16, p.1, p.2⟩ : TileAt) = w := Option.map_eq_some_iff.1 hw
  have hch : w.ch = p.1 := by rw [← hpw]
  have hc : (decide ((s.tssAt t.key).state ≠ .poison) || !s.repairable line
      || !(s.memOpen t.ch && ((s.otherCopy line).bind (fun o => s.placeOf (o * 128))).any (fun p => s.memOpen p.1))
      || (s.tileMoving line || (s.otherCopy line).any s.tileMoving)) = false := by
    simp [hs, hr, ho, hp, hmt, ← hch, hmw, hl, hlo]
  rcases hrep : s.repair line with ⟨u, good⟩
  cases good <;> simp only [execHalfReplicaRepair, ht, hc, hrep, Bool.false_eq_true, if_false]

end

/-- Settles O24: a repair by `execHalfReplicaRepair_runs` and `repair_spec`. -/
theorem tilesAreRepaired : Obligations.TilesAreRepaired := by
  intro s line t ht
  refine ⟨?repair, fun crc data u hs hp hm hu => ?resync, fun hr hb => ?scrub⟩
  case repair =>
    intro o w hs hr ho hw hmt hmw hl hlo
    have run := execHalfReplicaRepair_runs ht hs hr ho hw hmt hmw hl hlo
    refine ⟨fun u hu => ⟨?_, repair_spec ho ht hw hu⟩, fun u hu => ⟨repair_spec ho ht hw hu, fun hn => ?_, fun hn => ?_⟩⟩
    · exact run.trans (by rw [hu])
    · exact run.trans (by rw [hu]; exact if_pos hn)
    · exact run.trans (by rw [hu]; exact if_neg (Nat.not_lt.2 hn))
  case resync =>
    have hc : (decide ((s.tssAt t.key).state ≠ .stale) || decide (s.portGroup s.twinNum = []) || t.lines.any (fun l => s.tileMoving l))
        = false := by simpa [hs, hp] using hm
    show execMirrorResync line ⟨crc, data⟩ s = _
    simp only [execMirrorResync, ht, hc, hu, Bool.false_eq_true, if_false]
  case scrub =>
    show execScrubPass s = _
    simp only [execScrubPass, hr, hb, Bool.not_true, Bool.or_self, Bool.false_eq_true, if_false]

section
variable {s : State} {hpa base size : Nat}

/-- A CXL.mem access that the decoder claims takes the memory out of self-refresh (R466). -/
theorem cxlMem_claimed (hd : s.host.decoder = some (base, size)) (hu : s.host.up = true) (hs : s.suspended 0 = false)
    (hm : s.host.memActive = true) (hlo : base ≤ hpa) (hhi : hpa < base + size) (body : Nat → State → State) :
    cxlMem hpa s body = .next (body base { s with power := { s.power with selfRefresh := false } }) := by
  have hc : (!s.host.up || s.suspended 0 || !s.host.memActive || decide (hpa < base) || decide (base + size ≤ hpa)) = false := by
    simp [hu, hs, hm, hlo, hhi]
  simp only [cxlMem, hd, hc, Bool.false_eq_true, if_false]

end

/-- Settles O25: every access by `cxlMem_claimed` and what its window frame shows. -/
theorem hostReadsAndWritesMemory : Obligations.HostReadsAndWritesMemory := by
  intro s hpa tag base size meta_ data mask hd hu hs hm hlo hhi w
  have read : execCxlMemRead hpa tag meta_ s = _ := cxlMem_claimed hd hu hs hm hlo hhi _
  have write : execCxlMemWrite hpa tag data mask s = _ := cxlMem_claimed hd hu hs hm hlo hhi _
  refine ⟨fun hf => ⟨read.trans (congrArg _ (if_pos hf)), write.trans (congrArg _ (if_pos hf))⟩, fun hf hw => ?shut, fun dpa rw hf hw => ?shown⟩
  all_goals have hn : ¬ w.fw.fatal = true := by simp [w, hf]
  case shut =>
    have hw' : w.windowAt base hpa = none := hw
    constructor
    · exact read.trans (congrArg _ ((if_neg hn).trans (by rw [hw'])))
    · exact write.trans (congrArg _ ((if_neg hn).trans (by rw [hw'])))
  case shown =>
    have hw' : w.windowAt base hpa = some (dpa, rw) := hw
    constructor
    · exact read.trans (congrArg _ ((if_neg hn).trans (by rw [hw'])))
    · exact write.trans (congrArg _ ((if_neg hn).trans (by rw [hw']; cases rw <;> rfl)))

end Sys2Proof.Machine
end

section
/-! Reads of partition memory by the front ends, tasks that become ready, and POUR (R44 to R47, R65, R104 to R106, R414). -/

namespace Sys2Proof.Machine

section
variable {s : State} {src : Src} {op : Option Nat} {p va n : Nat} {pc : DWord}

/-! ## Reads at once (R54, R231) -/

/-- A range that can be read at once gives its bytes, and the state is as before. -/
theorem frontRead_atOnce (h : ReadsAtOnce s src op p va n) : s.frontRead src op p va n pc = .got s (s.partBytes p va n) 0 := by
  simp only [State.frontRead, h.mapped, h.plain, h.data, h.unspent, if_true]

theorem frontRead_unmapped {a : Nat} (h : s.firstUnmapped p va n = some a) : s.frontRead src op p va n pc = .stop s .accessFault a := by
  simp only [State.frontRead, h]

theorem frontRead_stopped (h : s.firstUnmapped p va n = none) (hp : s.frontPlain src op p va n = true) {st : Status}
    (hs : s.frontStop p va n = some st) : s.frontRead src op p va n pc = .stop s st 0 := by
  simp only [State.frontRead, h, hp, hs, if_true]

/-- No byte is read at once when no read of the maker is under way. -/
theorem frontRead_nothing (h : s.frontReqs src op = []) : s.frontRead src op p va 0 pc = .got s (s.partBytes p va 0) 0 :=
  frontRead_atOnce ⟨by simp [State.firstUnmapped], by simp [State.frontPlain, h, lineVas], by simp [State.frontStop, State.frontMeets],
    by simp [State.frontFlags, State.frontMeets]⟩

end

section
variable {s : State} {id : Nat} {t : Task}

/-! ## Ready tasks (R39, R65) -/

/-- There are open cores, and none of them could ever hold a block of the task (R65). -/
def State.neverFits (s : State) (t : Task) : Prop :=
  s.openCores t.part ≠ [] ∧ ∀ k ∈ s.openCores t.part, t.fitsCore (s.quadL1.get 64 (k / 4)) = false

theorem neverFits_iff : (decide (s.openCores t.part ≠ []) && (s.openCores t.part).all (fun c => !t.fitsCore (s.quadL1.get 64 (c / 4)))) = true
    ↔ s.neverFits t := by
  simp [State.neverFits]

theorem readyTask_empty (h : t.blocks = 0) : s.readyTask id t = s.endTask id .ok 0 := if_pos h

theorem readyTask_never (hb : t.blocks ≠ 0) (h : s.neverFits t) : s.readyTask id t = s.endTask id .accessFault 0 := by
  rw [State.readyTask, if_neg hb, if_pos (neverFits_iff.2 h)]

theorem readyTask_ready (hb : t.blocks ≠ 0) (h : ¬s.neverFits t) : s.readyTask id t
    = { s with nextId := s.nextId + 1 }.setTask id { t with state := .ready, order := s.nextId, tags := s.readTags } := by
  rw [State.readyTask, if_neg hb, if_neg (fun hc => h (neverFits_iff.1 hc))]

/-- What TASK_READY does once the task's predecessors are done, by what the read of its parameter block comes to. -/
theorem execTaskReady_reads {c : Cmd} {n : Node} (ht : s.tasks.get? id = some t) (hc : s.cmd? t.cmd = some c)
    (hw : t.state = .waiting) (hr : c.stage = .running) (ha : s.alive = true) (hp : s.predsDone t = true) (hf : s.predFailed t = false)
    (hn : (s.stepVer t.cmd).nodes[t.node]? = some n) :
    execTaskReady id s
      = match s.frontRead (.cmd t.cmd) (some id) t.part n.paramVa (if t.blocks = 0 then 0 else n.paramLen) 0 with
        | .wait s => .next s
        | .stop s st a => .next (((s.endTask id st (if st = .accessFault then BitVec.ofNat 64 a else 0)).settleStep t.cmd).trace)
        | .got s bytes f => .next (((s.paramsRead id { t with params := bytes } f).settleStep t.cmd).trace) := by
  simp only [execTaskReady, ht, hc, hw, hr, ha, hp, hf, hn, ne_eq, not_true_eq_false, decide_false, Bool.not_true, Bool.or_self,
    Bool.false_eq_true, if_false, Option.map_some, Option.getD_some] <;> rfl

end

section
variable {s : State} {r : GroupRef} {i : Ins} {x : Ctx} {c : Cmd} {n : Node} {params : List Byte}

/-! ## POUR -/

/-- The parameter block that a POUR names is read at once (R105). -/
theorem pourParams_ok (h : x.pourOk c n params) : x.pourParams n.paramLen = .ok (.got x.s params 0) := by
  rcases h.params with ⟨h0, rfl⟩ | ⟨h0, hu, ha, hr, rfl⟩
  · simp [Ctx.pourParams, h0, pure_ok]
  · simp only [Ctx.pourParams, h0, if_false, u64_ok hu, ok_bind, require_true ha, frontRead_atOnce hr, pure_ok]

/-- What a POUR appends, where the pour area has room; otherwise its task ends (R47, R412). -/
theorem pour_ok (h : x.pourOk c n params) {grid : Nat × Nat × Nat} (hg : grid = clampGrid x.grid.1 x.grid.2.1 x.grid.2.2) {v : State}
    (hv : v = x.s.raise x.b.task (clampedIf (grid ≠ x.grid))) {t : Task}
    (ht : t = x.pouredTask n c x.pourNode.1 x.pourNode.2 grid params) (hn : x.sel ≠ 0) :
    ∃ body, execPour r i x.s = issue r i body x.s
      ∧ body x = if x.s.pourRoom x.t.cmd c n.paramLen then
          .ok (((({ v with nextId := v.nextId + 1 }).setTask v.nextId t).readyTask v.nextId t).putGroup x.r { x.g with pc := x.nextPc })
        else .error (.fault .queueOverflow) := by
  refine ⟨_, rfl, ?_⟩
  obtain ⟨g, hg3, hgrid⟩ := pourGrid_ok h.grid
  have hnode : (x.s.stepVer x.t.cmd).nodes[field x.UC 0 12]? = some n := h.node
  subst ht hv
  have hgrid' : clampGrid g.1.toNat g.2.1.toNat g.2.2.toNat = grid := by rw [hg, ← hgrid]
  have hz (f : BitVec 16) : f ||| 0 = f := BitVec.or_zero
  simp only [forGroup_ok hn, hg3, uC_ok h.which, h.cmd, hnode, require_true h.only, gateWrites_ok h.free, released_ok h.released,
    require_true h.area, pourParams_ok h, ok_bind, hgrid, hgrid', hz]
  cases x.s.pourRoom x.t.cmd c n.paramLen <;> rfl

end

/-- Settles O26: TASK_READY by `execTaskReady_reads` and the read that it makes, POUR by `pour_ok`. -/
theorem tasksBecomeReadyAndPour : Obligations.TasksBecomeReadyAndPour := by
  refine ⟨?ready, fun s r i x h => ⟨fun hn => ?none, fun c n params hn ho => ?pour⟩⟩
  case ready =>
    intro s task t c n ht hc hw hr ha hp hf hn settled never plain
    have reads : exec (.taskReady task) s = _ := execTaskReady_reads ht hc hw hr ha hp hf hn
    refine ⟨fun h0 hreq => ?_, fun a h0 hu => ?_, fun u h0 hu => ?_, fun st h0 hu hpl hs => ?_, fun h0 hat => ⟨fun hnv => ?_, fun hnv => ?_⟩⟩
    · rw [reads, if_pos h0, frontRead_nothing hreq]
      exact congrArg settled (readyTask_empty h0)
    all_goals rw [reads, if_neg h0]
    · rw [frontRead_unmapped hu]
      exact congrArg (fun a => settled (s.endTask task .accessFault a)) (if_pos rfl)
    · rw [hu]
    · rw [frontRead_stopped hu hpl hs]
      exact congrArg (fun a => settled (s.endTask task st a)) (ite_self 0)
    · rw [frontRead_atOnce hat]
      exact congrArg settled (readyTask_never h0 hnv)
    · rw [frontRead_atOnce hat]
      exact congrArg settled (readyTask_ready h0 hnv)
  case none =>
    obtain rfl := h.state; obtain rfl := h.place; obtain rfl := h.word
    refine issue_next h ?_
    simp only [forGroup_none hn]
  case pour =>
    obtain rfl := h.state; obtain rfl := h.place; obtain rfl := h.word
    intro grid v t
    obtain ⟨body, hb, hx⟩ := pour_ok (r := x.r) (i := x.i) ho (grid := grid) rfl (v := v) rfl (t := t) rfl hn
    refine ⟨fun hroom => ?_, fun hroom => ?_⟩
    · exact hb.trans (issue_fault h (by rw [hx, hroom]; rfl))
    · exact hb.trans (issue_next h (by rw [hx, hroom]; rfl))

end Sys2Proof.Machine
end

section
/-! Ends of blocks and commands, and the step schedulers (R41, R67, R133, R134, R429 to R431, R437 to R454). -/

namespace Sys2Proof.Machine

section
variable {s : State} {fn : Fin 64} {rid : Option Nat} {doorbell : Bool} {q : Fin 1024} {v : Queue}

/-! ## Writes of a queue's registers (R403, R469, R479) -/

/-- A register write that reaches its function, and that the tumbler admits, is performed. -/
theorem inbound_admitted {fn : Nat} (hu : s.host.up = true) (hc : s.suspended 0 = false) (hx : s.fnExists fn = true)
    (hf : (s.fnRec fn).flr = false) (h0 : (s.fnRec 0).flr = false) (ha : s.admits fn rid doorbell = true) (t : State) :
    inbound fn rid doorbell s t = .next t := by
  simp only [inbound, hu, hc, hx, hf, h0, ha, Bool.not_true, Bool.or_self, Bool.false_eq_true, if_false]

/-- One that the tumbler turns away is dropped and counted. -/
theorem inbound_dropped {fn : Nat} (hu : s.host.up = true) (hc : s.suspended 0 = false) (hx : s.fnExists fn = true)
    (hf : (s.fnRec fn).flr = false) (h0 : (s.fnRec 0).flr = false) (ha : s.admits fn rid doorbell = false) (t : State) :
    inbound fn rid doorbell s t = .next ((s.tumblerDrop fn 1 (rid.getD 0)).event 0x601 fn) := by
  simp only [inbound, hu, hc, hx, hf, h0, ha, Bool.not_true, Bool.not_false, Bool.or_self, Bool.false_eq_true, if_false, if_true]

theorem queueWrite_performed (h : QueueWrite s fn rid doorbell q v) (f : Queue → State) :
    queueWrite fn rid doorbell q f s = .next (f v) := by
  obtain ⟨hf, h0⟩ := h.calm
  simp only [queueWrite, h.queue, h.sees, h.heard, Bool.and_self, if_true]
  exact inbound_admitted h.link h.clocked h.there hf h0 h.admitted _

end

section
variable {s : State}

/-! ## Stopped commands (Table 12-14) -/

section
variable {id : Nat} {c : Cmd} {why : Status}

/-- A command that holds no core completes with the status that stops it. -/
theorem stopCmd_done (hp : c.pending = true) (hw : c.why = none) (hl : c.isLaunch = false) (h4 : c.op ≠ 4) :
    s.stopCmd id c why = (s.setCmd id { c with why := some why }).cmdDone id why 0 := by
  simp only [State.stopCmd, hp, hw, hl, h4, Bool.not_true, Option.isSome_none, Bool.or_self, Bool.false_and, Bool.false_eq_true, if_false]

/-- A batch step is drained. -/
theorem stopCmd_drains (hs : c.stage = .running) (hw : c.why = none) (hl : c.isLaunch = true) :
    s.stopCmd id c why = (s.setCmd id { c with why := some why, stage := .draining }).settleStep id := by
  have hp : c.pending = true := by simp [Cmd.pending, hs]
  have hf : (true && decide (c.stage ≠ .fetched)) = true := by simp [hs]
  simp only [State.stopCmd, hp, hw, hl, hf, Bool.not_true, Option.isSome_none, Bool.or_self, Bool.false_eq_true, if_false, if_true]

/-- The cores of a task's blocks that are placed can take its TASK_KILL (R338, R339). -/
theorem killHeard_of {task cmd : Nat} (h : ∀ r ∈ s.blocks.rows, r.2.task = task → r.2.phase ≠ .out →
    s.coreHeard r.2.core cmd = true ∧ (c.stage = .killing → r.2.core ∈ c.drained)) : s.killHeard task cmd c = true := by
  simp only [State.killHeard, Tab.any, Bool.not_eq_true', List.any_eq_false]
  intro r hr
  by_cases ht : r.2.task = task
  · by_cases hp : r.2.phase = .out
    · simp [hp]
    · obtain ⟨hh, hd⟩ := h r hr ht hp
      by_cases hk : c.stage = .killing
      · simp [hh, hd hk]
      · simp [hh, hk]
  · simp [ht]

end

/-! ## Ends of blocks (R41, R67, R134) -/

section
variable {b : Nat} {k : Block} {t : Task}

theorem execBlockEnd_done (hb : s.blocks.get? b = some k) (hf : s.fw.fatal = false) (ht : s.tasks.get? k.task = some t)
    (hp : k.phase = .resident ∨ k.phase = .leaving) (hg : ∀ g ∈ k.groups, g.hold = .ended) (hbusy : s.blockBusy b = false)
    (hh : s.coreHeard k.core t.cmd = true) {u : State} (hu : u = (s.dropBlock b).setTask k.task { t with finished := t.finished + 1 }) :
    execBlockEnd b s = .next ((((if t.finished + 1 = t.blocks then u.endTask k.task .ok 0 else u).endRebind t.part).settleStep t.cmd).trace) := by
  subst hu
  have hph : (decide (k.phase ≠ .resident) && decide (k.phase ≠ .leaving)) = false := by rcases hp with hp | hp <;> simp [hp]
  have hgr : k.groups.any (fun g => decide (g.hold ≠ .ended)) = false := by simpa using hg
  simp only [execBlockEnd, hb, ht, hph, hgr, hbusy, hf, hh, Bool.not_true, Bool.or_self, Bool.false_eq_true, if_false]
  rfl

theorem execBlockStuck_deadlock (hb : s.blocks.get? b = some k) (hf : s.fw.fatal = false) (hp : k.phase = .resident)
    (hh : ∀ t, s.tasks.get? k.task = some t → s.coreHeard k.core t.cmd = true) (hg : ∀ g ∈ k.groups, g.live ≠ 0 → g.heldAt.isSome = true)
    {a : DWord} {rest : List DWord} (ha : (k.groups.filter (fun g => g.live ≠ 0)).filterMap Group.heldAt = a :: rest) :
    execBlockStuck b s = .next ((s.endTask k.task .deadlock a).trace) := by
  have hheard : (s.tasks.get? k.task).all (fun t => s.coreHeard k.core t.cmd) = true := by
    cases ht : s.tasks.get? k.task with
    | none => rfl
    | some t => exact hh t ht
  have hall : (k.groups.filter (fun g => g.live ≠ 0)).any (fun g => g.heldAt.isNone) = false := by
    rw [List.any_eq_false]
    intro g hm
    obtain ⟨hm, hl⟩ := List.mem_filter.1 hm
    simpa [Option.isSome_iff_ne_none] using hg g hm (by simpa using hl)
  simp only [execBlockStuck, hb, hp, hf, hheard, hall, ha, ne_eq, not_true_eq_false, decide_false, Bool.not_true, Bool.or_self,
    Bool.false_eq_true, if_false, List.head?_cons]

end
end

/-- Settles O27: the end of a block by `execBlockEnd_done` and `execBlockStuck_deadlock`, of a command by the cases of Table 12-14. -/
theorem blocksAndCommandsEnd : Obligations.BlocksAndCommandsEnd := by
  refine ⟨fun s b k hb hf => ⟨?ends, fun a rest hp hh hg ha => execBlockStuck_deadlock hb hf hp hh hg ha⟩, fun s id c hc =>
    ⟨fun hf ht => ?timeout, fun why => stopCmd_done, fun why => stopCmd_drains, fun fn rid q v h => queueWrite_performed h _,
      fun core hs hm hh => ?drain, fun hs hb => ?bound, ?kill⟩⟩
  case ends =>
    intro t ht hp hg hbusy hh u
    exact execBlockEnd_done hb hf ht hp hg hbusy hh rfl
  case timeout =>
    have hn : (s.tasksOf id).any (fun t => t.2.failed) = false := by simpa using ht
    show execCommandTimeout id s = _
    simp only [execCommandTimeout, hc, hf, hn, Bool.or_self, Bool.false_eq_true, if_false]
  case drain =>
    have hst : (decide (c.stage ≠ .draining) && decide (c.stage ≠ .killing)) = false := by rcases hs with hs | hs <;> simp [hs]
    show execDrain id core s = _
    simp only [execDrain, hc, hst, hm, hh, Bool.not_true, Bool.or_self, Bool.false_eq_true, if_false]
  case bound =>
    show execDrainBoundExpiry id s = _
    simp only [execDrainBoundExpiry, hc, hs, hb, ne_eq, not_true_eq_false, decide_false, Bool.not_true, Bool.and_false, Bool.or_self,
      Bool.false_eq_true, if_false]
  case kill =>
    intro task t ht hcmd hs hk
    subst hcmd
    have hst : (decide (t.state ≠ .ended) && decide (c.stage ≠ .killing)) = false := by rcases hs with hs | hs <;> simp [hs]
    show execTaskKill task s = _
    simp only [execTaskKill, ht, hc, hst, killHeard_of hk, Bool.not_true, Bool.or_self, Bool.false_eq_true, if_false]

section
variable {s : State} {b : Nat} {k : Block}

/-! ## Switching out (R451, R452, Table 13-4) -/

/-- What SWITCH_OUT does to a leaving block once its semaphore waits are withdrawn. -/
theorem execSwitchOut_leaving {bad : Option (Fin 32)} (hb : s.blocks.get? b = some k) (hp : k.phase = .leaving) (hf : s.fw.fatal = false)
    {u : State} (hu : u = ((s.reqsOfBlock b).foldl (fun s r => s.withdrawSem r.1 r.2) s).wakeAfter (s.reqsOfBlock b)) :
    execSwitchOut b bad s = if u.stillBusy b then .next u else
      match k.groups.zipIdx.find? (fun g => decide (g.1.foot.st = .held) && (g.1.foot.bad || bad.any (fun x => x.val = g.2))) with
      | some g => .next ((u.spoil b g.2).fenceSubCore (k.subCore g.2) k.task 0)
      | none => .next (u.setBlock b { k with phase := .stored }) := by
  subst hu
  simp only [execSwitchOut, hb, hp, hf, ne_eq, not_true_eq_false, decide_false, Bool.or_self, Bool.false_eq_true, if_false] <;> rfl

end

/-- Settles O28: the scheduler's order by the owner's block that fits, the switch-out and the backfill; a switch-out by
`execSwitchOut_leaving`. -/
theorem blocksArePlacedAndSwitched : Obligations.BlocksArePlacedAndSwitched := by
  intro s
  refine ⟨fun fe p save ha hr => ?place, fun task core t save ht => ?new, fun b core k hb => ?out, fun b bad k hb => ⟨?switch, ?saved⟩,
    fun p ho ha => ?quantum⟩
  case place =>
    have hc : (!s.alive || decide (s.power.state = .retain)) = false := by simp [ha, hr]
    refine ⟨fun c r core ho hf => ?_, fun c u ho hf hp => ?_, fun r core k hf hp hb => ?_⟩ <;> show execBlockPlace fe p save s = _
    · simp only [execBlockPlace, hc, ho, hf, Bool.false_eq_true, if_false]
    · simp only [execBlockPlace, hc, ho, hf, hp, Bool.false_eq_true, if_false]
    · cases ho : (s.part p).owner with
      | none => simp only [execBlockPlace, hc, ho, hp, hb, Bool.false_eq_true, if_false]
      | some c => simp only [execBlockPlace, hc, ho, hf c ho, hp, hb, Bool.false_eq_true, if_false]
  case new => simp only [State.placeReady, ht]; rfl
  case out =>
    have ht : ((s.blocks.get? b).map (·.task)).getD 0 = k.task := by rw [hb]; rfl
    refine ⟨?_, ?_, rfl⟩ <;> simp only [State.placeReady, State.restoreChecked, ht]
  case switch =>
    intro hp hf u fails
    have out : exec (.switchOut b bad) s = _ := execSwitchOut_leaving hb hp hf (u := u) rfl
    refine ⟨fun hu => out.trans (if_pos hu), fun hu hg => out.trans ?_, fun g hu hg => out.trans ?_⟩
    · have hn : k.groups.zipIdx.find? fails = none := by simpa [List.find?_eq_none] using hg
      rw [hu]
      erw [hn]
      rfl
    · rw [hu]
      erw [hg]
      rfl
  case saved =>
    intro t hp ht es u
    show execSaved b s = _
    simp only [execSaved, hb, hp, ht, ne_eq, not_true_eq_false, if_false]
    rfl
  case quantum =>
    have hc : ((s.part p).owner.isNone || !s.alive) = false := by
      obtain ⟨c, hc⟩ := Option.isSome_iff_exists.1 ho
      simp [hc, ha]
    refine ⟨fun hq => ?_, fun hq h0 h1 => ?_⟩ <;> show execQuantumExpiry p s = _
    · simp only [execQuantumExpiry, hc, hq, Bool.false_eq_true, if_false, if_true]
    · have hq' : ¬ 1 < (s.part p).quantaLeft := Nat.not_lt.2 hq
      simp only [execQuantumExpiry, hc, hq', h0, h1, ite_self, Bool.false_eq_true, if_false, Option.getD_none]

end Sys2Proof.Machine
end

section
/-! Queue registers, the fetch of commands and their start (R404 to R408, R410 to R418, R630, Tables 12-2 to 12-5). -/

namespace Sys2Proof.Machine

/-- A register write that the function's tumbler turns away is dropped and counted (R469). -/
theorem queueWrite_dropped {s : State} {fn q n : Nat} {v : Queue} {doorbell : Bool} (hq : s.queue? q = some v)
    (hs : s.seesQueue fn q = true) (hu : s.host.up = true) (hc : s.suspended 0 = false) (hx : s.fnExists fn = true)
    (hf : (s.fnRec fn).flr = false) (h0 : (s.fnRec 0).flr = false) (hh : s.feHeard fn v = true)
    (ha : s.admits fn (some n) doorbell = false) (f : Queue → State) :
    queueWrite fn (some n) doorbell q f s = .next ((s.tumblerDrop fn 1 n).event 0x601 fn) := by
  simp only [queueWrite, hq, hs, hh, Bool.and_self, if_true]
  exact inbound_dropped hu hc hx hf h0 ha _

/-- Settles O29: a write that is performed by `queueWrite_performed`, one that is dropped by `queueWrite_dropped`. -/
theorem queueRegistersAreWritten : Obligations.QueueRegistersAreWritten := by
  intro s fn rid q v
  refine ⟨fun h => ?registers, fun index h => ⟨queueWrite_performed h _, queueWrite_performed h _⟩,
    fun index n hq hs hu hc hx hf h0 hr hh => ?dropped⟩
  case registers =>
    intro p
    have performed : exec (.queueEnable fn rid q) s = _ := queueWrite_performed h _
    refine ⟨fun hd hm hp => performed.trans (congrArg _ (if_pos ?_)), fun hd => performed.trans (congrArg _ (if_neg ?_)),
      queueWrite_performed h _⟩
    · rcases hp with hp | hp <;> simp [hd, hm, show (s.part (q.val / 64)).state = _ from hp]
    · simp [hd]
  case dropped =>
    subst hr
    have drop (doorbell : Bool) (ha : s.admits fn (some n) doorbell = false) (f : Queue → State) :=
      queueWrite_dropped hq hs hu hc hx hf h0 hh ha f
    constructor
    · intro hg
      have none (doorbell : Bool) : s.admits fn (some n) doorbell = false := by simp only [State.admits, hg, Bool.and_false]
      refine List.forall_mem_cons.2 ⟨drop false (none _) _, ?_⟩
      refine List.forall_mem_cons.2 ⟨drop false (none _) _, ?_⟩
      refine List.forall_mem_cons.2 ⟨drop false (none _) _, ?_⟩
      refine List.forall_mem_cons.2 ⟨drop true (none _) _, ?_⟩
      exact List.forall_mem_cons.2 ⟨drop true (none _) _, List.forall_mem_nil _⟩
    · refine List.forall_mem_cons.2 ⟨drop false rfl _, ?_⟩
      refine List.forall_mem_cons.2 ⟨drop false rfl _, ?_⟩
      exact List.forall_mem_cons.2 ⟨drop false rfl _, List.forall_mem_nil _⟩

/-! ## Fetch -/

section
variable {q slot : Nat} {bytes : List Byte}

theorem ofSlot_reserved (h : (Cmd.ofSlot q slot bytes).op ∉ opcodes) :
    (Cmd.ofSlot q slot bytes).stage = .complete ∧ (Cmd.ofSlot q slot bytes).status = .accessFault ∧ (Cmd.ofSlot q slot bytes).detail = 0 := by
  simp only [Cmd.ofSlot] at h ⊢
  split_ifs at h ⊢ <;> simp_all [Cmd.op]

theorem ofSlot_fetched (h : (Cmd.ofSlot q slot bytes).op ∈ opcodes) : (Cmd.ofSlot q slot bytes).stage = .fetched := by
  simp only [Cmd.ofSlot] at h ⊢
  split_ifs at h ⊢ <;> simp_all [Cmd.op]

/-- What every command has as its slot gives it. -/
theorem ofSlot_fields : (Cmd.ofSlot q slot bytes).bytes = bytes ∧ (Cmd.ofSlot q slot bytes).failed = false
    ∧ (Cmd.ofSlot q slot bytes).queue = q ∧ (Cmd.ofSlot q slot bytes).slot = slot
    ∧ (Cmd.ofSlot q slot bytes).flags = clampedIf (Cmd.ofSlot q slot bytes).clamps ∧ (Cmd.ofSlot q slot bytes).batch = [] := by
  simp only [Cmd.ofSlot]
  split_ifs <;> exact ⟨rfl, rfl, rfl, rfl, rfl, rfl⟩

end

section
variable {s : State} {q : Fin 1024} {host : Option (List Byte)} {v : Queue} {bytes : List Byte}

theorem execCommandFetch_failed (hq : s.queue? q = some v) (hf : s.canFetch q v = true) (ht : s.isTurn q v = true) {st : Status} {a : Nat}
    (hr : s.slotRead q v host = .stop s st a) :
    execCommandFetch q host s = .next ((s.fetchDone q).enterCmd q v (Cmd.unfetched q (v.sqBase + 64 * v.sqHead))) := by
  simp only [execCommandFetch, hq, hf, ht, hr, Bool.not_true, Bool.or_self, Bool.false_eq_true, if_false]

/-- A slot that is read gives its command, which enters with what its batch descriptor comes to. -/
theorem execCommandFetch_read (hq : s.queue? q = some v) (hf : s.canFetch q v = true) (ht : s.isTurn q v = true)
    (hr : s.slotRead q v host = .got s bytes 0) {c : Cmd} (hc : c = Cmd.ofSlot q (v.sqBase + 64 * v.sqHead) bytes) :
    (∀ st a, s.readBatch q c = .stop s st a → execCommandFetch q host s = .next ((s.fetchDone q).enterCmd q v { c with
      stage := .complete, status := st, detail := if st = .accessFault then BitVec.ofNat 64 a else 0 }))
    ∧ ∀ batch, s.readBatch q c = .got s batch 0 →
      execCommandFetch q host s = .next ((s.fetchDone q).enterCmd q v { c with batch := batch }) := by
  subst hc
  have hz (f : BitVec 16) : f ||| 0 = f := BitVec.or_zero
  constructor
  · intro st a hb
    simp only [execCommandFetch, hq, hf, ht, hr, hb, Bool.not_true, Bool.or_self, Bool.false_eq_true, if_false]
  · intro batch hb
    simp only [execCommandFetch, hq, hf, ht, hr, hb, hz, Bool.not_true, Bool.or_self, Bool.false_eq_true, if_false]

/-- A slot of the queue's memory read at once, or given by the host (R405, R630). -/
theorem slotRead_got {p slot : Nat} (hp : p = q.val / 64) (hslot : slot = v.sqBase + 64 * v.sqHead)
    (h : (v.sqLoc = false ∧ ∃ l, host = some l ∧ bytes = sliceBytes l 0 64)
      ∨ (v.sqLoc = true ∧ ReadsAtOnce s (.fe q) (some 0) p slot 64 ∧ bytes = s.partBytes p slot 64)) :
    s.slotRead q v host = .got s bytes 0 := by
  subst hp hslot
  rcases h with ⟨hl, l, rfl, rfl⟩ | ⟨hl, hr, rfl⟩
  · simp only [State.slotRead, hl, Bool.false_eq_true, if_false]
  · simp only [State.slotRead, hl, if_true]
    exact frontRead_atOnce hr

/-- The batch descriptor of a command other than LAUNCH is not read. -/
theorem readBatch_none {q : Nat} {c : Cmd} (h : c.op ≠ 1) : s.readBatch q c = .got s [] 0 := by
  simp [State.readBatch, h]

theorem readBatch_launch {q : Nat} {c : Cmd} (hs : c.stage = .fetched) (h : c.op = 1) :
    s.readBatch q c = s.frontRead (.fe q) (some 1) (q / 64) c.batchVa 512 0 := by
  simp [State.readBatch, hs, h]

end

/-- Settles O30: a fetch by `execCommandFetch_failed` and `execCommandFetch_read`, the fields of a fetched command by `ofSlot_fields`. -/
theorem commandsAreFetched : Obligations.CommandsAreFetched := by
  intro s q host v hq slot p enters c slotRead
  refine ⟨fun hf ht => ⟨?failed, ?read⟩, rfl, rfl, rfl, rfl, rfl, ?fields⟩
  case failed =>
    intro h
    have stopped : ∃ st a, s.slotRead q v host = .stop s st a := by
      rcases h with ⟨hl, rfl⟩ | ⟨hl, hu⟩
      · exact ⟨.accessFault, v.sqBase + 64 * v.sqHead, by simp only [State.slotRead, hl, Bool.false_eq_true, if_false]⟩
      · obtain ⟨a, ha⟩ := Option.isSome_iff_exists.1 hu
        exact ⟨_, _, by simp only [State.slotRead, hl, if_true]; exact frontRead_unmapped ha⟩
    obtain ⟨st, a, hr⟩ := stopped
    exact execCommandFetch_failed hq hf ht hr
  case read =>
    intro bytes hb
    obtain ⟨hstop, hgot⟩ := execCommandFetch_read hq hf ht (slotRead_got rfl rfl hb) rfl
    obtain ⟨-, -, -, -, -, hbatch⟩ := ofSlot_fields (q := q.val) (slot := slot) (bytes := bytes)
    refine ⟨fun h1 => ?_, fun h1 => ?_⟩
    · refine (hgot [] (readBatch_none h1)).trans (congrArg (fun c => Host.Outcome.next (enters c)) ?_)
      rw [← hbatch]
    · have launch := readBatch_launch (s := s) (q := q.val) (ofSlot_fetched (slot := slot) (bytes := bytes) (q := q.val) (by
        rw [show (Cmd.ofSlot q slot bytes).op = 1 from h1]; decide)) h1
      refine ⟨fun a ha => ?_, fun st hu hp hs hne => ?_, fun hr => ?_⟩
      · exact hstop .accessFault a (launch.trans (frontRead_unmapped ha))
      · refine (hstop st 0 (launch.trans (frontRead_stopped hu hp hs))).trans ?_
        rw [if_neg hne]
        rfl
      · exact hgot _ (launch.trans (frontRead_atOnce hr))
  case fields =>
    intro bytes
    obtain ⟨h1, h2, h3, h4, h5, -⟩ := ofSlot_fields (q := q.val) (slot := slot) (bytes := bytes)
    exact ⟨h1, h2, h3, h4, h5, ofSlot_reserved, ofSlot_fetched⟩

/-! ## Start -/

section
variable {s : State} {id : Nat} {c : Cmd}

/-- A command that may start does what it does. -/
theorem starts_run {op : Nat} (h : s.mayStart id op = some c) (f : Cmd → State) : starts id op s f = .next (f c) := by
  simp only [starts, h]

/-- The images of a graph command read at once are used (R415). -/
theorem withImages_atOnce {n : Nat} (h : ReadsAtOnce s (.cmd id) (some 0) c.part c.graphSrc (128 * n)) (use : State → List Node → State) :
    s.withImages id c n use = use s (nodesOf (s.partBytes c.part c.graphSrc (128 * n)) n) := by
  simp only [State.withImages, frontRead_atOnce h, State.imagesRead, if_true]

theorem withImages_unmapped {n : Nat} (h : (s.firstUnmapped c.part c.graphSrc (128 * n)).isSome = true)
    (use : State → List Node → State) : s.withImages id c n use = s.cmdDone id .accessFault 0 := by
  obtain ⟨a, ha⟩ := Option.isSome_iff_exists.1 h
  simp only [State.withImages, frontRead_unmapped ha]

end

/-- Settles O31: every command by `starts_run`, the graph commands' images by `withImages_atOnce` and `withImages_unmapped`. -/
theorem commandsStart : Obligations.CommandsStart := by
  intro s id c
  refine ⟨fun h => starts_run h _, fun h => ?semWait, ?copy, fun h => ?launch, fun h => ⟨fun hr => ?load, fun hu => ?loadFails⟩, fun h => ?patch,
    fun h => ?free⟩
  case semWait =>
    intro n
    have start : exec (.semWait id) s = _ := starts_run h _
    refine ⟨fun a hlt ha => ⟨fun hn => start.trans ?_, fun hn => start.trans ?_⟩, fun hbad => start.trans ?_⟩
    · simp only [hlt, ha, if_true, show numAt c.bytes 40 4 = 0 from hn]
    · simp only [hlt, ha, if_true, show numAt c.bytes 40 4 ≠ 0 from hn, if_false]
      rfl
    · rcases hbad with hge | hnone | ⟨a, hro⟩
      · simp only [Nat.not_lt.2 hge, if_false]
      · simp only [hnone, ite_self]
      · by_cases hlt : c.semVa < 2 ^ 48
        · simp only [hlt, if_true, hro]
        · simp only [hlt, if_false]
  case copy =>
    have one (op : Nat) (h : s.mayStart id op = some c) : (c.copyLen = 0 → startCopy id op s = .next (s.cmdDone id .ok 0))
        ∧ (c.copyLen ≠ 0 → startCopy id op s = .next (s.setCmd id { c with stage := .running })) :=
      ⟨fun hz => (starts_run h _).trans (congrArg _ (if_pos hz)), fun hz => (starts_run h _).trans (congrArg _ (if_neg hz))⟩
    exact List.forall_mem_cons.2 ⟨one 2, List.forall_mem_cons.2 ⟨one 3, List.forall_mem_nil _⟩⟩
  case launch =>
    have start : exec (.launch id) s = _ := starts_run h _
    refine ⟨fun hn => start.trans ?_, fun k v hk hv => start.trans ?_⟩
    · simp only [hn]
    · simp only [hk, hv, Option.getD_some]
  case load => exact (starts_run h _).trans (congrArg _ (withImages_atOnce hr _))
  case loadFails => exact (starts_run h _).trans (congrArg _ (withImages_unmapped hu _))
  case patch =>
    have start : exec (.graphPatch id) s = _ := starts_run h _
    refine ⟨fun hn => start.trans ?_, fun k v hk hv => ?_⟩
    · simp only [hn, Option.bind_none]
    · intro first n new u hr
      refine start.trans ?_
      simp only [hk, hv, Option.bind_some]
      exact congrArg _ (withImages_atOnce hr _)
  case free =>
    intro g
    have start : exec (.graphFree id) s = _ := starts_run h _
    refine ⟨fun hn => start.trans (congrArg _ (if_pos ?_)), fun hs => start.trans (congrArg _ (if_neg ?_))⟩
    · rw [show (s.graph c.part c.graph).current = none from hn]; rfl
    · obtain ⟨k, hk⟩ := Option.isSome_iff_exists.1 hs
      rw [show (s.graph c.part c.graph).current = some k from hk]
      exact Bool.false_ne_true

end Sys2Proof.Machine
end

section
/-! Copy engines, completions and signals (R417, R419 to R426, R432, R440). -/

namespace Sys2Proof.Machine

section
variable {s : State} {id : Nat} {c : Cmd}

/-! ## Copy engines (R417, R440) -/

/-- The bytes of the next chunk of a transfer: up to the next tile of the destination. -/
def Cmd.chunk (c : Cmd) : Nat := min (c.copyLen - c.moved) (2048 - (c.copyDst + c.moved) % 2048)

/-- What gives the next chunk its bytes: the pattern of a FILL, or the source of a COPY. -/
def State.chunkSource (s : State) (id : Nat) (c : Cmd) : Piece :=
  if c.op = 3 then .got s ((List.range c.chunk).map (fun k => (sliceBytes c.bytes 40 8).getD ((c.moved + k) % 8) 0))
  else s.gather id c (tileParts (c.copySrc + c.moved) c.chunk) []

/-- A transfer whose destination is unmapped or read-only ends (R417). -/
theorem copyStep_fault (h : s.locate c.part (c.copyDst + c.moved) = none ∨ ∃ h, s.locate c.part (c.copyDst + c.moved) = some (h, false)) :
    s.copyStep id c = s.cmdDone id .accessFault (BitVec.ofNat 64 c.moved) := by
  rcases h with h | ⟨h, h'⟩
  · simp only [State.copyStep, h]
  · simp only [State.copyStep, h']

/-- A chunk that its source gives and its destination takes at once is counted. -/
theorem copyStep_chunk {h : Home} (hl : s.locate c.part (c.copyDst + c.moved) = some (h, true))
    (hp : ∀ d e l, h = .peer d e l → s.lbx.lost.contains d = false) (hf : s.poolFailed c.part (c.copyDst + c.moved) = false) {x : State}
    {b : List Byte} (hx : s.chunkSource id c = .got x b) {d : Cmd} (hd : d = (x.cmd? id).getD c) {w : State}
    (hw : x.writeChunk id d (c.copyDst + c.moved) h b = some (true, w)) (hflags : w.chunkFlags d (c.copyDst + c.moved) b.length = 0) :
    s.copyStep id c = w.chunkDone id ((w.cmd? id).getD d) b.length := by
  subst hd
  have hsrc : (if c.op = 3 then
      Piece.got s ((List.range (min (c.copyLen - c.moved) (2048 - (c.copyDst + c.moved) % 2048))).map
        (fun k => (sliceBytes c.bytes 40 8).getD ((c.moved + k) % 8) 0))
      else s.gather id c (tileParts (c.copySrc + c.moved) (min (c.copyLen - c.moved) (2048 - (c.copyDst + c.moved) % 2048))) [])
      = .got x b := hx
  cases h with
  | peer a e l =>
    simp only [State.copyStep, hl, hp a e l rfl, hf, hsrc, hw, hflags, Bool.false_eq_true, if_false, if_true]
  | dev n => simp only [State.copyStep, hl, hf, hsrc, hw, hflags, Bool.false_eq_true, if_false, if_true]
  | host n => simp only [State.copyStep, hl, hf, hsrc, hw, hflags, Bool.false_eq_true, if_false, if_true]

end

/-- Settles O32: a step of the transfer by `copyStep_fault` and `copyStep_chunk`. -/
theorem copyEnginesMove : Obligations.CopyEnginesMove := by
  intro s half p id c ha hn u dst n
  have step : exec (.copyEngineTile half) s = .next (u.copyStep id c) := by
    show execCopyEngineTile half s = _
    simp only [execCopyEngineTile, ha, hn, Bool.not_true, Bool.false_eq_true, if_false]
    rfl
  refine ⟨step, fun hbad => step.trans (congrArg _ (copyStep_fault hbad)), fun h w hl hp hf => ⟨fun x b hop hx hw hfl => ?copy,
    fun hop hc => ?fill⟩⟩
  case copy =>
    refine step.trans (congrArg _ (copyStep_chunk (s := u) hl hp hf ?_ rfl hw hfl))
    exact (if_neg (by rw [hop]; decide)).trans hx
  case fill =>
    intro pattern hw hfl
    have hsrc : u.chunkSource id c = .got u pattern := if_pos hop
    have hu : u.cmd? id = some c := hc
    have hlen : pattern.length = n := by simp only [pattern, List.length_map, List.length_range]
    have done := copyStep_chunk (s := u) (d := c) hl hp hf hsrc (by rw [hu]; rfl) hw (by rw [hlen]; exact hfl)
    rw [hlen] at done
    exact step.trans (congrArg _ done)

section
variable {s : State} {id : Nat} {rejected : Bool} {c : Cmd} {v : Queue}

/-! ## Completions (R419 to R426, R432) -/

/-- A command's record is due: it is complete and its writes are visible, and neither a reset of its context nor the host link nor a
device-fatal error keeps it back. -/
structure RecordDue (s : State) (id : Nat) (c : Cmd) : Prop where
  complete : c.stage = .complete
  visible : s.writesLeft id = false
  calm : s.inFlr c.part c.ctx = false
  sound : s.fw.fatal = false
  allowed : s.mayRequest c.part c.ctx = true
  link : s.host.up = true

/-- What completes a command in its queue: nothing is sent from a stalled queue, a rejected record stalls it, else the record is written. -/
def State.recordOut (s : State) (id : Nat) (c : Cmd) (v : Queue) (rejected : Bool) : State :=
  let wants := c.wantsRecord || c.failed
  let drop := fun (s : State) => { s with cmds := s.cmds.erase id }
  let held : HeldRec := ⟨id, if wants then some c.record else none, c.signal⟩
  if v.state = .stalled then
    if wants || c.signals then drop (s.setQueue c.queue { v with shadow := v.shadow ++ [held] }) else drop s
  else if wants && rejected then
    drop ((s.setQueue c.queue { v with
      state := .stalled, drainPend := v.drainPend || v.state = .draining, shadow := v.shadow ++ [held] }).event 0x602 c.queue)
  else
    let s := if wants then s.writeRecord c.queue v c.record else s
    if c.signals then s.setCmd id { c with stage := .recorded } else drop s

theorem execCompletionWrite_due (h : RecordDue s id c) (hc : s.cmd? id = some c) (hq : s.queue? c.queue = some v) :
    execCompletionWrite id rejected s = (s.recordOut id c v rejected).recorded c := by
  have hn : (decide (c.stage ≠ .complete) || s.writesLeft id || s.fw.fatal || !s.mayRequest c.part c.ctx || !s.host.up) = false := by
    simp [h.complete, h.visible, h.sound, h.allowed, h.link]
  simp only [execCompletionWrite, hc, hq, h.calm, hn, Bool.and_false, Bool.false_eq_true, if_false]
  rfl

theorem execCompletionWrite_flr (hs : c.stage = .complete) (hw : s.writesLeft id = false) (hf : s.inFlr c.part c.ctx = true)
    (hc : s.cmd? id = some c) (hq : s.queue? c.queue = some v) :
    execCompletionWrite id rejected s = .next ({ s with cmds := s.cmds.erase id }.afterRecord c) := by
  have hn : (decide (c.stage = .complete) && !s.writesLeft id && s.inFlr c.part c.ctx) = true := by simp [hs, hw, hf]
  simp only [execCompletionWrite, hc, hq, hn, if_true]

end

/-- Settles O33: a record by `execCompletionWrite_due` and the cases of `State.recordOut`, a signal by its definition. -/
theorem completionsAndSignals : Obligations.CompletionsAndSignals := by
  intro s id rejected c v hc hq without wants held
  refine ⟨fun hs hw => ⟨fun hf => execCompletionWrite_flr hs hw hf hc hq, fun hf hfatal hm hu => ?due⟩, fun sig hs hf hm hsig => ?signal⟩
  case due =>
    have due : exec (.completionWrite id rejected) s = _ := execCompletionWrite_due ⟨hs, hw, hf, hfatal, hm, hu⟩ hc hq
    have out {t : State} (h : s.recordOut id c v rejected = t) : exec (.completionWrite id rejected) s = t.recorded c :=
      due.trans (congrArg (·.recorded c) h)
    refine ⟨fun hst => ⟨fun hws => out ?_, fun hwn hsn => out ?_⟩, fun hst hwn hr => out ?_, fun hst hwr => ?_⟩
    · have hor : (wants || c.signals) = true := by rcases hws with h | h <;> simp [h]
      exact (if_pos hst).trans (if_pos hor)
    · exact (if_pos hst).trans (if_neg (by rw [show (c.wantsRecord || c.failed) = false from hwn, hsn]; exact Bool.false_ne_true))
    · exact (if_neg hst).trans (if_pos (by rw [show (c.wantsRecord || c.failed) = true from hwn, hr]; rfl))
    · have hand : ¬ ((c.wantsRecord || c.failed) && rejected) = true := by
        rcases hwr with ⟨-, hr⟩ | hw
        · simp [hr]
        · rw [show (c.wantsRecord || c.failed) = false from hw]; exact Bool.false_ne_true
      intro u
      refine ⟨fun hsig => out ?_, fun hsig => out ?_⟩
      · exact (if_neg hst).trans ((if_neg hand).trans (if_pos hsig))
      · exact (if_neg hst).trans ((if_neg hand).trans (if_neg (by rw [hsig]; exact Bool.false_ne_true)))
  case signal =>
    show execSignalSend id rejected s = _
    simp only [execSignalSend, hc, hs, hf, hm, hsig, ne_eq, not_true_eq_false, decide_false, Bool.not_true, Bool.or_self,
      Bool.false_eq_true, if_false]
    rfl

end Sys2Proof.Machine
end

section
/-! The checks that every mailbox command makes of its request (R487, R489, R515, R516). -/

namespace Sys2Proof.Machine

section
variable {s : State} {r : Req} {p : Instr × Nat × List Nat}

/-- A command serves its requests for the functions that a permission admits. -/
def ServesFor (s : State) (r : Req) (perm : State → List Nat → Bool) (p : Instr × Nat × List Nat) : Prop :=
  ∃ body, exec p.1 s = serve r p.2.1 p.2.2 perm body s

/-- A command whose function is such a server. -/
theorem servesFor_of {perm : State → List Nat → Bool} {c : Instr} {code : Nat} {sizes : List Nat} (f : State → Out)
    (hc : exec c s = f s) (hf : ∃ body, f s = serve r code sizes perm body s) : ServesFor s r perm (c, code, sizes) := by
  obtain ⟨body, hf⟩ := hf
  exact ⟨body, hc.trans hf⟩

/-- A status command of a VF is permitted to the PF and to a VF that is bound to a context (R489). -/
def vfPermits (r : Req) : State → List Nat → Bool := fun s _ => s.permits r.fn true

theorem ServesFor.skips {perm : State → List Nat → Bool} (h : ServesFor s r perm p)
    (hs : ((s.fnRec r.fn).slot r.slot).state ≠ .pending ∨ ((s.fnRec r.fn).slot r.slot).busy = false
      ∨ ((s.fnRec r.fn).slot r.slot).code ≠ p.2.1) : exec p.1 s = .next s := by
  obtain ⟨body, h⟩ := h
  refine h.trans (serve_skip fun ⟨hp, ht, hc⟩ => ?_)
  rcases hs with hs | hs | hs
  · exact hs hp
  · exact Bool.false_ne_true (hs.symm.trans ht)
  · exact hs hc

theorem ServesFor.denies {perm : State → List Nat → Bool} (h : ServesFor s r perm p) (hd : Dispatched s r p.2.1)
    (hp : ∀ fs, perm s fs = false) : exec p.1 s = s.refuses r .denied := by
  obtain ⟨body, h⟩ := h
  exact h.trans (serve_denied hd (hp _))

theorem ServesFor.measures {perm : State → List Nat → Bool} (h : ServesFor s r perm p) (hd : Dispatched s r p.2.1)
    (hp : ∀ fs, perm s fs = true) (hl : ((s.fnRec r.fn).slot r.slot).len ≠ encodedLen p.2.2) :
    exec p.1 s = s.refuses r .badLength := by
  obtain ⟨body, h⟩ := h
  exact h.trans (serve_length hd (hp _) hl)

end

/-- Settles O34: every listed command is one that serves its requests for the PF alone or for the PF and bound VFs. -/
theorem mailboxRequestsAreChecked : Obligations.MailboxRequestsAreChecked := by
  intro s r image reserved n slot pf vf
  have hpf : ∀ p ∈ pf, ServesFor s r (pfOnly r) p := by
    refine List.forall_mem_cons.2 ⟨servesFor_of (execFwStatus r) rfl ⟨_, rfl⟩, ?_⟩
    refine List.forall_mem_cons.2 ⟨servesFor_of (execLogRead r) rfl ⟨_, rfl⟩, ?_⟩
    refine List.forall_mem_cons.2 ⟨servesFor_of (execFwUpdate r image) rfl ⟨_, rfl⟩, ?_⟩
    refine List.forall_mem_cons.2 ⟨servesFor_of (execFwLoad r image) rfl ⟨_, rfl⟩, ?_⟩
    refine List.forall_mem_cons.2 ⟨servesFor_of (execDevRestart r) rfl ⟨_, rfl⟩, ?_⟩
    refine List.forall_mem_cons.2 ⟨servesFor_of (execPageMap r) rfl ⟨_, rfl⟩, ?_⟩
    refine List.forall_mem_cons.2 ⟨servesFor_of (execPageUnmap r) rfl ⟨_, rfl⟩, ?_⟩
    refine List.forall_mem_cons.2 ⟨servesFor_of (execPageQuery r) rfl ⟨_, rfl⟩, ?_⟩
    refine List.forall_mem_cons.2 ⟨servesFor_of (execSharedCreate r) rfl ⟨_, rfl⟩, ?_⟩
    refine List.forall_mem_cons.2 ⟨servesFor_of (execSharedDestroy r) rfl ⟨_, rfl⟩, ?_⟩
    refine List.forall_mem_cons.2 ⟨servesFor_of (execQuadSetL1 r) rfl ⟨_, rfl⟩, ?_⟩
    refine List.forall_mem_cons.2 ⟨servesFor_of (execSliceDefine r) rfl ⟨_, rfl⟩, ?_⟩
    refine List.forall_mem_cons.2 ⟨servesFor_of (execPartActivate r) rfl ⟨_, rfl⟩, ?_⟩
    refine List.forall_mem_cons.2 ⟨servesFor_of (execPartQuiesce r) rfl ⟨_, rfl⟩, ?_⟩
    refine List.forall_mem_cons.2 ⟨servesFor_of (execPartResume r) rfl ⟨_, rfl⟩, ?_⟩
    refine List.forall_mem_cons.2 ⟨servesFor_of (execPartDestroy r) rfl ⟨_, rfl⟩, ?_⟩
    refine List.forall_mem_cons.2 ⟨servesFor_of (execPartRebindQuads r) rfl ⟨_, rfl⟩, ?_⟩
    refine List.forall_mem_cons.2 ⟨servesFor_of (execPartRebindChannels r) rfl ⟨_, rfl⟩, ?_⟩
    refine List.forall_mem_cons.2 ⟨servesFor_of (execDevSetMigRate r) rfl ⟨_, rfl⟩, ?_⟩
    refine List.forall_mem_cons.2 ⟨servesFor_of (execSchedSet r) rfl ⟨_, rfl⟩, ?_⟩
    refine List.forall_mem_cons.2 ⟨servesFor_of (execMemChannelStatus r) rfl ⟨_, rfl⟩, ?_⟩
    refine List.forall_mem_cons.2 ⟨servesFor_of (execMemChannelMapOut r) rfl ⟨_, rfl⟩, ?_⟩
    refine List.forall_mem_cons.2 ⟨servesFor_of (execMemChannelAdmit r) rfl ⟨_, rfl⟩, ?_⟩
    refine List.forall_mem_cons.2 ⟨servesFor_of (execSharedLoad r image) rfl ⟨_, rfl⟩, ?_⟩
    refine List.forall_mem_cons.2 ⟨servesFor_of (execMemSetMode r) rfl ⟨_, rfl⟩, ?_⟩
    refine List.forall_mem_cons.2 ⟨servesFor_of (repair r 0x4800 true) rfl ⟨_, rfl⟩, ?_⟩
    refine List.forall_mem_cons.2 ⟨servesFor_of (repair r 0x4801 false) rfl ⟨_, rfl⟩, ?_⟩
    refine List.forall_mem_cons.2 ⟨servesFor_of (execHbmLaneMapRead r) rfl ⟨_, rfl⟩, ?_⟩
    refine List.forall_mem_cons.2 ⟨servesFor_of (execHbmLaneMapWrite r) rfl ⟨_, rfl⟩, ?_⟩
    refine List.forall_mem_cons.2 ⟨servesFor_of (execHbmRowTest r) rfl ⟨_, rfl⟩, ?_⟩
    refine List.forall_mem_cons.2 ⟨servesFor_of (execHingeStatus r) rfl ⟨_, rfl⟩, ?_⟩
    refine List.forall_mem_cons.2 ⟨servesFor_of (execHingeRetrain r) rfl ⟨_, rfl⟩, ?_⟩
    refine List.forall_mem_cons.2 ⟨servesFor_of (execPoolMap r n) rfl ⟨_, rfl⟩, ?_⟩
    refine List.forall_mem_cons.2 ⟨servesFor_of (execPoolUnmap r) rfl ⟨_, rfl⟩, ?_⟩
    refine List.forall_mem_cons.2 ⟨servesFor_of (execPoolRecall r) rfl ⟨_, rfl⟩, ?_⟩
    refine List.forall_mem_cons.2 ⟨servesFor_of (execPoolLedger r) rfl ⟨_, rfl⟩, ?_⟩
    refine List.forall_mem_cons.2 ⟨servesFor_of (execLedgerScan r) rfl ⟨_, rfl⟩, ?_⟩
    refine List.forall_mem_cons.2 ⟨servesFor_of (execTwinForceSolo r reserved) rfl ⟨_, rfl⟩, ?_⟩
    refine List.forall_mem_cons.2 ⟨servesFor_of (execVfUnbind r) rfl ⟨_, rfl⟩, ?_⟩
    refine List.forall_mem_cons.2 ⟨servesFor_of (execTumblerRevoke r) rfl ⟨_, rfl⟩, ?_⟩
    refine List.forall_mem_cons.2 ⟨servesFor_of (execHostWindowUnmap r) rfl ⟨_, rfl⟩, ?_⟩
    refine List.forall_mem_cons.2 ⟨servesFor_of (execDirtyLogStart r) rfl ⟨_, rfl⟩, ?_⟩
    refine List.forall_mem_cons.2 ⟨servesFor_of (logChange r 0x4B08 (fun l => some { l with second := !l.second })) rfl ⟨_, rfl⟩, ?_⟩
    refine List.forall_mem_cons.2 ⟨servesFor_of (logChange r 0x4B09 (fun _ => none)) rfl ⟨_, rfl⟩, ?_⟩
    refine List.forall_mem_cons.2 ⟨servesFor_of (execLbxSetId r) rfl ⟨_, rfl⟩, ?_⟩
    refine List.forall_mem_cons.2 ⟨servesFor_of (execLbxRetrain r) rfl ⟨_, rfl⟩, ?_⟩
    refine List.forall_mem_cons.2 ⟨servesFor_of (execSecPartEvict r) rfl ⟨_, rfl⟩, ?_⟩
    refine List.forall_mem_cons.2 ⟨servesFor_of (execDbgAuthorize r) rfl ⟨_, rfl⟩, ?_⟩
    refine List.forall_mem_cons.2 ⟨servesFor_of (execDbgRevoke r) rfl ⟨_, rfl⟩, ?_⟩
    refine List.forall_mem_cons.2 ⟨servesFor_of (execDbgTraceStart r) rfl ⟨_, rfl⟩, ?_⟩
    refine List.forall_mem_cons.2 ⟨servesFor_of (execDbgTraceStop r) rfl ⟨_, rfl⟩, ?_⟩
    refine List.forall_mem_cons.2 ⟨servesFor_of (execPwrSetCap r) rfl ⟨_, rfl⟩, ?_⟩
    refine List.forall_mem_cons.2 ⟨servesFor_of (execPwrSetState r) rfl ⟨_, rfl⟩, ?_⟩
    refine List.forall_mem_cons.2 ⟨servesFor_of (execErrCounts r) rfl ⟨_, rfl⟩, ?_⟩
    exact List.forall_mem_nil _
  have hvf : ∀ p ∈ vf, ServesFor s r (vfPermits r) p := by
    refine List.forall_mem_cons.2 ⟨servesFor_of (execDevStatus r) rfl ⟨_, rfl⟩, ?_⟩
    refine List.forall_mem_cons.2 ⟨servesFor_of (execMemTileState r) rfl ⟨_, rfl⟩, ?_⟩
    refine List.forall_mem_cons.2 ⟨servesFor_of (execLbxStatus r) rfl ⟨_, rfl⟩, ?_⟩
    refine List.forall_mem_cons.2 ⟨servesFor_of (execSecStatus r) rfl ⟨_, rfl⟩, ?_⟩
    refine List.forall_mem_cons.2 ⟨servesFor_of (execSecPartReport r) rfl ⟨_, rfl⟩, ?_⟩
    refine List.forall_mem_cons.2 ⟨servesFor_of (execSecPageQuery r) rfl ⟨_, rfl⟩, ?_⟩
    refine List.forall_mem_cons.2 ⟨servesFor_of (execPwrStatus r) rfl ⟨_, rfl⟩, ?_⟩
    exact List.forall_mem_nil _
  refine ⟨fun p hp hs => ?_, fun p hp hd hf => (hpf p hp).denies hd (fun fs => pfOnly_vf hf),
    fun p hp hd hf hc => (hvf p hp).denies hd (fun fs => ?_), fun p hp hd hf hl => ?_⟩
  · rcases List.mem_append.1 hp with hp | hp
    · exact (hpf p hp).skips hs
    · exact (hvf p hp).skips hs
  · simp [vfPermits, State.permits, hf, hc]
  · rcases List.mem_append.1 hp with hp | hp
    · exact (hpf p hp).measures hd (fun fs => pfOnly_pf hf) hl
    · exact (hvf p hp).measures hd (fun fs => by simp [vfPermits, State.permits, hf]) hl

end Sys2Proof.Machine
end

section
/-! The mailbox commands that lay out memory (R62, R64, R73, R74, R318 to R321, R366, R527, R554). -/

namespace Sys2Proof.Machine

section
variable {s t : State} {r : Req} {code : Nat} {sizes fs : List Nat} {body : List Nat → State → Serve}

/-- A command of the PF whose body answers MB_OK. -/
theorem Asked.granted {c : Bool} {p : List Byte} (h : Asked s r code sizes fs) (hb : body fs s = .ok ⟨t, .ok, c, 0, p, false⟩) :
    serve r code sizes (pfOnly r) body s = t.grants r c p :=
  serve_ok h.toAskedBy (pfOnly_pf h.pf) hb

/-- A command of the PF whose body refuses. -/
theorem Asked.refused {st : MbStatus} (h : Asked s r code sizes fs) (hb : body fs s = .error st) :
    serve r code sizes (pfOnly r) body s = s.refuses r st :=
  serve_error h.toAskedBy (pfOnly_pf h.pf) hb

/-- A command of the PF whose answer follows from a later command. -/
theorem Asked.waits (h : Asked s r code sizes fs) (hb : body fs s = .ok ⟨t, .ok, false, 0, [], true⟩) : serve r code sizes (pfOnly r) body s = .next t := by
  rw [serve_asked h.toAskedBy _ _ (pfOnly_pf h.pf), hb]; rfl

/-- What a request's command ends in, from what its body answers. -/
def settle (s : State) (r : Req) : Serve → Out
  | .error st => s.refuses r st
  | .ok a => if a.later then .next a.s else .next (a.s.answer r.fn r.slot a.status a.clamped a.detail a.payload)

/-- A request that its function may send ends in what the command's body answers. -/
theorem serve_settles {perm : State → List Nat → Bool} (h : AskedBy s r code sizes fs) (hp : perm s fs = true) :
    serve r code sizes perm body s = settle s r (body fs s) := by
  refine (serve_asked h perm body hp).trans ?_
  cases body fs s with
  | error st => rfl
  | ok a => rfl

/-- A check that refuses. -/
theorem refuseIf_stop {α : Type} {c : Bool} {st : MbStatus} (h : c = true) (k : Unit → Except MbStatus α) :
    (refuseIf c st >>= k) = .error st := by rw [refuseIf, if_pos h]; rfl

/-- A check that passes. -/
theorem refuseIf_pass {α : Type} {c : Bool} {st : MbStatus} (h : c = false) (k : Unit → Except MbStatus α) :
    (refuseIf c st >>= k) = k () := by rw [refuseIf, if_neg (by simp [h])]; rfl

end

section
variable {s : State} {r : Req}

theorem pageQuery_answers {a va : Nat} (h : Asked s r 0x0202 [1, 8] [a, va]) :
    exec (.pageQuery r) s = s.grants r (2 ^ 47 ≤ va) (s.pageEntry a va) := by
  show execPageQuery r s = _
  exact h.granted rfl

theorem quadSetL1_answers {quads size : Nat} (h : Asked s r 0x4205 [8, 2] [quads, size]) :
    exec (.quadSetL1 r) s = (let q := BitVec.ofNat 40 quads &&& s.fuses.quads
      let v := if size < 128 then 64 else if size < 192 then 128 else if size < 256 then 192 else 256
      let u := { s with quadL1 := (bitsOf 40 q.toNat).foldl (fun t k => t.put 64 k v) s.quadL1 }
      (((List.range 160).filter (fun c => q.getLsbD (c / 4))).foldl State.coreIdle u).grants r
        (q.toNat ≠ quads || v ≠ size) []) := by
  show execQuadSetL1 r s = _
  exact h.granted rfl

theorem sharedCreate_refused {length half : Nat} (h : Asked s r 0x4203 [8, 1] [length, half]) (hs : s.mm.shared.isSome = true) :
    exec (.sharedCreate r) s = s.refuses r .notInMode := by
  show execSharedCreate r s = _
  exact h.refused (refuseIf_stop hs _)

theorem sharedCreate_made {length half n : Nat} (h : Asked s r 0x4203 [8, 1] [length, half]) (hs : s.mm.shared = none) :
    let rep := decide (half = 1)
    let most := if rep then min (s.spareChans 0).length (s.spareChans 1).length
      else (s.spareChans 0).length + (s.spareChans 1).length
    let len := min (roundUp length 2097152) (planBytes (s.sharedPlan rep most))
    (List.range (most + 1)).find? (fun n => len ≤ planBytes (s.sharedPlan rep n)) = some n →
    let u := (s.sharedPlan rep n).foldl (fun s p => s.addSet .shared p.1 p.2.1 p.2.2) s
    let v := (u.sets.vals.filter (fun e => e.owner = .shared)).foldl (fun s e => s.scrub e.covers) u
    exec (.sharedCreate r) s
      = { v with mm := { v.mm with shared := some ⟨len, rep, false,
          ((if rep then [0, 1] else [0]).map (fun c => takeParts c len (v.sharedSets c))).flatten⟩ } }.grants r
        (len ≠ length || 1 < half) [] := by
  intro rep most len hn u v
  show execSharedCreate r s = _
  refine h.granted ((refuseIf_pass (by rw [hs]; rfl) _).trans (congrArg Except.ok ?_))
  simp only [decide_eq_true_eq, rep, most, len] at hn
  simp only [fieldAt, List.getD_cons_zero, List.getD_cons_succ, hn, Option.getD_some]
  simp only [decide_eq_true_eq, u, v, rep, most, len]
  rfl

theorem sharedDestroy_refused (h : Asked s r 0x4204 [] []) (hs : s.mm.shared = none) :
    exec (.sharedDestroy r) s = s.refuses r .notInMode := by
  show execSharedDestroy r s = _
  exact h.refused (refuseIf_stop (by rw [hs]; rfl) _)

/-- No partition maps the shared region. -/
theorem sharedMapped_eq_false (hp : ∀ p ∈ s.parts.vals, ∀ g ∈ p.pages.vals, ∀ d, g.backing ≠ .shared d) :
    s.parts.any (fun _ p => p.pages.any (fun _ g => match g.backing with
      | .shared _ => true
      | _ => false)) = false := by
  refine List.any_eq_false.2 fun x hx => ?_
  rw [Bool.not_eq_true]
  refine List.any_eq_false.2 fun y hy => ?_
  have hb := hp x.2 (List.mem_map_of_mem hx) y.2 (List.mem_map_of_mem hy)
  cases e : y.2.backing with
  | shared d => exact absurd e (hb d)
  | dev d => simp [e]
  | host d => simp [e]
  | peer d a => simp [e]

theorem sharedDestroy_done (h : Asked s r 0x4204 [] []) (hs : s.mm.shared.isSome = true)
    (hp : ∀ p ∈ s.parts.vals, ∀ g ∈ p.pages.vals, ∀ d, g.backing ≠ .shared d) :
    (∀ u, s.recall s.isShared = (false, u) → exec (.sharedDestroy r) s = .next u)
    ∧ ∀ u, s.recall s.isShared = (true, u) →
      let v := (u.sets.rows.filter (fun e => e.2.owner = .shared)).foldl (fun s e => s.removeSet e.1 e.2) u
      exec (.sharedDestroy r) s = { v with mm := { v.mm with shared := none } }.grants r false [] := by
  have hc : (s.mm.shared.isNone || s.parts.any (fun _ p => p.pages.any (fun _ g => match g.backing with
      | .shared _ => true
      | _ => false))) = false := by
    rw [sharedMapped_eq_false hp, Option.isNone_eq_false_iff.2 hs]; rfl
  constructor
  · intro u hu
    show execSharedDestroy r s = _
    refine h.waits ((refuseIf_pass hc _).trans ?_)
    rw [hu]; rfl
  · intro u hu v
    show execSharedDestroy r s = _
    refine h.granted ((refuseIf_pass hc _).trans ?_)
    rw [hu]; rfl

theorem sharedLoad_refused {image : List Byte} {offset length source : Nat} (h : Asked s r 0x8705 [8, 8, 8] [offset, length, source])
    (hs : s.mm.shared = none) : exec (.sharedLoad r image) s = s.refuses r .notInMode := by
  show execSharedLoad r image s = _
  refine h.refused ?_
  simp only [hs]

theorem sliceDefine_refused {k quads chans ports : Nat} (h : Asked s r 0x4300 [1, 8, 32, 2] [k, quads, chans, ports]) (hk : 63 < k) :
    exec (.sliceDefine r) s = s.refuses r .badLength := by
  show execSliceDefine r s = _
  exact h.refused (refuseIf_stop (decide_eq_true hk) _)

theorem sliceDefine_written {k quads chans ports : Nat} (h : Asked s r 0x4300 [1, 8, 32, 2] [k, quads, chans, ports]) (hk : k ≤ 63)
    (hb : ∀ p, (s.slice k).part = some p → (s.part p).state = .built ∧ (s.part p).confidential = false) :
    let q := BitVec.ofNat 40 quads &&& s.quadsLeft &&& ~~~(s.otherSlices k Slice.quads)
    let c := BitVec.ofNat 256 chans &&& s.unboundChans &&& ~~~(s.otherSlices k Slice.chans)
    let p := BitVec.ofNat 12 ports &&& ~~~(if s.paired then 0x3F else 0) &&& ~~~(s.otherSlices k Slice.ports)
    exec (.sliceDefine r) s = { s with slices := s.slices.set k ⟨q, c, p, (s.slice k).part⟩ }.grants r
      (q.toNat ≠ quads || c.toNat ≠ chans || p.toNat ≠ ports)
      (encodeFields [(1, k), (8, q.toNat), (32, c.toNat), (2, p.toNat)]) := by
  intro q c p
  show execSliceDefine r s = _
  refine h.granted ((refuseIf_pass (decide_eq_false (Nat.not_lt.2 hk)) _).trans ((refuseIf_pass ?_ _).trans
    ((refuseIf_pass ?_ _).trans rfl)))
  · show (!(match (s.slice k).part with | none => true | some p => decide ((s.part p).state = .built))) = false
    cases e : (s.slice k).part with
    | none => rfl
    | some p => simp [(hb p e).1]
  · show (_ && (match (s.slice k).part with | some p => (s.part p).confidential | none => false)) = false
    cases e : (s.slice k).part with
    | none => exact Bool.and_false _
    | some p => simp only [(hb p e).2, Bool.and_false]

theorem sharedLoad_answers {image : List Byte} {offset length source : Nat} (h : Asked s r 0x8705 [8, 8, 8] [offset, length, source])
    {g : SharedRegion} (hg : s.mm.shared = some g) :
    let off := min offset g.length
    let len := min length (g.length - off)
    let ts := sharedTiles off len
    let bytes := ts.length * 2048
    let src := s.coverSource source bytes
    let lines := (g.copies.map (fun c =>
      ts.filterMap (fun t => (s.sharedDpa c (t * 2048)).map (fun d => s.forward (d / 128))))).flatten
    (lines.any s.tileMoving = true → exec (.sharedLoad r image) s = .next s)
    ∧ (∀ u, lines.any s.tileMoving = false → s.recall (fun n => lines.contains (n / 16 * 16)) = (false, u) →
      exec (.sharedLoad r image) s = .next u)
    ∧ ∀ u, lines.any s.tileMoving = false → s.recall (fun n => lines.contains (n / 16 * 16)) = (true, u) →
      exec (.sharedLoad r image) s = (u.loadShared g ts (if u.inWindow src then u.windowBytes src bytes else image)).grants r
        (off ≠ offset || len ≠ length || off % 2048 ≠ 0 || (off + len) % 2048 ≠ 0 || src ≠ source) [] := by
  intro off len ts bytes src lines
  refine ⟨fun hm => ?_, fun u hm hu => ?_, fun u hm hu => ?_⟩
  · show execSharedLoad r image s = _
    refine h.waits ?_
    simp only [hg]
    exact if_pos hm
  · show execSharedLoad r image s = _
    refine h.waits ?_
    simp only [hg]
    refine (if_neg (by rw [Bool.not_eq_true]; exact hm)).trans ?_
    split
    next w e => cases hu.symm.trans e; rfl
    next w e => cases hu.symm.trans e
  · show execSharedLoad r image s = _
    refine h.granted ?_
    simp only [hg]
    refine (if_neg (by rw [Bool.not_eq_true]; exact hm)).trans ?_
    split
    next w e => cases hu.symm.trans e
    next w e => cases hu.symm.trans e; rfl

/-- ACCESS is stored as given unless it is above 1. -/
theorem accessBit_ne (v : Nat) : decide (¬(if decide (v = 1) = true then 1 else 0) = v) = decide (1 < v) := by
  rcases v with _ | _ | v <;> simp

theorem pageMap_answers {a va count size back access target : Nat}
    (h : Asked s r 0x4200 [1, 8, 4, 1, 1, 1, 8] [a, va, count, size, back, access, target]) :
    let p := partArg a
    let large := decide (size = 1)
    let u := pageUnits large
    let key := min (va / (u * 65536) * u) (windowUnits - u)
    let n := min count ((windowUnits - key) / u)
    let dest := target / (u * 65536) * (u * 65536)
    (s.part p).state ≠ .free → (s.part p).mappedAny key (n * u) = false →
    let moved := 15 < a || key * 65536 ≠ va || 1 < size || 1 < access
    (back = 0 →
      let d := State.mapFrames p large (access = 1) n key s
      exec (.pageMap r) s = d.2.grants r (moved || d.1 ≠ count) [])
    ∧ (back = 2 → (s.part p).hostChanges = true →
      exec (.pageMap r) s = (((List.range n).foldl (fun s k =>
        s.putPage p (key + k * u) ⟨large, .host (dest + k * (u * 65536)), decide (access = 1), false⟩) s).hostMapped p).grants r
          (moved || n ≠ count || dest ≠ target) [])
    ∧ (back = 2 → (s.part p).hostChanges = false → exec (.pageMap r) s = s.refuses r .notInMode) := by
  intro p large u key n dest hs hm moved
  have hc : (decide ((s.part p).state = .free) || (s.part p).mappedAny key (n * u)) = false := by
    rw [hm, decide_eq_false hs]; rfl
  refine ⟨?_, fun hb hh => ?_, fun hb hh => ?_⟩
  · intro hb d
    subst hb
    show execPageMap r s = _
    refine h.granted ((refuseIf_pass hc _).trans ?_)
    simp only [fieldAt, List.getD_cons_zero, List.getD_cons_succ, Nat.not_lt_zero, if_false, if_true, zero_ne_one, Nat.reduceEqDiff,
      decide_false, Bool.false_and, refuseIf_pass, ne_eq, not_false_eq_true, decide_true, Bool.and_true, not_true_eq_false, Bool.or_false,
      accessBit_ne]
    refine congrArg (fun c => Except.ok (Ans.ok d.2 c)) ?_
    simp only [moved, d, n, key, u, large, p, ne_eq]
    ac_rfl
  · subst hb
    show execPageMap r s = _
    refine h.granted ((refuseIf_pass hc _).trans ?_)
    simp only [fieldAt, List.getD_cons_zero, List.getD_cons_succ, Nat.lt_irrefl, if_false, Nat.reduceEqDiff, decide_false,
      Bool.false_and, refuseIf_pass, ne_eq, not_false_eq_true, decide_true, Bool.and_true, Bool.or_false, Bool.true_and, hh, p, Bool.not_true,
      accessBit_ne]
    refine congrArg (fun c => Except.ok (Ans.ok _ c)) ?_
    simp only [moved, dest, n, key, u, large, ne_eq]
    ac_rfl
  · subst hb
    show execPageMap r s = _
    refine h.refused ((refuseIf_pass hc _).trans ?_)
    simp only [fieldAt, List.getD_cons_zero, List.getD_cons_succ, Nat.lt_irrefl, if_false, Nat.reduceEqDiff, decide_false, Bool.false_and,
      refuseIf_pass]
    exact refuseIf_stop (by simp only [decide_true, Bool.true_and, Bool.not_eq_true']; exact hh) _

theorem pageUnmap_answers {a va count : Nat} (h : Asked s r 0x4201 [1, 8, 4] [a, va, count]) :
    let p := partArg a
    let key := min (va / 65536) (windowUnits - 1)
    let n := min count (windowUnits - key)
    let met := (s.part p).pages.rows.filter (fun r => r.1 < key + n && key < r.1 + pageUnits r.2.large)
    let pages := met.filter (fun r => key ≤ r.1 && r.1 + pageUnits r.2.large ≤ key + n)
    (s.part p).state ≠ .free → (∀ g ∈ pages, ∀ h, g.2.backing ≠ .host h) →
    (∀ u, s.unmapPages p pages = (false, u) → exec (.pageUnmap r) s = .next u)
    ∧ ∀ u, s.unmapPages p pages = (true, u) → exec (.pageUnmap r) s
      = u.advanceMigs.grants r (15 < a || key * 65536 ≠ va || n ≠ count || pages.length ≠ met.length) [] := by
  intro p key n met pages hs hp
  have hh : pages.any (fun r => match r.2.backing with
      | .host _ => true
      | _ => false) = false := by
    refine List.any_eq_false.2 fun g hg => ?_
    cases e : g.2.backing with
    | host d => exact absurd e (hp g hg d)
    | dev d => exact Bool.false_ne_true
    | shared d => exact Bool.false_ne_true
    | peer d a => exact Bool.false_ne_true
  have hc : (decide ((s.part p).state = .free) || (pages.any (fun r => match r.2.backing with
      | .host _ => true
      | _ => false) && !(s.part p).hostChanges)) = false := by
    rw [hh, decide_eq_false hs]; rfl
  constructor
  · intro u hu
    show execPageUnmap r s = _
    refine h.waits ((refuseIf_pass hc _).trans ?_)
    split
    next w e => cases hu.symm.trans e; rfl
    next w e => cases hu.symm.trans e
  · intro u hu
    show execPageUnmap r s = _
    refine h.granted ((refuseIf_pass hc _).trans ?_)
    split
    next w e => cases hu.symm.trans e
    next w e =>
      cases hu.symm.trans e
      refine congrArg (fun v : State => Except.ok (Ans.ok v.advanceMigs _)) (if_neg ?_)
      rw [Bool.not_eq_true]
      exact hh

end

/-- Settles O35: each command's body, evaluated on the fields of its request. -/
theorem memoryIsLaidOut : Obligations.MemoryIsLaidOut := by
  intro s r
  refine ⟨fun a va count size back access target h => ?_, fun a va count h => pageUnmap_answers h, fun a va h => pageQuery_answers h,
    fun length half h => ⟨sharedCreate_refused h, fun hs => ?_⟩, fun h => ⟨sharedDestroy_refused h, sharedDestroy_done h⟩,
    fun quads size h => quadSetL1_answers h,
    fun k quads chans ports h => ⟨sliceDefine_refused h, sliceDefine_written h⟩,
    fun offset length source image h => ⟨sharedLoad_refused h, fun g hg => sharedLoad_answers h hg⟩⟩
  · intro p large u key n dest _ _ hs hm
    exact pageMap_answers h hs hm
  · intro rep most len n hn
    exact sharedCreate_made h hs hn

end Sys2Proof.Machine
end

section
/-! Mailbox slots: submission, acknowledgement, dispatch and limits (R469 to R471, R511 to R513, R518 to R521). -/

namespace Sys2Proof.Machine

/-- An operation applied once at each key of a list but 0. -/
theorem Tab.get_foldl_upd {α : Type} [DecidableEq α] (d : α) (f : α → α) (k : Nat) (l : List Nat) (hl : l.Nodup) (t : Tab α) :
    (l.foldl (fun t j => if j = 0 then t else t.upd d j f) t).get d k = if k ∈ l ∧ k ≠ 0 then f (t.get d k) else t.get d k := by
  induction l generalizing t with
  | nil => simp
  | cons j l ih =>
    obtain ⟨hj, hn⟩ := List.nodup_cons.1 hl
    rw [List.foldl_cons, ih hn]
    by_cases h0 : j = 0
    · by_cases hk : k = 0
      · simp [h0, hk]
      · simp [h0, hk]
    · by_cases hk : k = j
      · subst hk
        simp [h0, hj, Tab.upd]
      · simp only [h0, if_false, Tab.upd, Tab.get_put_ne d t hk, List.mem_cons, hk, false_or]

section
variable {s : State} {fn : Fin 64} {off : BitVec 26} {data : List Byte}

/-- A register write that reaches its function with nothing between is what its body does. -/
theorem registerWrite_admitted {rid : Option Nat} (hw : ∀ t, inbound fn rid false s t = .next t) :
    exec (.registerWrite fn rid off data) s = .next (match areaAt fn 0x4000 off.toNat data.length with
    | some (k, o) =>
      let f := s.fnRec fn
      let w := f.slot k
      if w.state ≠ .free then s
      else s.setFn fn (f.setSlot k { w with area := spliceBytes (sliceBytes w.area 0 (slotSize fn)) o data })
    | none =>
      let o := off.toNat
      if data.length = 8 && o % 8 = 0 then (s.writeWord fn o (numAt data 0 4)).writeWord fn (o + 4) (numAt data 4 4)
      else if data.length = 4 && o % 4 = 0 then s.writeWord fn o (numAt data 0 4)
      else s) := by
  show execRegisterWrite fn rid off data s = _
  exact hw _

/-- No slot's request area reaches past 0x5000 (Table 16-2). -/
theorem areaAt_past {n k : Nat} (h : 0x5000 ≤ k) (hn : 0 < n) : areaAt fn 0x4000 k n = none := by
  have hz : slotSize fn ≤ 512 := by unfold slotSize; split <;> omega
  refine if_neg ?_
  simp only [Bool.and_eq_true, decide_eq_true_eq]
  omega

/-- A write of one word past the mailbox slots. -/
theorem registerWrite_word {rid : Option Nat} (hw : ∀ t, inbound fn rid false s t = .next t) (hd : data.length = 4) (h : 0x5000 ≤ off.toNat)
    (ho : off.toNat % 4 = 0) : exec (.registerWrite fn rid off data) s = .next (s.writeWord fn off.toNat (numAt data 0 4)) := by
  rw [registerWrite_admitted hw, areaAt_past h (by omega), hd]
  simp [ho]

/-- A slot of a function is submitted. -/
theorem submitSlot_free {k : Nat} {fn : Nat} (h : ((s.fnRec fn).slot k).state = .free) :
    let w := { (s.fnRec fn).slot k with
      state := .pending, req := sliceBytes ((s.fnRec fn).slot k).area 0 (slotSize fn), order := s.nextId, busy := false }
    let full := classOf w.code ≠ 0 ∧ (if fn = 0 then 7 else (s.fnRec fn).limit) ≤ (s.fnRec fn).queued
    let u := { s with nextId := s.nextId + 1 }
    (s.fw.hung = true ∨ s.served fn = false ∨ full →
      s.submitSlot fn k = u.setFn fn ((s.fnRec fn).setSlot k (w.answer .busy false 0 [])))
    ∧ (s.fw.hung = false → s.served fn = true → ¬full → s.submitSlot fn k = u.setFn fn ((s.fnRec fn).setSlot k w)) := by
  intro w full u
  unfold State.submitSlot
  rw [if_neg (not_not.2 h)]
  constructor
  · intro hb
    refine if_pos ?_
    rcases hb with hb | hb | ⟨h1, h2⟩
    · exact Bool.or_eq_true_iff.2 (.inl (Bool.or_eq_true_iff.2 (.inl hb)))
    · refine Bool.or_eq_true_iff.2 (.inl (Bool.or_eq_true_iff.2 (.inr ?_)))
      exact (congrArg (!·) hb : (!s.served fn) = true)
    · exact Bool.or_eq_true_iff.2 (.inr (Bool.and_eq_true_iff.2 ⟨decide_eq_true h1, decide_eq_true h2⟩))
  · intro hh hv hf
    refine if_neg fun hb => ?_
    rcases Bool.or_eq_true_iff.1 hb with hb | hb
    · rcases Bool.or_eq_true_iff.1 hb with hb | hb
      · exact Bool.false_ne_true (hh.symm.trans hb)
      · have hb : (!s.served fn) = true := hb
        rw [hv] at hb
        exact Bool.false_ne_true hb
    · obtain ⟨h1, h2⟩ := Bool.and_eq_true_iff.1 hb
      exact hf ⟨of_decide_eq_true h1, of_decide_eq_true h2⟩

/-- The firmware takes the next request. -/
theorem mailboxDispatch_takes {fn slot : Nat} {k : Slot} (h : s.nextRequest = some (fn, slot, k)) :
    let u := { s with fw := { s.fw with lastFn := fn } }
    exec .mailboxDispatch s = .next (if k.code ∈ commandCodes then
      if s.servesCode k.code then u.setFn fn ((s.fnRec fn).setSlot slot { k with busy := true })
      else u.answer fn slot .notInMode false 0 []
      else u.answer fn slot .unknown false 0 []) := by
  intro u
  show execMailboxDispatch s = _
  unfold execMailboxDispatch
  rw [h]
  have hs : u.servesCode k.code = s.servesCode k.code := rfl
  by_cases hc : k.code ∈ commandCodes
  · have hcc : (!commandCodes.contains k.code) = false := by simp [hc]
    rw [if_pos hc]
    refine (if_neg (by rw [hcc]; exact Bool.false_ne_true)).trans ?_
    cases hb : s.servesCode k.code with
    | true => exact if_neg (by rw [hs, hb]; exact Bool.false_ne_true)
    | false => exact if_pos (by rw [hs, hb]; rfl)
  · rw [if_neg hc]
    exact if_pos (by simp [hc])

theorem tumblerReadReject_counts {rid : BitVec 16} (hu : s.host.up = true) (hx : s.fnExists fn = true) :
    exec (.tumblerReadReject fn rid) s = .next ((s.tumblerDrop fn 2 rid.toNat).event 0x601 fn) := by
  show execTumblerReadReject fn rid s = _
  exact if_neg (by rw [hu, hx]; exact Bool.false_ne_true)

/-- A VF's limit as it is halved or restored by one (R521). -/
def Fn.relimit (halve : Bool) (f : Fn) : Fn :=
  if halve then { f with limit := max 1 (f.limit / 2) } else { f with limit := min f.setLimit (f.limit + 1) }

theorem Fn.relimit_limit (halve : Bool) (f : Fn) :
    f.relimit halve = { f with limit := if halve then max 1 (f.limit / 2) else min f.setLimit (f.limit + 1) } := by
  cases halve <;> rfl

theorem mbLimitAdjust_limits (s : State) :
    let halve := decide (64 < s.mbQueued ∨ s.fw.halving = true ∧ 32 ≤ s.mbQueued)
    exec .mbLimitAdjust s = .next { s with
      fns := (List.range 64).foldl (fun t k => if k = 0 then t else t.upd Fn.init k (Fn.relimit halve)) s.fns
      fw := { s.fw with halving := halve } } := by
  intro halve
  show execMbLimitAdjust s = _
  have hv : (decide (64 < s.mbQueued) || (s.fw.halving && decide (32 ≤ s.mbQueued))) = halve := by
    simp only [halve, Bool.decide_or, Bool.decide_and, Bool.decide_eq_true]
  unfold execMbLimitAdjust
  simp only [hv]
  rfl

theorem mbSetLimit_sets {r : Req} {f limit : Nat} (h : Asked s r 0x4106 [1, 1] [f, limit]) (hf : f ≠ 0) :
    let g := min (max f 1) 63
    let l := min (max limit 1) 7
    exec (.mbSetLimit r) s = (s.setFn g { s.fnRec g with
      setLimit := l, limit := if (s.fnRec g).limit < (s.fnRec g).setLimit then min (s.fnRec g).limit l else l }).grants r
        (63 < f || limit < 1 || 7 < limit) [] := by
  intro g l
  show execMbSetLimit r s = _
  refine serve_ok h.toAskedBy ?_ (congrArg (fun c => Except.ok (Ans.ok _ c)) ?_)
  · simp [State.permits, h.pf, fieldAt, hf]
  · have h1 : decide (f < 1) = false := decide_eq_false (by omega)
    simp only [fieldAt, clampTo, List.getD_cons_zero, List.getD_cons_succ, h1, Bool.false_or, Bool.or_assoc]

end

/-- Settles O36. -/
theorem slotsAreSubmittedAndTaken : Obligations.SlotsAreSubmittedAndTaken := by
  refine ⟨?_, fun s fn k => ⟨fun h => if_pos h, submitSlot_free⟩, ?_, fun s fn rid => tumblerReadReject_counts, ?_,
    fun s r f limit h hf => mbSetLimit_sets h hf⟩
  · intro s fn rid slots off data hu hc hx hf h0
    constructor
    · intro hr
      subst hr
      have hw : ∀ t, inbound fn none false s t = .next t := inbound_admitted hu hc hx hf h0 rfl
      refine ⟨hw _, hw _, fun k o ha => ?_, fun hd ho => ?_, fun hd ho => ?_⟩
      · intro w
        rw [registerWrite_admitted hw, ha]
        exact ⟨fun hs => congrArg _ (if_neg (not_not.2 hs)), fun hs => congrArg _ (if_pos hs)⟩
      · subst ho
        exact registerWrite_word hw hd (by decide) (by decide)
      · subst ho
        exact registerWrite_word hw hd (by decide) (by decide)
    · intro n hr c hc'
      subst hr
      have hw : ∀ t, inbound fn (some n) false s t = .next ((s.tumblerDrop fn 1 n).event 0x601 fn) :=
        inbound_dropped hu hc hx hf h0 rfl
      simp only [List.mem_cons, List.not_mem_nil, or_false] at hc'
      rcases hc' with rfl | rfl | rfl
      · exact hw _
      · exact hw _
      · exact hw _
  · intro s fn slot k h u
    have hd := mailboxDispatch_takes h
    refine ⟨fun h1 => ?_, fun h1 h2 => ?_, fun h1 h2 => ?_⟩
    · rw [hd, if_neg h1]
    · rw [hd, if_pos h1, if_neg (by rw [h2]; exact Bool.false_ne_true)]
    · rw [hd, if_pos h1, if_pos h2]
  · intro s halve
    refine ⟨_, mbLimitAdjust_limits s, rfl, fun k h1 h64 => ?_, ?_, rfl⟩
    · have hk := Tab.get_foldl_upd Fn.init (Fn.relimit halve) k (List.range 64) List.nodup_range s.fns
      rw [if_pos ⟨List.mem_range.2 h64, by omega⟩] at hk
      exact hk.trans (Fn.relimit_limit halve _)
    · have hk := Tab.get_foldl_upd Fn.init (Fn.relimit halve) 0 (List.range 64) List.nodup_range s.fns
      rwa [if_neg (by simp)] at hk

end Sys2Proof.Machine
end

section
/-! The life of a partition by mailbox commands (R366 to R383, R549 to R559). -/

namespace Sys2Proof.Machine

section
variable {s t : State} {r : Req} {code : Nat} {sizes fs : List Nat} {perm : State → List Nat → Bool} {body : List Nat → State → Serve}

/-- A command that its own permission denies. -/
theorem AskedBy.denied (h : AskedBy s r code sizes fs) (hp : perm s fs = false) :
    serve r code sizes perm body s = s.refuses r .denied :=
  serve_denied h.sent (by rw [h.fields]; exact hp)

/-- A command that its own permission admits and whose answer follows from a later command. -/
theorem AskedBy.waits (h : AskedBy s r code sizes fs) (hp : perm s fs = true) (hb : body fs s = .ok ⟨t, .ok, false, 0, [], true⟩) :
    serve r code sizes perm body s = .next t := by
  rw [serve_asked h _ _ hp, hb]; rfl

/-- The check of a partition's state passes. -/
theorem inState_pass {α : Type} {p : Nat} {l : List PartState} (h : (s.part p).state ∈ l) (k : Unit → Except MbStatus α) :
    (inState s p l >>= k) = k () :=
  refuseIf_pass (by simp [h]) k

end

section
variable {s : State} {r : Req}

theorem partCreate_answers {a c w f sp : Nat} (h : Asked s r 0x4301 [1, 1, 1, 1, 1] [a, c, w, f, sp]) :
    let bad := 15 < a ∨ (s.part a).state ≠ .free ∨ f % 2 = 1 ∧ sp % 4 ≠ 0
    (bad → exec (.partCreate r) s = s.refuses r .denied)
    ∧ (¬bad → exec (.partCreate r) s = ((s.setPart a { Part.init with
        state := .built, contexts := min (max c 1) 8, wholeDevice := decide (w % 2 = 1), confidential := decide (f % 2 = 1)
        spill := sp % 4, generation := (s.part a).generation, hostEpoch := (s.part a).hostEpoch }).clearCounters a).grants r
          (c < 1 || 8 < c || 1 < w || 1 < f || 3 < sp) []) := by
  intro bad
  constructor
  · intro hb
    show execPartCreate r s = _
    refine h.denied ?_
    simp only [fieldAt, List.getD_cons_zero, List.getD_cons_succ]
    simp only [bad] at hb
    rcases hb with hb | hb | ⟨h1, h2⟩
    · simp [Nat.not_le.2 hb]
    · simp [hb]
    · simp [h1, h2]
  · intro hb
    show execPartCreate r s = _
    simp only [bad, not_or, not_and, not_not] at hb
    obtain ⟨h1, h2, h3⟩ := hb
    have h4 : f % 2 = 0 ∨ sp % 4 = 0 := by omega
    refine serve_ok h.toAskedBy ?_ (congrArg (fun c => Except.ok (Ans.ok _ c)) ?_)
    · simp only [fieldAt, List.getD_cons_zero, List.getD_cons_succ, h2, State.permits, h.pf]
      simpa [Nat.not_lt.1 h1] using h4
    · rfl

theorem partAddSlice_denied {p k : Nat} (h : Asked s r 0x4302 [1, 1] [p, k]) (hc : (s.part p).confidential = true)
    (hp : (s.slice k).ports ≠ 0) : exec (.partAddSlice r) s = s.refuses r .denied := by
  show sliceChange r 0x4302 true s = _
  refine h.denied ?_
  simp only [fieldAt, List.getD_cons_zero, List.getD_cons_succ, hc, ne_eq, hp, not_false_eq_true, decide_true, Bool.and_self, Bool.not_true,
    Bool.and_false]

theorem partAddSlice_adds {p k : Nat} (h : Asked s r 0x4302 [1, 1] [p, k])
    (hc : (s.part p).confidential = false ∨ (s.slice k).ports = 0) (hk : k ≤ 63) (hb : (s.part p).state = .built)
    (ho : (s.slice k).part = none ∨ (s.slice k).part = some p) :
    exec (.partAddSlice r) s = (s.updSlice k (fun sl => { sl with part := some p })).grants r false [] := by
  show sliceChange r 0x4302 true s = _
  refine serve_ok h.toAskedBy ?_ ((refuseIf_pass (decide_eq_false (Nat.not_lt.2 hk)) _).trans ((inState_pass (by
    rw [List.mem_singleton]; exact hb) _).trans ((refuseIf_pass ?_ _).trans rfl)))
  · rcases hc with hc | hc
    · simp [fieldAt, hc, State.permits, h.pf]
    · simp [fieldAt, hc, State.permits, h.pf]
  · simp only [fieldAt, List.getD_cons_zero, List.getD_cons_succ, if_true]
    rcases ho with ho | ho
    · simp [ho]
    · simp [ho]

theorem partRemoveSlice_removes {p k : Nat} (h : Asked s r 0x4303 [1, 1] [p, k]) (hk : k ≤ 63) (hb : (s.part p).state = .built)
    (ho : (s.slice k).part = some p) :
    exec (.partRemoveSlice r) s = (s.updSlice k (fun sl => { sl with part := none })).grants r false [] := by
  show sliceChange r 0x4303 false s = _
  refine serve_ok h.toAskedBy (by simp [State.permits, h.pf]) ((refuseIf_pass (decide_eq_false (Nat.not_lt.2 hk)) _).trans ((inState_pass (by
    rw [List.mem_singleton]; exact hb) _).trans ((refuseIf_pass ?_ _).trans rfl)))
  simp [fieldAt, ho]

theorem partActivate_answers {p : Nat} (h : Asked s r 0x4304 [1] [p]) (hb : (s.part p).state = .built) (hq : s.quadsOf p ≠ 0)
    (hc : s.chansOf p ≠ 0) (hi : (s.part p).confidential = false ∨ s.ideSecure = true) :
    let formed := s.formSets (.part p) (s.part p).wholeDevice
      ((bitsOf 256 (s.chansOf p).toNat).filter (fun c => (s.chan c).state = .unbound))
    ((formed.sets.any (fun _ e => e.owner = .part p)) = false → exec (.partActivate r) s = s.refuses r .denied)
    ∧ ((formed.sets.any (fun _ e => e.owner = .part p)) = true →
      let u := ((formed.sets.vals.filter (fun e => e.owner = .part p)).foldl (fun s e => s.scrub e.covers) formed).nextGeneration p
      exec (.partActivate r) s = (((u.setPart p { u.part p with
        state := .active, locked := true, switchOuts := 0, restores := 0 }).reserveSave p).clearCounters p).grants r false []) := by
  intro formed
  have h1 : (s.part p).state ∈ [PartState.built] := List.mem_singleton.2 hb
  have h2 : (decide (s.quadsOf p = 0) || decide (s.chansOf p = 0)) = false := by rw [decide_eq_false hq, decide_eq_false hc]; rfl
  have h3 : ((s.part p).confidential && !s.ideSecure) = false := by
    rcases hi with hi | hi
    · rw [hi]; rfl
    · rw [hi]; exact Bool.and_false _
  constructor
  · intro hf
    show execPartActivate r s = _
    refine h.refused ((inState_pass h1 _).trans ((refuseIf_pass h2 _).trans ((refuseIf_pass h3 _).trans (refuseIf_stop ?_ _))))
    exact congrArg (!·) hf
  · intro hf u
    show execPartActivate r s = _
    refine h.granted ((inState_pass h1 _).trans ((refuseIf_pass h2 _).trans ((refuseIf_pass h3 _).trans ((refuseIf_pass ?_ _).trans rfl))))
    exact congrArg (!·) hf

theorem partQuiesce_quiesces {a : Nat} (h : Asked s r 0x4305 [1] [a]) (hb : (s.part a).state = .active) :
    exec (.partQuiesce r) s = (s.quiesce a).grants r false [] := by
  show execPartQuiesce r s = _
  exact h.granted (inState_pass (List.mem_singleton.2 hb) _)

theorem partResume_resumes {p : Nat} (h : Asked s r 0x4306 [1] [p]) (hb : (s.part p).state = .quiesced)
    (hi : (s.part p).confidential = false ∨ s.ideSecure = true) :
    let u := s.setPart p { s.part p with state := .active }
    exec (.partResume r) s = ((u.queuesOf p).foldl (fun s q => if s.mayRequest p (q.1 / 8 % 8) then
      (s.setQueue q.1 { q.2 with state := .idle, enable := true }).settleQueue q.1 else s) u).grants r false [] := by
  intro u
  have h3 : ((s.part p).confidential && !s.ideSecure) = false := by
    rcases hi with hi | hi
    · rw [hi]; rfl
    · rw [hi]; exact Bool.and_false _
  show execPartResume r s = _
  exact h.granted ((inState_pass (List.mem_singleton.2 hb) _).trans ((refuseIf_pass h3 _).trans rfl))

theorem partDestroy_answers {p : Nat} (h : Asked s r 0x4307 [1] [p]) (hb : (s.part p).state = .built ∨ (s.part p).state = .quiesced)
    (hq : ∀ q ∈ s.queuesOf p, q.2.state = .disabled) :
    (∀ u, s.recall (s.inPart p) = (false, u) → exec (.partDestroy r) s = .next u)
    ∧ ∀ u, s.recall (s.inPart p) = (true, u) → (u.servesLines (u.inPart p) = true → exec (.partDestroy r) s = .next u)
      ∧ (u.servesLines (u.inPart p) = false → exec (.partDestroy r) s
        = (((u.failWaits (u.inPart p)).destroyPart p).advanceMigs).grants r false []) := by
  have h1 : (s.part p).state ∈ [PartState.built, .quiesced] := by simpa using hb
  have h2 : (s.queuesOf p).any (fun q => q.2.state ≠ .disabled) = false := by
    refine List.any_eq_false.2 fun q hq' => ?_
    simp [hq q hq']
  refine ⟨fun u hu => ?_, fun u hu => ⟨fun hs => ?_, fun hs => ?_⟩⟩
  · show execPartDestroy r s = _
    refine h.waits ((inState_pass h1 _).trans ((refuseIf_pass h2 _).trans ?_))
    split
    next w e => cases hu.symm.trans e; rfl
    next w e => cases hu.symm.trans e
  · show execPartDestroy r s = _
    refine h.waits ((inState_pass h1 _).trans ((refuseIf_pass h2 _).trans ?_))
    split
    next w e => cases hu.symm.trans e
    next w e => cases hu.symm.trans e; exact if_pos hs
  · show execPartDestroy r s = _
    refine h.granted ((inState_pass h1 _).trans ((refuseIf_pass h2 _).trans ?_))
    split
    next w e => cases hu.symm.trans e
    next w e => cases hu.symm.trans e; exact if_neg (by rw [Bool.not_eq_true]; exact hs)

theorem partRebindQuads_answers {p k add wd : Nat} (h : Asked s r 0x4309 [1, 1, 8, 8] [p, k, add, wd]) (hk : k ≤ 63)
    (hb : (s.part p).state = .active ∨ (s.part p).state = .quiescing ∨ (s.part p).state = .quiesced)
    (ho : (s.slice k).part = some p) (hr : (s.part p).rebind = none) :
    let new := BitVec.ofNat 40 add &&& s.quadsLeft &&& ~~~(s.otherSlices k Slice.quads)
    let gone := BitVec.ofNat 40 wd &&& s.quadsOf p
    (s.anyOpen ((s.quadsOf p ||| new) &&& ~~~gone) = false → exec (.partRebindQuads r) s = s.refuses r .denied)
    ∧ (s.anyOpen ((s.quadsOf p ||| new) &&& ~~~gone) = true →
      let u := s.setPart p { s.part p with rebind := some ⟨k, new, gone, false⟩, rebound := false }
      exec (.partRebindQuads r) s = (if u.stepping p then u else u.boundary p).grants r
        (new.toNat ≠ add || gone.toNat ≠ wd) []) := by
  intro new gone
  have h1 : (s.part p).state ∈ [PartState.active, .quiescing, .quiesced] := by simpa using hb
  have h2 : (decide ((s.slice k).part ≠ some p) || (s.part p).rebind.isSome) = false := by rw [ho, hr]; simp
  constructor
  · intro hf
    show execPartRebindQuads r s = _
    refine h.refused ((refuseIf_pass (decide_eq_false (Nat.not_lt.2 hk)) _).trans ((inState_pass h1 _).trans ((refuseIf_pass h2 _).trans
      (refuseIf_stop (congrArg (!·) hf) _))))
  · intro hf u
    show execPartRebindQuads r s = _
    refine h.granted ((refuseIf_pass (decide_eq_false (Nat.not_lt.2 hk)) _).trans ((inState_pass h1 _).trans ((refuseIf_pass h2 _).trans
      ((refuseIf_pass (congrArg (!·) hf) _).trans rfl))))

theorem partRebindChannels_answers {p k add rem : Nat} (h : Asked s r 0x430A [1, 1, 32, 32] [p, k, add, rem]) (hk : k ≤ 63)
    (hb : (s.part p).state = .active) (ho : (s.slice k).part = some p) :
    let new := BitVec.ofNat 256 add &&& s.unboundChans &&& ~~~(s.otherSlices 64 Slice.chans)
    let gone := BitVec.ofNat 256 rem &&& s.chansOf p
    let u := (s.updSlice k (fun sl => { sl with chans := sl.chans ||| new })).formSets (.part p) (s.part p).wholeDevice
      (bitsOf 256 new.toNat)
    let v := { u with mm := { u.mm with unbind := u.mm.unbind ++ (bitsOf 256 gone.toNat).filter (fun c =>
      (u.chan c).state = .inService && !u.mm.unbind.contains c) } }
    exec (.partRebindChannels r) s
      = ((((bitsOf 256 gone.toNat).filter (fun c => (v.chan c).state = .unbound)).foldl State.dropChan v).advanceMigs).grants r
        (new.toNat ≠ add || gone.toNat ≠ rem) [] := by
  intro new gone u v
  have h2 : decide ((s.slice k).part ≠ some p) = false := by simp [ho]
  show execPartRebindChannels r s = _
  exact h.granted ((refuseIf_pass (decide_eq_false (Nat.not_lt.2 hk)) _).trans ((inState_pass (List.mem_singleton.2 hb) _).trans
    ((refuseIf_pass h2 _).trans rfl)))

theorem devSetMigRate_sets {v : Nat} (h : Asked s r 0x430C [2] [v]) : exec (.devSetMigRate r) s
    = { s with mm := { s.mm with migRate := min (max v 10) 400 } }.grants r (v < 10 || 400 < v) [] := by
  show execDevSetMigRate r s = _
  exact h.granted rfl

theorem partStatus_shows {a page : Nat} (h : AskedBy s r 0x030B [1, 1] [a, page])
    (hp : r.fn = 0 ∨ (s.permits r.fn true = true ∧ partArg a = s.vfPart r.fn)) :
    exec (.partStatus r) s = s.grantsPage r (s.partImage (partArg a)) page (15 < a) := by
  show execPartStatus r s = _
  refine serve_ok h ?_ rfl
  rcases hp with hp | ⟨h1, h2⟩
  · simp [hp, State.permits]
  · simp [h1, h2, fieldAt]

theorem secPartEvict_evicts {p : Nat} (h : Asked s r 0x4D01 [1] [p]) (hp : p ≤ 15)
    (hb : (s.part p).state = .active ∨ (s.part p).state = .quiescing ∨ (s.part p).state = .quiesced) :
    let l := s.leaveMask p
    let k := (((l.queuesOf p).foldl (fun s q => s.drainQueue q.1) l).killPart p).endRebind p
    (k.part p).confidential = false → k.evicting p = false →
    exec (.secPartEvict r) s = (k.setPart p { k.part p with state := .quiesced }).grants r false [] := by
  intro l k hc he
  have h1 : (s.part p).state ∈ [PartState.active, .quiescing, .quiesced] := by simpa using hb
  show execSecPartEvict r s = _
  refine h.granted ((refuseIf_pass (decide_eq_false (Nat.not_lt.2 hp)) _).trans ((inState_pass h1 _).trans ?_))
  simp only [k, l] at hc he
  simp only [fieldAt, List.getD_cons_zero, hc, Bool.false_eq_true, if_false, he, k, l]
  rfl

/-! ## Reconfiguration (R383) -/

section
variable {p c w f sp : Nat} {ks : List Nat}

/-- The list of slices of a PART_RECONFIGURE. -/
theorem reconfigure_count (h : Asked s r 0x4308 ([1, 1, 1, 1, 1, 2] ++ List.replicate ks.length 1) ([p, c, w, f, sp, ks.length] ++ ks)) :
    (decodeFields [1, 1, 1, 1, 1, 2] ((s.fnRec r.fn).slot r.slot).payload).getD 5 0 = ks.length := by
  have hf := h.fields
  simp [decodeFields, layout, roundUp] at hf ⊢
  exact hf.2.2.2.2.2.1

/-- A command with a list at its end is served as one of its fields and its elements. -/
theorem reconfigure_serves (h : Asked s r 0x4308 ([1, 1, 1, 1, 1, 2] ++ List.replicate ks.length 1) ([p, c, w, f, sp, ks.length] ++ ks))
    (perm : State → List Nat → Bool) (body : List Nat → List Nat → State → Serve) :
    serveList r 0x4308 [1, 1, 1, 1, 1] 1 perm body s
      = serve r 0x4308 ([1, 1, 1, 1, 1, 2] ++ List.replicate ks.length 1) perm (fun fs s => body (fs.take 5) (fs.drop 6) s) s := by
  have hc := reconfigure_count h
  unfold serveList
  simp only [List.cons_append, List.nil_append, List.length_cons, List.length_nil, Nat.zero_add, Nat.reduceAdd] at hc ⊢
  rw [hc]

theorem partReconfigure_denied (h : Asked s r 0x4308 ([1, 1, 1, 1, 1, 2] ++ List.replicate ks.length 1) ([p, c, w, f, sp, ks.length] ++ ks))
    (hb : f % 2 = 1 ∧ (sp % 4 ≠ 0 ∨ ∃ k ∈ ks, (s.slice k).ports ≠ 0)) : exec (.partReconfigure r) s = s.refuses r .denied := by
  obtain ⟨hf, hb⟩ := hb
  show execPartReconfigure r s = _
  refine (reconfigure_serves h _ _).trans (h.denied ?_)
  have hx : (decide (sp % 4 ≠ 0) || ks.any (fun k => (s.slice k).ports ≠ 0)) = true := by
    rcases hb with hb | ⟨k, hk, hb⟩
    · rw [decide_eq_true hb]; rfl
    · rw [List.any_eq_true.2 ⟨k, hk, decide_eq_true hb⟩, Bool.or_true]
  show (s.permits r.fn false && !(decide (f % 2 = 1) && (decide (sp % 4 ≠ 0) || ks.any (fun k => (s.slice k).ports ≠ 0)))) = false
  rw [hx, decide_eq_true hf]
  exact Bool.and_false _

/-- A PART_RECONFIGURE that is permitted, and whose slices are free or the partition's own. -/
structure Reconfigures (s : State) (r : Req) (p f sp : Nat) (ks : List Nat) : Prop where
  fit : ¬(f % 2 = 1 ∧ (sp % 4 ≠ 0 ∨ ∃ k ∈ ks, (s.slice k).ports ≠ 0))
  bounded : ∀ k ∈ ks, k ≤ 63
  quiesced : (s.part p).state = .quiesced
  free : ∀ k ∈ ks, (s.slice k).part = none ∨ (s.slice k).part = some p

theorem Reconfigures.permitted (hr : Reconfigures s r p f sp ks) (hpf : r.fn = 0) :
    (s.permits r.fn false && !(decide (f % 2 = 1) && (decide (sp % 4 ≠ 0) || ks.any (fun k => (s.slice k).ports ≠ 0)))) = true := by
  have h1 : s.permits r.fn false = true := pfOnly_pf (fs := []) hpf
  have h2 : (decide (f % 2 = 1) && (decide (sp % 4 ≠ 0) || ks.any (fun k => (s.slice k).ports ≠ 0))) = false := by
    rw [Bool.eq_false_iff]
    intro hx
    obtain ⟨hx, hy⟩ := Bool.and_eq_true_iff.1 hx
    refine hr.fit ⟨of_decide_eq_true hx, (Bool.or_eq_true_iff.1 hy).imp of_decide_eq_true fun hz => ?_⟩
    obtain ⟨k, hk, hz⟩ := List.any_eq_true.1 hz
    exact ⟨k, hk, of_decide_eq_true hz⟩
  rw [h1, h2]; rfl

theorem Reconfigures.inRange (hr : Reconfigures s r p f sp ks) : ks.any (fun k => 63 < k) = false :=
  List.any_eq_false.2 fun k hk => by simpa using hr.bounded k hk

theorem Reconfigures.unowned (hr : Reconfigures s r p f sp ks) : ks.any (fun k => match (s.slice k).part with
    | some q => q ≠ p
    | none => false) = false := by
  refine List.any_eq_false.2 fun k hk => ?_
  rcases hr.free k hk with h | h
  · rw [h]; exact Bool.false_ne_true
  · rw [h]; simp

theorem partReconfigure_answers (h : Asked s r 0x4308 ([1, 1, 1, 1, 1, 2] ++ List.replicate ks.length 1) ([p, c, w, f, sp, ks.length] ++ ks))
    (hr : Reconfigures s r p f sp ks) :
    let whole := decide (w % 2 = 1)
    let conf := decide (f % 2 = 1)
    let cs := min (max c 1) 8
    let chans := ks.foldl (fun m k => m ||| (s.slice k).chans) 0
    let quads := ks.foldl (fun m k => m ||| (s.slice k).quads) 0
    (s.holds p whole chans quads cs = false → exec (.partReconfigure r) s = s.refuses r .denied)
    ∧ (s.holds p whole chans quads cs = true →
      (∀ u, s.recall (s.inPart p) = (false, u) → exec (.partReconfigure r) s = .next u)
      ∧ ∀ u, s.recall (s.inPart p) = (true, u) →
        exec (.partReconfigure r) s = (u.takeAttributes p cs whole conf (sp % 4) ks).grants r
          (c < 1 || 8 < c || 1 < w || 1 < f || 3 < sp) []) := by
  intro whole conf cs chans quads
  have h1 : (s.part p).state ∈ [PartState.quiesced] := List.mem_singleton.2 hr.quiesced
  have hp := hr.permitted h.pf
  refine ⟨fun hh => ?_, fun hh => ⟨fun u hu => ?_, fun u hu => ?_⟩⟩
  · show execPartReconfigure r s = _
    refine (reconfigure_serves h _ _).trans (serve_error h.toAskedBy hp ((refuseIf_pass hr.inRange _).trans ((inState_pass h1 _).trans
      ((refuseIf_pass hr.unowned _).trans (refuseIf_stop (congrArg (!·) hh) _)))))
  · show execPartReconfigure r s = _
    refine (reconfigure_serves h _ _).trans (h.toAskedBy.waits hp ((refuseIf_pass hr.inRange _).trans ((inState_pass h1 _).trans
      ((refuseIf_pass hr.unowned _).trans ((refuseIf_pass (congrArg (!·) hh) _).trans ?_)))))
    split
    next w e => cases hu.symm.trans e; rfl
    next w e => cases hu.symm.trans e
  · show execPartReconfigure r s = _
    refine (reconfigure_serves h _ _).trans (serve_ok h.toAskedBy hp ((refuseIf_pass hr.inRange _).trans ((inState_pass h1 _).trans
      ((refuseIf_pass hr.unowned _).trans ((refuseIf_pass (congrArg (!·) hh) _).trans ?_)))))
    split
    next w e => cases hu.symm.trans e
    next w e => cases hu.symm.trans e; rfl

end

end

/-- Settles O37: each command's checks and body, evaluated on the fields of its request. -/
theorem partitionsLive : Obligations.PartitionsLive := by
  intro s r
  refine ⟨fun a c w f sp h => partCreate_answers h, fun p k => ⟨fun h => ⟨partAddSlice_denied h, partAddSlice_adds h⟩, partRemoveSlice_removes⟩,
    fun p h hb hq hc hi => partActivate_answers h hb hq hc hi, fun a h hb => partQuiesce_quiesces h hb,
    fun p h hb hi => partResume_resumes h hb hi, fun p h hb hq => partDestroy_answers h hb hq, fun p k add wd h => ?_, fun p k add rem h => ?_,
    fun a page h hp => partStatus_shows h hp, fun v h => devSetMigRate_sets h, fun p h hp hb => secPartEvict_evicts h hp hb,
    fun p c w f sp ks h => ?_⟩
  · intro new gone hk hb ho hr
    exact partRebindQuads_answers h hk hb ho hr
  · intro new gone hk hb ho
    exact partRebindChannels_answers h hk hb ho
  · intro whole conf cs chans quads bad
    exact ⟨partReconfigure_denied h, fun hf hk hq ho => partReconfigure_answers h ⟨hf, hk, hq, ho⟩⟩

end Sys2Proof.Machine
end

section
/-! Queues, the scheduler, the caches, channels and stacks, and the hinge by mailbox commands (Tables 8-6, 9-5a, 10-11, 12-8, 13-2, 16-9 to
16-14). -/

namespace Sys2Proof.Machine

section
variable {s : State} {r : Req}

/-- A choice on a Boolean, by its two cases. -/
theorem eq_ite_of {α : Type} {c : Bool} {x a b : α} (ht : c = true → x = a) (hf : c = false → x = b) : x = if c then a else b := by
  cases c with
  | true => exact ht rfl
  | false => exact hf rfl

/-! ## Queues (Table 12-1) -/

section
variable {ctx queue depth both sq cq q : Nat}

/-- The context and the queue that a Q_CREATE names (R402). -/
def Creates (s : State) (r : Req) (ctx queue q : Nat) : Prop :=
  (r.fn = 0 ∧ s.partExists (ctx / 8) = true ∧ ctx < 128 ∧ ctx % 8 < (s.part (ctx / 8)).contexts ∧ q = 8 * ctx + queue)
    ∨ (r.fn ≠ 0 ∧ ∃ p c, (s.fnRec r.fn).ctx = some (p, c) ∧ q = 8 * (8 * p + c) + queue)

theorem Creates.permitted (h : Creates s r ctx queue q) {fs : List Nat} :
    (if r.fn = 0 then s.partExists (fieldAt (ctx :: fs) 0 / 8) && decide (fieldAt (ctx :: fs) 0 < 128)
        && decide (fieldAt (ctx :: fs) 0 % 8 < (s.part (fieldAt (ctx :: fs) 0 / 8)).contexts)
      else s.permits r.fn true) = true := by
  rcases h with ⟨hf, h1, h2, h3, -⟩ | ⟨hf, p, c, hc, -⟩
  · simp [hf, fieldAt, h1, h2, h3]
  · simp [hf, State.permits, hc]

/-- The context of a Q_CREATE, as a number of the device. -/
def createCtx (s : State) (r : Req) (ctx : Nat) : Nat := if r.fn = 0 then ctx else match (s.fnRec r.fn).ctx with
  | some (p, c) => 8 * p + c
  | none => 0

theorem Creates.number (h : Creates s r ctx queue q) : 8 * createCtx s r ctx + queue = q := by
  unfold createCtx
  rcases h with ⟨hf, -, -, -, h4⟩ | ⟨hf, p, c, hc, h4⟩
  · rw [if_pos hf, h4]
  · rw [if_neg hf, hc, h4]

theorem qCreate_answers (h : AskedBy s r 0x4400 [1, 1, 4, 1, 8, 8] [ctx, queue, depth, both, sq, cq]) (hc : Creates s r ctx queue q) :
    (7 < queue → exec (.qCreate r) s = s.refuses r .badLength)
    ∧ (queue ≤ 7 → (s.queue? q).isSome = true → exec (.qCreate r) s = s.refuses r .notInMode)
    ∧ (queue ≤ 7 → s.queue? q = none →
      let d := 2 ^ min (max (Nat.log2 depth) 4) 16
      let a := sq / 4096 * 4096
      let b := cq / 4096 * 4096
      let fe := s.homeFe ((q - queue) / 8 / 8)
      exec (.qCreate r) s
        = (s.setQueue q ⟨d, decide (both = 1), fe, a, b, false, .disabled, false, 0, 0, 0, 0, true, [], 0⟩).grants r
          (d ≠ depth || 1 < both || a ≠ sq || b ≠ cq) []) := by
  refine ⟨fun hq => ?_, fun hq hx => ?_, ?_⟩
  · show execQCreate r s = _
    exact serve_error h hc.permitted (refuseIf_stop (decide_eq_true hq) _)
  · show execQCreate r s = _
    refine serve_error h hc.permitted ((refuseIf_pass (decide_eq_false (Nat.not_lt.2 hq)) _).trans (refuseIf_stop ?_ _))
    exact (congrArg (fun k => (s.queue? k).isSome) hc.number).trans hx
  · intro hq hx d a b fe
    show execQCreate r s = _
    have hn := hc.number
    have hf : createCtx s r ctx = (q - queue) / 8 := by omega
    refine serve_ok h hc.permitted ((refuseIf_pass (decide_eq_false (Nat.not_lt.2 hq)) _).trans ((refuseIf_pass ?_ _).trans ?_))
    · exact (congrArg (fun k => (s.queue? k).isSome) hn).trans (by rw [hx]; rfl)
    · exact congrArg₂ (fun k c => Except.ok (Ans.ok (s.setQueue k ⟨d, decide (both = 1), s.homeFe (c / 8), a, b, false, .disabled, false, 0, 0,
        0, 0, true, [], 0⟩) (d ≠ depth || 1 < both || a ≠ sq || b ≠ cq))) hn hf

end

section
variable {n k : Nat} {v : Queue}

theorem onQueue_named {fs : List Nat} (hp : s.permits r.fn true = true) (hn : s.namedQueue r.fn n = some (k, v)) :
    onQueue r s (n :: fs) = true := by simp [onQueue, fieldAt, hp, hn]

theorem qDestroy_answers (h : AskedBy s r 0x4401 [2] [n]) (hp : s.permits r.fn true = true) (hn : s.namedQueue r.fn n = some (k, v)) :
    (v.state ≠ .disabled → exec (.qDestroy r) s = s.refuses r .notInMode)
    ∧ (v.state = .disabled → exec (.qDestroy r) s = { s with queues := s.queues.erase k }.grants r false []) := by
  constructor
  · intro hv
    show execQDestroy r s = _
    refine serve_error h (onQueue_named hp hn) ?_
    simp only [fieldAt, List.getD_cons_zero, hn]
    exact refuseIf_stop (decide_eq_true hv) _
  · intro hv
    show execQDestroy r s = _
    refine serve_ok h (onQueue_named hp hn) ?_
    simp only [fieldAt, List.getD_cons_zero, hn]
    exact refuseIf_pass (decide_eq_false (not_not.2 hv)) _

theorem qShadowRead_answers {at_ : Nat} (h : AskedBy s r 0x0402 [2, 1] [n, at_]) (hp : s.permits r.fn true = true)
    (hn : s.namedQueue r.fn n = some (k, v)) :
    (v.heldRecords = [] → exec (.qShadowRead r) s = s.refuses r .notInMode)
    ∧ (v.heldRecords ≠ [] →
      let j := min at_ (v.heldRecords.length - 1)
      exec (.qShadowRead r) s = s.grants r (j ≠ at_) (v.stamp (v.heldRecords.getD j []))) := by
  constructor
  · intro hv
    show execQShadowRead r s = _
    refine serve_error h (onQueue_named hp hn) ?_
    simp only [fieldAt, List.getD_cons_zero, hn]
    exact refuseIf_stop (List.isEmpty_iff.2 hv) _
  · intro hv j
    show execQShadowRead r s = _
    refine serve_ok h (onQueue_named hp hn) ?_
    simp only [fieldAt, List.getD_cons_zero, hn]
    exact refuseIf_pass (List.isEmpty_eq_false_iff.2 hv) _

theorem qStallAck_answers {act : Nat} {rejected sigRejected : List Nat} (h : AskedBy s r 0x4403 [2, 1] [n, act])
    (hp : s.permits r.fn true = true) (hn : s.namedQueue r.fn n = some (k, v)) :
    (v.state ≠ .stalled → exec (.qStallAck r rejected sigRejected) s = s.refuses r .notInMode)
    ∧ (v.state = .stalled → exec (.qStallAck r rejected sigRejected) s
      = (((s.setQueue k { v with sigDrops := 0 }).deliverHeld k (act = 1) rejected sigRejected v.shadow.zipIdx).endStall k).grants r
        (1 < act) []) := by
  constructor
  · intro hv
    show execQStallAck r rejected sigRejected s = _
    refine serve_error h (onQueue_named hp hn) ?_
    simp only [fieldAt, List.getD_cons_zero, hn]
    exact refuseIf_stop (decide_eq_true hv) _
  · intro hv
    show execQStallAck r rejected sigRejected s = _
    refine serve_ok h (onQueue_named hp hn) ?_
    simp only [fieldAt, List.getD_cons_zero, hn]
    exact refuseIf_pass (decide_eq_false (not_not.2 hv)) _

end

/-! ## The scheduler (Table 13-2) -/

/-- A partition's record is what was written last. -/
theorem part_setPart_self (s : State) (p : Nat) (v : Part) : (s.setPart p v).part p = v := Tab.get_put_self Part.init s.parts p v

theorem schedSet_sets {k q w0 w1 w2 w3 w4 w5 w6 w7 full : Nat}
    (h : Asked s r 0x4500 [1, 4, 1, 1, 1, 1, 1, 1, 1, 1, 1] [k, q, w0, w1, w2, w3, w4, w5, w6, w7, full])
    (hk : (s.part k).state = .active ∨ (s.part k).state = .quiesced) :
    let ws := [w0, w1, w2, w3, w4, w5, w6, w7]
    let u := s.setPart k { s.part k with quantum := min (max q 100) 100000, weights := ws.map (min 15), preemptFull := decide (1 ≤ full) }
    exec (.schedSet r) s = (if (s.part k).owner.isNone then u.settleOwner k else u).grants r
      ((q < 100 || 100000 < q) || ws.any (fun w => 15 < w) || 1 < full) [] := by
  intro ws u
  show execSchedSet r s = _
  have hc : (decide ((s.part k).state ≠ .active) && decide ((s.part k).state ≠ .quiesced)) = false := by
    rcases hk with hk | hk
    · simp [hk]
    · simp [hk]
  refine h.granted ((refuseIf_pass hc _).trans ?_)
  have ho : (u.part k).owner = (s.part k).owner := by
    show ((s.setPart k _).part k).owner = _
    rw [part_setPart_self]
  exact congrArg (fun o : Option Nat => Except.ok (Ans.ok (if o.isNone then u.settleOwner k else u)
    ((q < 100 || 100000 < q) || ws.any (fun w => 15 < w) || 1 < full))) ho

theorem schedStatus_shows {a page : Nat} (h : AskedBy s r 0x0501 [1, 1] [a, page])
    (hp : r.fn = 0 ∨ (s.permits r.fn true = true ∧ a = s.vfPart r.fn)) :
    let k := partArg a
    let p := s.part k
    let mine := s.blocks.vals.filter (fun b => (s.tasks.get? b.task).any (fun t => t.part = k))
    let outs := mine.filter (fun b => b.phase = .out)
    let evicted := mine.map (fun b => (b.groups.filter (fun g => g.foot.st = .evicted)).length * s.unitsDecl b.task)
    exec (.schedStatus r) s = s.grantsPage r (encodeFields ([(1, p.owner.getD 255), (1, p.quantaLeft)]
      ++ (List.range 8).map (fun c => (2, (outs.filter (fun b => (s.tasks.get? b.task).any (fun t => t.ctx = c))).length))
      ++ [(8, sumOf s.liveBytes outs + 1024 * sumOf id evicted), (4, p.switchOuts), (4, p.restores)])) page (15 < a) := by
  intro k p mine outs evicted
  show execSchedStatus r s = _
  refine serve_ok h ?_ rfl
  rcases hp with hp | ⟨h1, h2⟩
  · simp [hp, State.permits]
  · simp only [h1, fieldAt, List.getD_cons_zero, h2, decide_true, Bool.and_self, Bool.or_true]

/-! ## The caches and spent reads (Tables 8-6, 9-5) -/

section
variable {p : Nat}

theorem namesPart_false {fs : List Nat} (hp : s.partExists p = false) : namesPart r 0 s (p :: fs) = false := by
  simp [namesPart, fieldAt, hp]

theorem namesPart_true {fs : List Nat} (hr : r.fn = 0) (hp : s.partExists p = true) : namesPart r 0 s (p :: fs) = true := by
  simp [namesPart, fieldAt, hp, State.permits, hr]

theorem absentPart_denied {n base len : Nat} (hp : s.partExists p = false) :
    (Asked s r 0x4600 [1, 1] [p, n] → exec (.llcSetKeepQuota r) s = s.refuses r .denied)
    ∧ (Asked s r 0x4700 [1, 1] [p, n] → exec (.memSetSpentPolicy r) s = s.refuses r .denied)
    ∧ (Asked s r 0x8601 [1, 8, 8] [p, base, len] → exec (.llcKeepRelease r) s = s.refuses r .denied)
    ∧ (Asked s r 0x8602 [1, 8, 8] [p, base, len] → exec (.llcFlush r) s = s.refuses r .denied) := by
  refine ⟨fun h => ?_, fun h => ?_, fun h => ?_, fun h => ?_⟩
  · show execLlcSetKeepQuota r s = _
    exact h.denied (namesPart_false hp)
  · show execMemSetSpentPolicy r s = _
    exact h.denied (namesPart_false hp)
  · show execLlcKeepRelease r s = _
    exact h.denied (namesPart_false hp)
  · show execLlcFlush r s = _
    exact h.denied (namesPart_false hp)

/-- LLC_FLUSH answers once nothing of its range is left to write. -/
theorem llcFlush_steps {base len : Nat} (h : Asked s r 0x8602 [1, 8, 8] [p, base, len]) (hp : s.partExists p = true) :
    let w := llcRange base len
    let f := s.flush (inLines (s.rangeLines p w.1 w.2.1))
    exec (.llcFlush r) s = if f.1 then f.2.grants r w.2.2 [] else .next f.2 := by
  intro w f
  show execLlcFlush r s = _
  rw [execLlcFlush, serve_asked h.toAskedBy _ _ (namesPart_true h.pf hp)]
  show (if (!f.1) = true then Host.Outcome.next f.2 else .next (f.2.answer r.fn r.slot .ok w.2.2 0 [])) = _
  cases f.1 with
  | true => rfl
  | false => rfl

theorem llcFlush_answers {base len : Nat} (h : Asked s r 0x8602 [1, 8, 8] [p, base, len]) (hp : s.partExists p = true) :
    let w := llcRange base len
    (∀ u, s.flush (inLines (s.rangeLines p w.1 w.2.1)) = (false, u) → exec (.llcFlush r) s = .next u)
    ∧ ∀ u, s.flush (inLines (s.rangeLines p w.1 w.2.1)) = (true, u) →
      exec (.llcFlush r) s = u.grants r (w.2.2) [] := by
  intro w
  have hs := llcFlush_steps h hp
  exact ⟨fun u hu => by rw [hs, hu]; rfl, fun u hu => by rw [hs, hu]; rfl⟩

theorem presentPart_served (hp : s.partExists p = true) :
    (∀ n, Asked s r 0x4600 [1, 1] [p, n] →
      exec (.llcSetKeepQuota r) s = (s.setPart p { s.part p with keepQuota := min n 12 }).grants r (12 < n) [])
    ∧ (∀ n, Asked s r 0x4700 [1, 1] [p, n] →
      exec (.memSetSpentPolicy r) s = (s.setPart p { s.part p with spentFlag := decide (n = 1) }).grants r (1 < n) [])
    ∧ ∀ base len, Asked s r 0x8601 [1, 8, 8] [p, base, len] →
      let w := llcRange base len
      exec (.llcKeepRelease r) s = { s with llc := s.llc.mapVal (fun _ (e : LlcLine) =>
        if e.keep = some p && (decide (len = 0) || inLines (s.rangeLines p w.1 w.2.1) e.host e.line) then { e with keep := none }
        else e) }.grants r (w.2.2) [] := by
  refine ⟨fun n h => ?_, fun n h => ?_, ?_⟩
  · show execLlcSetKeepQuota r s = _
    exact serve_ok h.toAskedBy (namesPart_true h.pf hp) rfl
  · show execMemSetSpentPolicy r s = _
    exact serve_ok h.toAskedBy (namesPart_true h.pf hp) rfl
  · intro base len h w
    show execLlcKeepRelease r s = _
    exact serve_ok h.toAskedBy (namesPart_true h.pf hp) rfl

end

/-! ## Channels and stacks (Tables 9-5a, 9-6, 16-14) -/

/-- The TSS entry that a virtual address of a partition leads to, as a word; 0 where no tile of this device is mapped. -/
def State.tileWord (s : State) (p v : Nat) (free : DWord) : Nat := match s.locate p v with
  | some (.dev n, _) => match s.lineTile (s.forward n) with
    | some t => (s.tssAt t).word free
    | none => 0
  | _ => 0

theorem tileWord_tile {p v n : Nat} {w : Bool} {t : Nat} {free : DWord} (h : s.locate p v = some (.dev n, w))
    (ht : s.lineTile (s.forward n) = some t) : s.tileWord p v free = (s.tssAt t).word free := by
  simp only [State.tileWord, h, ht]

theorem tileWord_none {p v : Nat} {free : DWord} (h : ∀ n w, s.locate p v = some (.dev n, w) → s.lineTile (s.forward n) = none) :
    s.tileWord p v free = 0 := by
  cases e : s.locate p v with
  | none => simp only [State.tileWord, e]
  | some x =>
    obtain ⟨x, w⟩ := x
    cases x with
    | dev n => simp only [State.tileWord, e, h n w e]
    | host n => simp only [State.tileWord, e]
    | peer d n => simp only [State.tileWord, e]

theorem memTileState_answers {a va : Nat} (h : AskedBy s r 0x0701 [1, 8] [a, va]) (hp : s.permits r.fn true = true) :
    let p := if r.fn = 0 then partArg a else s.vfPart r.fn
    let v := min va (windowEnd - 1)
    let clamped := (decide (r.fn = 0) && 15 < a) || v ≠ va
    exec (.memTileState r) s = s.takeFree.2.grants r clamped
      (bytesOf 8 (if (s.part p).confidential && r.fn = 0 then 0 else s.tileWord p v s.takeFree.1)) := by
  intro p v clamped
  show execMemTileState r s = _
  exact serve_ok h hp rfl

section
variable {k : Nat}

theorem memChannelMapOut_answers (h : Asked s r 0x4703 [1] [k]) :
    ((s.chan k).state ≠ .inService → exec (.memChannelMapOut r) s = s.refuses r .notInMode)
    ∧ ((s.chan k).state = .inService → exec (.memChannelMapOut r) s = (s.loseChan k 5).grants r false []) := by
  constructor
  · intro hc
    show execMemChannelMapOut r s = _
    exact h.refused (refuseIf_stop (decide_eq_true hc) _)
  · intro hc
    show execMemChannelMapOut r s = _
    exact h.granted (refuseIf_pass (decide_eq_false (not_not.2 hc)) _)

theorem memChannelAdmit_answers (h : Asked s r 0x4704 [1] [k]) :
    ((s.chan k).state ≠ .mappedOut ∨ (s.chan k).passed = false → exec (.memChannelAdmit r) s = s.refuses r .notInMode)
    ∧ ((s.chan k).state = .mappedOut → (s.chan k).passed = true →
      let u := s.reserveBack (halfOfChan k)
      exec (.memChannelAdmit r) s
        = { u with chans := u.chans.put Chan.init k { s.chan k with state := .unbound, owner := .free } }.grants r false []) := by
  constructor
  · intro hc
    show execMemChannelAdmit r s = _
    refine h.refused (refuseIf_stop ?_ _)
    rcases hc with hc | hc
    · exact Bool.or_eq_true_iff.2 (.inl (decide_eq_true hc))
    · exact Bool.or_eq_true_iff.2 (.inr (congrArg (!·) hc))
  · intro hc hp u
    show execMemChannelAdmit r s = _
    refine h.granted (refuseIf_pass ?_ _)
    exact Bool.or_eq_false_iff.2 ⟨decide_eq_false (not_not.2 hc), congrArg (!·) hp⟩

theorem memChannelStatus_shows {page : Nat} (h : Asked s r 0x0702 [1, 1] [k, page]) :
    let c := s.chan k
    let set := ((s.sets.find (fun _ e => e.chans.contains k)).map (·.1)).getD 0xFF
    exec (.memChannelStatus r) s = s.grantsPage r (
      [c.state.code, s.temps.stackLevel.get 0 (k / 16), signedByte (s.temps.stack.get 0 (k / 16)), c.owner.code, set].map
        (BitVec.ofNat 8) ++ List.replicate 3 0
      ++ bytesOf 4 c.ceTotal ++ bytesOf 4 c.ceHour ++ bytesOf 4 c.ueTotal ++ bytesOf 4 c.odecc
      ++ [BitVec.ofNat 8 (min c.ueRows.length 255), BitVec.ofNat 8 c.softPpr] ++ List.replicate 6 0
      ++ [BitVec.ofNat 8 c.trigger] ++ List.replicate 7 0) page false := by
  intro c set
  show execMemChannelStatus r s = _
  exact serve_ok h.toAskedBy (pfOnly_pf h.pf) rfl

/-- The checks of a command that works on a row through a stack's test port, and its work (R333). -/
def onRow (fs : List Nat) (f : State → Serve) (s : State) : Serve := do
  refuseIf (!repairAddr fs) .badLength
  refuseIf (!s.repairOk (fieldAt fs 0)) .notInMode
  s.inSession (fieldAt fs 0 / 16) f

section
variable {pc bank row code : Nat} {sizes fs : List Nat} {body : List Nat → State → Serve} {f : State → Serve}

/-- What a command on a row answers, by its checks. -/
theorem onRow_answers {out : Out} (h : Asked s r code sizes (k :: pc :: bank :: row :: fs)) (hx : out = serve r code sizes (pfOnly r) body s)
    (hb : body (k :: pc :: bank :: row :: fs) s = onRow (k :: pc :: bank :: row :: fs) f s) :
    let there := fun (o : Out) => if Config.rowExists bank row then o else s.refuses r .badLength
    let opened := s.mm.session.get false (k / 16) = true
    (1 < pc → out = s.refuses r .badLength)
    ∧ (pc ≤ 1 → s.repairOk k = false → out = there (s.refuses r .notInMode))
    ∧ (pc ≤ 1 → s.repairOk k = true → ¬opened → out = there (.next (s.openSession (k / 16))))
    ∧ ∀ t p, f (s.closeSession (k / 16)) = .ok ⟨t, .ok, false, 0, p, false⟩ → pc ≤ 1 → s.repairOk k = true → opened →
      out = there (t.grants r false p) := by
  intro there opened
  subst hx
  have hno : Config.rowExists bank row = false → serve r code sizes (pfOnly r) body s = s.refuses r .badLength := fun hx =>
    h.refused (hb.trans (refuseIf_stop (by simp [repairAddr, fieldAt, hx]) _))
  have hyes : pc ≤ 1 → Config.rowExists bank row = true → (!repairAddr (k :: pc :: bank :: row :: fs)) = false := fun hp hx => by
    simp [repairAddr, fieldAt, hx, hp]
  refine ⟨fun hp => ?_, fun hp hk => eq_ite_of (fun hx => ?_) hno, fun hp hk ho => eq_ite_of (fun hx => ?_) hno,
    fun t p hf hp hk ho => eq_ite_of (fun hx => ?_) hno⟩
  · exact h.refused (hb.trans (refuseIf_stop (by simp [repairAddr, fieldAt, Nat.not_le.2 hp]) _))
  · exact h.refused (hb.trans ((refuseIf_pass (hyes hp hx) _).trans (refuseIf_stop (congrArg (!·) hk) _)))
  · exact h.waits (hb.trans ((refuseIf_pass (hyes hp hx) _).trans ((refuseIf_pass (congrArg (!·) hk) _).trans (if_neg ho))))
  · exact h.granted (hb.trans ((refuseIf_pass (hyes hp hx) _).trans ((refuseIf_pass (congrArg (!·) hk) _).trans ((if_pos ho).trans hf))))

end

/-- A row repaired softly: the repair counts for its channel and stays until the next start (R333). -/
def softRepaired (k : Nat) (at_ : SoftRepair) (s : State) : Serve :=
  pure (Ans.ok { s with
    chans := s.chans.upd Chan.init k (fun c => { c with softPpr := min (c.softPpr + 1) 255 })
    flash := { s.flash with repairs := s.flash.repairs ++ [at_] } })

/-- A row repaired for good; the answer is the stack's remaining repair resources, a free value. -/
def hardRepaired (at_ : SoftRepair) (s : State) : Serve :=
  pure (Ans.ok { s.takeFree.2 with mm := { s.takeFree.2.mm with hardPpr := s.takeFree.2.mm.hardPpr ++ [at_] } } false
    (bytesOf 1 (s.takeFree.1.toNat % 256)))

/-- A row tested; the number of failing bits is a free value. -/
def rowTested (s : State) : Serve := pure (Ans.ok s.takeFree.2 false (bytesOf 2 (s.takeFree.1.toNat % 8193)))

theorem hbmPprSoft_onRow : exec (.hbmPprSoft r) s = serve r 0x4800 [1, 1, 1, 2] (pfOnly r)
    (fun fs s => onRow fs (softRepaired (fieldAt fs 0) ⟨fieldAt fs 0 / 16, fieldAt fs 0 % 16, repairRow fs⟩) s) s := by
  show repair r 0x4800 true s = _
  rfl

theorem hbmPprHard_onRow : exec (.hbmPprHard r) s = serve r 0x4801 [1, 1, 1, 2] (pfOnly r)
    (fun fs s => onRow fs (hardRepaired ⟨fieldAt fs 0 / 16, fieldAt fs 0 % 16, repairRow fs⟩) s) s := by
  show repair r 0x4801 false s = _
  rfl

theorem hbmRowTest_onRow : exec (.hbmRowTest r) s = serve r 0x4804 [1, 1, 1, 2, 8] (pfOnly r) (fun fs s => onRow fs rowTested s) s := by
  show execHbmRowTest r s = _
  rfl

theorem memSetMode_sets {m : Nat} (h : Asked s r 0x4706 [1] [m]) : exec (.memSetMode r) s
    = { s with flash := { s.flash with memMode := if m = 1 then 1 else 0 } }.grants r (1 < m) [] := by
  show execMemSetMode r s = _
  exact h.granted rfl

theorem laneMapRead_answers {page : Nat} (h : Asked s r 0x0802 [1, 1] [k, page]) :
    let j := min k 15
    (s.power.state = .retain → exec (.hbmLaneMapRead r) s = s.refuses r .notInMode)
    ∧ (s.power.state ≠ .retain → s.mm.session.get false j = false → exec (.hbmLaneMapRead r) s = .next (s.openSession j))
    ∧ (s.power.state ≠ .retain → s.mm.session.get false j = true → exec (.hbmLaneMapRead r) s
      = (s.closeSession j).grantsPage r (bytesOf 8 (s.mm.laneMap.get 0 j)) page (15 < k)) := by
  intro j
  refine ⟨fun hs => ?_, fun hs ho => ?_, fun hs ho => ?_⟩
  · show execHbmLaneMapRead r s = _
    exact h.refused (refuseIf_stop (decide_eq_true hs) _)
  · show execHbmLaneMapRead r s = _
    exact h.waits ((refuseIf_pass (decide_eq_false hs) _).trans (if_neg (by rw [Bool.not_eq_true]; exact ho)))
  · show execHbmLaneMapRead r s = _
    exact serve_ok h.toAskedBy (pfOnly_pf h.pf) ((refuseIf_pass (decide_eq_false hs) _).trans (if_pos ho))

theorem laneMapWrite_answers {m : Nat} (h : Asked s r 0x4803 [1, 8] [k, m]) :
    let fits := fun (o : Out) => if Config.laneMapFits m then o else s.refuses r .badLength
    (15 < k → exec (.hbmLaneMapWrite r) s = s.refuses r .badLength)
    ∧ (k ≤ 15 → (∀ j, j < 16 → s.repairOk (16 * k + j) = false) → exec (.hbmLaneMapWrite r) s = fits (s.refuses r .notInMode))
    ∧ (k ≤ 15 → (∃ j, j < 16 ∧ s.repairOk (16 * k + j) = true) →
      (s.mm.session.get false k = false → exec (.hbmLaneMapWrite r) s = fits (.next (s.openSession k)))
      ∧ (s.mm.session.get false k = true →
        let u := s.closeSession k
        exec (.hbmLaneMapWrite r) s = fits ({ u with mm := { u.mm with laneMap := u.mm.laneMap.put 0 k m } }.grants r false []))) := by
  intro fits
  have hno : Config.laneMapFits m = false → exec (.hbmLaneMapWrite r) s = s.refuses r .badLength := fun hx => by
    show execHbmLaneMapWrite r s = _
    exact h.refused (refuseIf_stop (by simp [fieldAt, hx]) _)
  have hyes : k ≤ 15 → Config.laneMapFits m = true → (decide (15 < k) || !Config.laneMapFits m) = false := fun hk hx => by
    simp [hx, Nat.not_lt.2 hk]
  refine ⟨fun hk => ?_, fun hk hr => eq_ite_of (fun hx => ?_) hno, fun hk hr => ?_⟩
  · show execHbmLaneMapWrite r s = _
    exact h.refused (refuseIf_stop (by simp [fieldAt, hk]) _)
  · show execHbmLaneMapWrite r s = _
    refine h.refused ((refuseIf_pass (hyes hk hx) _).trans (refuseIf_stop ?_ _))
    rw [Bool.not_eq_true', List.any_eq_false]
    intro j hj
    rw [Bool.not_eq_true]
    exact hr j (List.mem_range.1 hj)
  · obtain ⟨j, hj, hr⟩ := hr
    have ha : (!((List.range 16).any (fun j => s.repairOk (16 * k + j)))) = false :=
      congrArg (!·) (List.any_eq_true.2 ⟨j, List.mem_range.2 hj, hr⟩)
    refine ⟨fun ho => eq_ite_of (fun hx => ?_) hno, fun ho => eq_ite_of (fun hx => ?_) hno⟩
    · show execHbmLaneMapWrite r s = _
      exact h.waits ((refuseIf_pass (hyes hk hx) _).trans ((refuseIf_pass ha _).trans (if_neg (by rw [Bool.not_eq_true]; exact ho))))
    · show execHbmLaneMapWrite r s = _
      exact h.granted ((refuseIf_pass (hyes hk hx) _).trans ((refuseIf_pass ha _).trans (if_pos ho)))

/-! ## The hinge (Tables 10-11, 10-12) -/

theorem hingeStatus_shows {page : Nat} (h : Asked s r 0x0900 [1, 1] [k, page]) :
    exec (.hingeStatus r) s = s.grantsPage r (s.hingeImage (min k 3)) page (3 < k) := by
  show execHingeStatus r s = _
  exact serve_ok h.toAskedBy (pfOnly_pf h.pf) rfl

theorem hingeRetrain_answers (h : Asked s r 0x4901 [1] [k]) :
    (3 < k → exec (.hingeRetrain r) s = s.refuses r .badLength)
    ∧ (k ≤ 3 → let l := s.leaf k
      exec (.hingeRetrain r) s = (s.setLeaf k (if l.state = .failed then
        { l.scratch.reset false with state := .train, fails := 0, forced := false, fresh := true }
      else { l.reset false with fails := 0 })).grants r false []) := by
  constructor
  · intro hk
    show execHingeRetrain r s = _
    exact h.refused (refuseIf_stop (decide_eq_true hk) _)
  · intro hk l
    show execHingeRetrain r s = _
    exact h.granted (refuseIf_pass (decide_eq_false (Nat.not_lt.2 hk)) _)

end

end

/-- Settles O38: each command's checks and body, evaluated on the fields of its request. -/
theorem queuesAndUnitsAreCommanded : Obligations.QueuesAndUnitsAreCommanded := by
  intro s r
  refine ⟨fun ctx queue depth both sq cq q h hc => qCreate_answers h hc,
    fun n k v hp hn => ⟨fun h => qDestroy_answers h hp hn, fun a h => qShadowRead_answers h hp hn, fun a x y h => qStallAck_answers h hp hn⟩,
    ?_, fun a page h hp => schedStatus_shows h hp, fun p n base len hp => absentPart_denied hp, fun p hp => ?_, ?_, fun k => ?_,
    fun m h => memSetMode_sets h, fun k => ⟨fun page h => laneMapRead_answers h, fun m h => laneMapWrite_answers h⟩,
    fun k => ⟨fun page h => hingeStatus_shows h, fun h => hingeRetrain_answers h⟩⟩
  · intro k q w0 w1 w2 w3 w4 w5 w6 w7 full h ws u hk
    exact schedSet_sets h hk
  · obtain ⟨h1, h2, h3⟩ := presentPart_served (r := r) hp
    exact ⟨h1, h2, h3, fun base len h => llcFlush_answers h hp⟩
  · intro a va h hp p v clamped
    have ha := memTileState_answers h hp
    refine ⟨fun hc hr => ?_, fun n w t hc hl ht => ?_, fun hl => ?_⟩
    · rw [ha, if_pos (Bool.and_eq_true_iff.2 ⟨hc, decide_eq_true hr⟩)]
    · rw [ha, if_neg, tileWord_tile hl ht]
      rw [Bool.and_eq_true_iff, decide_eq_true_eq]
      rintro ⟨h1, h2⟩
      rcases hc with hc | hc
      · exact Bool.false_ne_true (hc.symm.trans h1)
      · exact hc h2
    · rw [ha, tileWord_none hl, ite_self]
  · refine ⟨fun page h => memChannelStatus_shows h, memChannelMapOut_answers, memChannelAdmit_answers, ?_⟩
    intro pc bank row pattern no there u at_ opened opens refused
    refine ⟨fun h => ?_, fun h => ?_, fun h => ?_⟩
    · obtain ⟨h1, h2, h3, h4⟩ := onRow_answers h hbmPprSoft_onRow rfl
      exact ⟨h1, h2, h3, h4 _ _ rfl⟩
    · obtain ⟨h1, h2, h3, h4⟩ := onRow_answers h hbmPprHard_onRow rfl
      exact ⟨h1, h2, h3, h4 _ _ rfl⟩
    · obtain ⟨h1, h2, h3, h4⟩ := onRow_answers h hbmRowTest_onRow rfl
      exact ⟨h1, h2, h3, h4 _ _ rfl⟩

end Sys2Proof.Machine
end

section
/-! State pools by mailbox commands (R384 to R392, Tables 11-6 to 11-8). -/

namespace Sys2Proof.Machine

section
variable {s : State} {r : Req}

/-! ## Creation (R384, R393, R396) -/

section
variable {pool part twin chans base length mirror coded ledger : Nat}

/-- A POOL_CREATE is denied: the pool exists, its ledger does not fit, or a CONFIDENTIAL partition would have memory on the twin. -/
def PoolDenied (s : State) (pool part twin mirror ledger : Nat) : Prop :=
  (s.pools.get? (min pool 63)).isSome = true
    ∨ s.ledgerOk (min pool 63 + 64 * (if twin = 1 then s.twinNum else s.lbx.d)) ledger (twin = 1) (mirror = 1) = false
    ∨ ((s.part (partArg part)).confidential = true ∧ (twin = 1 ∨ mirror = 1))

/-- The check of POOL_CREATE, as its permission. -/
theorem poolCreate_permits (hf : r.fn = 0) : (s.permits r.fn false && (s.pools.get? (min pool 63)).isNone
    && s.ledgerOk (min pool 63 + 64 * (if twin = 1 then s.twinNum else s.lbx.d)) ledger (decide (twin = 1)) (decide (mirror = 1))
    && !((s.part (partArg part)).confidential && (decide (twin = 1) || decide (mirror = 1)))) = true
    ↔ ¬PoolDenied s pool part twin mirror ledger := by
  have hp : s.permits r.fn false = true := pfOnly_pf (fs := []) hf
  simp only [hp, PoolDenied, Bool.true_and, Bool.and_eq_true, Bool.not_eq_true', Bool.and_eq_false_iff, Bool.or_eq_false_iff,
    decide_eq_false_iff_not, not_or, not_and, Bool.not_eq_false, Option.isNone_iff_eq_none, Option.isSome_iff_ne_none, ne_eq, not_not]
  rw [and_assoc, ← Bool.not_eq_true (s.part (partArg part)).confidential, or_iff_not_imp_left, not_not]

theorem poolCreate_denied (h : Asked s r 0x4A00 [1, 1, 1, 32, 8, 8, 1, 1, 2] [pool, part, twin, chans, base, length, mirror, coded, ledger])
    (hd : PoolDenied s pool part twin mirror ledger) : exec (.poolCreate r) s = s.refuses r .denied := by
  show execPoolCreate r s = _
  refine h.denied (Bool.eq_false_iff.2 fun hp => ?_)
  exact (poolCreate_permits h.pf).1 hp hd

theorem poolCreate_refused (h : Asked s r 0x4A00 [1, 1, 1, 32, 8, 8, 1, 1, 2] [pool, part, twin, chans, base, length, mirror, coded, ledger])
    (hd : ¬PoolDenied s pool part twin mirror ledger)
    (hx : (s.part (partArg part)).state = .free
      ∨ (twin = 1 ∨ mirror = 1) ∧ (s.paired && s.pair.pairs.any (fun x => x.1 = partArg part)) = false) :
    exec (.poolCreate r) s = s.refuses r .notInMode := by
  show execPoolCreate r s = _
  by_cases hf : (s.part (partArg part)).state = .free
  · exact serve_error h.toAskedBy ((poolCreate_permits h.pf).2 hd) (refuseIf_stop (decide_eq_true hf) _)
  · obtain ⟨ht, hp⟩ := hx.resolve_left hf
    refine serve_error h.toAskedBy ((poolCreate_permits h.pf).2 hd) ((refuseIf_pass (decide_eq_false hf) _).trans (refuseIf_stop ?_ _))
    have ht : (decide (twin = 1) || decide (mirror = 1)) = true := by simpa using ht
    exact Bool.and_eq_true_iff.2 ⟨ht, congrArg (!·) hp⟩

theorem poolCreate_made (h : Asked s r 0x4A00 [1, 1, 1, 32, 8, 8, 1, 1, 2] [pool, part, twin, chans, base, length, mirror, coded, ledger])
    (hd : ¬PoolDenied s pool part twin mirror ledger) (hs : (s.part (partArg part)).state ≠ .free)
    (hx : ¬((twin = 1 ∨ mirror = 1) ∧ (s.paired && s.pair.pairs.any (fun x => x.1 = partArg part)) = false)) :
    let n := min pool 63
    let p := partArg part
    let asked := bitsOf 256 chans
    let fits := if twin = 1 then asked else asked.filter (fun c => (s.poolable p).contains c)
    let five := if coded = 1 then fits.take (fits.length / 5 * 5) else fits
    let groups := if coded = 1 ∧ twin ≠ 1 then codedGroups five else []
    let ok := if coded = 1 ∧ twin ≠ 1 then sortOn id groups.flatten else five
    let b := min (base / 65536 * 65536) windowEnd
    let l := min (length / 65536 * 65536) (windowEnd - b)
    let u := if twin = 1 then s else s.formPool p ok groups (coded = 1)
    let q : Pool :=
      ⟨p, decide (twin = 1), BitVec.ofNat 256 (numOfBits ok), b, l, decide (mirror = 1), decide (coded = 1), ledger, false, groups⟩
    let v := { u with pools := u.pools.set n q }
    exec (.poolCreate r) s = (if mirror = 1 then v.toPeer v.twinNum 0 .pairing [n, p, v.partnerOf p] [] else v).grants r
      (63 < pool || 15 < part || ok.length ≠ asked.length || b ≠ base || l ≠ length || 1 < twin || 1 < mirror || 1 < coded) [] := by
  intro n p asked fits five groups ok b l u q v
  show execPoolCreate r s = _
  refine serve_ok h.toAskedBy ((poolCreate_permits h.pf).2 hd) ((refuseIf_pass (decide_eq_false hs) _).trans ((refuseIf_pass ?_ _).trans ?_))
  · refine Bool.and_eq_false_imp.2 fun ht => ?_
    have ht : twin = 1 ∨ mirror = 1 := by simpa [fieldAt] using ht
    have hp := fun hp => hx ⟨ht, hp⟩
    exact congrArg (!·) (Bool.of_not_eq_false hp)
  · simp only [fieldAt, List.getD_cons_zero, List.getD_cons_succ, Bool.and_eq_true, decide_eq_true_eq, Bool.not_eq_true',
      decide_eq_false_iff_not]
    rfl

end

/-! ## Commands of a pool (R386, R387) -/

section
variable {pool : Nat} {p : Pool}

theorem poolMap_answers (hp : s.pools.get? (min pool 63) = some p) {off count host twinFree : Nat}
    (h : Asked s r 0x4A01 [1, 8, 4, 8] [pool, off, count, host]) :
    let w := p.range off count
    ((s.part p.part).mappedAny w.1 w.2.1 = true → exec (.poolMap r twinFree) s = s.refuses r .notInMode)
    ∧ ((s.part p.part).mappedAny w.1 w.2.1 = false →
      let m := State.mapPool p w.2.1 w.1 (host / 65536 * 65536) twinFree s
      exec (.poolMap r twinFree) s = m.2.grants r (63 < pool || w.2.2 || m.1 ≠ w.2.1 || host % 65536 ≠ 0) (bytesOf 4 m.1)) := by
  intro w
  constructor
  · intro hm
    show execPoolMap r twinFree s = _
    refine h.refused ?_
    simp only [fieldAt, List.getD_cons_zero, List.getD_cons_succ, poolArg, hp]
    exact refuseIf_stop hm _
  · intro hm m
    show execPoolMap r twinFree s = _
    refine h.granted ?_
    simp only [fieldAt, List.getD_cons_zero, List.getD_cons_succ, poolArg, hp]
    exact refuseIf_pass hm _

theorem poolUnmap_answers (hp : s.pools.get? (min pool 63) = some p) {off count x : Nat}
    (h : Asked s r 0x4A02 [1, 8, 4, 8] [pool, off, count, x]) :
    let w := p.range off count
    (∀ u, s.unmapPages p.part (s.poolPages p w.1 w.2.1) = (false, u) → exec (.poolUnmap r) s = .next u)
    ∧ ∀ u, s.unmapPages p.part (s.poolPages p w.1 w.2.1) = (true, u) →
      exec (.poolUnmap r) s = u.advanceMigs.grants r (63 < pool || w.2.2) [] := by
  intro w
  constructor
  · intro u hu
    show execPoolUnmap r s = _
    refine h.waits ?_
    simp only [w] at hu
    simp only [fieldAt, List.getD_cons_zero, List.getD_cons_succ, poolArg, hp, hu]
    rfl
  · intro u hu
    show execPoolUnmap r s = _
    refine h.granted ?_
    simp only [w] at hu
    simp only [fieldAt, List.getD_cons_zero, List.getD_cons_succ, poolArg, hp, hu]
    rfl

theorem poolRecall_answers (hp : s.pools.get? (min pool 63) = some p) {off count x : Nat}
    (h : Asked s r 0x8A03 [1, 8, 4, 8] [pool, off, count, x]) :
    let w := p.range off count
    let spilled := (s.poolPages p w.1 w.2.1).filter (fun g => g.2.spill)
    let u := s.recallPages p spilled
    (spilled.any (fun g => u.recalling p.part g.1) = true → exec (.poolRecall r) s = .next u)
    ∧ (spilled.any (fun g => u.recalling p.part g.1) = false →
      exec (.poolRecall r) s = u.grants r (63 < pool || w.2.2 || !spilled.isEmpty) []) := by
  intro w spilled u
  have he : exec (.poolRecall r) s = if spilled.any (fun g => u.recalling p.part g.1) then .next u
      else u.grants r (63 < pool || w.2.2 || !spilled.isEmpty) [] := by
    show execPoolRecall r s = _
    rw [execPoolRecall, serve_asked h.toAskedBy _ _ (pfOnly_pf h.pf)]
    simp only [fieldAt, List.getD_cons_zero, List.getD_cons_succ, poolArg, hp]
    rfl
  exact ⟨fun hb => by rw [he, if_pos hb], fun hb => by rw [he, if_neg (by rw [hb]; exact Bool.false_ne_true)]⟩

theorem poolLedger_answers (hp : s.pools.get? (min pool 63) = some p) {base length : Nat} (h : Asked s r 0x4A04 [1, 8, 8] [pool, base, length]) :
    let b := min (base / 65536 * 65536) windowEnd
    let l := min (length / 65536 * 65536) (windowEnd - b)
    exec (.poolLedger r) s = { s with ledgers := s.ledgers ++ [(⟨min pool 63, p.part, b, l⟩ : Ledger)] }.grants r
      (63 < pool || b ≠ base || l ≠ length) [] := by
  intro b l
  show execPoolLedger r s = _
  refine h.granted ?_
  simp only [fieldAt, List.getD_cons_zero, List.getD_cons_succ, poolArg, hp]
  rfl

theorem noPool_refused (hp : s.pools.get? (min pool 63) = none) {x y z twinFree : Nat} :
    (Asked s r 0x4A01 [1, 8, 4, 8] [pool, x, y, z] → exec (.poolMap r twinFree) s = s.refuses r .notInMode)
    ∧ (Asked s r 0x4A02 [1, 8, 4, 8] [pool, x, y, z] → exec (.poolUnmap r) s = s.refuses r .notInMode)
    ∧ (Asked s r 0x8A03 [1, 8, 4, 8] [pool, x, y, z] → exec (.poolRecall r) s = s.refuses r .notInMode)
    ∧ (Asked s r 0x4A04 [1, 8, 8] [pool, x, y] → exec (.poolLedger r) s = s.refuses r .notInMode) := by
  refine ⟨fun h => ?_, fun h => ?_, fun h => ?_, fun h => ?_⟩
  · show execPoolMap r twinFree s = _
    exact h.refused (by simp only [fieldAt, List.getD_cons_zero, poolArg, hp])
  · show execPoolUnmap r s = _
    exact h.refused (by simp only [fieldAt, List.getD_cons_zero, poolArg, hp])
  · show execPoolRecall r s = _
    exact h.refused (by simp only [fieldAt, List.getD_cons_zero, poolArg, hp])
  · show execPoolLedger r s = _
    exact h.refused (by simp only [fieldAt, List.getD_cons_zero, poolArg, hp])

/-! ## Status and scans (R390, R392) -/

theorem poolStatus_none {page : Nat} (h : AskedBy s r 0x0A05 [1, 1] [pool, page]) (hf : r.fn = 0) (hp : s.pools.get? (min pool 63) = none) :
    exec (.poolStatus r) s = s.grantsPage r [0] page (63 < pool) := by
  show execPoolStatus r s = _
  refine serve_ok h (by simp [State.permits, hf]) ?_
  simp only [fieldAt, List.getD_cons_zero, poolArg, hp]
  rfl

theorem poolStatus_shows {page : Nat} (h : AskedBy s r 0x0A05 [1, 1] [pool, page]) (hp : s.pools.get? (min pool 63) = some p)
    (hr : r.fn = 0 ∨ (s.permits r.fn true = true ∧ p.part = s.vfPart r.fn)) :
    exec (.poolStatus r) s = s.grantsPage r [if p.failed then 2 else 1] page (63 < pool) := by
  show execPoolStatus r s = _
  refine serve_ok h ?_ ?_
  · rcases hr with hf | ⟨hv, ho⟩
    · simp [State.permits, hf]
    · simp [hv, fieldAt, poolArg, hp, ho]
  · simp only [fieldAt, List.getD_cons_zero, poolArg, hp]
    cases p.failed with
    | true => rfl
    | false => rfl

theorem ledgerScan_scans (h : Asked s r 0x8A06 [1] [pool]) :
    let n := min pool 63
    let twin := if s.pair.state = .solo then [n + 64 * s.twinNum] else []
    (s.pools.get? n = none →
      exec (.ledgerScan r) s = (s.scanLedgers (fun x => (twin ++ [n + 64 * s.lbx.d]).contains x)).grants r (63 < pool) [])
    ∧ ∀ p, s.pools.get? n = some p → exec (.ledgerScan r) s
      = (s.scanLedgers (fun x => (twin ++ (if p.failed then [s.poolId n p] else [])).contains x)).grants r (63 < pool) [] := by
  intro n twin
  have ht : ∀ l : List Nat, (if s.pair.state = .solo then (n + 64 * s.twinNum) :: l else l) = twin ++ l := fun l => by
    by_cases hx : s.pair.state = .solo
    · simp only [twin, if_pos hx, List.cons_append, List.nil_append]
    · simp only [twin, if_neg hx, List.nil_append]
  constructor
  · intro hp
    show execLedgerScan r s = _
    refine h.granted ?_
    simp only [n] at hp ht
    simp only [fieldAt, List.getD_cons_zero, poolArg, hp, ht]
    rfl
  · intro p hp
    show execLedgerScan r s = _
    refine h.granted ?_
    simp only [n] at hp ht
    simp only [fieldAt, List.getD_cons_zero, poolArg, hp, ht]
    rfl

end

end

/-- Settles O39: each command's checks and body, evaluated on the fields of its request. -/
theorem poolsAreCommanded : Obligations.PoolsAreCommanded := by
  intro s r
  refine ⟨?_, fun pool p hp => ⟨fun off count host f h => poolMap_answers hp h, fun off count x h => poolUnmap_answers hp h,
    fun off count x h => poolRecall_answers hp h, fun base length h => poolLedger_answers hp h⟩,
    fun pool x y z f hp => noPool_refused hp, fun pool page h => ⟨poolStatus_none h, fun p hp hr => poolStatus_shows h hp hr⟩,
    fun pool h => ledgerScan_scans h⟩
  intro pool part twin chans base length mirror coded ledger h n p bad pairless
  exact ⟨poolCreate_denied h, poolCreate_refused h, poolCreate_made h⟩

end Sys2Proof.Machine
end

section
/-! Twins pair, detach and attach, and are lost (R394 to R398, R506, R507, R624, Tables 11-9 to 11-12). -/

namespace Sys2Proof.Machine

section
variable {s : State} {r : Req} {code : Nat} {after t : List Nat} {l : List (Nat × Nat)} {perm : State → List (Nat × Nat) → Bool}
  {body : List (Nat × Nat) × Bool → List Nat → State → Serve}

/-! ## Commands with a list of partition pairs (R515) -/

theorem pairFields_drop (l : List (Nat × Nat)) (t : List Nat) : (pairFields l ++ t).drop (1 + 2 * l.length) = t := by
  have hl : (l.map (fun x => [x.1, x.2])).flatten.length = 2 * l.length := by
    rw [List.length_flatten, List.map_map]
    induction l with
    | nil => rfl
    | cons x l ih => simp only [List.map_cons, List.sum_cons, ih, Function.comp, List.length_cons, List.length_nil]; omega
  rw [Nat.add_comm, pairFields, List.cons_append, List.drop_succ_cons, ← hl, List.drop_left]

/-- The length of the list that a request holds. -/
theorem pairFields_count (h : Asked s r code ([2] ++ List.replicate (2 * l.length) 1 ++ after) (pairFields l ++ t)) :
    numAt ((s.fnRec r.fn).slot r.slot).payload 0 2 = l.length := by
  have hf := h.fields
  simp only [pairFields, List.cons_append, List.nil_append] at hf
  exact count_of_fields hf

/-- A request of such a command that its function may send is served on the pairs that its list names. -/
theorem servePairs_settles (h : Asked s r code ([2] ++ List.replicate (2 * l.length) 1 ++ after) (pairFields l ++ t))
    (hp : perm s (pairsNamed l) = true) :
    servePairs r code after perm body s = settle s r (body (pairsNamed l, pairsClamped l) t s) := by
  have hn := pairFields_count h
  have hl := pairList_fields l t
  unfold servePairs
  simp only [hn]
  rw [serve_settles h.toAskedBy]
  · simp only [pairFields_drop]
    simp only [pairFields, List.cons_append, List.drop_succ_cons, List.drop_zero, hl]
  · simpa only [pairFields, List.cons_append, List.drop_succ_cons, List.drop_zero, hl] using hp

theorem servePairs_ok {u : State} {c : Bool} {p : List Byte}
    (h : Asked s r code ([2] ++ List.replicate (2 * l.length) 1 ++ after) (pairFields l ++ t)) (hp : perm s (pairsNamed l) = true)
    (hb : body (pairsNamed l, pairsClamped l) t s = .ok ⟨u, .ok, c, 0, p, false⟩) :
    servePairs r code after perm body s = u.grants r c p := by
  rw [servePairs_settles h hp, hb]; rfl

theorem servePairs_later {u : State} (h : Asked s r code ([2] ++ List.replicate (2 * l.length) 1 ++ after) (pairFields l ++ t))
    (hp : perm s (pairsNamed l) = true) (hb : body (pairsNamed l, pairsClamped l) t s = .ok ⟨u, .ok, false, 0, [], true⟩) :
    servePairs r code after perm body s = later u := by
  rw [servePairs_settles h hp, hb]; rfl

theorem servePairs_error {st : MbStatus} (h : Asked s r code ([2] ++ List.replicate (2 * l.length) 1 ++ after) (pairFields l ++ t))
    (hp : perm s (pairsNamed l) = true) (hb : body (pairsNamed l, pairsClamped l) t s = .error st) :
    servePairs r code after perm body s = s.refuses r st := by
  rw [servePairs_settles h hp, hb]; rfl

theorem servePairs_denied (h : Asked s r code ([2] ++ List.replicate (2 * l.length) 1 ++ after) (pairFields l ++ t))
    (hp : perm s (pairsNamed l) = false) : servePairs r code after perm body s = s.refuses r .denied := by
  have hn := pairFields_count h
  have hl := pairList_fields l t
  unfold servePairs
  simp only [hn]
  refine h.denied ?_
  simpa only [pairFields, List.cons_append, List.drop_succ_cons, List.drop_zero, hl] using hp

end

section
variable {s : State} {r : Req}

/-! ## Pairing (R394) -/

section
variable {l : List (Nat × Nat)}

theorem twinPair_denied (h : Asked s r 0x4A07 ([2] ++ List.replicate (2 * l.length) 1 ++ []) (pairFields l ++ []))
    (hc : ∃ x ∈ pairsNamed l, (s.part x.1).confidential = true) : exec (.twinPair r) s = s.refuses r .denied := by
  show execTwinPair r s = _
  refine servePairs_denied h (Bool.and_eq_false_imp.2 fun _ => ?_)
  obtain ⟨x, hx, hc⟩ := hc
  exact List.all_eq_false.2 ⟨x, hx, by rw [hc]; exact Bool.false_ne_true⟩

theorem twinPair_permits (hf : r.fn = 0) (hc : ∀ x ∈ pairsNamed l, (s.part x.1).confidential = false) :
    (s.permits r.fn false && (pairsNamed l).all (fun x => !(s.part x.1).confidential)) = true :=
  Bool.and_eq_true_iff.2 ⟨pfOnly_pf (fs := []) hf, List.all_eq_true.2 fun x hx => congrArg (!·) (hc x hx)⟩

theorem twinPair_refused (h : Asked s r 0x4A07 ([2] ++ List.replicate (2 * l.length) 1 ++ []) (pairFields l ++ []))
    (hc : ∀ x ∈ pairsNamed l, (s.part x.1).confidential = false)
    (hx : s.trunkUp = false ∨ s.pins.twinIn = false ∨ s.pair.state ≠ .unpaired) : exec (.twinPair r) s = s.refuses r .notInMode := by
  show execTwinPair r s = _
  refine servePairs_error h (twinPair_permits h.pf hc) (refuseIf_stop ?_ _)
  rcases hx with hx | hx | hx
  · simp [hx]
  · simp [hx]
  · simp [hx]

theorem twinPair_pairs (h : Asked s r 0x4A07 ([2] ++ List.replicate (2 * l.length) 1 ++ []) (pairFields l ++ []))
    (hc : ∀ x ∈ pairsNamed l, (s.part x.1).confidential = false) (ht : s.trunkUp = true) (hi : s.pins.twinIn = true)
    (hu : s.pair.state = .unpaired) :
    let u := ((s.withPairs (pairsNamed l)).twinBack).toPeer s.twinNum 0 .pairing ((pairsNamed l).map (fun x => x.1 + 16 * x.2)) []
    exec (.twinPair r) s = { u with pair := { u.pair with state := .paired } }.grants r (pairsClamped l) [] := by
  intro u
  show execTwinPair r s = _
  exact servePairs_ok h (twinPair_permits h.pf hc) ((refuseIf_pass (by simp [ht, hi, hu]) _).trans rfl)

end

/-! ## Detaching (Table 11-11) -/

section
variable {l : List Nat} {lacks : Bool}

/-- TWIN_DETACH is served as a command of its count and its partitions. -/
theorem twinDetach_serves (h : Asked s r 0x4A08 ([2] ++ List.replicate l.length 1) (l.length :: l))
    (perm : State → List Nat → Bool) (body : List Nat → List Nat → State → Serve) :
    serveList r 0x4A08 [] 1 perm body s
      = serve r 0x4A08 ([2] ++ List.replicate l.length 1) perm (fun fs s => body (fs.take 0) (fs.drop 1) s) s := by
  have hn : (decodeFields ([] ++ [2]) ((s.fnRec r.fn).slot r.slot).payload).getD 0 0 = l.length :=
    count_of_fields (sizes := List.replicate l.length 1) h.fields
  unfold serveList
  simp only [List.length_nil, hn]
  rfl

theorem twinDetach_denied (h : Asked s r 0x4A08 ([2] ++ List.replicate l.length 1) (l.length :: l)) (hl : lacks = true) :
    exec (.twinDetach r lacks) s = s.refuses r .denied := by
  show execTwinDetach r lacks s = _
  refine (twinDetach_serves h _ _).trans (h.denied ?_)
  rw [hl]
  exact Bool.and_false _

theorem twinDetach_permits (hf : r.fn = 0) (hl : lacks = false) : (s.permits r.fn false && !lacks) = true :=
  Bool.and_eq_true_iff.2 ⟨pfOnly_pf (fs := []) hf, congrArg (!·) hl⟩

theorem twinDetach_refused (h : Asked s r 0x4A08 ([2] ++ List.replicate l.length 1) (l.length :: l)) (hl : lacks = false)
    (hp : s.pair.state ≠ .paired) : exec (.twinDetach r lacks) s = s.refuses r .notInMode := by
  show execTwinDetach r lacks s = _
  refine (twinDetach_serves h _ _).trans (serve_error h.toAskedBy (twinDetach_permits h.pf hl) (refuseIf_stop ?_ _))
  exact Bool.or_eq_true_iff.2 (.inl (decide_eq_true hp))

theorem twinDetach_goesOn (h : Asked s r 0x4A08 ([2] ++ List.replicate l.length 1) (l.length :: l)) (hl : lacks = false)
    (hp : s.pair.state = .paired) (hn : s.pair.naming ≠ [] ∨ ∀ p ∈ l.map partArg, s.pair.pairs.any (fun x => x.1 = p) = true) :
    let u := if s.pair.naming = [] then { s with pair := { s.pair with naming := l.map partArg } }.beginDetach else s
    (u.detachDone = false → exec (.twinDetach r lacks) s = later u)
    ∧ (u.detachDone = true →
      let v := u.setNamed .quiesced .detached
      exec (.twinDetach r lacks) s
        = { v with pair := { v.pair with state := .detached, naming := [] } }.grants r (l.any (fun p => 15 < p)) []) := by
  intro u
  have hc : (decide (s.pair.state ≠ .paired) || (decide (s.pair.naming = []) && (l.map partArg).any (fun p =>
      !(s.pair.pairs.any (fun x => x.1 = p))))) = false := by
    refine Bool.or_eq_false_iff.2 ⟨decide_eq_false (not_not.2 hp), ?_⟩
    rcases hn with hn | hn
    · rw [decide_eq_false hn]; rfl
    · rw [Bool.and_eq_false_iff]
      refine .inr (List.any_eq_false.2 fun p hm => ?_)
      rw [hn p hm]
      exact Bool.false_ne_true
  constructor
  · intro hd
    show execTwinDetach r lacks s = _
    refine (twinDetach_serves h _ _).trans (h.toAskedBy.waits (twinDetach_permits h.pf hl) ((refuseIf_pass hc _).trans (if_pos ?_)))
    exact congrArg (!·) hd
  · intro hd v
    show execTwinDetach r lacks s = _
    refine (twinDetach_serves h _ _).trans (serve_ok h.toAskedBy (twinDetach_permits h.pf hl) ((refuseIf_pass hc _).trans ((if_neg ?_).trans rfl)))
    rw [Bool.not_eq_true]
    exact congrArg (!·) hd

end

/-! ## Attaching (Table 11-12) -/

section
variable {l : List (Nat × Nat)} {ret : Nat}

theorem twinAttach_begins (h : Asked s r 0x4A09 ([2] ++ List.replicate (2 * l.length) 1 ++ [1]) (pairFields l ++ [ret])) (hn : s.pair.naming = []) :
    (s.pair.state ≠ .solo → s.pair.state ≠ .detached → exec (.twinAttach r) s = s.refuses r .notInMode)
    ∧ (s.pair.state = .solo ∨ s.pair.state = .detached → s.trunkUp = false → exec (.twinAttach r) s = later s)
    ∧ (s.pair.state = .solo ∨ s.pair.state = .detached → s.trunkUp = true →
      let u := (s.withPairs (pairsNamed l)).twinBack
      let v := { u with
        pair := { u.pair with state := .attaching, naming := (pairsNamed l).map (·.1), ret := decide (ret = 1) }
        mm := { u.mm with migs := u.mm.migs ++ ((pairsNamed l).map (·.1)).map (fun p => .attach p 0) } }
      (l ≠ [] → exec (.twinAttach r) s = later v)
      ∧ (l = [] → exec (.twinAttach r) s = { v with pair := { v.pair with state := .paired, ret := false } }.grants r
        (pairsClamped l || decide (1 < ret)) [])) := by
  have hp : s.permits r.fn false = true := pfOnly_pf (fs := []) h.pf
  have hc : s.pair.state = .solo ∨ s.pair.state = .detached →
      (decide (s.pair.state ≠ .solo) && decide (s.pair.state ≠ .detached)) = false := by
    rintro (hs | hs)
    · rw [decide_eq_false (not_not.2 hs)]; rfl
    · rw [decide_eq_false (p := s.pair.state ≠ .detached) (not_not.2 hs)]; exact Bool.and_false _
  refine ⟨fun h1 h2 => ?_, fun hs ht => ?_, fun hs ht => ?_⟩
  · show execTwinAttach r s = _
    refine servePairs_error h hp ((if_pos hn).trans (refuseIf_stop ?_ _))
    exact Bool.and_eq_true_iff.2 ⟨decide_eq_true h1, decide_eq_true h2⟩
  · show execTwinAttach r s = _
    exact servePairs_later h hp ((if_pos hn).trans ((refuseIf_pass (hc hs) _).trans (if_pos (congrArg (!·) ht))))
  · intro u v
    have hu : ¬(!s.trunkUp) = true := by rw [ht]; exact Bool.false_ne_true
    constructor
    · intro hl
      show execTwinAttach r s = _
      refine servePairs_later h hp ((if_pos hn).trans ((refuseIf_pass (hc hs) _).trans ((if_neg hu).trans ((if_neg ?_).trans rfl))))
      simpa [pairsNamed] using hl
    · intro hl
      show execTwinAttach r s = _
      refine servePairs_ok h hp ((if_pos hn).trans ((refuseIf_pass (hc hs) _).trans ((if_neg hu).trans ((if_pos ?_).trans rfl))))
      simp [pairsNamed, hl]

theorem twinAttach_ends (h : Asked s r 0x4A09 ([2] ++ List.replicate (2 * l.length) 1 ++ [1]) (pairFields l ++ [ret])) (hn : s.pair.naming ≠ []) :
    (s.pair.state = .attaching ∨ (s.pair.ret = true ∧ s.detachDone = false) → exec (.twinAttach r) s = later s)
    ∧ (s.pair.state ≠ .attaching → s.pair.ret = false ∨ s.detachDone = true →
      let u := if s.pair.ret then s.takeBack else s
      exec (.twinAttach r) s = { u with pair := { u.pair with naming := [], ret := false } }.grants r
        (pairsClamped l || decide (1 < ret)) []) := by
  have hp : s.permits r.fn false = true := pfOnly_pf (fs := []) h.pf
  constructor
  · intro hx
    show execTwinAttach r s = _
    by_cases ha : s.pair.state = .attaching
    · exact servePairs_later h hp ((if_neg hn).trans (if_pos ha))
    · obtain ⟨h1, h2⟩ := hx.resolve_left ha
      refine servePairs_later h hp ((if_neg hn).trans ((if_neg ha).trans (if_pos ?_)))
      rw [h1, h2]; rfl
  · intro ha hx u
    show execTwinAttach r s = _
    refine servePairs_ok h hp ((if_neg hn).trans ((if_neg ha).trans ((if_neg ?_).trans rfl)))
    rcases hx with hx | hx
    · rw [hx]; exact Bool.false_ne_true
    · rw [hx, Bool.not_true, Bool.and_false]; exact Bool.false_ne_true

end

/-! ## Chunks of an attach (Table 11-12) -/

section
variable {p n : Nat} {rest : List Migration}

/-- What an attach waits for before its next chunk, on the returning device. -/
def AttachWaits (s : State) (p n : Nat) (now : List TileAt) : Prop :=
  (n ≠ 0 ∧ ∃ t ∈ s.chunkTiles p ((s.mirrorChunks p).getD (n - 1) 0), (s.tssAt t.key).state = .stale)
    ∨ ∃ t ∈ now, (s.tssAt t.key).state = .opened ∨ ∃ l ∈ t.lines, s.lineBusy 0 l = true

theorem attachWaits_iff {now : List TileAt} :
    ((if n = 0 then [] else s.chunkTiles p ((s.mirrorChunks p).getD (n - 1) 0)).any (fun t => decide ((s.tssAt t.key).state = .stale))
      || now.any (fun t => decide ((s.tssAt t.key).state = .opened) || t.lines.any (fun l => s.lineBusy 0 l))) = true
    ↔ AttachWaits s p n now := by
  unfold AttachWaits
  by_cases hn : n = 0
  · simp [hn]
  · simp [hn]

theorem attachChunk_steps (hm : s.mm.migs = .attach p n :: rest) :
    let chunks := s.mirrorChunks p
    let now := if n < chunks.length then s.chunkTiles p (chunks.getD n 0) else []
    let back := decide ((s.part p).state = .detached)
    (back = true → AttachWaits s p n now → exec .attachChunk s = .next s)
    ∧ (back = false ∨ ¬AttachWaits s p n now →
      let u := if back then now.foldl (fun s t => (s.dropTile t).tileStale t) s else s
      (n < chunks.length → exec .attachChunk s = .next { u with mm := { u.mm with migs := .attach p (n + 1) :: rest } })
      ∧ (chunks.length ≤ n →
        let v := { u with mm := { u.mm with migs := rest } }
        (rest.any Migration.isAttach = true → exec .attachChunk s = .next v)
        ∧ (rest.any Migration.isAttach = false →
          let w := { v with pair := { v.pair with state := .paired } }
          exec .attachChunk s = .next (if w.pair.ret && !back then w.beginDetach else w)))) := by
  intro chunks now back
  have hw : (back && _) = true ↔ _ := Bool.and_eq_true_iff.trans (and_congr Iff.rfl (attachWaits_iff (s := s) (p := p) (n := n) (now := now)))
  constructor
  · intro hb hx
    show execAttachChunk s = _
    unfold execAttachChunk
    simp only [hm]
    exact if_pos (hw.2 ⟨hb, hx⟩)
  · intro hx u
    have hn : ¬(back && ((if n = 0 then [] else s.chunkTiles p ((s.mirrorChunks p).getD (n - 1) 0)).any (fun t =>
        decide ((s.tssAt t.key).state = .stale))
      || now.any (fun t => decide ((s.tssAt t.key).state = .opened) || t.lines.any (fun l => s.lineBusy 0 l)))) = true := fun hb => by
      obtain ⟨hb, hy⟩ := hw.1 hb
      exact hx.elim (fun h => Bool.false_ne_true (h.symm.trans hb)) (fun h => h hy)
    refine ⟨fun hl => ?_, fun hl => ?_⟩
    · show execAttachChunk s = _
      unfold execAttachChunk
      simp only [hm]
      refine (if_neg hn).trans ((if_pos hl).trans ?_)
      simp only [u, back, decide_eq_true_eq]
      rfl
    · intro v
      constructor
      · intro hr
        show execAttachChunk s = _
        unfold execAttachChunk
        simp only [hm]
        refine (if_neg hn).trans ((if_neg (Nat.not_lt.2 hl)).trans ((if_pos hr).trans ?_))
        simp only [v, u, back, decide_eq_true_eq]
        rfl
      · intro hr w
        show execAttachChunk s = _
        unfold execAttachChunk
        simp only [hm]
        refine (if_neg hn).trans ((if_neg (Nat.not_lt.2 hl)).trans ((if_neg (by rw [Bool.not_eq_true]; exact hr)).trans ?_))
        simp only [w, v, u, back, decide_eq_true_eq]
        rfl

end

/-! ## Status, and a twin or peer that is gone (R396, R397, R506, R507, R624) -/

theorem twinStatus_shows {page : Nat} (h : AskedBy s r 0x0A0B [1] [page])
    (hp : r.fn = 0 ∨ (s.permits r.fn true = true ∧ s.pair.pairs.any (fun x => x.1 = s.vfPart r.fn) = true)) :
    exec (.twinStatus r) s = s.grantsPage r s.twinImage page false := by
  show execTwinStatus r s = _
  refine serve_ok h ?_ rfl
  rcases hp with hf | ⟨hv, hm⟩
  · simp [State.permits, hf]
  · rw [hv, hm, Bool.or_true]; rfl

theorem twinForceSolo_answers {reserved : BitVec 64} (h : Asked s r 0x0A0A [] []) :
    (s.pair.state ≠ .severed → exec (.twinForceSolo r reserved) s = s.refuses r .notInMode)
    ∧ (s.pair.state = .severed → exec (.twinForceSolo r reserved) s = (s.failover reserved).grants r false []) := by
  constructor
  · intro hs
    show execTwinForceSolo r reserved s = _
    exact h.refused (refuseIf_stop (decide_eq_true hs) _)
  · intro hs
    show execTwinForceSolo r reserved s = _
    exact h.granted (refuseIf_pass (decide_eq_false (not_not.2 hs)) _)

theorem twinAliveTimeout_fails {reserved : BitVec 64} (hl : s.pair.lowCount = true) (hs : s.pair.state = .paired ∨ s.pair.state = .severed)
    (ha : s.alive = true) : exec (.twinAliveTimeout reserved) s = .next (s.failover reserved) := by
  show execTwinAliveTimeout reserved s = _
  refine if_neg ?_
  rcases hs with hs | hs
  · simp [hl, ha, hs]
  · simp [hl, ha, hs]

theorem twinAliveTimeout_idle {reserved : BitVec 64} (hl : s.pair.lowCount = false) : exec (.twinAliveTimeout reserved) s = .next s := by
  show execTwinAliveTimeout reserved s = _
  exact if_pos (by simp [hl])

theorem trunkSevered_answers (hs : s.pair.state = .paired) (ht : s.trunkUp = false) :
    (s.pins.twinIn = true → exec .trunkSevered s = .next ({ s with pair := { s.pair with state := .severed } }.event 0x506 0))
    ∧ (s.pins.twinIn = false → exec .trunkSevered s = .next s) := by
  constructor
  · intro hi
    show execTrunkSevered s = _
    exact if_neg (by simp [hs, ht, hi])
  · intro hi
    show execTrunkSevered s = _
    exact if_pos (by simp [hi])

theorem peerLost_answers {d : Fin 8} (hd : d.val ≠ s.lbx.d) (hl : d.val ∉ s.lbx.lost) (ht : s.lbx.twin = true → d.val ≠ s.twinNum) :
    (s.unreachable d = true → exec (.peerLost d) s = .next ((s.loseDevice d).event 0x505 d))
    ∧ (s.unreachable d = false → exec (.peerLost d) s = .next s) := by
  constructor
  · intro hu
    show execPeerLost d s = _
    refine if_neg ?_
    simpa [hd, hl, hu] using ht
  · intro hu
    show execPeerLost d s = _
    exact if_pos (by simp [hu])

end

/-- Settles O40. -/
theorem twinsPairAndPart : Obligations.TwinsPairAndPart := by
  intro s
  refine ⟨fun r l => ?_, fun r l lacks => ?_, fun r l ret => ?_, ?_, fun r page h hp => twinStatus_shows h hp,
    fun r reserved h => twinForceSolo_answers h, rfl, rfl, fun reserved => ⟨twinAliveTimeout_fails, twinAliveTimeout_idle⟩,
    trunkSevered_answers, fun d => peerLost_answers⟩
  · intro ps h
    have h' : Asked s r 0x4A07 ([2] ++ List.replicate (2 * l.length) 1 ++ []) (pairFields l ++ []) := by
      simpa only [List.append_nil] using h
    exact ⟨twinPair_denied h', fun hc => ⟨twinPair_refused h' hc, twinPair_pairs h' hc⟩⟩
  · intro ps h
    exact ⟨twinDetach_denied h, fun hl => ⟨twinDetach_refused h hl, twinDetach_goesOn h hl⟩⟩
  · intro ps clamped h
    exact ⟨twinAttach_begins h, twinAttach_ends h⟩
  · intro p n rest hm
    exact attachChunk_steps hm

end Sys2Proof.Machine
end

section
/-! Functions by mailbox commands: bindings, tumbler grants, window frames and dirty logs (R461 to R473, R552, R556). -/

namespace Sys2Proof.Machine

section
variable {s : State} {r : Req}

/-! ## Bindings (R461 to R463, R552) -/

/-- A VF_BIND is denied: the partition or the context does not exist, or another function holds it. -/
def BindDenied (s : State) (f p c : Nat) : Prop :=
  (s.part p).state = .free ∨ (s.part p).contexts ≤ c ∨ s.fns.any (fun g v => v.ctx = some (p, c) && g ≠ f) = true

theorem vfBind_permits {f p c : Nat} (hf : r.fn = 0) : (s.permits r.fn false && decide ((s.part p).state ≠ .free)
    && decide (c < (s.part p).contexts) && !(s.fns.any (fun g v => v.ctx = some (p, c) && g ≠ f))) = true ↔ ¬BindDenied s f p c := by
  have hp : s.permits r.fn false = true := pfOnly_pf (fs := []) hf
  rw [hp, Bool.true_and, Bool.and_eq_true, Bool.and_eq_true, decide_eq_true_eq, decide_eq_true_eq, Bool.not_eq_true', BindDenied, not_or, not_or,
    Nat.not_le, Bool.not_eq_true, and_assoc]

theorem vfBind_answers {f p c : Nat} (h : Asked s r 0x4B00 [1, 1, 1] [f, p, c]) :
    (BindDenied s f p c → exec (.vfBind r) s = s.refuses r .denied)
    ∧ (¬BindDenied s f p c → isVf f = false → exec (.vfBind r) s = s.refuses r .badLength)
    ∧ (¬BindDenied s f p c → isVf f = true → (s.fnRec f).ctx.isSome = true ∨ s.host.vfEnable = false →
      exec (.vfBind r) s = s.refuses r .notInMode)
    ∧ (¬BindDenied s f p c → isVf f = true → (s.fnRec f).ctx = none → s.host.vfEnable = true →
      exec (.vfBind r) s = (s.setFn f { s.fnRec f with ctx := some (p, c) }).grants r false []) := by
  refine ⟨fun hb => ?_, fun hb hv => ?_, fun hb hv hx => ?_, fun hb hv hc he => ?_⟩
  · show execVfBind r s = _
    exact h.denied (Bool.eq_false_iff.2 fun hp => (vfBind_permits h.pf).1 hp hb)
  · show execVfBind r s = _
    exact serve_error h.toAskedBy ((vfBind_permits h.pf).2 hb) (refuseIf_stop (congrArg (!·) hv) _)
  · show execVfBind r s = _
    refine serve_error h.toAskedBy ((vfBind_permits h.pf).2 hb) ((refuseIf_pass (congrArg (!·) hv) _).trans (refuseIf_stop ?_ _))
    rcases hx with hx | hx
    · exact Bool.or_eq_true_iff.2 (.inl hx)
    · exact Bool.or_eq_true_iff.2 (.inr (congrArg (!·) hx))
  · show execVfBind r s = _
    refine serve_ok h.toAskedBy ((vfBind_permits h.pf).2 hb) ((refuseIf_pass (congrArg (!·) hv) _).trans ((refuseIf_pass ?_ _).trans rfl))
    exact Bool.or_eq_false_iff.2 ⟨congrArg Option.isSome hc, congrArg (!·) he⟩

section
variable {f p c : Nat}

/-- A context is in use: a queue of it is not DISABLED, or a function level reset is in progress (R463). -/
def CtxUsed (s : State) (f p c : Nat) : Prop :=
  (∃ q ∈ s.ctxQueues p c, q.2.state ≠ .disabled) ∨ (s.fnRec f).flr = true ∨ (s.fnRec 0).flr = true

theorem ctxUsed_iff : ((s.ctxQueues p c).any (fun q => q.2.state ≠ .disabled) || (s.fnRec f).flr || (s.fnRec 0).flr) = true
    ↔ CtxUsed s f p c := by
  rw [Bool.or_eq_true, Bool.or_eq_true, or_assoc, List.any_eq_true]
  simp only [decide_eq_true_eq, CtxUsed]

/-- The checks and the work of VF_UNBIND on a bound VF. -/
def unbindBody (s : State) (f p c : Nat) : Serve := do
  let secret := (s.part p).confidential
  refuseIf ((s.ctxQueues p c).any (fun q => q.2.state ≠ .disabled) || (s.fnRec f).flr || (s.fnRec 0).flr) .notInMode
  refuseIf (secret && (s.part p).state ≠ .quiesced) .notInMode
  match (if secret then s.recall (s.inPart p) else (true, s)) with
  | (false, s) => pure { Ans.ok s with later := true }
  | (true, s) =>
    let s := if secret then (s.scrubPart p).nextGeneration p else s
    pure (Ans.ok (s.setFn f { s.fnRec f with ctx := none }))

theorem vfUnbind_bound (h : Asked s r 0x4B01 [1] [f]) (hv : isVf f = true) (hc : (s.fnRec f).ctx = some (p, c)) :
    exec (.vfUnbind r) s = settle s r (unbindBody s f p c) := by
  show execVfUnbind r s = _
  refine (serve_settles h.toAskedBy (pfOnly_pf h.pf)).trans (congrArg _ ?_)
  simp only [fieldAt, List.getD_cons_zero, hv, hc, Bool.not_true, Bool.false_eq_true, if_false]
  rfl

theorem vfUnbind_answers (h : Asked s r 0x4B01 [1] [f]) (hv : isVf f = true) (hc : (s.fnRec f).ctx = some (p, c)) :
    (CtxUsed s f p c → exec (.vfUnbind r) s = s.refuses r .notInMode)
    ∧ (¬CtxUsed s f p c → (s.part p).confidential = false →
      exec (.vfUnbind r) s = (s.setFn f { s.fnRec f with ctx := none }).grants r false [])
    ∧ (¬CtxUsed s f p c → (s.part p).confidential = true →
      ((s.part p).state ≠ .quiesced → exec (.vfUnbind r) s = s.refuses r .notInMode)
      ∧ ((s.part p).state = .quiesced →
        (∀ u, s.recall (s.inPart p) = (false, u) → exec (.vfUnbind r) s = .next u)
        ∧ ∀ u, s.recall (s.inPart p) = (true, u) →
          let v := (u.scrubPart p).nextGeneration p
          exec (.vfUnbind r) s = (v.setFn f { v.fnRec f with ctx := none }).grants r false [])) := by
  have he := vfUnbind_bound h hv hc
  have hu : ¬CtxUsed s f p c → ((s.ctxQueues p c).any (fun q => q.2.state ≠ .disabled) || (s.fnRec f).flr || (s.fnRec 0).flr) = false :=
    fun hn => Bool.eq_false_iff.2 fun hx => hn (ctxUsed_iff.1 hx)
  refine ⟨fun hx => ?_, fun hx hs => ?_, fun hx hs => ⟨fun hq => ?_, fun hq => ⟨fun u hr => ?_, fun u hr => ?_⟩⟩⟩
  · rw [he, show unbindBody s f p c = .error .notInMode from refuseIf_stop (ctxUsed_iff.2 hx) _]; rfl
  · have hb : unbindBody s f p c = .ok (Ans.ok (s.setFn f { s.fnRec f with ctx := none })) := by
      refine (refuseIf_pass (hu hx) _).trans ((refuseIf_pass (Bool.and_eq_false_iff.2 (.inl hs)) _).trans ?_)
      simp only [hs]
      rfl
    rw [he, hb]; rfl
  · have hb : unbindBody s f p c = .error .notInMode :=
      (refuseIf_pass (hu hx) _).trans (refuseIf_stop (Bool.and_eq_true_iff.2 ⟨hs, decide_eq_true hq⟩) _)
    rw [he, hb]; rfl
  · have hb : unbindBody s f p c = .ok { Ans.ok u with later := true } := by
      refine (refuseIf_pass (hu hx) _).trans ((refuseIf_pass (Bool.and_eq_false_iff.2 (.inr (decide_eq_false (not_not.2 hq)))) _).trans ?_)
      simp only [hs, if_true, hr]
      rfl
    rw [he, hb]; rfl
  · have hb : unbindBody s f p c = .ok (Ans.ok (((u.scrubPart p).nextGeneration p).setFn f
        { ((u.scrubPart p).nextGeneration p).fnRec f with ctx := none })) := by
      refine (refuseIf_pass (hu hx) _).trans ((refuseIf_pass (Bool.and_eq_false_iff.2 (.inr (decide_eq_false (not_not.2 hq)))) _).trans ?_)
      simp only [hs, if_true, hr]
      rfl
    rw [he, hb]; rfl

theorem vfUnbind_refused (h : Asked s r 0x4B01 [1] [f]) :
    (isVf f = false → exec (.vfUnbind r) s = s.refuses r .badLength)
    ∧ (isVf f = true → (s.fnRec f).ctx = none → exec (.vfUnbind r) s = s.refuses r .notInMode) := by
  constructor
  · intro hv
    show execVfUnbind r s = _
    exact h.refused (if_pos (congrArg (!·) hv))
  · intro hv hc
    show execVfUnbind r s = _
    refine h.refused ?_
    simp only [fieldAt, List.getD_cons_zero, hv, hc, Bool.not_true, Bool.false_eq_true, if_false]

end

theorem vfStatus_shows {f page : Nat} (h : AskedBy s r 0x0B02 [1, 1] [f, page]) (hf : r.fn = 0 ∨ min f 63 = r.fn.val) :
    exec (.vfStatus r) s = s.grantsPage r (s.vfImage (min f 63)) page (63 < f) := by
  show execVfStatus r s = _
  exact serve_ok h (Bool.or_eq_true_iff.2 (hf.imp decide_eq_true decide_eq_true)) rfl

/-! ## The tumbler (R470) -/

theorem tumblerAllow_answers {f rid : Nat} (h : Asked s r 0x4B03 [1, 2] [f, rid]) :
    let v := s.fnRec (min f 63)
    (rid ∈ v.grants → exec (.tumblerAllow r) s = (s.setFn (min f 63) v).grants r (63 < f) [])
    ∧ (rid ∉ v.grants → v.grants.length < 16 →
      exec (.tumblerAllow r) s = (s.setFn (min f 63) { v with grants := v.grants ++ [rid] }).grants r (63 < f) [])
    ∧ (rid ∉ v.grants → 16 ≤ v.grants.length → exec (.tumblerAllow r) s = s.refuses r .denied) := by
  intro v
  have hp : s.permits r.fn false = true := pfOnly_pf (fs := []) h.pf
  refine ⟨fun hm => ?_, fun hm hl => ?_, fun hm hl => ?_⟩
  · have hc : v.grants.contains rid = true := List.contains_iff_mem.2 hm
    show execTumblerAllow r s = _
    refine serve_ok h.toAskedBy (Bool.and_eq_true_iff.2 ⟨hp, Bool.or_eq_true_iff.2 (.inl hc)⟩) ?_
    exact congrArg (fun g => Except.ok (Ans.ok (s.setFn (min f 63) { v with grants := g }) (63 < f))) (if_pos hc)
  · have hc : ¬v.grants.contains rid = true := fun hx => hm (List.contains_iff_mem.1 hx)
    show execTumblerAllow r s = _
    refine serve_ok h.toAskedBy (Bool.and_eq_true_iff.2 ⟨hp, Bool.or_eq_true_iff.2 (.inr (decide_eq_true hl))⟩) ?_
    exact congrArg (fun g => Except.ok (Ans.ok (s.setFn (min f 63) { v with grants := g }) (63 < f))) (if_neg hc)
  · have hc : v.grants.contains rid = false := Bool.eq_false_iff.2 fun hx => hm (List.contains_iff_mem.1 hx)
    show execTumblerAllow r s = _
    exact h.denied (Bool.and_eq_false_iff.2 (.inr (Bool.or_eq_false_iff.2 ⟨hc, decide_eq_false (Nat.not_lt.2 hl)⟩)))

theorem tumblerRevoke_revokes {f rid : Nat} (h : Asked s r 0x4B04 [1, 2] [f, rid]) :
    exec (.tumblerRevoke r) s
      = (s.setFn (min f 63) { s.fnRec (min f 63) with grants := (s.fnRec (min f 63)).grants.filter (fun g => g ≠ rid) }).grants r (63 < f) [] := by
  show execTumblerRevoke r s = _
  exact h.granted rfl

/-! ## The window (R466 to R468) -/

theorem hostWindowMap_answers {off a va count : Nat} (h : Asked s r 0x4B05 [8, 1, 8, 4] [off, a, va, count]) :
    let p := partArg a
    let w := s.windowRange off count
    let at_ := min (va / 2097152 * 2097152) (windowEnd - 2097152)
    let n := min w.2.1 ((windowEnd - at_) / 2097152)
    let frames := (List.range n).map (fun k => s.frameAt p (at_ + k * 2097152))
    let shown := (List.range n).any (fun k => (s.host.window.get? (w.1 + k)).isSome)
    ((s.part p).confidential = true → exec (.hostWindowMap r) s = s.refuses r .denied)
    ∧ ((s.part p).confidential = false → (s.part p).state = .free ∨ none ∈ frames ∨ shown = true →
      exec (.hostWindowMap r) s = s.refuses r .notInMode)
    ∧ ((s.part p).confidential = false → (s.part p).state ≠ .free → none ∉ frames → shown = false →
      exec (.hostWindowMap r) s = { s with host := { s.host with
        window := frames.zipIdx.foldl (fun (t : Tab Nat) (d : Option Nat × Nat) => t.set (w.1 + d.2) (d.1.getD 0)) s.host.window } }.grants r
          (w.2.2 || n ≠ w.2.1 || at_ ≠ va || 15 < a) []) := by
  intro p w at_ n frames shown
  have hp : s.permits r.fn false = true := pfOnly_pf (fs := []) h.pf
  have hn : frames.any (fun d => d.isNone) = true ↔ none ∈ frames := by
    rw [List.any_eq_true]
    exact ⟨fun ⟨d, hd, hx⟩ => Option.isNone_iff_eq_none.1 hx ▸ hd, fun hm => ⟨none, hm, rfl⟩⟩
  refine ⟨fun hc => ?_, fun hc hx => ?_, fun hc hs hf hw => ?_⟩
  · show execHostWindowMap r s = _
    exact h.denied (Bool.and_eq_false_iff.2 (.inr (congrArg (!·) hc)))
  · show execHostWindowMap r s = _
    by_cases hy : (decide ((s.part p).state = .free) || frames.any (fun d => d.isNone)) = true
    · exact serve_error h.toAskedBy (Bool.and_eq_true_iff.2 ⟨hp, congrArg (!·) hc⟩) (refuseIf_stop hy _)
    · have hw : shown = true := by
        rw [Bool.or_eq_true, decide_eq_true_eq, hn, not_or] at hy
        exact (hx.resolve_left hy.1).resolve_left hy.2
      exact serve_error h.toAskedBy (Bool.and_eq_true_iff.2 ⟨hp, congrArg (!·) hc⟩)
        ((refuseIf_pass (Bool.eq_false_iff.2 hy) _).trans (refuseIf_stop hw _))
  · show execHostWindowMap r s = _
    refine serve_ok h.toAskedBy (Bool.and_eq_true_iff.2 ⟨hp, congrArg (!·) hc⟩) ((refuseIf_pass ?_ _).trans ((refuseIf_pass hw _).trans rfl))
    exact Bool.or_eq_false_iff.2 ⟨decide_eq_false hs, Bool.eq_false_iff.2 fun hx => hf (hn.1 hx)⟩

theorem hostWindowUnmap_answers {off count : Nat} (h : Asked s r 0x4B06 [8, 4] [off, count]) :
    let w := s.windowRange off count
    let mine := fun (k : Nat) => decide (w.1 ≤ k ∧ k < w.1 + w.2.1)
    let frames := (s.host.window.keep (fun k _ => mine k)).vals
    let lines := fun (line : Nat) => frames.any (fun d => d / 128 ≤ line && line < (d + 2097152) / 128)
    (∀ u, s.recallHost lines = (false, u) → exec (.hostWindowUnmap r) s = .next u)
    ∧ ∀ u, s.recallHost lines = (true, u) → exec (.hostWindowUnmap r) s
      = { u with host := { u.host with window := u.host.window.keep (fun k _ => !mine k) } }.grants r w.2.2 [] := by
  intro w mine frames lines
  constructor
  · intro u hu
    show execHostWindowUnmap r s = _
    refine h.waits ?_
    dsimp only
    split
    next v e => cases hu.symm.trans e; rfl
    next v e => cases hu.symm.trans e
  · intro u hu
    show execHostWindowUnmap r s = _
    refine h.granted ?_
    dsimp only
    split
    next v e => cases hu.symm.trans e
    next v e => cases hu.symm.trans e; rfl

/-! ## Dirty logs (R472, R473) -/

theorem dirtyLogStart_answers {f iova len buf0 buf1 : Nat} (h : Asked s r 0x4B07 [1, 8, 8, 8, 8] [f, iova, len, buf0, buf1]) :
    let down := fun (v : Nat) => v / 4096 * 4096
    let n := min (max len 1) (2 ^ 36)
    let l : DirtyLog := ⟨down iova, n, down buf0, down buf1, false, 0⟩
    (isVf f = false → exec (.dirtyLogStart r) s = s.refuses r .badLength)
    ∧ (isVf f = true → (s.fnRec f).log.isSome = true → exec (.dirtyLogStart r) s = s.refuses r .notInMode)
    ∧ (isVf f = true → (s.fnRec f).log = none → exec (.dirtyLogStart r) s = (s.setFn f { s.fnRec f with log := some l }).grants r
      ((len < 1 || 2 ^ 36 < len) || down iova ≠ iova || down buf0 ≠ buf0 || down buf1 ≠ buf1) []) := by
  intro down n l
  refine ⟨fun hv => ?_, fun hv hl => ?_, fun hv hl => ?_⟩
  · show execDirtyLogStart r s = _
    exact h.refused (refuseIf_stop (congrArg (!·) hv) _)
  · show execDirtyLogStart r s = _
    exact h.refused ((refuseIf_pass (congrArg (!·) hv) _).trans (refuseIf_stop hl _))
  · show execDirtyLogStart r s = _
    exact h.granted ((refuseIf_pass (congrArg (!·) hv) _).trans ((refuseIf_pass (congrArg Option.isSome hl) _).trans rfl))

/-- A dirty log is changed, where one is on. -/
theorem logChange_answers {f code : Nat} {next : DirtyLog → Option DirtyLog} {out : Out} (ho : out = logChange r code next s)
    (h : Asked s r code [1] [f]) :
    (isVf f = false → out = s.refuses r .badLength)
    ∧ (isVf f = true → (s.fnRec f).log = none → out = s.refuses r .notInMode)
    ∧ ∀ l, isVf f = true → (s.fnRec f).log = some l → out = (s.setFn f { s.fnRec f with log := next l }).grants r false [] := by
  subst ho
  refine ⟨fun hv => h.refused (if_pos (congrArg (!·) hv)), fun hv hl => h.refused ?_, fun l hv hl => h.granted ?_⟩
  · simp only [fieldAt, List.getD_cons_zero, hv, hl, Bool.not_true, Bool.false_eq_true, if_false]
  · simp only [fieldAt, List.getD_cons_zero, hv, hl, Bool.not_true, Bool.false_eq_true, if_false]
    rfl

end

/-- Settles O41. -/
theorem functionsAreCommanded : Obligations.FunctionsAreCommanded := by
  intro s r
  refine ⟨fun f p c h => vfBind_answers h, fun f h => ⟨(vfUnbind_refused h).1, (vfUnbind_refused h).2, fun p c hv hc => vfUnbind_answers h hv hc⟩,
    fun f page h hf => vfStatus_shows h hf, fun f rid => ⟨tumblerAllow_answers, tumblerRevoke_revokes⟩,
    fun off a va count h => hostWindowMap_answers h, fun off count h => hostWindowUnmap_answers h,
    fun f iova len buf0 buf1 h => dirtyLogStart_answers h, fun f code c next hm h => ?_⟩
  simp only [List.mem_cons, List.not_mem_nil, or_false, Prod.mk.injEq] at hm
  rcases hm with ⟨rfl, rfl, rfl⟩ | ⟨rfl, rfl, rfl⟩
  · exact logChange_answers (by show execDirtyLogSwap r s = _; rfl) h
  · exact logChange_answers (by show execDirtyLogStop r s = _; rfl) h

end Sys2Proof.Machine
end

section
/-! Peer links, and security, by mailbox commands (R495 to R502, R543 to R572). -/

namespace Sys2Proof.Machine

section
variable {s : State} {r : Req}

/-! ## Ports (R495, R496) -/

theorem lbxSetId_answers {num mode : Nat} (h : Asked s r 0x4C00 [1, 1] [num, mode]) :
    (7 < num ∨ 1 < mode → exec (.lbxSetId r) s = s.refuses r .badLength)
    ∧ (num ≤ 7 → mode ≤ 1 →
      exec (.lbxSetId r) s = { s with flash := { s.flash with devNum := num, linkMode := mode } }.grants r false []) := by
  constructor
  · intro hx
    show execLbxSetId r s = _
    exact h.refused (refuseIf_stop (Bool.or_eq_true_iff.2 (hx.imp decide_eq_true decide_eq_true)) _)
  · intro hn hm
    show execLbxSetId r s = _
    exact h.granted (refuseIf_pass
      (Bool.or_eq_false_iff.2 ⟨decide_eq_false (Nat.not_lt.2 hn), decide_eq_false (Nat.not_lt.2 hm)⟩) _)

theorem lbxStatus_shows {port page : Nat} (h : AskedBy s r 0x0C01 [1, 1] [port, page]) (hp : s.permits r.fn true = true) :
    let p := s.port (min port 11)
    let lanes := if p.state = .active then 8 else if p.state = .half then 4 else 0
    exec (.lbxStatus r) s = s.grantsPage r (encodeFields [(1, p.state.code), (1, lanes), (1, (p.peer.map (·.1)).getD 0),
      (1, (p.peer.map (·.2)).getD 0), (1, p.reason), (4, p.replays), (4, p.corrected), (4, p.rspErrs)]) page (11 < port) := by
  intro p lanes
  show execLbxStatus r s = _
  exact serve_ok h hp rfl

theorem lbxRetrain_answers {port : Nat} (h : Asked s r 0x4C02 [1] [port]) :
    (11 < port → exec (.lbxRetrain r) s = s.refuses r .badLength)
    ∧ (port ≤ 11 → s.pins.twinOut = true → exec (.lbxRetrain r) s = (s.setPort port (s.port port).train).grants r false [])
    ∧ (port ≤ 11 → s.pins.twinOut = false → exec (.lbxRetrain r) s = s.grants r false []) := by
  refine ⟨fun hp => ?_, fun hp ho => ?_, fun hp ho => ?_⟩
  · show execLbxRetrain r s = _
    exact h.refused (refuseIf_stop (decide_eq_true hp) _)
  · show execLbxRetrain r s = _
    exact h.granted ((refuseIf_pass (decide_eq_false (Nat.not_lt.2 hp)) _).trans (congrArg (fun u => Except.ok (Ans.ok u)) (if_pos ho)))
  · show execLbxRetrain r s = _
    exact h.granted ((refuseIf_pass (decide_eq_false (Nat.not_lt.2 hp)) _).trans
      (congrArg (fun u => Except.ok (Ans.ok u)) (if_neg (by rw [ho]; exact Bool.false_ne_true))))

/-! ## Exports and imports (R501, R502, R555) -/

theorem lbxExport_answers {id a va len write peers : Nat} (h : Asked s r 0x4C03 [1, 1, 8, 8, 1, 1] [id, a, va, len, write, peers]) :
    let v := min (va / 65536) (windowUnits - 1) * 65536
    let n := min (roundUp len 65536) (2 ^ 47 - v)
    let ps := BitVec.ofNat 8 peers &&& ~~~(BitVec.ofNat 8 (1 <<< s.lbx.d))
    let e : Export := ⟨partArg a, v, n, decide (write = 1), ps, none⟩
    ((s.lbx.exports.get? id).isSome = true ∨ (s.part (partArg a)).confidential = true → exec (.lbxExport r) s = s.refuses r .denied)
    ∧ (s.lbx.exports.get? id = none → (s.part (partArg a)).confidential = false →
      exec (.lbxExport r) s = { s with lbx := { s.lbx with exports := s.lbx.exports.set id e } }.grants r
        (v ≠ va || n ≠ len || 1 < write || ps.toNat ≠ peers || 15 < a) []) := by
  intro v n ps e
  constructor
  · intro hx
    show execLbxExport r s = _
    refine h.denied ?_
    rcases hx with hx | hx
    · simp only [fieldAt, List.getD_cons_zero, Option.isNone_eq_false_iff.2 hx, Bool.and_false, Bool.false_and]
    · simp only [fieldAt, List.getD_cons_zero, List.getD_cons_succ, hx, Bool.not_true, Bool.and_false]
  · intro hx hc
    show execLbxExport r s = _
    refine serve_ok h.toAskedBy ?_ rfl
    simp only [fieldAt, List.getD_cons_zero, List.getD_cons_succ, hx, hc, State.permits, h.pf, Option.isNone_none]
    rfl

theorem lbxUnexport_answers {id : Nat} (h : Asked s r 0x4C04 [1] [id]) :
    (s.lbx.exports.get? id = none → exec (.lbxUnexport r) s = s.refuses r .denied)
    ∧ ∀ e, s.lbx.exports.get? id = some e →
      let mine := e.closing = none ∨ e.closing = some (r.fn.val, r.slot.val)
      (¬mine → exec (.lbxUnexport r) s = s.refuses r .denied)
      ∧ (mine → exec (.lbxUnexport r) s = .next ({ s with lbx := { s.lbx with
        exports := s.lbx.exports.set id { e with closing := some (r.fn.val, r.slot.val) } } }.closeExport id)) := by
  have hp : s.permits r.fn false = true := pfOnly_pf (fs := []) h.pf
  refine ⟨fun hx => ?_, fun e hx => ⟨fun hm => ?_, fun hm => ?_⟩⟩
  · show execLbxUnexport r s = _
    refine h.denied ?_
    simp only [fieldAt, List.getD_cons_zero, hx, Option.any_none, Bool.and_false]
  · show execLbxUnexport r s = _
    refine h.denied ?_
    obtain ⟨h1, h2⟩ := not_or.1 hm
    have h1 : e.closing.isNone = false := Option.isNone_eq_false_iff.2 (Option.isSome_iff_ne_none.2 h1)
    simp only [fieldAt, List.getD_cons_zero, hx, Option.any_some, h1, decide_eq_false h2, Bool.or_self, Bool.and_false]
  · show execLbxUnexport r s = _
    refine h.toAskedBy.waits ?_ ?_
    · have h1 : (e.closing.isNone || decide (e.closing = some (r.fn.val, r.slot.val))) = true :=
        Bool.or_eq_true_iff.2 (hm.imp Option.isNone_iff_eq_none.2 decide_eq_true)
      simp only [fieldAt, List.getD_cons_zero, hx, Option.any_some, h1, hp, Bool.and_self]
    · simp only [fieldAt, List.getD_cons_zero, hx]
      rfl

theorem lbxImport_answers {a va count dest id off : Nat} (h : Asked s r 0x4C05 [1, 8, 4, 1, 1, 8] [a, va, count, dest, id, off]) :
    let p := partArg a
    let key := min (va / 65536) (windowUnits - 1)
    let n := min count (windowUnits - key)
    let o := off / 65536 * 65536
    ((s.part p).confidential = true → exec (.lbxImport r) s = s.refuses r .denied)
    ∧ ((s.part p).confidential = false → 7 < dest ∨ dest = s.lbx.d → exec (.lbxImport r) s = s.refuses r .badLength)
    ∧ ((s.part p).confidential = false → dest ≤ 7 → dest ≠ s.lbx.d → (s.part p).state = .free ∨ (s.part p).mappedAny key n = true →
      exec (.lbxImport r) s = s.refuses r .notInMode)
    ∧ ((s.part p).confidential = false → dest ≤ 7 → dest ≠ s.lbx.d → (s.part p).state ≠ .free → (s.part p).mappedAny key n = false →
      exec (.lbxImport r) s = ((List.range n).foldl (fun s k =>
        s.putPage p (key + k) ⟨false, .peer dest id (o + k * 65536), true, false⟩) s).grants r
          (key * 65536 ≠ va || n ≠ count || o ≠ off || 15 < a) []) := by
  intro p key n o
  have hp : s.permits r.fn false = true := pfOnly_pf (fs := []) h.pf
  have hq : (s.part p).confidential = false → (s.permits r.fn false && !(s.part p).confidential) = true := fun hc => by rw [hp, hc]; rfl
  have hd : dest ≤ 7 → dest ≠ s.lbx.d → (decide (7 < dest) || decide (dest = s.lbx.d)) = false := fun h1 h2 =>
    Bool.or_eq_false_iff.2 ⟨decide_eq_false (Nat.not_lt.2 h1), decide_eq_false h2⟩
  refine ⟨fun hc => ?_, fun hc hx => ?_, fun hc h1 h2 hx => ?_, fun hc h1 h2 hs hm => ?_⟩
  · show execLbxImport r s = _
    refine h.denied (Bool.and_eq_false_iff.2 (.inr (congrArg (!·) hc)))
  · show execLbxImport r s = _
    exact serve_error h.toAskedBy (hq hc) (refuseIf_stop (Bool.or_eq_true_iff.2 (hx.imp decide_eq_true decide_eq_true)) _)
  · show execLbxImport r s = _
    exact serve_error h.toAskedBy (hq hc) ((refuseIf_pass (hd h1 h2) _).trans
      (refuseIf_stop (Bool.or_eq_true_iff.2 (hx.imp decide_eq_true fun hy => hy)) _))
  · show execLbxImport r s = _
    exact serve_ok h.toAskedBy (hq hc) ((refuseIf_pass (hd h1 h2) _).trans
      ((refuseIf_pass (Bool.or_eq_false_iff.2 ⟨decide_eq_false hs, hm⟩) _).trans rfl))

/-! ## Reports and page queries (R543, R558, R564, R572) -/

theorem secStatus_shows {page : Nat} (h : AskedBy s r 0x0D00 [1] [page]) (hp : s.permits r.fn true = true) :
    let row := fun (p : Nat) =>
      [(1, if (s.part p).confidential then 1 else 0), (4, (s.part p).generation), (4, (s.part p).hostEpoch)]
    let tail := [(1, s.host.ide), (1, if s.sec.session.isSome then 1 else 0), (1, if s.sec.trace.isSome then 1 else 0)]
    exec (.secStatus r) s = s.grantsPage r (encodeFields
      (((if r.fn = 0 then List.range 16 else [s.vfPart r.fn]).map row).flatten ++ tail)) page false := by
  intro row tail
  show execSecStatus r s = _
  exact serve_ok h hp rfl

theorem secPartReport_answers {a nonce dest : Nat} (h : AskedBy s r 0x8D02 [1, 32, 8] [a, nonce, dest]) (hp : s.permits r.fn true = true) :
    let p := if r.fn = 0 then a else s.vfPart r.fn
    (r.fn = 0 → 15 < a → exec (.secPartReport r) s = s.refuses r .badLength)
    ∧ (r.fn ≠ 0 ∨ a ≤ 15 → (s.part p).state ≠ .active → (s.part p).state ≠ .quiesced →
      exec (.secPartReport r) s = s.refuses r .notInMode)
    ∧ (r.fn ≠ 0 ∨ a ≤ 15 → (s.part p).state = .active ∨ (s.part p).state = .quiesced →
      let body := s.reportBody p nonce
      let tag : List Byte := "EZ2-PART-REPORT".toUTF8.toList.map (fun c => BitVec.ofNat 8 c.toNat)
      let signed := body ++ identitySign false [] (tag ++ body) ++ identitySign true tag body ++ List.replicate 19 0
      let d := dest / 64 * 64
      exec (.secPartReport r) s = (s.ioWrite r.fn d signed).grants r (d ≠ dest) []) := by
  intro p
  have ha : r.fn ≠ 0 ∨ a ≤ 15 → (decide (r.fn = 0) && decide (15 < a)) = false := fun hx =>
    Bool.and_eq_false_iff.2 (hx.imp decide_eq_false fun hy => decide_eq_false (Nat.not_lt.2 hy))
  refine ⟨fun hf hx => ?_, fun hx h1 h2 => ?_, fun hx hs => ?_⟩
  · show execSecPartReport r s = _
    exact serve_error h hp (refuseIf_stop (Bool.and_eq_true_iff.2 ⟨decide_eq_true hf, decide_eq_true hx⟩) _)
  · show execSecPartReport r s = _
    refine serve_error h hp ((refuseIf_pass (ha hx) _).trans (refuseIf_stop ?_ _))
    exact congrArg (!·) (Bool.or_eq_false_iff.2 ⟨decide_eq_false h1, decide_eq_false h2⟩)
  · intro body tag signed d
    show execSecPartReport r s = _
    refine serve_ok h hp ((refuseIf_pass (ha hx) _).trans ((refuseIf_pass ?_ _).trans rfl))
    exact congrArg (!·) (Bool.or_eq_true_iff.2 (hs.imp decide_eq_true decide_eq_true))

theorem secPageQuery_answers {a va : Nat} (h : AskedBy s r 0x0D03 [1, 8] [a, va]) (hp : s.permits r.fn true = true) :
    exec (.secPageQuery r) s = s.grants r ((decide (r.fn = 0) && 15 < a) || 2 ^ 47 ≤ va)
      (s.pageEntry (if r.fn = 0 then min a 15 else s.vfPart r.fn) va) := by
  show execSecPageQuery r s = _
  refine serve_ok h hp (congrArg (fun c => Except.ok (Ans.ok s ((c && decide (15 < a)) || decide (2 ^ 47 ≤ va)) _)) ?_)
  exact decide_eq_decide.2 Fin.val_eq_zero_iff

/-! ## Debug tokens and trace (R566 to R570) -/

theorem dbgAuthorize_answers {parts token time : Nat} (h : Asked s r 0x4D04 [2, 16, 2] [parts, token, time]) :
    (token = 0 → exec (.dbgAuthorize r) s = s.refuses r .badLength)
    ∧ (token ≠ 0 → s.sec.session.isSome = true → exec (.dbgAuthorize r) s = s.refuses r .notInMode)
    ∧ (token ≠ 0 → s.sec.session = none →
      let ok := (List.range 16).filter (fun p => (s.part p).state ≠ .free && !(s.part p).confidential)
      let mask := BitVec.ofNat 16 parts &&& BitVec.ofNat 16 (numOfBits ok)
      exec (.dbgAuthorize r) s = { s with sec := { s.sec with token := some (bytesOf 16 token, mask) } }.grants r
        (mask.toNat ≠ parts || (time < 1 || 3600 < time)) []) := by
  refine ⟨fun ht => ?_, fun ht hs => ?_, fun ht hs => ?_⟩
  · show execDbgAuthorize r s = _
    exact h.refused (refuseIf_stop (decide_eq_true ht) _)
  · show execDbgAuthorize r s = _
    exact h.refused ((refuseIf_pass (decide_eq_false ht) _).trans (refuseIf_stop hs _))
  · intro ok mask
    show execDbgAuthorize r s = _
    exact h.granted ((refuseIf_pass (decide_eq_false ht) _).trans ((refuseIf_pass (congrArg Option.isSome hs) _).trans rfl))

theorem dbgRevoke_revokes (h : Asked s r 0x4D05 [] []) : exec (.dbgRevoke r) s = s.endSession.grants r false [] := by
  show execDbgRevoke r s = _
  exact h.granted rfl

theorem dbgTraceStart_answers {base length : Nat} (h : Asked s r 0x4D06 [8, 8] [base, length]) :
    (s.anyConfidential = true → exec (.dbgTraceStart r) s = s.refuses r .notInMode)
    ∧ (s.anyConfidential = false →
      let b := base / 4096 * 4096
      let l := min (max (length / 64 * 64) 4096) (2 ^ 30)
      exec (.dbgTraceStart r) s = { s with sec := { s.sec with trace := some (b, l, 0) } }.grants r (b ≠ base || l ≠ length) []) := by
  constructor
  · intro hc
    show execDbgTraceStart r s = _
    exact h.refused (refuseIf_stop hc _)
  · intro hc b l
    show execDbgTraceStart r s = _
    exact h.granted ((refuseIf_pass hc _).trans rfl)

theorem dbgTraceStop_answers (h : Asked s r 0x4D07 [] []) :
    (s.sec.trace = none → exec (.dbgTraceStop r) s = s.refuses r .notInMode)
    ∧ (s.sec.trace.isSome = true → exec (.dbgTraceStop r) s = { s with sec := { s.sec with trace := none } }.grants r false []) := by
  constructor
  · intro ht
    show execDbgTraceStop r s = _
    exact h.refused (refuseIf_stop (Option.isNone_iff_eq_none.2 ht) _)
  · intro ht
    show execDbgTraceStop r s = _
    exact h.granted (refuseIf_pass (Option.isNone_eq_false_iff.2 ht) _)

end

/-- Settles O42. -/
theorem linksAreCommanded : Obligations.LinksAreCommanded := fun _ _ =>
  ⟨fun _ _ h => lbxSetId_answers h, fun _ _ h hp => lbxStatus_shows h hp, fun _ h => lbxRetrain_answers h,
    fun _ _ _ _ _ _ h => lbxExport_answers h, fun _ h => lbxUnexport_answers h, fun _ _ _ _ _ _ h => lbxImport_answers h⟩

/-- Settles O43. -/
theorem securityIsCommanded : Obligations.SecurityIsCommanded := fun _ _ =>
  ⟨fun _ h hp => secStatus_shows h hp, fun _ _ _ h hp => secPartReport_answers h hp, fun _ _ h hp => secPageQuery_answers h hp,
    fun _ _ _ h => dbgAuthorize_answers h, dbgRevoke_revokes, fun _ _ h => dbgTraceStart_answers h, dbgTraceStop_answers⟩

end Sys2Proof.Machine
end

section
/-! Power and firmware by mailbox commands (R527 to R541, R587 to R596, Tables 18-1, 18-7, 18-8, 19-1). -/

namespace Sys2Proof.Machine

section
variable {s : State} {r : Req}

/-! ## Power settings (R587, R588, Table 18-1) -/

theorem pwrSetCap_sets {cap volts current : Nat} (h : Asked s r 0x4E00 [2, 2, 4] [cap, volts, current]) :
    exec (.pwrSetCap r) s = { s with power := { s.power with
      nextCap := some (min (max cap 1000) 2400, min (max volts 600) 850, min (max current 100) 100000) } }.grants r
        ((cap < 1000 || 2400 < cap) || (volts < 600 || 850 < volts) || (current < 100 || 100000 < current)) [] := by
  show execPwrSetCap r s = _
  exact h.granted rfl

theorem pwrStatus_shows {page : Nat} (h : AskedBy s r 0x0E01 [1] [page]) (hp : s.permits r.fn true = true) :
    exec (.pwrStatus r) s = s.grantsPage r (s.powerImage r.fn) page false := by
  show execPwrStatus r s = _
  exact serve_ok h hp rfl

theorem pwrSetState_refused {v : Nat} (h : Asked s r 0x4E02 [1] [v]) (hs : s.power.state = .retain) (hr : s.power.retainReq = 2) :
    exec (.pwrSetState r) s = s.refuses r .notInMode := by
  show execPwrSetState r s = _
  exact h.refused (refuseIf_stop (Bool.and_eq_true_iff.2 ⟨decide_eq_true hs, decide_eq_true hr⟩) _)

theorem pwrSetState_answers {v : Nat} (h : Asked s r 0x4E02 [1] [v]) (hx : s.power.state ≠ .retain ∨ s.power.retainReq ≠ 2) :
    let asked := { s with power := { s.power with retainReq := 1 } }
    (v = 1 → s.power.state ≠ .retain → exec (.pwrSetState r) s = later asked)
    ∧ (v = 1 → s.power.state = .retain → exec (.pwrSetState r) s = asked.grants r false [])
    ∧ (v ≠ 1 → s.power.state = .retain → exec (.pwrSetState r) s = s.leaveRetain.grants r (1 < v) [])
    ∧ (v ≠ 1 → s.power.state ≠ .retain →
      exec (.pwrSetState r) s = { s with power := { s.power with retainReq := 0 } }.grants r (1 < v) []) := by
  intro asked
  have hc : (decide (s.power.state = .retain) && decide (s.power.retainReq = 2)) = false :=
    Bool.and_eq_false_iff.2 (hx.imp decide_eq_false decide_eq_false)
  refine ⟨fun hv hs => ?_, fun hv hs => ?_, fun hv hs => ?_, fun hv hs => ?_⟩
  · show execPwrSetState r s = _
    exact h.waits ((refuseIf_pass hc _).trans ((if_pos hv).trans (congrArg Except.ok (if_neg hs))))
  · show execPwrSetState r s = _
    exact h.granted ((refuseIf_pass hc _).trans ((if_pos hv).trans (congrArg Except.ok (if_pos hs))))
  · show execPwrSetState r s = _
    exact h.granted ((refuseIf_pass hc _).trans ((if_neg hv).trans (congrArg (fun u => Except.ok (Ans.ok u (1 < v))) (if_pos hs))))
  · show execPwrSetState r s = _
    exact h.granted ((refuseIf_pass hc _).trans ((if_neg hv).trans (congrArg (fun u => Except.ok (Ans.ok u (1 < v))) (if_neg hs))))

/-! ## Counted and injected errors (Tables 18-7, 18-8) -/

theorem errCounts_shows {g page : Nat} (h : Asked s r 0x0E03 [1, 1] [g, page]) :
    exec (.errCounts r) s = s.grantsPage r (((groupEvents (min (max g 1) 8)).map (fun c => bytesOf 4 (s.errs.get 0 c))).flatten) page
      (g < 1 || 8 < g) := by
  show execErrCounts r s = _
  exact serve_ok h.toAskedBy (pfOnly_pf h.pf) rfl

section
variable {kind unit row tile : Nat}

/-- The work of an ERR_INJECT whose checks pass. -/
def injectAt (s : State) (kind unit at_ : Nat) : State :=
  match kind with
  | 0 => { s with latent := s.latent.put 0 at_ 1 }
  | 1 => { s with latent := s.latent.put 0 at_ 2 }
  | 2 => { s with mxus := s.mxus.upd Mxu.init unit (fun m => { m with inject := 1 }) }
  | 3 => { s with mxus := s.mxus.upd Mxu.init unit (fun m => { m with inject := 2 }) }
  | 4 => s.setLeaf unit { s.leaf unit with inject := true }
  | _ => s.setPort unit { s.port unit with inject := true }

/-- The addresses that an ERR_INJECT may name. -/
def InjectFits (kind unit row tile : Nat) : Prop :=
  kind ≤ 5 ∧ unit < [256, 256, 640, 640, 4, 12].getD kind 0 ∧ (kind ≤ 1 → row ≤ 1048575 ∧ tile ≤ 63)

/-- The checks of an ERR_INJECT and its work. -/
def injectBody (s : State) (kind unit row tile : Nat) : Serve := do
  refuseIf (5 < kind) .badLength
  refuseIf ([256, 256, 640, 640, 4, 12].getD kind 0 ≤ unit) .badLength
  refuseIf (kind ≤ 1 && (1048575 < row || 63 < tile)) .badLength
  refuseIf s.anyConfidential .notInMode
  refuseIf (kind ≤ 1 && !((s.chan unit).state = .inService || (s.chan unit).state = .failing || (s.chan unit).state = .migrating)) .notInMode
  pure (Ans.ok (injectAt s kind unit ((unit * 2 ^ 20 + row) * 64 + tile)))

theorem errInject_denied (h : Asked s r 0x4E04 [1, 2, 4, 1] [kind, unit, row, tile]) (hk : kind ≤ 3) (hc : s.confidentialUnit kind unit = true) :
    exec (.errInject r) s = s.refuses r .denied := by
  show execErrInject r s = _
  refine h.denied (Bool.and_eq_false_iff.2 (.inr ?_))
  exact congrArg (!·) (Bool.and_eq_true_iff.2 ⟨decide_eq_true hk, hc⟩)

theorem errInject_serves (h : Asked s r 0x4E04 [1, 2, 4, 1] [kind, unit, row, tile]) (hn : ¬(kind ≤ 3 ∧ s.confidentialUnit kind unit = true)) :
    exec (.errInject r) s = serve r 0x4E04 [1, 2, 4, 1] (pfOnly r) (fun _ s => injectBody s kind unit row tile) s := by
  show execErrInject r s = _
  have hc : (decide (kind ≤ 3) && s.confidentialUnit kind unit) = false :=
    Bool.eq_false_iff.2 fun hx => hn ((Bool.and_eq_true_iff.1 hx).imp_left of_decide_eq_true)
  rw [execErrInject, serve_settles h.toAskedBy, serve_settles h.toAskedBy (pfOnly_pf h.pf)]
  · refine congrArg _ ?_
    rcases kind with _ | _ | _ | _ | _ | k <;> rfl
  · exact Bool.and_eq_true_iff.2 ⟨pfOnly_pf (fs := []) h.pf, congrArg (!·) hc⟩

theorem injectBody_badLength (hx : 5 < kind ∨ [256, 256, 640, 640, 4, 12].getD kind 0 ≤ unit ∨ (kind ≤ 1 ∧ (1048575 < row ∨ 63 < tile))) :
    injectBody s kind unit row tile = .error .badLength := by
  by_cases h1 : 5 < kind
  · exact refuseIf_stop (decide_eq_true h1) _
  · refine (refuseIf_pass (decide_eq_false h1) _).trans ?_
    by_cases h2 : [256, 256, 640, 640, 4, 12].getD kind 0 ≤ unit
    · exact refuseIf_stop (decide_eq_true h2) _
    · obtain ⟨hk, hr⟩ := (hx.resolve_left h1).resolve_left h2
      refine (refuseIf_pass (decide_eq_false h2) _).trans (refuseIf_stop ?_ _)
      exact Bool.and_eq_true_iff.2 ⟨decide_eq_true hk, Bool.or_eq_true_iff.2 (hr.imp decide_eq_true decide_eq_true)⟩

/-- What follows the checks of the addresses. -/
theorem injectBody_fits (h : InjectFits kind unit row tile) : injectBody s kind unit row tile = (do
    refuseIf s.anyConfidential .notInMode
    refuseIf (kind ≤ 1 && !((s.chan unit).state = .inService || (s.chan unit).state = .failing || (s.chan unit).state = .migrating)) .notInMode
    pure (Ans.ok (injectAt s kind unit ((unit * 2 ^ 20 + row) * 64 + tile)))) := by
  obtain ⟨hk, hu, ha⟩ := h
  refine (refuseIf_pass (decide_eq_false (Nat.not_lt.2 hk)) _).trans ((refuseIf_pass (decide_eq_false (Nat.not_le.2 hu)) _).trans
    (refuseIf_pass (Bool.and_eq_false_imp.2 fun h1 => ?_) _))
  obtain ⟨hr, ht⟩ := ha (of_decide_eq_true h1)
  exact Bool.or_eq_false_iff.2 ⟨decide_eq_false (Nat.not_lt.2 hr), decide_eq_false (Nat.not_lt.2 ht)⟩

theorem injectBody_confidential (h : InjectFits kind unit row tile) (hc : s.anyConfidential = true) :
    injectBody s kind unit row tile = .error .notInMode :=
  (injectBody_fits h).trans (refuseIf_stop hc _)

theorem injectBody_absent (h : InjectFits kind unit row tile) (hc : s.anyConfidential = false) (hk : kind ≤ 1)
    (h1 : (s.chan unit).state ≠ .inService) (h2 : (s.chan unit).state ≠ .failing) (h3 : (s.chan unit).state ≠ .migrating) :
    injectBody s kind unit row tile = .error .notInMode := by
  refine (injectBody_fits h).trans ((refuseIf_pass hc _).trans (refuseIf_stop ?_ _))
  simp [hk, h1, h2, h3]

theorem injectBody_injects (h : InjectFits kind unit row tile) (hc : s.anyConfidential = false)
    (hs : kind ≤ 1 → (s.chan unit).state = .inService ∨ (s.chan unit).state = .failing ∨ (s.chan unit).state = .migrating) :
    injectBody s kind unit row tile = .ok (Ans.ok (injectAt s kind unit ((unit * 2 ^ 20 + row) * 64 + tile))) := by
  refine (injectBody_fits h).trans ((refuseIf_pass hc _).trans (refuseIf_pass (Bool.and_eq_false_imp.2 fun hk => ?_) _))
  have hs := hs (of_decide_eq_true hk)
  rw [Bool.not_eq_false', Bool.or_eq_true, Bool.or_eq_true, decide_eq_true_eq, decide_eq_true_eq, decide_eq_true_eq, or_assoc]
  exact hs

theorem errInject_answers (h : Asked s r 0x4E04 [1, 2, 4, 1] [kind, unit, row, tile]) (hn : ¬(kind ≤ 3 ∧ s.confidentialUnit kind unit = true))
    (hf : InjectFits kind unit row tile) :
    let at_ := (unit * 2 ^ 20 + row) * 64 + tile
    let st := (s.chan unit).state
    (s.anyConfidential = true → exec (.errInject r) s = s.refuses r .notInMode)
    ∧ (s.anyConfidential = false → kind ≤ 1 → st ≠ .inService → st ≠ .failing → st ≠ .migrating →
      exec (.errInject r) s = s.refuses r .notInMode)
    ∧ (s.anyConfidential = false → kind ≤ 1 → st = .inService ∨ st = .failing ∨ st = .migrating →
      exec (.errInject r) s = { s with latent := s.latent.put 0 at_ (kind + 1) }.grants r false [])
    ∧ (s.anyConfidential = false → kind = 2 ∨ kind = 3 → exec (.errInject r) s
      = { s with mxus := s.mxus.upd Mxu.init unit (fun m => { m with inject := kind - 1 }) }.grants r false [])
    ∧ (s.anyConfidential = false → kind = 4 →
      exec (.errInject r) s = (s.setLeaf unit { s.leaf unit with inject := true }).grants r false [])
    ∧ (s.anyConfidential = false → kind = 5 →
      exec (.errInject r) s = (s.setPort unit { s.port unit with inject := true }).grants r false []) := by
  intro at_ st
  have he := errInject_serves h hn
  have hd : s.anyConfidential = false → (kind ≤ 1 → st = .inService ∨ st = .failing ∨ st = .migrating) →
      exec (.errInject r) s = (injectAt s kind unit at_).grants r false [] :=
    fun hc hs => he.trans (h.granted (injectBody_injects hf hc hs))
  have hbig : ∀ {k}, kind = k → 2 ≤ k → kind ≤ 1 → st = .inService ∨ st = .failing ∨ st = .migrating := fun hk h2 h1 => by omega
  refine ⟨fun hc => he.trans (h.refused (injectBody_confidential hf hc)),
    fun hc hk h1 h2 h3 => he.trans (h.refused (injectBody_absent hf hc hk h1 h2 h3)), fun hc hk hs => ?_, fun hc hk => ?_, fun hc hk => ?_,
    fun hc hk => ?_⟩
  · rw [hd hc fun _ => hs]
    obtain rfl | rfl : kind = 0 ∨ kind = 1 := by omega
    · rfl
    · rfl
  · rcases hk with hk | hk
    · rw [hd hc (hbig hk (by omega)), hk]; rfl
    · rw [hd hc (hbig hk (by omega)), hk]; rfl
  · rw [hd hc (hbig hk (by omega)), hk]; rfl
  · rw [hd hc (hbig hk (by omega)), hk]; rfl

end

/-! ## Status and the log (R527, R542) -/

theorem devStatus_shows {page : Nat} (h : AskedBy s r 0x0100 [1] [page]) (hp : s.permits r.fn true = true) :
    exec (.devStatus r) s = s.grantsPage r (s.mirrorImage r.fn) page false := by
  show execDevStatus r s = _
  exact serve_ok h hp rfl

theorem fwStatus_shows {page : Nat} (h : Asked s r 0x0101 [1] [page]) :
    exec (.fwStatus r) s = s.grantsPage r (encodeFields [(8, s.fw.version.toNat), (1, s.fw.svn), (8, s.flash.image.version.toNat),
      (1, s.flash.image.svn), (1, s.fuses.rollback), (1, if s.flash.writing.isSome then 1 else 0)]) page false := by
  show execFwStatus r s = _
  exact serve_ok h.toAskedBy (pfOnly_pf h.pf) rfl

theorem logRead_copies {seq count dest : Nat} (h : Asked s r 0x8102 [8, 4, 8] [seq, count, dest]) :
    let first := max seq ((s.flash.log.head?.map (·.seq)).getD s.flash.nextSeq)
    let recs := (s.flash.log.filter (fun l => first ≤ l.seq)).take count
    let d := dest / 64 * 64
    exec (.logRead r) s = (s.ioWrite 0 d ((recs.map LogRec.bytes).flatten)).grants r (first ≠ seq || recs.length ≠ count || d ≠ dest) [] := by
  intro first recs d
  show execLogRead r s = _
  exact h.granted rfl

/-! ## Firmware images and restarts (R532, R537, R541) -/

section
variable {load : Bool} {image : List Byte} {src length : Nat}

/-- FW_UPDATE or FW_LOAD. -/
def imageWrite (r : Req) (load : Bool) (image : List Byte) : Instr := if load then Instr.fwLoad r image else .fwUpdate r image

theorem fwLoad_refused (h : Asked s r 0x8104 [8, 8] [src, length]) (hm : s.boot.minimal = false) :
    exec (.fwLoad r image) s = s.refuses r .notInMode := by
  show execFwLoad r image s = _
  exact h.refused (refuseIf_stop (congrArg (!·) hm) _)

/-- Both write an image with the same checks. -/
theorem imageWrite_serves (h : Asked s r (if load then 0x8104 else 0x8103) [8, 8] [src, length]) (hl : load = false ∨ s.boot.minimal = true) :
    exec (imageWrite r load image) s = settle s r (fwWrite r load image [src, length] s) := by
  cases load with
  | false =>
    show execFwUpdate r image s = _
    exact serve_settles h.toAskedBy (pfOnly_pf h.pf)
  | true =>
    have hm := hl.resolve_left Bool.noConfusion
    show execFwLoad r image s = _
    exact (serve_settles h.toAskedBy (pfOnly_pf h.pf)).trans (congrArg _ (refuseIf_pass (congrArg (!·) hm) _))

theorem fwWrite_ours {w : Image} {b : Bool} {fs : List Nat} (hw : s.flash.writing = some (w, r.fn.val, r.slot.val, b)) :
    fwWrite r load image fs s = .ok { Ans.ok s with later := true } := by
  refine if_pos ?_
  simp [hw]

theorem fwWrite_others {w : Image} {f k : Nat} {b : Bool} {fs : List Nat} (hw : s.flash.writing = some (w, f, k, b))
    (hx : ¬(f = r.fn.val ∧ k = r.slot.val)) : fwWrite r load image fs s = .error .notInMode := by
  refine (if_neg ?_).trans (refuseIf_stop (by rw [hw]; rfl) _)
  simpa [hw] using hx

theorem fwWrite_checks (hw : s.flash.writing = none) :
    let from_ := src / 4096 * 4096
    let len := min length 4194304
    let img := Image.ofBytes (image.take len)
    let why := img.check s.fuses.rollback
    fwWrite r load image [src, length] s = if why ≠ 0 then .ok ⟨s, .denied, from_ ≠ src || len ≠ length, why, [], false⟩
      else .ok { Ans.ok { s with flash := { s.flash with writing := some (img, r.fn, r.slot, load) } } with later := true } := by
  intro from_ len img why
  exact (if_neg (by rw [hw]; exact Bool.false_ne_true)).trans (refuseIf_pass (by rw [hw]; rfl) _)

theorem imageWrite_answers (h : Asked s r (if load then 0x8104 else 0x8103) [8, 8] [src, length]) (hl : load = false ∨ s.boot.minimal = true) :
    let c := imageWrite r load image
    let from_ := src / 4096 * 4096
    let len := min length 4194304
    let img := Image.ofBytes (image.take len)
    let why := img.check s.fuses.rollback
    (∀ w b, s.flash.writing = some (w, r.fn.val, r.slot.val, b) → exec c s = later s)
    ∧ (∀ w f k b, s.flash.writing = some (w, f, k, b) → ¬(f = r.fn.val ∧ k = r.slot.val) → exec c s = s.refuses r .notInMode)
    ∧ (s.flash.writing = none →
      (why ≠ 0 → exec c s = .next (s.answer r.fn r.slot .denied (from_ ≠ src || len ≠ length) why []))
      ∧ (why = 0 →
        exec c s = later { s with flash := { s.flash with writing := some (img, r.fn.val, r.slot.val, load) } })) := by
  intro c from_ len img why
  have he : exec c s = _ := imageWrite_serves h hl
  refine ⟨fun w b hw => ?_, fun w f k b hw hx => ?_, fun hw => ⟨fun hy => ?_, fun hy => ?_⟩⟩
  · rw [he, fwWrite_ours hw]; rfl
  · rw [he, fwWrite_others hw hx]; rfl
  · rw [he, fwWrite_checks hw, if_pos hy]; rfl
  · rw [he, fwWrite_checks hw, if_neg (not_not.2 hy)]; rfl

end

/-- What a DEV_RESTART answers in a state: its start begins at once, or after the flash write in progress (R532). -/
def restartBody (target : Nat) (u : State) : Serve :=
  if u.flash.writing.isSome then pure { Ans.ok { u with boot := { u.boot with restart := some target } } with later := true }
  else pure { Ans.ok (u.restart (target = 1)) with later := true }

theorem restartBody_settles {target : Nat} {u : State} : settle s r (restartBody target u)
    = .next (if u.flash.writing.isSome then { u with boot := { u.boot with restart := some target } } else u.restart (target = 1)) := by
  unfold restartBody
  cases u.flash.writing with
  | none => rfl
  | some w => rfl

theorem devRestart_answers {v : Nat} (h : Asked s r 0x0105 [1] [v]) :
    let target := if v = 1 then 1 else 0
    let u := if s.boot.minimal = true ∧ v ≠ 1 then { s with boot := { s.boot with fails := 2 } } else s
    (s.flash.writing.isSome = true → exec (.devRestart r) s = later { u with boot := { u.boot with restart := some target } })
    ∧ (s.flash.writing = none → exec (.devRestart r) s = .next (u.restart (target = 1))) := by
  intro target u
  have hu : (if (s.boot.minimal && decide (target = 0)) = true then { s with boot := { s.boot with fails := 2 } } else s) = u := by
    refine if_congr ?_ rfl rfl
    rw [Bool.and_eq_true, decide_eq_true_eq]
    refine and_congr Iff.rfl ?_
    by_cases hv : v = 1
    · simp [target, hv]
    · simp [target, hv]
  have hw : u.flash = s.flash := by
    by_cases hx : s.boot.minimal = true ∧ v ≠ 1
    · simp only [u, if_pos hx]
    · simp only [u, if_neg hx]
  have he : exec (.devRestart r) s = .next (if u.flash.writing.isSome then { u with boot := { u.boot with restart := some target } }
      else u.restart (target = 1)) := by
    show execDevRestart r s = _
    rw [← restartBody_settles (s := s) (r := r), ← hu]
    exact serve_settles h.toAskedBy (pfOnly_pf h.pf)
  constructor
  · intro hx
    rw [he, if_pos (by rw [hw]; exact hx)]; rfl
  · intro hx
    rw [he, if_neg (by rw [hw, hx]; exact Bool.false_ne_true)]

end

/-- Settles O44. -/
theorem powerAndFirmwareAreCommanded : Obligations.PowerAndFirmwareAreCommanded := by
  intro s r
  refine ⟨fun cap volts current h => pwrSetCap_sets h, fun page h hp => pwrStatus_shows h hp,
    fun v h => ⟨pwrSetState_refused h, pwrSetState_answers h⟩, fun g page h => errCounts_shows h, fun kind unit row tile h => ?_,
    fun page h hp => devStatus_shows h hp, fun page h => fwStatus_shows h, fun seq count dest h => logRead_copies h,
    fun load image src length h => ?_, fun v h => devRestart_answers h⟩
  · intro at_ st secret
    exact ⟨fun hs => errInject_denied h hs.1 hs.2,
      fun hs hx => (errInject_serves h hs).trans (h.refused (injectBody_badLength hx)),
      fun hs h1 h2 h3 => errInject_answers h hs ⟨h1, h2, h3⟩⟩
  · intro c from_ len img why
    refine ⟨fun hl hm => ?_, fun hl => imageWrite_answers h hl⟩
    subst hl
    exact fwLoad_refused h hm

end Sys2Proof.Machine
end

section
/-! The hinge trains and carries (R290, R291, R342 to R365). -/

namespace Sys2Proof.Machine

section
variable {s : State}

/-! ## Capability words and bonded channels (R345, R346) -/

theorem capabilityWord_taken {die : Fin 10} {word : DWord} (hr : s.boot.running = true) (hs : s.boot.stage ≤ 6) :
    exec (.capabilityWord die word) s = .next { s with caps := { s.caps with words := s.caps.words.set die word } } := by
  show execCapabilityWord die word s = _
  exact if_neg (by simp [hr, Nat.not_lt.2 hs])

theorem capabilityWord_ignored {die : Fin 10} {word : DWord} (h : s.boot.running = false ∨ 6 < s.boot.stage) :
    exec (.capabilityWord die word) s = .next s := by
  show execCapabilityWord die word s = _
  refine if_pos ?_
  rcases h with h | h
  · simp [h]
  · simp [h]

theorem bondedWord_first {die : Fin 10} {chan : Fin 16} (h : s.hinge.resend.get false (die.val * 16 + chan.val) = false) :
    exec (.bondedWord die chan true) s = .next s
    ∧ exec (.bondedWord die chan false) s
      = .next { s with hinge := { s.hinge with resend := s.hinge.resend.put false (die.val * 16 + chan.val) true } } := by
  have hn : ¬s.hinge.resend.get false (die.val * 16 + chan.val) = true := by rw [h]; exact Bool.false_ne_true
  constructor
  · show execBondedWord die chan true s = _
    exact congrArg _ (if_neg hn)
  · show execBondedWord die chan false s = _
    exact if_neg hn

theorem bondedWord_again {die : Fin 10} {chan : Fin 16} (h : s.hinge.resend.get false (die.val * 16 + chan.val) = true) :
    let unit := if die.val < 8 then die.val else die.val - 8
    let u := { s with hinge := { s.hinge with resend := s.hinge.resend.put false (die.val * 16 + chan.val) false } }
    exec (.bondedWord die chan true) s = .next (u.event 0x400 unit)
    ∧ (die.val < 8 → exec (.bondedWord die chan false) s = .next ((u.event 0x401 die).fenceDie die 4))
    ∧ (8 ≤ die.val → exec (.bondedWord die chan false) s = .next ((u.event 0x402 unit).fatalError 5 none)) := by
  intro unit u
  refine ⟨?_, fun hd => ?_, fun hd => ?_⟩
  · show execBondedWord die chan true s = _
    exact congrArg _ (if_pos h)
  · show execBondedWord die chan false s = _
    refine (if_pos h).trans (congrArg _ ((if_pos hd).trans ?_))
    rw [if_pos hd]
  · show execBondedWord die chan false s = _
    exact (if_pos h).trans (congrArg _ (if_neg (Nat.not_lt.2 hd)))

/-! ## The handshake of a leaf (R352 to R357) -/

/-- A leaf changed by a function of its record. -/
theorem stepLeaf_eq (k : Nat) (f : Leaf → Leaf) : s.stepLeaf k f = (s.setLeaf k (f (s.leaf k))).settleLeaf k (s.leaf k).state := rfl

theorem widthOffer_answers {k : Fin 4} {end1 : Bool} {mask : BitVec 4} :
    let l := s.leaf k
    (l.state = .train → exec (.widthOffer k end1 mask) s = .next ((s.setLeaf k
      (if end1 then { l with end1 := { l.end1 with offer := some mask, mask := mask } }
      else { l with end0 := { l.end0 with offer := some mask, mask := mask } }).offered).settleLeaf k .train))
    ∧ (l.state ≠ .train → exec (.widthOffer k end1 mask) s = .next s) := by
  intro l
  constructor
  · intro hl
    show execWidthOffer k end1 mask s = _
    refine (if_neg (not_not.2 hl)).trans (congrArg _ ?_)
    rw [stepLeaf_eq, hl]
    cases end1 with
    | true => rfl
    | false => rfl
  · intro hl
    show execWidthOffer k end1 mask s = _
    exact if_pos hl

theorem offered_waits {l : Leaf} (h : l.end0.offer = none ∨ l.end1.offer = none) : l.offered = l := by
  unfold Leaf.offered
  cases h0 : l.end0.offer with
  | none => rfl
  | some a =>
    cases h1 : l.end1.offer with
    | none => rfl
    | some b => simp [h0, h1] at h

theorem offered_both {l : Leaf} {a b : BitVec 4} (ha : l.end0.offer = some a) (hb : l.end1.offer = some b) :
    let w := min (popCount 4 a.toNat) (popCount 4 b.toNat)
    let both := popCount 4 (a &&& b).toNat
    (a &&& b = 0 → l.offered = { l.scratch with state := .failed })
    ∧ (a &&& b ≠ 0 → both < w → l.offered = { l with state := .confirm }.failHandshake)
    ∧ (a &&& b ≠ 0 → w ≤ both → l.offered = { l with state := .confirm, width := w, groups := lowGroups (a &&& b) w }) := by
  intro w both
  unfold Leaf.offered
  simp only [ha, hb]
  exact ⟨fun h0 => if_pos h0, fun h0 hw => (if_neg h0).trans (if_pos hw), fun h0 hw => (if_neg h0).trans (if_neg (Nat.not_lt.2 hw))⟩

theorem widthConfirm_answers {k : Fin 4} {end1 : Bool} {width : Nat} {groups : BitVec 4} :
    let l := s.leaf k
    (l.state = .confirm → exec (.widthConfirm k end1 width groups) s = .next ((s.setLeaf k
      (if end1 then { l with end1 := { l.end1 with confirm := some (width, groups) } }
      else { l with end0 := { l.end0 with confirm := some (width, groups) } }).confirmed).settleLeaf k .confirm))
    ∧ (l.state ≠ .confirm → exec (.widthConfirm k end1 width groups) s = .next s) := by
  intro l
  constructor
  · intro hl
    show execWidthConfirm k end1 width groups s = _
    refine (if_neg (not_not.2 hl)).trans (congrArg _ ?_)
    rw [stepLeaf_eq, hl]
    cases end1 with
    | true => rfl
    | false => rfl
  · intro hl
    show execWidthConfirm k end1 width groups s = _
    exact if_pos hl

theorem confirmed_stays {l : Leaf} (h : l.end0.confirm = none ∨ l.end1.confirm = none ∨ l.end0.confirm = l.end1.confirm) :
    l.confirmed = l := by
  unfold Leaf.confirmed
  cases h0 : l.end0.confirm with
  | none => rfl
  | some a =>
    cases h1 : l.end1.confirm with
    | none => rfl
    | some b =>
      refine if_pos ?_
      simpa [h0, h1] using h

theorem confirmed_differs {l : Leaf} {a b : Nat × BitVec 4} (ha : l.end0.confirm = some a) (hb : l.end1.confirm = some b) (hn : a ≠ b) :
    l.confirmed = l.failHandshake := by
  unfold Leaf.confirmed
  simp only [ha, hb, if_neg hn]

theorem failHandshake_cases (l : Leaf) :
    let n := l.fails + 1
    (l.forced = true → l.failHandshake = { l.scratch with state := .failed, forced := false })
    ∧ (l.forced = false → n < 3 → l.failHandshake = { l.scratch with state := .train, fails := n })
    ∧ (l.forced = false → 3 ≤ n → l.common = 0 → l.failHandshake = { l.scratch with state := .failed, fails := n })
    ∧ (l.forced = false → 3 ≤ n → l.common ≠ 0 → l.failHandshake
      = { l.scratch with state := .confirm, fails := n, forced := true, width := 1, groups := lowGroups l.common 1 }) := by
  intro n
  have hn : l.forced = false → ¬l.forced = true := fun h => by rw [h]; exact Bool.false_ne_true
  exact ⟨fun h => if_pos h, fun h hl => (if_neg (hn h)).trans (if_pos hl),
    fun h hl hc => (if_neg (hn h)).trans ((if_neg (Nat.not_lt.2 hl)).trans (if_pos hc)),
    fun h hl hc => (if_neg (hn h)).trans ((if_neg (Nat.not_lt.2 hl)).trans (if_neg hc))⟩

theorem leafTestDone_ends {k : Fin 4} {w : Nat} {g : BitVec 4} (hl : (s.leaf k).state = .confirm) (h0 : (s.leaf k).end0.confirm = some (w, g))
    (h1 : (s.leaf k).end1.confirm = some (w, g)) :
    let l := s.leaf k
    exec (.leafTestDone k true) s = .next ((s.setLeaf k { l with
      state := if l.forced then .degraded else .active
      width := w, groups := g, forced := false, fresh := false
      up := { l.up with nak := false }, down := { l.down with nak := false }
      end0 := { l.end0 with resetSeen := false, gotReset := false }
      end1 := { l.end1 with resetSeen := false, gotReset := false } }).settleLeaf k .confirm)
    ∧ exec (.leafTestDone k false) s = .next ((s.setLeaf k l.failHandshake).settleLeaf k .confirm) := by
  intro l
  have hc : ¬(decide (l.state ≠ .confirm) || decide ((w, g) ≠ (w, g))) = true := by
    simp only [ne_eq, not_true_eq_false, decide_false, Bool.or_false, decide_eq_true_eq, not_not]
    exact hl
  constructor
  · show execLeafTestDone k true s = _
    unfold execLeafTestDone
    simp only [h0, h1]
    refine (if_neg hc).trans (congrArg _ ?_)
    rw [stepLeaf_eq, hl]
    rfl
  · show execLeafTestDone k false s = _
    unfold execLeafTestDone
    simp only [h0, h1]
    refine (if_neg hc).trans (congrArg _ ?_)
    rw [stepLeaf_eq, hl]
    rfl

theorem trains_iff {l : Leaf} : l.trains = true ↔ l.state = .train ∨ l.state = .confirm := by
  rw [Leaf.trains, Bool.or_eq_true, decide_eq_true_eq, decide_eq_true_eq]

theorem runs_iff {l : Leaf} : l.runs = true ↔ l.state = .active ∨ l.state = .degraded := by
  rw [Leaf.runs, Bool.or_eq_true, decide_eq_true_eq, decide_eq_true_eq]

theorem sidebandSilence_answers {k : Fin 4} :
    let l := s.leaf k
    (l.state = .train ∨ l.state = .confirm →
      exec (.sidebandSilence k) s = .next ((s.setLeaf k l.failHandshake).settleLeaf k l.state))
    ∧ (l.state ≠ .train → l.state ≠ .confirm → exec (.sidebandSilence k) s = .next s) := by
  intro l
  constructor
  · intro h
    show execSidebandSilence k s = _
    exact if_pos (trains_iff.2 h)
  · intro h1 h2
    show execSidebandSilence k s = _
    exact if_neg fun h => (trains_iff.1 h).elim h1 h2

/-! ## Resets of a leaf (R355, R358) -/

/-- Whether a RESET_SEEN is late: the leaf was training before that reset (R354). -/
theorem resetLate_iff {l : Leaf} {b : Bool} : (!b && l.trains && !l.fresh) = true
    ↔ b = false ∧ (l.state = .train ∨ l.state = .confirm) ∧ l.fresh = false := by
  rw [Bool.and_eq_true, Bool.and_eq_true, Bool.not_eq_true', Bool.not_eq_true', trains_iff, and_assoc]

theorem resetSeen_atEnd1 {k : Fin 4} (h0 : (s.leaf k).end0.resetSeen = true) (h1 : (s.leaf k).end1.gotReset = false) :
    let l := s.leaf k
    let far := { l.end0 with resetSeen := false, gotReset := false }
    let near := { l.end1 with resetSeen := true, gotReset := true }
    let late := l.end1.resetSeen = false ∧ (l.state = .train ∨ l.state = .confirm) ∧ l.fresh = false
    let m := if l.end0.gotReset then
        { l with end0 := far, end1 := { near with resetSeen := false, gotReset := false }, fresh := false }
      else { l with end1 := near }
    (late → exec (.resetSeen k true) s = .next ((s.setLeaf k m.failHandshake).settleLeaf k l.state))
    ∧ (¬late → exec (.resetSeen k true) s = .next ((s.setLeaf k m).settleLeaf k l.state)) := by
  intro l far near late m
  have hx : exec (.resetSeen k true) s
      = .next ((s.setLeaf k (if (!l.end1.resetSeen && l.trains && !l.fresh) = true then m.failHandshake else m)).settleLeaf k l.state) := by
    show execResetSeen k true s = _
    refine (if_neg ?_).trans ?_
    · show ¬(!(s.leaf k).end0.resetSeen || (s.leaf k).end1.gotReset) = true
      rw [h0, h1]; exact Bool.false_ne_true
    · have hm : (if (l.end0.gotReset && true) = true then
          { l with end0 := far, end1 := { near with resetSeen := false, gotReset := false }, fresh := false }
        else { l with end1 := near }) = m := by rw [Bool.and_true]
      exact congrArg (fun m' : Leaf => Host.Outcome.next ((s.setLeaf k (if (!l.end1.resetSeen && l.trains && !l.fresh) = true
        then m'.failHandshake else m')).settleLeaf k l.state)) hm
  exact ⟨fun hl => hx.trans (by rw [if_pos (resetLate_iff.2 hl)]), fun hl => hx.trans (by rw [if_neg fun h => hl (resetLate_iff.1 h)])⟩

theorem resetSeen_atEnd0 {k : Fin 4} (h1 : (s.leaf k).end1.resetSeen = true) (h0 : (s.leaf k).end0.gotReset = false) :
    let l := s.leaf k
    let far := { l.end1 with resetSeen := false, gotReset := false }
    let near := { l.end0 with resetSeen := true, gotReset := true }
    let late := l.end0.resetSeen = false ∧ (l.state = .train ∨ l.state = .confirm) ∧ l.fresh = false
    let m := if l.end1.gotReset then
        { l with end1 := far, end0 := { near with resetSeen := false, gotReset := false }, fresh := false }
      else { l with end0 := near }
    (late → exec (.resetSeen k false) s = .next ((s.setLeaf k m.failHandshake).settleLeaf k l.state))
    ∧ (¬late → exec (.resetSeen k false) s = .next ((s.setLeaf k m).settleLeaf k l.state)) := by
  intro l far near late m
  have hx : exec (.resetSeen k false) s
      = .next ((s.setLeaf k (if (!l.end0.resetSeen && l.trains && !l.fresh) = true then m.failHandshake else m)).settleLeaf k l.state) := by
    show execResetSeen k false s = _
    refine (if_neg ?_).trans ?_
    · show ¬(!(s.leaf k).end1.resetSeen || (s.leaf k).end0.gotReset) = true
      rw [h0, h1]; exact Bool.false_ne_true
    · have hm : (if (true && l.end1.gotReset) = true then
          { l with end1 := far, end0 := { near with resetSeen := false, gotReset := false }, fresh := false }
        else { l with end0 := near }) = m := by rw [Bool.true_and]
      exact congrArg (fun m' : Leaf => Host.Outcome.next ((s.setLeaf k (if (!l.end0.resetSeen && l.trains && !l.fresh) = true
        then m'.failHandshake else m')).settleLeaf k l.state)) hm
  exact ⟨fun hl => hx.trans (by rw [if_pos (resetLate_iff.2 hl)]), fun hl => hx.trans (by rw [if_neg fun h => hl (resetLate_iff.1 h)])⟩

theorem leaf_setLeaf_self (s : State) (k : Nat) (v : Leaf) : (s.setLeaf k v).leaf k = v := Tab.get_put_self Leaf.init s.leaves k v

theorem leaf_setLeaf_ne (s : State) {k j : Nat} (h : j ≠ k) (v : Leaf) : (s.setLeaf k v).leaf j = s.leaf j :=
  Tab.get_put_ne Leaf.init s.leaves h v

/-- Leaves changed once each: each listed leaf becomes what the change makes of it, and nothing else of the state changes. -/
theorem foldl_setLeaf (f : Leaf → Leaf) (l : List Nat) (hl : l.Nodup) (s : State) :
    let t := l.foldl (fun s k => s.setLeaf k (f (s.leaf k))) s
    { t with leaves := s.leaves } = s ∧ ∀ k, t.leaf k = if k ∈ l then f (s.leaf k) else s.leaf k := by
  induction l generalizing s with
  | nil => exact ⟨rfl, fun k => by simp⟩
  | cons j l ih =>
    obtain ⟨hj, hn⟩ := List.nodup_cons.1 hl
    obtain ⟨h1, h2⟩ := ih hn (s.setLeaf j (f (s.leaf j)))
    refine ⟨?_, fun k => ?_⟩
    · exact congrArg (fun u : State => { u with leaves := s.leaves }) h1
    · rw [List.foldl_cons, h2]
      by_cases hk : k = j
      · subst hk
        rw [if_neg hj, leaf_setLeaf_self, if_pos List.mem_cons_self]
      · simp only [leaf_setLeaf_ne s hk, List.mem_cons, hk, false_or]

theorem halfReset_resets (half1 : Bool) : ∃ t, exec (.halfReset half1) s = .next t ∧ { t with leaves := s.leaves } = s
    ∧ ∀ k, t.leaf k = if k < 4 then (s.leaf k).reset half1 else s.leaf k := by
  obtain ⟨h1, h2⟩ := foldl_setLeaf (fun l => l.reset half1) (List.range 4) List.nodup_range s
  exact ⟨_, rfl, h1, fun k => by rw [h2 k]; exact if_congr List.mem_range rfl rfl⟩

theorem leafReplayStorm_retrains {k : Fin 4} (hl : (s.leaf k).state = .active) (hr : (s.leaf k).retrained = false) (hf : s.fw.running = true)
    (hh : s.fw.hung = false) :
    exec (.leafReplayStorm k) s = .next ((s.event 0x404 k).setLeaf k { (s.leaf k).reset false with retrained := true }) := by
  show execLeafReplayStorm k s = _
  exact if_neg (by simp [hl, hr, hf, hh])

/-! ## Flits (R342, R343) -/

section
variable {k : Fin 4} {up : Bool} {seq ack : BitVec 12} {rest : BitVec 2024}

/-- A leaf carries flits: it runs, the device is not halted and none of the leaf's PLLs is suspended. -/
structure CarriesFlits (s : State) (k : Nat) : Prop where
  runs : (s.leaf k).runs = true
  clocked : s.halted = false
  half0 : s.suspended (23 + 2 * k) = false
  half1 : s.suspended (24 + 2 * k) = false

theorem CarriesFlits.guard (h : CarriesFlits s k) : ¬(!(s.leaf k).runs || s.halted || s.suspended (23 + 2 * k.val) || s.suspended (24 + 2 * k.val)) = true := by
  rw [h.runs, h.clocked, h.half0, h.half1]; exact Bool.false_ne_true

theorem bridgeFlit_idle
    (h : (s.leaf k).runs = false ∨ s.halted = true ∨ s.suspended (23 + 2 * k.val) = true ∨ s.suspended (24 + 2 * k.val) = true) :
    exec (.bridgeFlit k up seq ack rest) s = .next s := by
  show execBridgeFlit k up seq ack rest s = _
  refine if_pos ?_
  rcases h with h | h | h | h
  · simp [h]
  · simp [h]
  · simp [h]
  · simp [h]

/-- A sound flit is taken with its SEQ. -/
theorem bridgeFlit_sound (h : CarriesFlits s k) (hc : field (wholeFlit seq ack rest) 1984 64 = flitCrc (wholeFlit seq ack rest))
    (hi : (s.leaf k).inject = false) :
    let l := s.leaf k
    let flit := wholeFlit seq ack rest
    (∀ d, flitKind flit = 0 → (l.dir up).send 256 (field flit 0 12) = some d →
      exec (.bridgeFlit k up seq ack rest) s = .next (s.setLeaf k ((l.setDir up (d.receive (field flit 0 12) true)).takeHeader up flit)))
    ∧ (flitKind flit = 0 → (l.dir up).send 256 (field flit 0 12) = none → exec (.bridgeFlit k up seq ack rest) s = .next s)
    ∧ (flitKind flit ≠ 0 → exec (.bridgeFlit k up seq ack rest) s = .next (s.setLeaf k ((l.setDir up (l.dir up)).takeHeader up flit))) := by
  intro l flit
  have hg : (flitOk flit && !l.inject) = true := Bool.and_eq_true_iff.2 ⟨decide_eq_true hc, congrArg (!·) hi⟩
  refine ⟨fun d hk hd => ?_, fun hk hd => ?_, fun hk => ?_⟩
  · show execBridgeFlit k up seq ack rest s = _
    refine (if_neg h.guard).trans ((if_pos hg).trans ?_)
    simp only [l, flit] at hk hd
    simp only [hk, if_true, flitSeq, hd, Option.map_some]
    rfl
  · show execBridgeFlit k up seq ack rest s = _
    refine (if_neg h.guard).trans ((if_pos hg).trans ?_)
    simp only [l, flit] at hk hd
    simp only [hk, if_true, flitSeq, hd, Option.map_none]
  · show execBridgeFlit k up seq ack rest s = _
    refine (if_neg h.guard).trans ((if_pos hg).trans ?_)
    simp only [flit] at hk
    simp only [hk, if_false]
    rfl

/-- A flit with a wrong CRC, or one made so, starts a replay. -/
theorem bridgeFlit_damaged (h : CarriesFlits s k)
    (hc : field (wholeFlit seq ack rest) 1984 64 ≠ flitCrc (wholeFlit seq ack rest) ∨ (s.leaf k).inject = true) :
    let l := s.leaf k
    exec (.bridgeFlit k up seq ack rest) s = .next ((s.setLeaf k
      (if up then { l with up := { l.up with nak := true }, inject := false }
      else { l with down := { l.down with nak := true }, inject := false })).event 0x403 k) := by
  intro l
  have hg : ¬(flitOk (wholeFlit seq ack rest) && !l.inject) = true := by
    rw [Bool.not_eq_true, Bool.and_eq_false_iff]
    exact hc.imp decide_eq_false (fun hi => congrArg (!·) hi)
  show execBridgeFlit k up seq ack rest s = _
  refine (if_neg h.guard).trans ((if_neg hg).trans ?_)
  cases up with
  | true => rfl
  | false => rfl

theorem bridgeNak_resends (hr : (s.leaf k).runs = true) (hh : s.halted = false) :
    let l := s.leaf k
    let d := (if up then l.up else l.down).acked seq.toNat
    let m := if up then { l with up := d } else { l with down := d }
    exec (.bridgeNak k up seq) s = .next (s.setLeaf k { m with replays := l.replays + d.unacked.length }) := by
  intro l d m
  show execBridgeNak k up seq s = _
  refine (if_neg (by rw [hr, hh]; exact Bool.false_ne_true)).trans ?_
  cases up with
  | true => rfl
  | false => rfl

theorem bridgeNak_ignored (h : (s.leaf k).runs = false ∨ s.halted = true) : exec (.bridgeNak k up seq) s = .next s := by
  show execBridgeNak k up seq s = _
  refine if_pos ?_
  rcases h with h | h
  · simp [h]
  · simp [h]

end

/-- What a flit's header changes (R343). -/
theorem takeHeader_fields (l : Leaf) (up : Bool) (flit : BitVec 2048) :
    let m := l.takeHeader up flit
    (up = true → m.down = l.down.acked (field flit 12 12) ∧ m.up = l.up ∧ m.usedDown = lessUsed l.usedDown (bridgeCredits flit)
      ∧ m.usedUp = l.usedUp)
    ∧ (up = false → m.up = l.up.acked (field flit 12 12) ∧ m.down = l.down ∧ m.usedUp = lessUsed l.usedUp (bridgeCredits flit)
      ∧ m.usedDown = l.usedDown)
    ∧ (field flit 24 2 ≠ 2 → m.replays = l.replays)
    ∧ (field flit 24 2 = 2 → m.replays = l.replays + ((if up then l.down else l.up).acked (field flit 12 12)).unacked.length) := by
  intro m
  by_cases hk : field flit 24 2 = 2
  · have hm : m = _ := if_pos hk
    cases up with
    | true => rw [hm]; exact ⟨fun _ => ⟨rfl, rfl, rfl, rfl⟩, Bool.noConfusion, fun h => absurd hk h, fun _ => rfl⟩
    | false => rw [hm]; exact ⟨Bool.noConfusion, fun _ => ⟨rfl, rfl, rfl, rfl⟩, fun h => absurd hk h, fun _ => rfl⟩
  · have hm : m = _ := if_neg hk
    cases up with
    | true => rw [hm]; exact ⟨fun _ => ⟨rfl, rfl, rfl, rfl⟩, Bool.noConfusion, fun _ => rfl, fun h => absurd h hk⟩
    | false => rw [hm]; exact ⟨Bool.noConfusion, fun _ => ⟨rfl, rfl, rfl, rfl⟩, fun _ => rfl, fun h => absurd h hk⟩

/-! ## Steering buckets (R290, R291) -/

theorem steerHeld_iff : s.reqs.any (fun _ q => match q.via.leaf with
    | some k => s.steerDue k
    | none => false) = true ↔ ∃ r ∈ s.reqs.rows, ∃ k, r.2.via.leaf = some k ∧ s.steerDue k = true := by
  refine List.any_eq_true.trans (exists_congr fun r => and_congr Iff.rfl ?_)
  cases e : r.2.via.leaf with
  | none => simp [e]
  | some j => simp [e]

theorem bucketResteer_waits (h : ∃ r ∈ s.reqs.rows, ∃ k, r.2.via.leaf = some k ∧ s.steerDue k = true) :
    exec .bucketResteer s = .next s := by
  show execBucketResteer s = _
  exact if_pos (steerHeld_iff.2 h)

theorem bucketResteer_steers (h : ∀ r ∈ s.reqs.rows, ∀ k, r.2.via.leaf = some k → s.steerDue k = false) :
    exec .bucketResteer s = .next { s with hinge := { s.hinge with
      buckets := (List.range 4).map (fun k => if (s.leaf k).runs then (s.leaf k).width else 0) } } := by
  show execBucketResteer s = _
  refine if_neg fun hx => ?_
  obtain ⟨r, hr, k, hk, hd⟩ := steerHeld_iff.1 hx
  exact Bool.false_ne_true ((h r hr k hk).symm.trans hd)

theorem leafOpen_iff {k : Nat} : s.leafOpen k = true ↔ ((s.leaf k).runs = true ∧ s.halted = false ∧ s.suspended (23 + 2 * k) = false
    ∧ s.suspended (24 + 2 * k) = false ∧ ∀ j, j < 4 → s.steerDue j = false) := by
  simp only [State.leafOpen, Bool.and_eq_true, Bool.not_eq_true', List.any_eq_false, List.mem_range, Bool.not_eq_true, and_assoc]

end

/-- Settles O45. -/
theorem hingeTrainsAndCarries : Obligations.HingeTrainsAndCarries := by
  intro s
  refine ⟨fun die word => ⟨capabilityWord_taken, capabilityWord_ignored⟩, ?_, fun k end1 mask => widthOffer_answers,
    fun l => ⟨offered_waits, fun a b => offered_both⟩, fun k end1 width groups => widthConfirm_answers,
    fun l => ⟨confirmed_stays, fun a b => confirmed_differs⟩, failHandshake_cases, ?_, fun k => sidebandSilence_answers, ?_, ?_,
    halfReset_resets, ?_, ?_, takeHeader_fields, ?_, bucketResteer_steers, bucketResteer_waits, fun k => leafOpen_iff⟩
  · intro die chan unit key mark
    exact ⟨bondedWord_first, bondedWord_again⟩
  · intro k w g l hl h0 h1
    exact leafTestDone_ends hl h0 h1
  · intro k l far near late h0 h1
    exact resetSeen_atEnd1 h0 h1
  · intro k l far near late h1 h0
    exact resetSeen_atEnd0 h1 h0
  · intro k l h1 h2 h3 h4
    exact leafReplayStorm_retrains h1 h2 h3 h4
  · intro k up seq ack rest l flit
    exact ⟨bridgeFlit_idle, fun h1 h2 h3 h4 => ⟨bridgeFlit_sound ⟨h1, h2, h3, h4⟩, bridgeFlit_damaged ⟨h1, h2, h3, h4⟩⟩⟩
  · intro k seq up l
    exact ⟨bridgeNak_resends, bridgeNak_ignored⟩

end Sys2Proof.Machine
end

section
/-! References and PLLs lost in service (R24, R26, R361, R362, Table 10-15). -/

namespace Sys2Proof.Machine

section
variable {s : State}

theorem boardRef_lost (h : s.clocks.boardRef = true) :
    let u := (List.range 31).foldl (fun t k => t.setPll (k + 1) .failed) { s with clocks := { s.clocks with boardRef := false } }
    exec (.referenceLost false) s = .next ((u.event 0x40B 0).fatalError 2 (some 7)) := by
  intro u
  show execReferenceLost false s = _
  have hc : ({ s.clocks with hostRef := s.clocks.hostRef && !false, boardRef := s.clocks.boardRef && false } : Clocks)
      = { s.clocks with boardRef := false } := by rw [Bool.not_false, Bool.and_true, Bool.and_false]
  refine (if_neg (by rw [if_neg Bool.false_ne_true, h]; exact Bool.false_ne_true)).trans ((if_pos rfl).trans ?_)
  rw [hc]

theorem hostRef_lost (h : s.clocks.hostRef = true) :
    let u := { s with clocks := { s.clocks with hostRef := false } }.setPll 0 .failed
    (s.boot.running = true → s.boot.ready = false → exec (.referenceLost true) s = .next (u.failStart 7))
    ∧ (s.boot.running = false ∨ s.boot.ready = true → exec (.referenceLost true) s = .next u.clockDown) := by
  intro u
  have hc : ({ s.clocks with hostRef := s.clocks.hostRef && !true, boardRef := s.clocks.boardRef && true } : Clocks)
      = { s.clocks with hostRef := false } := by rw [Bool.not_true, Bool.and_true, Bool.and_false]
  have hh : ¬(!(if true = true then s.clocks.hostRef else s.clocks.boardRef)) = true := by rw [if_pos rfl, h]; exact Bool.false_ne_true
  constructor
  · intro h1 h2
    show execReferenceLost true s = _
    refine (if_neg hh).trans ((if_neg Bool.false_ne_true).trans ((if_pos ?_).trans ?_))
    · show (s.boot.running && !s.boot.ready) = true
      rw [h1, h2]; rfl
    · rw [hc]
  · intro hb
    show execReferenceLost true s = _
    refine (if_neg hh).trans ((if_neg Bool.false_ne_true).trans ((if_neg ?_).trans ?_))
    · show ¬(s.boot.running && !s.boot.ready) = true
      rcases hb with hb | hb
      · rw [hb]; exact Bool.false_ne_true
      · rw [hb, Bool.not_true, Bool.and_false]; exact Bool.false_ne_true
    · rw [hc]

theorem boardRef_absent (h : s.clocks.boardRef = false) : exec (.referenceLost false) s = .next s := by
  show execReferenceLost false s = _
  exact if_pos (congrArg (!·) h)

theorem hostRef_absent (h : s.clocks.hostRef = false) : exec (.referenceLost true) s = .next s := by
  show execReferenceLost true s = _
  exact if_pos (congrArg (!·) h)

theorem forwardedPairLost_answers {pair : Fin 2} :
    (s.clocks.pairs.getLsbD pair = true → exec (.forwardedPairLost pair) s = .next ({ s with clocks := { s.clocks with
      pairs := s.clocks.pairs &&& ~~~(BitVec.ofNat 2 (1 <<< pair.val)) } }.event 0x409 pair))
    ∧ (s.clocks.pairs.getLsbD pair = false → exec (.forwardedPairLost pair) s = .next s) := by
  constructor
  · intro h
    show execForwardedPairLost pair s = _
    exact if_neg (by rw [h]; exact Bool.false_ne_true)
  · intro h
    show execForwardedPairLost pair s = _
    exact if_pos (congrArg (!·) h)

theorem pll_answers {site : Fin 32} :
    (s.clocks.plls.get .unlocked site = .locked → exec (.pllLockLost site) s = .next (s.setPll site .relocking))
    ∧ (s.clocks.plls.get .unlocked site ≠ .locked → exec (.pllLockLost site) s = .next s)
    ∧ (s.clocks.plls.get .unlocked site = .relocking →
      exec (.pllRelockEnd site true) s = .next (((s.setPll site .locked).event 0x40A (siteUnit site)).retrainSite site)
      ∧ exec (.pllRelockEnd site false) s = .next ((s.setPll site .failed).relockFailed site))
    ∧ (∀ ok, s.clocks.plls.get .unlocked site ≠ .relocking → exec (.pllRelockEnd site ok) s = .next s) := by
  refine ⟨fun h => ?_, fun h => ?_, fun h => ⟨?_, ?_⟩, fun ok h => ?_⟩
  · show execPllLockLost site s = _
    exact if_neg (not_not.2 h)
  · show execPllLockLost site s = _
    exact if_pos h
  · show execPllRelockEnd site true s = _
    exact (if_neg (not_not.2 h)).trans (if_pos rfl)
  · show execPllRelockEnd site false s = _
    exact (if_neg (not_not.2 h)).trans (if_neg Bool.false_ne_true)
  · show execPllRelockEnd site ok s = _
    exact if_pos h

/-- The unit of an LBX site is the first of its two ports (log 115). -/
theorem siteUnit_lbx {k : Nat} (hk : k ≤ 5) : siteUnit (1 + k) = 2 * k := by
  rw [siteUnit, if_neg (by omega), if_pos (by omega), Nat.add_sub_cancel_left]

theorem siteUnit_stack {site : Nat} (h7 : 7 ≤ site) (h22 : site ≤ 22) : siteUnit site = site - 7 := by
  rw [siteUnit, if_neg (by omega), if_neg (by omega), if_pos h22]

theorem siteUnit_leaf {k : Nat} (hk : k ≤ 7) : siteUnit (23 + k) = k / 2 := by
  rw [siteUnit, if_neg (by omega), if_neg (by omega), if_neg (by omega), if_pos (by omega), Nat.add_sub_cancel_left]

theorem relockFailed_lbx (t : State) {k : Nat} (hk : k ≤ 5) :
    t.relockFailed (1 + k) = [2 * k, 2 * k + 1].foldl (fun t p => t.setPort p { t.port p with state := .down }) (t.event 0x40E (2 * k)) := by
  rw [State.relockFailed, if_neg (by omega), if_pos (by omega), siteUnit_lbx hk, Nat.add_sub_cancel_left]

theorem retrainSite_lbx (t : State) {k : Nat} (hk : k ≤ 5) :
    t.retrainSite (1 + k) = [2 * k, 2 * k + 1].foldl (fun t p => if (t.port p).runs then t.setPort p (t.port p).train else t) t := by
  rw [State.retrainSite, if_pos (by simp; omega), Nat.add_sub_cancel_left]

theorem relockFailed_stack (t : State) {site : Nat} (h7 : 7 ≤ site) (h22 : site ≤ 22) :
    t.relockFailed site = (t.event 0x40D (site - 7)).fatalError 4 (some 7) := by
  rw [State.relockFailed, if_neg (by omega), if_neg (by omega), if_pos h22, siteUnit_stack h7 h22]

theorem retrainSite_leaf (t : State) {k : Nat} (hk : k ≤ 7) :
    t.retrainSite (23 + k) = t.stepLeaf (k / 2) (fun l => l.reset (k % 2 = 1)) := by
  rw [State.retrainSite, if_neg (by simp; omega), if_pos (by simp; omega), Nat.add_sub_cancel_left]

theorem relockFailed_leaf (t : State) {k : Nat} (hk : k ≤ 7) :
    t.relockFailed (23 + k) = (t.event 0x40E (k / 2)).stepLeaf (k / 2) (fun l => { l.scratch with state := .failed }) := by
  rw [State.relockFailed, if_neg (by omega), if_neg (by omega), if_neg (by omega), if_pos (by omega), siteUnit_leaf hk,
    Nat.add_sub_cancel_left]

end

/-- Settles O46. -/
theorem clocksAreLost : Obligations.ClocksAreLost := fun _ =>
  ⟨boardRef_lost, hostRef_lost, boardRef_absent, hostRef_absent, fun _ => forwardedPairLost_answers, fun _ => pll_answers,
    fun _ => ⟨rfl, rfl⟩, fun t _ hk => ⟨relockFailed_lbx t hk, retrainSite_lbx t hk⟩, fun t _ h7 h22 => relockFailed_stack t h7 h22,
    fun t _ hk => ⟨retrainSite_leaf t hk, relockFailed_leaf t hk⟩⟩

end Sys2Proof.Machine
end

section
/-! Power and heat are governed (R330, R363, R573 to R592, R616, R625). -/

namespace Sys2Proof.Machine

section
variable {s : State}

/-! ## The cap controller (R575 to R578) -/

/-- The settings in force after a 4 µs period: those written since the last, or the present ones (R577). -/
def Power.settled (w : Power) : Power := match w.nextCap with
  | some (c, v, i) => { w with cap := c, vmax := v, idleDelay := i, nextCap := none }
  | none => w

theorem capPeriod_steps : exec .capPeriod s = .next { s with power := { s.power.settled with
    capAllow := capStep s.power.settled.p s.power.settled.cap s.power.settled.capAllow
    pavg := (s.power.settled.p :: s.power.settled.pavg).take 250
    ticks := s.power.settled.ticks + 1 } } := by
  show execCapPeriod s = _
  rfl

theorem capStep_lowers {p cap a : Nat} (h : cap < p) : capStep p cap a = max 4 (a - 1) := if_pos h
theorem capStep_raises {p cap a : Nat} (h : p ≤ cap) (h1 : 100 * p < 95 * cap) (h2 : a < 16) : capStep p cap a = a + 1 :=
  (if_neg (Nat.not_lt.2 h)).trans (if_pos ⟨h1, h2⟩)
theorem capStep_stays {p cap a : Nat} (h : p ≤ cap) (h1 : 95 * cap ≤ 100 * p ∨ 16 ≤ a) : capStep p cap a = a :=
  (if_neg (Nat.not_lt.2 h)).trans (if_neg (by omega))

theorem capPeriod_answers : ∃ w, exec .capPeriod s = .next { s with power := w } ∧ w.nextCap = none ∧ w.ticks = s.power.ticks + 1
    ∧ w.pavg = (s.power.p :: s.power.pavg).take 250
    ∧ (s.power.nextCap = none → w.cap = s.power.cap ∧ w.vmax = s.power.vmax ∧ w.idleDelay = s.power.idleDelay)
    ∧ (∀ c v i, s.power.nextCap = some (c, v, i) → w.cap = c ∧ w.vmax = v ∧ w.idleDelay = i)
    ∧ (w.cap < s.power.p → w.capAllow = max 4 (s.power.capAllow - 1))
    ∧ (s.power.p ≤ w.cap → 100 * s.power.p < 95 * w.cap → s.power.capAllow < 16 → w.capAllow = s.power.capAllow + 1)
    ∧ (s.power.p ≤ w.cap → 95 * w.cap ≤ 100 * s.power.p ∨ 16 ≤ s.power.capAllow → w.capAllow = s.power.capAllow)
    ∧ { w with cap := s.power.cap, vmax := s.power.vmax, idleDelay := s.power.idleDelay, nextCap := s.power.nextCap
               capAllow := s.power.capAllow, pavg := s.power.pavg, ticks := s.power.ticks } = s.power := by
  refine ⟨_, capPeriod_steps, ?_⟩
  cases hn : s.power.nextCap with
  | none =>
    have hs : s.power.settled = s.power := by simp only [Power.settled, hn]
    rw [hs]
    refine ⟨hn, rfl, rfl, fun _ => ⟨rfl, rfl, rfl⟩, fun _ _ _ h => ?_, capStep_lowers, capStep_raises, capStep_stays, ?_⟩
    · cases h
    · rw [← hn]
  | some x =>
    obtain ⟨c, v, i⟩ := x
    have hs : s.power.settled = { s.power with cap := c, vmax := v, idleDelay := i, nextCap := none } := by simp only [Power.settled, hn]
    rw [hs]
    refine ⟨rfl, rfl, rfl, fun h => ?_, fun c' v' i' h => ?_, capStep_lowers, capStep_raises, capStep_stays, ?_⟩
    · cases h
    · cases h
      exact ⟨rfl, rfl, rfl⟩
    · rw [← hn]

theorem voltagePeriod_steps :
    let w := s.power
    let v := if w.capAllow < 16 ∨ w.vmax < w.vtarget then max 550 (w.vtarget - 5)
      else if 100 * w.avg < 95 * w.cap ∧ w.vtarget < w.vmax then w.vtarget + 5 else w.vtarget
    exec .voltagePeriod s = .next { s with power := { w with vtarget := v } } := by
  intro w v
  show execVoltagePeriod s = _
  have hv : v = if (w.capAllow < 16 || w.vmax < w.vtarget) = true then max 550 (w.vtarget - 5)
      else if 100 * w.avg < 95 * w.cap ∧ w.vtarget < w.vmax then w.vtarget + 5 else w.vtarget := by
    refine if_congr ?_ rfl rfl
    rw [Bool.or_eq_true, decide_eq_true_eq, decide_eq_true_eq]
  rw [hv]
  rfl

/-! ## Thermal levels (R330, R583) -/

/-- The level is the number of thresholds that count at a temperature. -/
theorem dieLevel_counts (was : Nat) (t : Int) : thermalLevel [95, 100, 105] was t
    = (if 95 ≤ t ∨ 0 < was ∧ 92 < t then 1 else 0) + (if 100 ≤ t ∨ 1 < was ∧ 97 < t then 1 else 0)
      + (if 105 ≤ t ∨ 2 < was ∧ 102 < t then 1 else 0) := by
  simp only [thermalLevel, List.zipIdx, ← List.countP_eq_length_filter, List.countP_cons, List.countP_nil, Bool.or_eq_true,
    Bool.and_eq_true, decide_eq_true_eq]
  norm_num
  omega

theorem stackLevel_counts (was : Nat) (t : Int) : thermalLevel [85, 90, 95, 100] was t
    = (if 85 ≤ t ∨ 0 < was ∧ 82 < t then 1 else 0) + (if 90 ≤ t ∨ 1 < was ∧ 87 < t then 1 else 0)
      + (if 95 ≤ t ∨ 2 < was ∧ 92 < t then 1 else 0) + (if 100 ≤ t ∨ 3 < was ∧ 97 < t then 1 else 0) := by
  simp only [thermalLevel, List.zipIdx, ← List.countP_eq_length_filter, List.countP_cons, List.countP_nil, Bool.or_eq_true,
    Bool.and_eq_true, decide_eq_true_eq]
  norm_num
  omega

theorem thermalLevel_bounds (was : Nat) (t : Int) :
    (t < 92 → thermalLevel [95, 100, 105] was t = 0) ∧ (105 ≤ t → thermalLevel [95, 100, 105] was t = 3)
    ∧ (92 < t → t < 95 → thermalLevel [95, 100, 105] was t = min was 1)
    ∧ (t < 82 → thermalLevel [85, 90, 95, 100] was t = 0) ∧ (100 ≤ t → thermalLevel [85, 90, 95, 100] was t = 4) := by
  rw [dieLevel_counts, stackLevel_counts]
  refine ⟨fun h => ?_, fun h => ?_, fun h h' => ?_, fun h => ?_, fun h => ?_⟩ <;> split_ifs <;> omega

/-! ## Droop (R363, R579) -/

section
variable {quad : Fin 40} {level : Fin 4}

/-- What a crossing that raises the stretch counts. -/
def Temps.crossed (t : Temps) (quad : Fin 40) (level : Fin 4) : Temps := { t with
  droop := t.droop.put 0 quad level
  droopCount := t.droopCount.put 0 (quad.val * 4 + level.val) (min (t.droopCount.get 0 (quad.val * 4 + level.val) + 1) 0xFFFFFFFF) }

/-- The entries into level 3 of a die within the last 1 ms, with this one. -/
def State.entered (s : State) (d : Nat) : List Nat :=
  s.power.ticks :: (s.temps.droopRecent.get [] d).filter (fun k => s.power.ticks < k + 250)

theorem droopCrossing_within (h : level.val ≤ s.temps.droop.get 0 quad) : exec (.droopCrossing quad level) s = .next s := by
  show execDroopCrossing quad level s = _
  exact if_pos h

theorem droopCrossing_counts (h : s.temps.droop.get 0 quad < level.val) (h3 : level.val < 3) :
    exec (.droopCrossing quad level) s = .next { s with temps := s.temps.crossed quad level } := by
  show execDroopCrossing quad level s = _
  exact (if_neg (Nat.not_le.2 h)).trans (if_pos h3)

theorem droopCrossing_enters (h : s.temps.droop.get 0 quad < level.val) (h3 : level.val = 3)
    (hr : (s.entered (quad.val / 5)).length ≤ 16) :
    exec (.droopCrossing quad level) s = .next { s with temps := { s.temps.crossed quad level with
      droopRecent := (s.temps.crossed quad level).droopRecent.put [] (quad.val / 5) (s.entered (quad.val / 5)) } } := by
  show execDroopCrossing quad level s = _
  exact (if_neg (Nat.not_le.2 h)).trans ((if_neg (by omega)).trans (if_pos hr))

theorem droopCrossing_limits (h : s.temps.droop.get 0 quad < level.val) (h3 : level.val = 3)
    (hr : 16 < (s.entered (quad.val / 5)).length) :
    exec (.droopCrossing quad level) s = .next (({ s with
      temps := { s.temps.crossed quad level with
        droopRecent := (s.temps.crossed quad level).droopRecent.put [] (quad.val / 5) (s.entered (quad.val / 5)) }
      power := { s.power with droopAllow := s.power.droopAllow.put 16 (quad.val / 5) 12 } } : State).event 0x701 (quad.val / 5)) := by
  show execDroopCrossing quad level s = _
  exact (if_neg (Nat.not_le.2 h)).trans ((if_neg (by omega)).trans (if_neg (Nat.not_le.2 hr)))

end

/-! ## Device-fatal errors and power states (R585 to R592) -/

theorem fatalError_latches {c : Nat} {why : Option Nat} (h : s.boot.running = false ∨ s.boot.ready = true) :
    s.fatalError c why = ({ s.dropHostLines with
      fw := { s.fw with fatal := true, cause := c }
      host := { s.host with aerUncorr := true } } : State).aliveLow := by
  refine if_neg ?_
  rcases h with h | h
  · rw [h]; exact Bool.false_ne_true
  · rw [h, Bool.not_true, Bool.and_false]; exact Bool.false_ne_true

theorem fatalError_starting {c : Nat} {why : Option Nat} (h : s.boot.running = true) (hr : s.boot.ready = false) :
    s.fatalError c why = s.failStart (why.getD 0x0B) := by
  refine if_pos ?_
  rw [h, hr]
  rfl

theorem idleEntry_idles (h : s.power.state = .active) (hq : s.quiet = true) :
    exec .idleEntry s = .next { s with power := { s.power with state := .idle } } := by
  show execIdleEntry s = _
  exact if_pos (Bool.and_eq_true_iff.2 ⟨decide_eq_true h, hq⟩)

theorem idleEntry_stays (h : s.power.state ≠ .active ∨ s.quiet = false) : exec .idleEntry s = .next s := by
  show execIdleEntry s = _
  refine if_neg fun e => ?_
  obtain ⟨ha, hq⟩ := Bool.and_eq_true_iff.1 e
  rcases h with h | h
  · exact h (of_decide_eq_true ha)
  · exact Bool.false_ne_true (h.symm.trans hq)

theorem retainEntry_retains (h : s.power.state = .active ∨ s.power.state = .idle) (hreq : s.power.retainReq ≠ 0)
    (hq : s.quiet = true) (hw : s.flash.writing = none) (hp : ∀ p ∈ s.parts.vals, p.rebind = none) :
    exec .retainEntry s = .next (({ s with
      power := { s.power with state := .retain, selfRefresh := true }
      cores := s.cores.mapVal (fun _ (c : Core) => { c with l1 := .empty })
      sec := { s.sec with trace := none } } : State).answerCode 0x4E02) := by
  show execRetainEntry s = _
  have hb : s.parts.any (fun _ p => p.rebind.isSome) = false := by
    refine List.any_eq_false.2 fun r hr => ?_
    show ¬ r.2.rebind.isSome = true
    rw [hp r.2 (List.mem_map_of_mem hr)]
    exact Bool.false_ne_true
  have ha : (decide (s.power.state = .active) || decide (s.power.state = .idle)) = true :=
    Bool.or_eq_true_iff.2 (h.imp decide_eq_true decide_eq_true)
  refine if_neg ?_
  rw [ha, hb, hq, hw, decide_eq_false hreq]
  exact Bool.false_ne_true

theorem selfRefreshReentry_retained (h : s.power.state = .retain) :
    exec .selfRefreshReentry s = .next { s with power := { s.power with selfRefresh := true } } := by
  show execSelfRefreshReentry s = _
  exact if_pos h

theorem pfD3hot_requests (h : s.power.state ≠ .off) (hm : s.power.state ≠ .minimal) :
    exec .pfD3hot s = .next { s with power := { s.power with
      d3hot := true, retainReq := if s.power.state = .retain ∧ s.power.retainReq = 1 then 1 else 2 } } := by
  have hr : (if s.power.state = .retain ∧ s.power.retainReq = 1 then 1 else 2)
      = if (decide (s.power.state = .retain) && decide (s.power.retainReq = 1)) = true then 1 else 2 := by
    refine if_congr ?_ rfl rfl
    rw [Bool.and_eq_true, decide_eq_true_eq, decide_eq_true_eq]
  rw [hr]
  show execPfD3hot s = _
  refine if_neg ?_
  rw [decide_eq_false h, decide_eq_false hm]
  exact Bool.false_ne_true

theorem pfD0_leaves (h : s.power.d3hot = true) (hr : s.power.state = .retain) :
    exec .pfD0 s = .next { s with power := { s.power with d3hot := false, state := .active, retainReq := 0, selfRefresh := false } } := by
  show execPfD0 s = _
  refine (if_neg ?_).trans (if_pos hr)
  rw [h]
  exact Bool.false_ne_true

theorem pfD0_cancels (h : s.power.d3hot = true) (hr : s.power.state ≠ .retain) :
    exec .pfD0 s = .next { s with power := { s.power with d3hot := false, retainReq := 0 } } := by
  show execPfD0 s = _
  refine (if_neg ?_).trans (if_neg hr)
  rw [h]
  exact Bool.false_ne_true

/-! ## Triggers of a channel (R325) -/

section
variable {ch : Fin 256} {k : Fin 5}

/-- Whether the channel's records meet a trigger. -/
def Chan.meets (c : Chan) : Nat → Bool
  | 2 => true
  | 3 => 3 ≤ c.ueAfter.length
  | 4 => 10000 < c.ceHour
  | _ => false

theorem channelTrigger_asks : exec (.channelTrigger ch k) s
    = if (!s.boot.ready || decide ((s.chan ch).state ≠ .inService) || !(s.chan ch).meets k.val) = true then .next s
      else .next (s.loseChan ch k) := by
  show execChannelTrigger ch k s = _
  obtain ⟨k, hk⟩ := k
  match k, hk with
  | 0, _ => rfl
  | 1, _ => rfl
  | 2, _ => rfl
  | 3, _ => rfl
  | 4, _ => rfl

theorem channelTrigger_met (hr : s.boot.ready = true) (hc : (s.chan ch).state = .inService) (hm : (s.chan ch).meets k.val = true) :
    exec (.channelTrigger ch k) s = .next (s.loseChan ch k) := by
  refine channelTrigger_asks.trans (if_neg ?_)
  rw [hr, hm, decide_eq_false (not_not.2 hc)]
  exact Bool.false_ne_true

theorem channelTrigger_unmet (hm : (s.chan ch).meets k.val = false) : exec (.channelTrigger ch k) s = .next s := by
  refine channelTrigger_asks.trans (if_pos ?_)
  rw [hm, Bool.not_false, Bool.or_true]

theorem meets_of {c : Chan} (h : k = 2 ∨ (k = 3 ∧ 3 ≤ c.ueAfter.length) ∨ (k = 4 ∧ 10000 < c.ceHour)) : c.meets k.val = true := by
  rcases h with rfl | ⟨rfl, h⟩ | ⟨rfl, h⟩
  · rfl
  · exact decide_eq_true h
  · exact decide_eq_true h

theorem not_meets_of {c : Chan} (h : k.val < 2 ∨ (k = 3 ∧ c.ueAfter.length < 3) ∨ (k = 4 ∧ c.ceHour ≤ 10000)) :
    c.meets k.val = false := by
  rcases h with h | ⟨rfl, h⟩ | ⟨rfl, h⟩
  · obtain h | h : k.val = 0 ∨ k.val = 1 := by omega
    · rw [h]; rfl
    · rw [h]; rfl
  · exact decide_eq_false (Nat.not_le.2 h)
  · exact decide_eq_false (Nat.not_lt.2 h)

end

end

/-- Settles O47: each period, reading and trigger by its own equation; the cap allowance and the thermal levels by their arithmetic. -/
theorem powerAndHeatAreGoverned : Obligations.PowerAndHeatAreGoverned := by
  intro s
  refine ⟨fun _ _ => rfl, capPeriod_answers, voltagePeriod_steps, fun _ _ => rfl, fun _ _ => rfl, thermalLevel_bounds, ?droop,
    fun _ => rfl, rfl, rfl, rfl, ?fatal, idleEntry_idles, idleEntry_stays, retainEntry_retains, selfRefreshReentry_retained,
    pfD3hot_requests, ?d0, ⟨_, rfl, rfl, rfl, rfl, rfl, rfl, rfl, rfl⟩, ?trigger⟩
  case droop =>
    intro quad level key t
    refine ⟨droopCrossing_within, droopCrossing_counts, fun h h3 => ?_, rfl⟩
    intro d recent u
    exact ⟨droopCrossing_enters h h3, droopCrossing_limits h h3⟩
  case fatal =>
    intro t c reason
    refine ⟨fun h => ?_, fun h hr => ⟨fatalError_starting h hr, fatalError_starting h hr⟩⟩
    intro u why
    exact fatalError_latches h
  case d0 =>
    intro h
    exact ⟨pfD0_leaves h, pfD0_cancels h⟩
  case trigger =>
    intro ch k c hr hc
    exact ⟨fun h => channelTrigger_met hr hc (meets_of h), fun h => channelTrigger_unmet (not_meets_of h)⟩

end Sys2Proof.Machine
end

section
/-! Peer-link ports train, carry flits and fail (R491 to R506, Tables 15-5a to 15-7). -/

namespace Sys2Proof.Machine

section
variable {s : State} {k : Fin 12}

/-! ## The identity check (Table 15-7) -/

section
variable {j d pk : Nat} {twin version : Bool}

theorem identityReason_version : s.identityReason j d pk twin false = 4 := if_pos rfl

theorem identityReason_mode (h : twin ≠ s.lbx.twin) : s.identityReason j d pk twin true = 3 :=
  (if_neg Bool.false_ne_true).trans (if_pos (bne_iff_ne.2 h))

/-- Past the version and the mode. -/
theorem identityReason_same (h : twin = s.lbx.twin) : s.identityReason j d pk twin true
    = if d = s.lbx.d then 1
      else if (s.lbx.twin && (if j < 6 then decide (d ≠ s.twinNum) || decide (pk ≠ j) else decide (d ≠ twinPeer s.lbx.d (j - 6)))) = true
        then 2 else 0 := by
  have hm : ¬(twin != s.lbx.twin) = true := by rw [h, bne_self_eq_false]; exact Bool.false_ne_true
  refine (if_neg Bool.false_ne_true).trans ((if_neg hm).trans ?_)
  by_cases hj : j < 6
  · simp only [hj, if_true, Bool.and_eq_true, Bool.or_eq_true, decide_eq_true_eq]
  · simp only [hj, if_false, Bool.and_eq_true, decide_eq_true_eq]

theorem identityReason_self (h : twin = s.lbx.twin) (hd : d = s.lbx.d) : s.identityReason j d pk twin true = 1 :=
  (identityReason_same h).trans (if_pos hd)

theorem identityReason_single (h : twin = s.lbx.twin) (ht : s.lbx.twin = false) (hd : d ≠ s.lbx.d) :
    s.identityReason j d pk twin true = 0 := by
  rw [identityReason_same h, if_neg hd, ht]
  rfl

theorem identityReason_trunk (h : twin = s.lbx.twin) (ht : s.lbx.twin = true) (hd : d ≠ s.lbx.d) (hj : j < 6) :
    s.identityReason j d pk twin true = if d = s.twinNum ∧ pk = j then 0 else 2 := by
  rw [identityReason_same h, if_neg hd, ht, if_pos hj, Bool.true_and]
  by_cases h1 : d = s.twinNum ∧ pk = j
  · rw [if_pos h1, if_neg (by simp [h1])]
  · rw [if_neg h1, if_pos (by simpa only [Bool.or_eq_true, decide_eq_true_eq, not_and_or] using h1)]

theorem identityReason_far (h : twin = s.lbx.twin) (ht : s.lbx.twin = true) (hd : d ≠ s.lbx.d) (hj : 6 ≤ j) :
    s.identityReason j d pk twin true = if d = twinPeer s.lbx.d (j - 6) then 0 else 2 := by
  rw [identityReason_same h, if_neg hd, ht, if_neg (Nat.not_lt.2 hj), Bool.true_and]
  by_cases h1 : d = twinPeer s.lbx.d (j - 6)
  · rw [if_pos h1, if_neg (by simp [h1])]
  · rw [if_neg h1, if_pos (decide_eq_true h1)]

end

/-! ## Training (R499, R500) -/

theorem lbxCtrlFlit_passes {d : Fin 8} {pk : Fin 12} {twin version : Bool} {last : BitVec 12} (ht : (s.port k).state = .training)
    (h : s.identityReason k d pk twin version = 0) : exec (.lbxCtrlFlit k d pk twin version last) s = .next (s.setPort k
      { s.port k with idOk := true, peer := some (d.val, pk.val), reason := 0, tx := (s.port k).tx.acked last.toNat }) := by
  show execLbxCtrlFlit k d pk twin version last s = _
  exact (if_neg (not_not.2 ht)).trans (if_neg (not_not.2 h))

theorem lbxCtrlFlit_fails {d : Fin 8} {pk : Fin 12} {twin version : Bool} {last : BitVec 12} (ht : (s.port k).state = .training)
    (h : s.identityReason k d pk twin version ≠ 0) : exec (.lbxCtrlFlit k d pk twin version last) s = .next ((s.setPort k
      { s.port k with state := .failed, reason := s.identityReason k d pk twin version }).event 0x503 k) := by
  show execLbxCtrlFlit k d pk twin version last s = _
  exact (if_neg (not_not.2 ht)).trans (if_pos h)

/-- A trunk port that is up ends SEVERED (Table 11-9). -/
def State.trunkPaired (s : State) (k : Nat) : State :=
  if s.pair.state = .severed ∧ k < 6 then { s with pair := { s.pair with state := .paired } } else s

/-- A port to a peer ends its loss, but for the twin's (R506). -/
def State.peerFound (s : State) (d : Nat) : State :=
  if s.lbx.twin = true ∧ d = s.twinNum then s else { s with lbx := { s.lbx with lost := s.lbx.lost.filter (fun x => x ≠ d) } }

theorem trunkPaired_lbx (j : Nat) : (s.trunkPaired j).lbx = s.lbx := by
  unfold State.trunkPaired
  split <;> rfl

theorem peerFound_trunkPaired (j d : Nat) : (s.trunkPaired j).peerFound d
    = if s.lbx.twin = true ∧ d = s.twinNum then s.trunkPaired j
      else { s.trunkPaired j with lbx := { (s.trunkPaired j).lbx with lost := (s.trunkPaired j).lbx.lost.filter (fun x => x ≠ d) } } := by
  refine if_congr ?_ rfl rfl
  rw [State.twinNum, trunkPaired_lbx]
  rfl

theorem lbxTrainingDone_runs {half : Bool} (ht : (s.port k).state = .training) (hi : (s.port k).idOk = true) :
    exec (.lbxTrainingDone k half) s
      = .next (((s.trunkPaired k).peerFound (((s.port k).peer.map (fun x => x.1)).getD 8)).setPort k
        { s.port k with state := if half then .half else .active, attempts := 0, rx := { (s.port k).rx with nak := false } }) := by
  have h0 : ¬(decide ((s.port k).state ≠ .training) || !(s.port k).idOk) = true := by
    rw [hi, decide_eq_false (not_not.2 ht)]; exact Bool.false_ne_true
  have h1 : (if (decide (s.pair.state = .severed) && decide (k.val < 6)) = true
      then { s with pair := { s.pair with state := .paired } } else s) = s.trunkPaired k := by
    refine if_congr ?_ rfl rfl
    rw [Bool.and_eq_true, decide_eq_true_eq, decide_eq_true_eq]
  have h2 : ∀ (t : State) (d : Nat), (if (t.lbx.twin && decide (d = t.twinNum)) = true then t
      else { t with lbx := { t.lbx with lost := t.lbx.lost.filter (fun x => x ≠ d) } }) = t.peerFound d := by
    refine fun t d => if_congr ?_ rfl rfl
    rw [Bool.and_eq_true, decide_eq_true_eq]
  rw [← h2, ← h1]
  show execLbxTrainingDone k half s = _
  exact if_neg h0

theorem lbxTrainingDone_stays {half : Bool} (h : (s.port k).state ≠ .training ∨ (s.port k).idOk = false) :
    exec (.lbxTrainingDone k half) s = .next s := by
  show execLbxTrainingDone k half s = _
  exact if_pos (Bool.or_eq_true_iff.2 (h.imp decide_eq_true (congrArg (!·))))

theorem lbxTrainingTimeout_counts (ht : (s.port k).state = .training) (h : (s.port k).attempts + 1 < 3) :
    exec (.lbxTrainingTimeout k) s
      = .next (s.setPort k { s.port k with attempts := (s.port k).attempts + 1, idOk := false }) := by
  show execLbxTrainingTimeout k s = _
  exact (if_neg (not_not.2 ht)).trans (if_pos h)

theorem lbxTrainingTimeout_fails (ht : (s.port k).state = .training) (h : 3 ≤ (s.port k).attempts + 1) :
    exec (.lbxTrainingTimeout k) s
      = .next (s.setPort k { s.port k with state := .failed, attempts := (s.port k).attempts + 1, idOk := false }) := by
  show execLbxTrainingTimeout k s = _
  exact (if_neg (not_not.2 ht)).trans (if_neg (Nat.not_lt.2 h))

/-! ## Running ports that are lost (R505) -/

theorem not_runs {p : LbxPort} (h : p.runs = false) : (!p.runs) = true := congrArg (!·) h
theorem runs_passes {p : LbxPort} (h : p.runs = true) : ¬(!p.runs) = true := by rw [h]; exact Bool.false_ne_true

theorem retrainPort_idle (h : (s.port k).runs = false) : s.retrainPort k = s := if_pos (not_runs h)

theorem retrainPort_alone (h : (s.port k).runs = true)
    (hg : (s.portGroup (((s.port k).peer.map (·.1)).getD 8)).length ≤ 1) :
    s.retrainPort k = (s.setPort k (s.port k).train).event 0x502 k :=
  (if_neg (runs_passes h)).trans (if_pos hg)

theorem retrainPort_grouped (h : (s.port k).runs = true)
    (hg : 1 < (s.portGroup (((s.port k).peer.map (·.1)).getD 8)).length) :
    s.retrainPort k = ((s.setPort k (s.port k).train).event 0x502 k).event 0x504 k :=
  (if_neg (runs_passes h)).trans (if_neg (Nat.not_le.2 hg))

theorem lostPort_retrains {c : Instr} (hc : c ∈ [Instr.lbxPortSilence k, .lbxReplayStorm k]) :
    exec c s = .next (s.retrainPort k) := by
  obtain rfl | rfl : c = .lbxPortSilence k ∨ c = .lbxReplayStorm k := by simpa using hc
  · rfl
  · rfl

/-! ## Flits (R491 to R494) -/

theorem eventAt_outbox (code unit data : Nat) : (s.eventAt code unit data).outbox = s.outbox := by
  simp only [State.eventAt]
  split_ifs <;> rfl

section
variable {seq ack : BitVec 12} {rest : BitVec 2024}

theorem lbxFlit_idle (h : (s.port k).runs = false) : exec (.lbxFlit k seq ack rest) s = .next s := by
  show execLbxFlit k seq ack rest s = _
  exact if_pos (not_runs h)

theorem lbxFlit_sound (h : (s.port k).runs = true)
    (hc : field (wholeFlit seq ack rest) 1984 64 = flitCrc (wholeFlit seq ack rest)) (hi : (s.port k).inject = false) :
    exec (.lbxFlit k seq ack rest) s = .next ((s.setPort k ({ s.port k with
      rx := if field (wholeFlit seq ack rest) 24 2 = 0 then (s.port k).rx.receive (field (wholeFlit seq ack rest) 0 12) true
        else (s.port k).rx }.takeHeader (wholeFlit seq ack rest))).portDrain k) := by
  show execLbxFlit k seq ack rest s = _
  exact (if_neg (runs_passes h)).trans (if_pos (Bool.and_eq_true_iff.2 ⟨decide_eq_true hc, congrArg (!·) hi⟩))

theorem lbxFlit_damaged (h : (s.port k).runs = true)
    (hc : field (wholeFlit seq ack rest) 1984 64 ≠ flitCrc (wholeFlit seq ack rest) ∨ (s.port k).inject = true) :
    exec (.lbxFlit k seq ack rest) s
      = .next { (s.setPort k { s.port k with rx := { (s.port k).rx with nak := true }, inject := false }).event 0x501 k with
          outbox := .lbx (((s.port k).peer.map (·.1)).getD 0) 2 [k.val, (s.port k).rx.accepted] [] :: s.outbox } := by
  show execLbxFlit k seq ack rest s = _
  refine (if_neg (runs_passes h)).trans ((if_neg fun e => ?_).trans ?_)
  · obtain ⟨hf, hn⟩ := Bool.and_eq_true_iff.1 e
    rcases hc with hc | hc
    · exact hc (of_decide_eq_true hf)
    · rw [hc] at hn; exact Bool.false_ne_true hn
  · rfl

theorem takeHeader_tells (q : LbxPort) (flit : BitVec 2048) :
    let m := q.takeHeader flit
    let tx := q.tx.acked (field flit 12 12)
    let vc := field flit 26 2
    m.tx = tx ∧ m.rx = q.rx ∧ m.wait = q.wait ∧ m.state = q.state
    ∧ m.replays = q.replays + (if field flit 24 2 = 2 then tx.unacked.length else 0)
    ∧ (∀ j, j ≠ vc → m.credits.getD j 0 = q.credits.getD j 0)
    ∧ (vc < q.credits.length → m.credits.getD vc 0 = min (q.credits.getD vc 0 + field flit 28 8) ([64, 16, 128, 128].getD vc 0)) := by
  intro m tx vc
  refine ⟨rfl, rfl, rfl, rfl, rfl, fun j hj => ?_, fun h => ?_⟩
  · show (q.credits.set vc _).getD j 0 = _
    rw [List.getD_eq_getElem?_getD, List.getElem?_set_ne (Ne.symm hj), List.getD_eq_getElem?_getD]
  · show (q.credits.set vc _).getD vc 0 = _
    rw [List.getD_eq_getElem?_getD, List.getElem?_set_self h]
    rfl

end

/-! ## Messages given to a port (R493, R494) -/

theorem portGive_sends {m : Msg} (h : (s.port k).canSend m.vc = true) (hw : ∀ w ∈ (s.port k).wait, w.vc ≠ m.vc) :
    s.portGive k m = s.portSend k m := by
  refine if_pos ?_
  have hf : (s.port k).wait.any (fun w => w.vc == m.vc) = false :=
    List.any_eq_false.2 fun w hm => by simpa only [beq_iff_eq] using hw w hm
  rw [h, hf]
  rfl

theorem portGive_waits {m : Msg} (h : (s.port k).canSend m.vc = false ∨ ∃ w ∈ (s.port k).wait, w.vc = m.vc) :
    s.portGive k m = s.setPort k { s.port k with wait := (s.port k).wait ++ [m] } := by
  refine if_neg fun e => ?_
  obtain ⟨hc, hw⟩ := Bool.and_eq_true_iff.1 e
  rcases h with h | ⟨w, hm, hv⟩
  · exact Bool.false_ne_true (h.symm.trans hc)
  · have ht : (s.port k).wait.any (fun w => w.vc == m.vc) = true := List.any_eq_true.2 ⟨w, hm, beq_iff_eq.2 hv⟩
    rw [ht] at hw
    exact Bool.false_ne_true hw

theorem lbxNak_ignored {seq : BitVec 12} (h : (s.port k).runs = false) : exec (.lbxNak k seq) s = .next s := by
  show execLbxNak k seq s = _
  exact if_pos (not_runs h)

theorem lbxNak_resends {seq : BitVec 12} (h : (s.port k).runs = true) : exec (.lbxNak k seq) s
    = .next ((s.setPort k { s.port k with
        tx := (s.port k).tx.acked seq.toNat
        replays := (s.port k).replays + ((s.port k).tx.acked seq.toNat).unacked.length }).portDrain k) := by
  show execLbxNak k seq s = _
  exact if_neg (runs_passes h)

theorem lbxIdleTimer_idles (h : (s.port k).runs = true) (ht : s.pins.twinOut = true) : exec (.lbxIdleTimer k) s
    = .next { s with outbox := .lbx (((s.port k).peer.map (·.1)).getD 0) 1 [k.val, (s.port k).rx.accepted] [] :: s.outbox } := by
  show execLbxIdleTimer k s = _
  refine if_neg ?_
  rw [h, ht]
  exact Bool.false_ne_true

end

theorem receive_next {d : FlitDir} {seq : Nat} (h : seq = (d.accepted + 1) % 4096) :
    d.receive seq true = { d with accepted := seq, nak := false } := (if_neg Bool.false_ne_true).trans (if_pos h)

theorem receive_other {d : FlitDir} {seq : Nat} (h : seq ≠ (d.accepted + 1) % 4096) : d.receive seq true = d :=
  (if_neg Bool.false_ne_true).trans (if_neg h)

/-- Settles O48: each event of a port by its own equation; the identity check is a chain of tests, of which each case fixes the first that fails. -/
theorem peerLinksTrainAndCarry : Obligations.PeerLinksTrainAndCarry := by
  intro s k p
  refine ⟨?ctrl, ?identity, ?done, fun _ => lbxTrainingDone_stays, fun ht => ⟨lbxTrainingTimeout_counts ht, lbxTrainingTimeout_fails ht⟩,
    ?lost, ?flit, takeHeader_tells, fun _ => portGive_sends, fun _ => portGive_waits, fun _ => ⟨lbxNak_ignored, lbxNak_resends⟩,
    fun corrected => rfl, rfl, rfl, lbxIdleTimer_idles, fun _ _ => ⟨rfl, receive_next, receive_other⟩⟩
  case ctrl =>
    intro d pk twin version last ht why
    exact ⟨lbxCtrlFlit_passes ht, lbxCtrlFlit_fails ht⟩
  case identity =>
    intro d pk twin version
    refine ⟨?_, ?_, ?_, ?_, ?_, ?_⟩
    · rintro rfl
      exact identityReason_version
    · rintro rfl
      exact identityReason_mode
    · rintro rfl
      exact identityReason_self
    · rintro rfl rfl h hd
      exact identityReason_single h.symm h hd
    · rintro rfl rfl h hd hk
      exact identityReason_trunk h.symm h hd hk
    · rintro rfl rfl h hd hk
      exact identityReason_far h.symm h hd hk
  case done =>
    intro half d pk ht hi hp u v
    refine (lbxTrainingDone_runs ht hi).trans ?_
    have hd : ((s.port k).peer.map (fun x => x.1)).getD 8 = d := by rw [hp]; rfl
    rw [hd, peerFound_trunkPaired]
    rfl
  case lost =>
    intro c hc
    rw [lostPort_retrains hc]
    refine ⟨fun h => congrArg _ (retrainPort_idle h), fun h => ?_⟩
    intro u group
    exact ⟨fun hg => congrArg _ (retrainPort_alone h hg), fun hg => congrArg _ (retrainPort_grouped h hg)⟩
  case flit =>
    intro seq ack rest flit
    refine ⟨lbxFlit_idle, fun h hc hi => ?_, fun h hc => ?_⟩
    · intro rx
      exact lbxFlit_sound h hc hi
    · intro u
      rw [show u.outbox = s.outbox from eventAt_outbox _ _ _]
      exact lbxFlit_damaged h hc

end Sys2Proof.Machine
end

section
/-! Debug and management answer (R562 to R569, R586, R626 to R628). -/

namespace Sys2Proof.Machine

section
variable {s : State}

/-! ## Debug sessions (R565 to R570) -/

theorem extest_minimal (h : s.boot.minimal = true) : exec .extest s = .next { s with mgmt := { s.mgmt with ir := .extest } } := by
  show execExtest s = _
  exact if_pos h

theorem extest_refused (h : s.boot.minimal = false) : exec .extest s = .next s := by
  show execExtest s = _
  exact if_neg (by rw [h]; exact Bool.false_ne_true)

section
variable {token : BitVec 128} {t : List Byte} {m : BitVec 16}

theorem unlock_asks (ht : s.sec.token = some (t, m)) (hs : s.sec.session = none) : exec (.unlock token) s
    = if token ≠ 0 ∧ t = bytesOf 16 token.toNat then .next { s with sec := { s.sec with token := none, session := some m } } else .next s := by
  show execUnlock token s = _
  simp only [execUnlock, ht, hs]

theorem unlock_opens (ht : s.sec.token = some (t, m)) (hs : s.sec.session = none) (h0 : token ≠ 0) (h : t = bytesOf 16 token.toNat) :
    exec (.unlock token) s = .next { s with sec := { s.sec with token := none, session := some m } } :=
  (unlock_asks ht hs).trans (if_pos ⟨h0, h⟩)

theorem unlock_refused (ht : s.sec.token = some (t, m)) (hs : s.sec.session = none) (h : token = 0 ∨ t ≠ bytesOf 16 token.toNat) :
    exec (.unlock token) s = .next s :=
  (unlock_asks ht hs).trans (if_neg fun e => h.elim e.1 (fun hn => hn e.2))

end

section
variable {core : Fin 160} {halt : Bool}

theorem debugHalt_halts (h : ∃ p, p < 16 ∧ s.debugs p = true ∧ s.coreIn p core = true) : exec (.debugHalt core halt) s
    = .next { s with cores := s.cores.upd Core.init core (fun c => { c with halted := halt }) } := by
  obtain ⟨p, hp, hd, hc⟩ := h
  show execDebugHalt core halt s = _
  exact if_pos (List.any_eq_true.2 ⟨p, List.mem_range.2 hp, Bool.and_eq_true_iff.2 ⟨hd, hc⟩⟩)

theorem debugHalt_refused (h : ∀ p, p < 16 → s.debugs p = false ∨ s.coreIn p core = false) : exec (.debugHalt core halt) s = .next s := by
  show execDebugHalt core halt s = _
  refine if_neg fun e => ?_
  obtain ⟨p, hp, hb⟩ := List.any_eq_true.1 e
  obtain ⟨hd, hc⟩ := Bool.and_eq_true_iff.1 hb
  rcases h p (List.mem_range.1 hp) with hf | hf
  · exact Bool.false_ne_true (hf.symm.trans hd)
  · exact Bool.false_ne_true (hf.symm.trans hc)

end

theorem debugs_iff (p : Nat) : s.debugs p = true ↔
    ∃ m : BitVec 16, s.sec.session = some m ∧ m.getLsbD p = true ∧ (s.part p).confidential = false ∧ s.power.state ≠ .retain := by
  cases hs : s.sec.session with
  | none => simp [State.debugs, hs]
  | some m => simp [State.debugs, hs, and_assoc]

/-- What an access to a reachable group does. -/
def State.reachState (s : State) (g : GroupRef) (b : Block) (grp : Group) : DbgTarget → Option Word → State
  | .vreg n l, none => s.reply 0 0 (bytesOf 4 (laneAt (grp.vreg n) l).toNat)
  | .vreg n l, some v => s.putGroup g (grp.putV n (BitVec.ofNat 32 (1 <<< l.val)) (fun _ => v))
  | .ureg n, none => s.reply 0 0 (bytesOf 4 (grp.ureg n).toNat)
  | .ureg n, some v => s.putGroup g (grp.putU n v)
  | .pred n, none => s.reply 0 0 (bytesOf 4 (grp.pred n).toNat)
  | .pred n, some v => s.putGroup g (grp.putPred n v)
  | .lmem a, none => s.reply 0 0 (b.readL a.toNat 4)
  | .lmem a, some v => if a.toNat + 4 ≤ b.lmemSize then s.setBlock g.block (b.writeL a.toNat (bytesOf 4 v.toNat)) else s
  | .acc u w, none => s.reply 0 0 (bytesOf 4 (grp.foot.acc.get 0 (u.val * 256 + w.val)).toNat)
  | .acc u w, some v => s.putGroup g { grp with foot := { grp.foot with acc := grp.foot.acc.put 0 (u.val * 256 + w.val) v } }

section
variable {g : GroupRef} {b : Block} {grp : Group} {t : Task}

theorem debugStateAccess_reaches (hb : s.blocks.get? g.block = some b) (hg : b.group? g.group.val = some grp)
    (ht : s.tasks.get? b.task = some t) (hd : s.debugs t.part = true) (hp : b.phase = .resident) (target : DbgTarget) (write : Option Word) :
    exec (.debugStateAccess g target write) s = .next (s.reachState g b grp target write) := by
  show execDebugStateAccess g target write s = _
  have hn : ¬(!s.debugs t.part || decide (b.phase ≠ .resident)) = true := by
    rw [hd, decide_eq_false (not_not.2 hp)]; exact Bool.false_ne_true
  simp only [execDebugStateAccess, hb, hg, ht]
  refine (if_neg hn).trans ?_
  cases target <;> cases write <;> rfl

theorem debugStateAccess_refused {target : DbgTarget} {write : Option Word} (hb : s.blocks.get? g.block = some b)
    (ht : s.tasks.get? b.task = some t) (hd : s.debugs t.part = false) : exec (.debugStateAccess g target write) s = .next s := by
  show execDebugStateAccess g target write s = _
  have hn : (!s.debugs t.part || decide (b.phase ≠ .resident)) = true := by rw [hd]; rfl
  cases hg : b.group? g.group.val with
  | none => simp only [execDebugStateAccess, hb, hg]
  | some grp =>
    simp only [execDebugStateAccess, hb, hg, ht]
    exact if_pos hn

end

section
variable {p : Fin 16} {va : BitVec 48} {n : Nat} {w : Bool} {v : Byte} {u : State}

theorem debugMemory_refused {write : Option Byte} (h : s.debugs p = false) : exec (.debugMemoryAccess p va write) s = .next s := by
  show execDebugMemoryAccess p va write s = _
  exact if_pos (congrArg (!·) h)

theorem debugs_pass (h : s.debugs p = true) : ¬(!s.debugs p) = true := by rw [h]; exact Bool.false_ne_true

theorem debugMemory_readsDevice (h : s.debugs p = true) (hl : s.locate p va.toNat = some (.dev n, w)) :
    exec (.debugMemoryAccess p va none) s = .next (s.reply 0 0 (bytesOf 1 (lineNum (s.devLine n) (va.toNat % 128) 1))) := by
  show execDebugMemoryAccess p va none s = _
  refine (if_neg (debugs_pass h)).trans ?_
  rw [hl]

theorem debugMemory_readsHost (h : s.debugs p = true) (hl : s.locate p va.toNat = some (.host n, w)) :
    exec (.debugMemoryAccess p va none) s = .next (s.reply 0 0 (bytesOf 1 (lineNum (s.hostView n) (va.toNat % 128) 1))) := by
  show execDebugMemoryAccess p va none s = _
  refine (if_neg (debugs_pass h)).trans ?_
  rw [hl]

theorem debugMemory_writesDevice (h : s.debugs p = true) (hl : s.locate p va.toNat = some (.dev n, true))
    (hu : (s.lineWrite n (lineOf (va.toNat % 128) v.toNat) (byteMask (va.toNat % 128) 1) (.outer 1)).bind (fun t => t.wakeLine (.dev n))
      = some u) : exec (.debugMemoryAccess p va (some v)) s = .next u := by
  show execDebugMemoryAccess p va (some v) s = _
  refine (if_neg (debugs_pass h)).trans ?_
  rw [hl]
  exact congrArg (fun o => Host.Outcome.next (Option.getD o s)) hu

theorem debugMemory_writesHost (h : s.debugs p = true) (hl : s.locate p va.toNat = some (.host n, true))
    (hf : s.llcFind ⟨true, n⟩ = none) (hu : (s.hostWrite (n * 128 + va.toNat % 128) [v]).wakeLine (.host n) = some u) :
    exec (.debugMemoryAccess p va (some v)) s = .next u := by
  show execDebugMemoryAccess p va (some v) s = _
  refine (if_neg (debugs_pass h)).trans ?_
  rw [hl]
  dsimp only
  rw [hf]
  dsimp only
  rw [hu]
  rfl

end

/-! ## SPDM (R560 to R563) -/

theorem spdm_serves {t : State} (hu : s.host.up = true) (hm : s.boot.minimal = false) (hr : s.fw.running = true) :
    s.spdm t = .next t := by
  refine (if_neg (by rw [hu]; exact Bool.false_ne_true)).trans (if_neg ?_)
  rw [hm, hr]
  exact Bool.false_ne_true

theorem spdm_down {t : State} (hu : s.host.up = false) : s.spdm t = .next s := if_pos (congrArg (!·) hu)

theorem spdm_notReady {t : State} (hu : s.host.up = true) (h : s.boot.minimal = true ∨ s.fw.running = false) :
    s.spdm t = .next (s.reply 2 3 []) :=
  (if_neg (by rw [hu]; exact Bool.false_ne_true)).trans (if_pos (Bool.or_eq_true_iff.2 (h.imp_right (congrArg (!·)))))

/-- Every SPDM request goes through the responder. -/
theorem spdm_request {index : BitVec 8} {nonce : List Byte} {slot : BitVec 3} {session : Nat} {stream : Fin 2} {c : Instr}
    (hc : c ∈ [Instr.getMeasurements index, .challenge nonce, .getCertificate slot, .keyExchange, .ideKm session stream]) :
    ∃ t, exec c s = s.spdm t := by
  simp only [List.mem_cons, List.not_mem_nil, or_false] at hc
  obtain rfl | rfl | rfl | rfl | rfl := hc <;> exact ⟨_, rfl⟩

/-! ## The I3C port (R586, R626, R627) -/

theorem mctp_answers {kind : Nat} {data : List Byte} (h : s.mgmt.i3c.isSome = true) : s.mctp kind data = .next (s.reply 1 kind data) := by
  refine if_neg ?_
  rw [Option.isNone_iff_eq_none]
  exact Option.isSome_iff_ne_none.1 h

theorem mctp_silent {kind : Nat} {data : List Byte} (h : s.mgmt.i3c = none) : s.mctp kind data = .next s :=
  if_pos (Option.isNone_iff_eq_none.2 h)

/-- The guard of the commands that need the firmware. -/
theorem off_eq : (s.boot.minimal || !s.fw.running) = decide (s.boot.minimal = true ∨ s.fw.running = false) := by
  cases s.boot.minimal <;> cases s.fw.running <;> rfl

end

/-- Settles O51: debug through the session's reach, SPDM through its responder, the I3C port through its address. -/
theorem debugAndManagementAnswer : Obligations.DebugAndManagementAnswer := by
  intro s
  refine ⟨rfl, rfl, rfl, extest_minimal, extest_refused, fun token t m ht hs => ⟨unlock_opens ht hs, unlock_refused ht hs⟩, rfl,
    fun _ _ => ⟨debugHalt_halts, debugHalt_refused⟩, debugs_iff, ?groups,
    fun _ _ _ _ _ hb ht hd => debugStateAccess_refused hb ht hd, ?memory, ?spdm, ?requests, fun _ => rfl, ?i3c, ?silent⟩
  case groups =>
    intro g b grp t hb hg ht hd hp gives sets
    have hr := debugStateAccess_reaches hb hg ht hd hp
    exact ⟨fun n l => hr _ _, fun n => hr _ _, fun n => hr _ _, fun a => hr _ _, fun u w => hr _ _, fun n l v => hr _ _,
      fun n v => hr _ _, fun n v => hr _ _, fun u w v => hr _ _,
      fun a v ha => (hr _ _).trans (congrArg Host.Outcome.next (if_pos ha))⟩
  case memory =>
    intro p va o
    refine ⟨fun write h => debugMemory_refused h, fun h => ⟨fun n w hl => ⟨debugMemory_readsDevice h hl, ?_⟩,
      fun n w hl => ⟨debugMemory_readsHost h hl, ?_⟩⟩⟩
    · rintro rfl v u hu
      exact debugMemory_writesDevice h hl hu
    · rintro rfl hf v u hu
      exact debugMemory_writesHost h hl hf hu
  case spdm =>
    intro hu hm hr r
    have hs : ∀ t, s.spdm t = .next t := fun t => spdm_serves hu hm hr
    refine ⟨fun index => ?_, fun nonce => hs _, fun slot => ⟨fun h => (hs _).trans ?_, fun h => (hs _).trans ?_⟩,
      fun h => (hs _).trans ?_, fun h => ?_, fun session stream => ⟨fun h => (hs _).trans ?_, fun h => (hs _).trans ?_⟩⟩
    · intro blocks
      exact hs _
    · rw [if_pos h]
    · rw [if_neg (Nat.not_lt.2 h)]
    · rw [if_pos h]
    · intro n secret
      refine (hs _).trans ?_
      rw [if_neg (Nat.not_le.2 h)]
    · exact congrArg Host.Outcome.next (if_neg (by rw [List.contains_iff_mem.2 h]; exact Bool.false_ne_true))
    · rw [if_pos (by simpa using h)]
  case requests =>
    intro index nonce slot session stream c hc
    obtain ⟨t, ht⟩ := spdm_request (s := s) hc
    rw [ht]
    exact ⟨spdm_down, spdm_notReady⟩
  case i3c =>
    intro hi off
    refine ⟨mctp_answers hi, mctp_answers hi, (mctp_answers hi).trans ?_, mctp_answers hi, fun k => ?_⟩
    · rw [off_eq]
    · show execPldmSensorRead k s = _
      rw [execPldmSensorRead, off_eq, mctp_answers hi, mctp_answers hi, apply_ite Host.Outcome.next]
  case silent =>
    intro hi c hc
    simp only [List.mem_cons, List.not_mem_nil, or_false] at hc
    obtain rfl | rfl | rfl | rfl := hc <;> exact mctp_silent hi

end Sys2Proof.Machine
end

section
/-! The copy engine moves tiles for the migration in turn (R379 to R383, R387, Tables 11-4 and 11-11). -/

namespace Sys2Proof.Machine

section
variable {s : State} {t : Nat} {data : List (BitVec 1024)} {rest : List Migration}

theorem afterMove_self : s.afterMove s = s := if_neg (Nat.lt_irrefl _)

/-- A tile is skipped that lies beyond the end, or that has moved or is held. -/
theorem tile_skipped {n t : Nat} {moved held : List Nat} (h : n ≤ t ∨ t ∈ moved ∨ t ∈ held) :
    (decide (n ≤ t) || moved.contains t || held.contains t) = true := by
  simpa only [Bool.or_eq_true, decide_eq_true_eq, List.contains_iff_mem, or_assoc] using h

theorem tile_moves {n t : Nat} {moved held : List Nat} (h : t < n) (hm : t ∉ moved) (hh : t ∉ held) :
    ¬(decide (n ≤ t) || moved.contains t || held.contains t) = true := by
  simpa only [Bool.or_eq_true, decide_eq_true_eq, List.contains_iff_mem, not_or, Nat.not_le, and_assoc] using ⟨h, hm, hh⟩

theorem not_held {t : Nat} {held : List Nat} (h : t ∉ held) : (!held.contains t) = true := by
  simpa only [Bool.not_eq_true', List.contains_eq_mem, decide_eq_false_iff_not] using h

theorem held_passes {t : Nat} {held : List Nat} (h : t ∈ held) : ¬(!held.contains t) = true := by
  rw [List.contains_iff_mem.2 h]; exact Bool.false_ne_true

/-! ## A set (Table 9-5b) -/

section
variable {p k : Nat} {e : IntSet} {h : Shadow}

theorem tileMoves_noShadow (hm : s.mm.migs = .set p k :: rest)
    (hs : s.sets.get? k = none ∨ ∃ e, s.sets.get? k = some e ∧ e.shadow = none) :
    exec (.tileMove t data) s = .next (s.endMig (.set p k)) ∧ exec (.tileMoveCommit t) s = .next (s.endMig (.set p k)) := by
  show execTileMove t data s = _ ∧ execTileMoveCommit t s = _
  rcases hs with hs | ⟨e, hs, he⟩
  · simp only [execTileMove, execTileMoveCommit, hm, List.head?_cons, hs, and_self]
  · simp only [execTileMove, execTileMoveCommit, hm, List.head?_cons, hs, he, and_self]

theorem tileMove_set (hm : s.mm.migs = .set p k :: rest) (hs : s.sets.get? k = some e) (he : e.shadow = some h) :
    exec (.tileMove t data) s = .next (s.moveInSet k e h t) := by
  show execTileMove t data s = _
  simp only [execTileMove, hm, List.head?_cons, hs, he]

theorem tileMoveCommit_set (hm : s.mm.migs = .set p k :: rest) (hs : s.sets.get? k = some e) (he : e.shadow = some h) :
    exec (.tileMoveCommit t) s = .next (s.afterMove (s.commitInSet k e h t)) := by
  show execTileMoveCommit t s = _
  simp only [execTileMoveCommit, hm, List.head?_cons, hs, he]

theorem moveInSet_skips (hk : h.tiles ≤ t ∨ t ∈ h.moved ∨ t ∈ h.held) : s.moveInSet k e h t = s := if_pos (tile_skipped hk)

theorem moveInSet_moves {u : State} {a : TileAt} (ht : t < h.tiles) (hn : t ∉ h.moved) (hh : t ∉ h.held)
    (hl : s.lift ((e.base + t * 2048) / 128) = .ok (u, a)) : s.moveInSet k e h t
      = (u.copyRow a ⟨a.line0, (bufferPlace h.leaving t).1, (bufferPlace h.leaving t).2⟩ (u.carriesLines a)).setSet k
        { e with shadow := some { h with held := t :: h.held } } := by
  refine (if_neg (tile_moves ht hn hh)).trans ?_
  rw [hl]

end

/-! ## A page (R381) -/

section
variable {p key src dst tiles : Nat} {held moved : List Nat} {a : TileAt} {d : Nat × Nat}

theorem tileMove_page (hm : s.mm.migs = .page p key src dst tiles held moved :: rest) :
    exec (.tileMove t data) s = .next (s.moveInPage (.page p key src dst tiles held moved) p key src dst tiles held moved t) := by
  show execTileMove t data s = _
  simp only [execTileMove, hm, List.head?_cons]

theorem tileMoveCommit_page (hm : s.mm.migs = .page p key src dst tiles held moved :: rest) :
    exec (.tileMoveCommit t) s
      = .next (s.afterMove (s.commitInPage (.page p key src dst tiles held moved) p key src dst tiles held moved t)) := by
  show execTileMoveCommit t s = _
  simp only [execTileMoveCommit, hm, List.head?_cons]

variable {m : Migration}

theorem moveInPage_skips (hk : tiles ≤ t ∨ t ∈ moved ∨ t ∈ held) : s.moveInPage m p key src dst tiles held moved t = s :=
  if_pos (tile_skipped hk)

theorem moveInPage_moves {u : State} (ht : t < tiles) (hn : t ∉ moved) (hh : t ∉ held)
    (hl : s.lift ((src + t * 2048) / 128) = .ok (u, a)) :
    s.moveInPage m p key src dst tiles held moved t = u.setMig m (some (.page p key src dst tiles (t :: held) moved)) := by
  refine (if_neg (tile_moves ht hn hh)).trans ?_
  rw [hl]

theorem commitInPage_skips (h : t ∉ held) : s.commitInPage m p key src dst tiles held moved t = s := if_pos (not_held h)

theorem commitInPage_waits (h : t ∈ held) (ha : s.tileOfLine ((src + t * 2048) / 128) = some a) (hd : s.placeOf (dst + t * 2048) = some d)
    (ho : s.memOpen a.ch = false ∨ s.memOpen d.1 = false) : s.commitInPage m p key src dst tiles held moved t = s := by
  refine (if_neg (held_passes h)).trans ?_
  rw [ha, hd]
  exact if_pos (Bool.or_eq_true_iff.2 (ho.imp (congrArg (!·)) (congrArg (!·))))

/-- A tile of a page at its destination. -/
def State.pageTileAt (s : State) (src dst t : Nat) (a : TileAt) (d : Nat × Nat) : State :=
  (s.copyRow a ⟨(dst + t * 2048) / 128, d.1, d.2⟩ (s.carriesLines a)).rehome [((src + t * 2048) / 128, (dst + t * 2048) / 128, 16)]

section
variable (h : t ∈ held) (ha : s.tileOfLine ((src + t * 2048) / 128) = some a) (hd : s.placeOf (dst + t * 2048) = some d)
  (ho : s.memOpen a.ch = true) (hp : s.memOpen d.1 = true)
include h ha hd ho hp

theorem commitInPage_takes : s.commitInPage m p key src dst tiles held moved t = if (t :: moved).length < tiles then
      (s.pageTileAt src dst t a d).setMig m (some (.page p key src dst tiles (held.filter (fun x => x ≠ t)) (t :: moved)))
    else (((((s.pageTileAt src dst t a d).setMig m none).rehome [(src / 128, dst / 128, tiles * 16)]).rebase p key src dst).scrubRange src
      (tiles * 2048)) := by
  refine (if_neg (held_passes h)).trans ?_
  rw [ha, hd]
  exact if_neg (by rw [ho, hp]; exact Bool.false_ne_true)

theorem commitInPage_continues (hn : moved.length + 1 < tiles) : s.commitInPage m p key src dst tiles held moved t
    = (s.pageTileAt src dst t a d).setMig m (some (.page p key src dst tiles (held.filter (fun x => x ≠ t)) (t :: moved))) :=
  (commitInPage_takes h ha hd ho hp).trans (if_pos hn)

theorem commitInPage_ends (hn : tiles ≤ moved.length + 1) : s.commitInPage m p key src dst tiles held moved t
    = ((((s.pageTileAt src dst t a d).setMig m none).rehome [(src / 128, dst / 128, tiles * 16)]).rebase p key src dst).scrubRange src
      (tiles * 2048) :=
  (commitInPage_takes h ha hd ho hp).trans (if_neg (Nat.not_lt.2 hn))

end

end

/-! ## Recalls, rekeys, detaches and channels that leave -/

theorem tileMoves_recall {p key dst tiles : Nat} {moved : List Nat} (hm : s.mm.migs = .recall p key dst tiles moved :: rest) :
    exec (.tileMove t data) s = .next (s.afterMove (s.moveBack (.recall p key dst tiles moved) p key dst tiles moved t data))
      ∧ exec (.tileMoveCommit t) s = .next s := by
  show execTileMove t data s = _ ∧ execTileMoveCommit t s = _
  simp only [execTileMove, execTileMoveCommit, hm, List.head?_cons, and_self]

theorem tileMoves_idle {m : Migration} (hm : s.mm.migs = m :: rest) (h : ∃ p n, m = .attach p n) :
    exec (.tileMove t data) s = .next s ∧ exec (.tileMoveCommit t) s = .next s := by
  obtain ⟨p, n, rfl⟩ := h
  show execTileMove t data s = _ ∧ execTileMoveCommit t s = _
  simp only [execTileMove, execTileMoveCommit, hm, List.head?_cons, and_self]

theorem tileMoves_leave {ch : Nat} (hm : s.mm.migs = .leave ch :: rest) :
    exec (.tileMove t data) s = .next s ∧ exec (.tileMoveCommit t) s = .next (s.leaveNow ch) := by
  show execTileMove t data s = _ ∧ execTileMoveCommit t s = _
  simp only [execTileMove, execTileMoveCommit, hm, List.head?_cons, and_self]

section
variable {p : Nat} {f v : State}

theorem tileMove_rekey (hm : s.mm.migs = .rekey p :: rest) : exec (.tileMove t data) s = .next s := by
  show execTileMove t data s = _
  simp only [execTileMove, hm, List.head?_cons]

theorem tileMoveCommit_rekeyWaits (hm : s.mm.migs = .rekey p :: rest)
    (hf : s.flush (inLines (s.rangeLines p 0 windowEnd)) = (false, f)) : exec (.tileMoveCommit t) s = .next f := by
  show execTileMoveCommit t s = _
  simp only [execTileMoveCommit, hm, List.head?_cons, hf]

theorem tileMoveCommit_rekeys (hm : s.mm.migs = .rekey p :: rest)
    (hf : s.flush (inLines (s.rangeLines p 0 windowEnd)) = (true, f)) : exec (.tileMoveCommit t) s
      = .next ((({ f with mm := { f.mm with migs := f.mm.migs.filter (fun x => x.part ≠ p) } } : State).rekey p).getD f) := by
  show execTileMoveCommit t s = _
  simp only [execTileMoveCommit, hm, List.head?_cons, hf]

end

section
variable {p : Nat} {held moved : List Nat}

theorem tileMove_detach (hm : s.mm.migs = .detach p held moved :: rest) :
    exec (.tileMove t data) s = .next (s.sendTile (.detach p held moved) p held moved t) := by
  show execTileMove t data s = _
  simp only [execTileMove, hm, List.head?_cons]

theorem tileMoveCommit_detach (hm : s.mm.migs = .detach p held moved :: rest) : exec (.tileMoveCommit t) s
    = if (!held.contains t) = true then .next s
      else if (s.detachTiles p).all (fun x => (t :: moved).contains x) = true then .next (s.endMig (.detach p held moved))
      else .next (s.setMig (.detach p held moved) (some (.detach p (held.filter (fun x => x ≠ t)) (t :: moved)))) := by
  show execTileMoveCommit t s = _
  simp only [execTileMoveCommit, hm, List.head?_cons]

theorem tileMoveCommit_detachSkips (hm : s.mm.migs = .detach p held moved :: rest) (h : t ∉ held) :
    exec (.tileMoveCommit t) s = .next s := (tileMoveCommit_detach hm).trans (if_pos (not_held h))

theorem tileMoveCommit_detachEnds (hm : s.mm.migs = .detach p held moved :: rest) (h : t ∈ held)
    (ha : ∀ x ∈ s.detachTiles p, x = t ∨ x ∈ moved) : exec (.tileMoveCommit t) s = .next (s.endMig (.detach p held moved)) := by
  refine (tileMoveCommit_detach hm).trans ((if_neg (held_passes h)).trans (if_pos ?_))
  simpa only [List.all_eq_true, List.contains_iff_mem, List.mem_cons] using ha

theorem tileMoveCommit_detachContinues (hm : s.mm.migs = .detach p held moved :: rest) (h : t ∈ held)
    (ha : ∃ x ∈ s.detachTiles p, x ≠ t ∧ x ∉ moved) : exec (.tileMoveCommit t) s
      = .next (s.setMig (.detach p held moved) (some (.detach p (held.filter (fun x => x ≠ t)) (t :: moved)))) := by
  obtain ⟨x, hx, hn, hv⟩ := ha
  refine (tileMoveCommit_detach hm).trans ((if_neg (held_passes h)).trans (if_neg fun hall => ?_))
  have hc := List.contains_iff_mem.1 (List.all_eq_true.1 hall x hx)
  exact (List.mem_cons.1 hc).elim hn hv

end

end

/-- Settles O52: by the kind of the migration in turn. -/
theorem tilesMigrate : Obligations.TilesMigrate := by
  intro s m rest t data hm
  refine ⟨?inSet, ?inPage, ?back, ?newKey, ?detached, fun p n he => tileMoves_idle hm ⟨p, n, he⟩, ?leaves⟩
  case inSet =>
    rintro p k rfl
    refine ⟨tileMoves_noShadow hm, fun e h hs he => ⟨fun hk => ?_, fun ht hn hh u a hl => ?_, tileMoveCommit_set hm hs he⟩⟩
    · rw [tileMove_set hm hs he, moveInSet_skips hk]
    · rw [tileMove_set hm hs he, moveInSet_moves ht hn hh hl]
  case inPage =>
    rintro p key src dst tiles held moved rfl
    rw [tileMove_page hm, tileMoveCommit_page hm]
    refine ⟨fun hk => ?_, fun ht hn hh u a hl => ?_, fun hh => ?_, fun a d hh ha hd ho hp => ?_, fun a d hh ha hd ho => ?_⟩
    · rw [moveInPage_skips hk]
    · rw [moveInPage_moves ht hn hh hl]
    · rw [commitInPage_skips hh, afterMove_self]
    · intro u
      exact ⟨fun hn => by rw [commitInPage_continues hh ha hd ho hp hn]; rfl, fun hn => by rw [commitInPage_ends hh ha hd ho hp hn]; rfl⟩
    · rw [commitInPage_waits hh ha hd ho]
  case back =>
    rintro p key dst tiles moved rfl
    exact tileMoves_recall hm
  case newKey =>
    rintro p rfl
    refine ⟨tileMove_rekey hm, fun f hf => tileMoveCommit_rekeyWaits hm hf, fun f hf => ?_⟩
    intro u
    rw [tileMoveCommit_rekeys hm hf]
    exact ⟨fun v hv => congrArg (fun o => Host.Outcome.next (Option.getD o f)) hv,
      fun hv => congrArg (fun o => Host.Outcome.next (Option.getD o f)) hv⟩
  case detached =>
    rintro p held moved rfl
    exact ⟨tileMove_detach hm, tileMoveCommit_detachSkips hm,
      fun hh => ⟨tileMoveCommit_detachEnds hm hh, tileMoveCommit_detachContinues hm hh⟩⟩
  case leaves =>
    rintro ch rfl
    exact tileMoves_leave hm

end Sys2Proof.Machine
end

section
/-! The reset state, and what a write of memory changes (R300, R531, R542). -/

namespace Sys2Proof.Machine

/-- The log of the reset flash is empty. -/
theorem sound_reset : State.reset.sound := ⟨rfl, rfl, List.Pairwise.nil, fun _ h => nomatch h⟩

/-- Settles O59: the values of `State.reset`. -/
theorem resetState : Obligations.ResetState :=
  ⟨rfl, sound_reset, by decide, fun _ => ⟨rfl, rfl⟩, fun _ => ⟨rfl, rfl, rfl, rfl, rfl, rfl⟩, rfl, rfl, rfl, rfl, rfl, rfl, rfl, rfl, rfl,
    fun _ => rfl⟩

end Sys2Proof.Machine
end

section
/-! What a write of memory changes, byte by byte (R271, R300). -/

namespace Sys2Proof.Machine

/-! ## Bits and bytes of a line -/

theorem mem_bitsOf {n v i : Nat} : i ∈ bitsOf n v ↔ i < n ∧ v.testBit i = true := by
  rw [bitsOf, List.mem_filter, List.mem_range]

theorem testBit_foldl_or {f : Nat → Nat} (l : List Nat) (z b : Nat) :
    (l.foldl (fun a i => a ||| f i) z).testBit b = (z.testBit b || l.any (fun i => (f i).testBit b)) := by
  induction l generalizing z with
  | nil => simp
  | cons i l ih => rw [List.foldl_cons, ih, Nat.testBit_or, List.any_cons, Bool.or_assoc]

/-- The fold of shifted runs of `w` set bits has the bits of the listed runs. -/
theorem testBit_runs {w : Nat} (hw : 0 < w) (l : List Nat) {i j : Nat} (hj : j < w) :
    (l.foldl (fun a k => a ||| ((2 ^ w - 1) <<< (w * k))) 0).testBit (w * i + j) = decide (i ∈ l) := by
  rw [testBit_foldl_or, Nat.zero_testBit, Bool.false_or, Bool.eq_iff_iff, List.any_eq_true, decide_eq_true_eq]
  constructor
  · rintro ⟨k, hk, hb⟩
    rw [Nat.testBit_shiftLeft, Bool.and_eq_true, decide_eq_true_eq, Nat.testBit_two_pow_sub_one, decide_eq_true_eq] at hb
    obtain ⟨hle, hlt⟩ := hb
    have h1 : k = i := by
      have h2 : w * k < w * (i + 1) := by rw [Nat.mul_add]; omega
      have h3 : w * i < w * (k + 1) := by rw [Nat.mul_add]; omega
      have h4 := Nat.lt_of_mul_lt_mul_left h2
      have h5 := Nat.lt_of_mul_lt_mul_left h3
      omega
    exact h1 ▸ hk
  · intro hi
    refine ⟨i, hi, ?_⟩
    rw [Nat.testBit_shiftLeft, Bool.and_eq_true, decide_eq_true_eq, Nat.testBit_two_pow_sub_one, decide_eq_true_eq]
    omega

theorem testBit_numOfBits (l : List Nat) (i : Nat) : (numOfBits l).testBit i = decide (i ∈ l) := by
  have h := testBit_runs (w := 1) Nat.one_pos l (i := i) (j := 0) Nat.one_pos
  simpa [numOfBits] using h

theorem getLsbD_bits4 (p : Nat → Bool) {k : Nat} (hk : k < 4) :
    (BitVec.ofNat 4 (numOfBits ((List.range 4).filter p))).getLsbD k = p k := by
  rw [BitVec.getLsbD_ofNat, decide_eq_true hk, Bool.true_and, testBit_numOfBits, Bool.eq_iff_iff, decide_eq_true_eq, List.mem_filter,
    List.mem_range]
  exact ⟨fun h => h.2, fun h => ⟨hk, h⟩⟩

theorem getLsbD_bitMask (m : BitVec 128) {i j : Nat} (hi : i < 128) (hj : j < 8) : (bitMask m).getLsbD (8 * i + j) = m.getLsbD i := by
  have h := testBit_runs (w := 8) (by omega) (bitsOf 128 m.toNat) (i := i) hj
  rw [bitMask, BitVec.getLsbD_ofNat, decide_eq_true (by omega : 8 * i + j < 1024), Bool.true_and]
  refine h.trans ?_
  rw [Bool.eq_iff_iff, decide_eq_true_eq, mem_bitsOf, BitVec.testBit_toNat]
  exact ⟨fun h => h.2, fun h => ⟨hi, h⟩⟩

theorem getLsbD_maskOfSectors (v : BitVec 4) {i : Nat} (hi : i < 128) : (maskOfSectors v).getLsbD i = v.getLsbD (i / 32) := by
  have h := testBit_runs (w := 32) (by omega) (bitsOf 4 v.toNat) (i := i / 32) (j := i % 32) (by omega)
  rw [Nat.div_add_mod] at h
  rw [maskOfSectors, BitVec.getLsbD_ofNat, decide_eq_true hi, Bool.true_and]
  refine h.trans ?_
  rw [Bool.eq_iff_iff, decide_eq_true_eq, mem_bitsOf, BitVec.testBit_toNat]
  exact ⟨fun h => h.2, fun h => ⟨by omega, h⟩⟩

/-- Two lines have the same byte when their eight bits agree. -/
theorem lineNum_congr {a b : BitVec 1024} {i : Nat} (h : ∀ j, j < 8 → a.getLsbD (8 * i + j) = b.getLsbD (8 * i + j)) :
    lineNum a i 1 = lineNum b i 1 := by
  refine Nat.eq_of_testBit_eq fun j => ?_
  show ((a.toNat >>> (8 * i)) % 2 ^ (8 * 1)).testBit j = ((b.toNat >>> (8 * i)) % 2 ^ (8 * 1)).testBit j
  rw [Nat.testBit_mod_two_pow, Nat.testBit_mod_two_pow]
  by_cases hj : j < 8
  · rw [Nat.testBit_shiftRight, Nat.testBit_shiftRight, BitVec.testBit_toNat, BitVec.testBit_toNat, h j hj]
  · rw [decide_eq_false (by omega), Bool.false_and, Bool.false_and]

theorem lineNum_mergeLine (old new : BitVec 1024) (m : BitVec 128) {i : Nat} (hi : i < 128) :
    lineNum (mergeLine old new m) i 1 = if m.getLsbD i then lineNum new i 1 else lineNum old i 1 := by
  cases hm : m.getLsbD i with
  | true =>
    refine (lineNum_congr fun j hj => ?_).trans (if_pos rfl).symm
    rw [mergeLine, BitVec.getLsbD_or, BitVec.getLsbD_and, BitVec.getLsbD_and, BitVec.getLsbD_not, getLsbD_bitMask m hi hj, hm]
    simp
  | false =>
    refine (lineNum_congr fun j hj => ?_).trans (if_neg Bool.false_ne_true).symm
    rw [mergeLine, BitVec.getLsbD_or, BitVec.getLsbD_and, BitVec.getLsbD_and, BitVec.getLsbD_not, getLsbD_bitMask m hi hj, hm]
    simp only [Bool.not_false, Bool.and_true, Bool.and_false, Bool.or_false]
    rw [decide_eq_true (by omega), Bool.and_true]

theorem lineNum_lt (d : BitVec 1024) (i : Nat) : lineNum d i 1 < 256 := Nat.mod_lt _ (by decide)

/-- Byte `i` of a list of bytes spelled as a number. -/
theorem ofBytes_byte (l : List Byte) (i : Nat) : (ofBytes l >>> (8 * i)) % 2 ^ 8 = (l.getD i 0).toNat := by
  induction l generalizing i with
  | nil => simp [ofBytes]
  | cons b t ih =>
    cases i with
    | zero =>
      have := b.isLt
      simp [ofBytes]
      omega
    | succ i =>
      have hb := b.isLt
      rw [Nat.mul_succ, Nat.add_comm, Nat.shiftRight_add, ofBytes]
      have h : (b.toNat + 256 * ofBytes t) >>> 8 = ofBytes t := by
        rw [Nat.shiftRight_eq_div_pow]; omega
      rw [h, ih, List.getD_cons_succ]

/-- A line is its bytes. -/
theorem line_ext {a b : BitVec 1024} (h : ∀ i, i < 128 → lineNum a i 1 = lineNum b i 1) : a = b := by
  refine BitVec.eq_of_getLsbD_eq fun n hn => ?_
  have hb := congrArg (fun v => v.testBit (n % 8)) (h (n / 8) (by omega))
  simp only [lineNum, field, Nat.testBit_mod_two_pow, Nat.testBit_shiftRight, BitVec.testBit_toNat,
    decide_eq_true (by omega : n % 8 < 8 * 1), Bool.true_and] at hb
  rwa [Nat.div_add_mod] at hb

theorem sectorBit (k : Nat) {j : Nat} (hj : j < 4) : (BitVec.ofNat 4 (1 <<< k)).getLsbD j = decide (j = k) := by
  rw [BitVec.getLsbD_ofNat, decide_eq_true hj, Bool.true_and, Nat.one_shiftLeft, Nat.testBit_two_pow]
  exact decide_eq_decide.2 eq_comm

/-- One sector of a line. -/
def sectorAt (d : BitVec 1024) (k : Nat) : BitVec 1024 := mergeSectors 0 d (BitVec.ofNat 4 (1 <<< k))

theorem lineNum_mergeSectors (old new : BitVec 1024) (v : BitVec 4) {i : Nat} (hi : i < 128) :
    lineNum (mergeSectors old new v) i 1 = if v.getLsbD (i / 32) then lineNum new i 1 else lineNum old i 1 := by
  rw [mergeSectors, lineNum_mergeLine _ _ _ hi, getLsbD_maskOfSectors v hi]

theorem lineNum_sector (old new : BitVec 1024) (k : Nat) {i : Nat} (hi : i < 128) :
    lineNum (mergeSectors old new (BitVec.ofNat 4 (1 <<< k))) i 1 = if i / 32 = k then lineNum new i 1 else lineNum old i 1 := by
  rw [lineNum_mergeSectors _ _ _ hi, sectorBit k (by omega)]
  exact if_congr decide_eq_true_iff rfl rfl

theorem sectorAt_congr {a b : BitVec 1024} {k : Nat} (h : ∀ i, i < 128 → i / 32 = k → lineNum a i 1 = lineNum b i 1) :
    sectorAt a k = sectorAt b k := by
  refine line_ext fun i hi => ?_
  rw [sectorAt, sectorAt, lineNum_sector _ _ k hi, lineNum_sector _ _ k hi]
  by_cases hk : i / 32 = k
  · rw [if_pos hk, if_pos hk, h i hi hk]
  · rw [if_neg hk, if_neg hk]

/-! ## A line as its present key decrypts it (R300) -/

section
variable {s : State} {dpa tile line : Nat}

theorem lineNum_hbmLine (s : State) (tile line : Nat) {i : Nat} (hi : i < 128) :
    lineNum (s.hbmLine tile line) i 1 = (s.hbm.get 0 (hbmKey tile (128 * line + i))).toNat := by
  have hb := ofBytes_byte ((List.range 128).map (fun i => s.hbm.get 0 (hbmKey tile (128 * line + i)))) i
  rw [List.getD_eq_getElem?_getD, List.getElem?_map, List.getElem?_range hi, Option.map_some, Option.getD_some] at hb
  rw [← hb]
  refine Nat.eq_of_testBit_eq fun j => ?_
  rw [lineNum, field, Nat.testBit_mod_two_pow, Nat.testBit_mod_two_pow, Nat.testBit_shiftRight, Nat.testBit_shiftRight,
    BitVec.testBit_toNat, State.hbmLine, BitVec.getLsbD_ofNat]
  by_cases hj : j < 8
  · rw [decide_eq_true (by omega : 8 * i + j < 1024), Bool.true_and]
  · rw [decide_eq_false (by omega : ¬j < 8 * 1), Bool.false_and, Bool.false_and]

/-- The key of a sector's seal. -/
def secKey (tile line k : Nat) : Nat := (tile * 16 + line) * 4 + k

/-- Whether a sector's seal is one that the present key does not open. -/
def State.sealedAway (s : State) (dpa tile line k : Nat) : Bool :=
  (s.seals.get? (secKey tile line k)).any (fun z => !s.opens z (s.sealOf dpa k))

/-- A sector as the present key decrypts what another seal encrypted. -/
def State.decrypted (s : State) (dpa tile line k : Nat) : Option (BitVec 1024) :=
  (s.seals.get? (secKey tile line k)).map (fun z =>
    Config.decipher (s.sealKey z) z.unit (s.sealKey (s.sealOf dpa k)) (s.sealOf dpa k).unit (sectorAt (s.hbmLine tile line) k))

theorem foreign_bit {k : Nat} (hk : k < 4) :
    (s.foreign dpa tile line).getLsbD k = (decide (tile < 2 ^ 28) && s.sealedAway dpa tile line k) := by
  by_cases ht : 2 ^ 28 ≤ tile
  · rw [State.foreign, if_pos ht, decide_eq_false (Nat.not_lt.2 ht)]
    simp
  · rw [State.foreign, if_neg ht, getLsbD_bits4 _ hk, decide_eq_true (Nat.not_le.1 ht), Bool.true_and, State.sealedAway, secKey]
    cases s.seals.get? ((tile * 16 + line) * 4 + k) with
    | none => rfl
    | some z => rfl

/-- A sector laid over a line, where there is one. -/
def layOver (a : BitVec 1024) (k : Nat) (o : Option (BitVec 1024)) : BitVec 1024 :=
  (o.map (fun x => mergeSectors a x (BitVec.ofNat 4 (1 <<< k)))).getD a

theorem plainLine_eq : s.plainLine dpa tile line
    = (bitsOf 4 (s.foreign dpa tile line).toNat).foldl (fun a k => layOver a k (s.decrypted dpa tile line k)) (s.hbmLine tile line) := by
  have hf : (fun (a : BitVec 1024) (k : Nat) => layOver a k (s.decrypted dpa tile line k)) = fun a k =>
      ((s.seals.get? (secKey tile line k)).map (fun z => mergeSectors a (Config.decipher (s.sealKey z) z.unit
        (s.sealKey (s.sealOf dpa k)) (s.sealOf dpa k).unit (sectorAt (s.hbmLine tile line) k)) (BitVec.ofNat 4 (1 <<< k)))).getD a := by
    funext a k
    rw [layOver, State.decrypted, Option.map_map]
    rfl
  rw [hf, State.plainLine]
  refine congrArg (fun g => List.foldl g (s.hbmLine tile line) _) ?_
  funext a k
  simp only [secKey]
  cases s.seals.get? ((tile * 16 + line) * 4 + k) with
  | none => rfl
  | some z => rfl

theorem lineNum_layOver (a : BitVec 1024) (k : Nat) (o : Option (BitVec 1024)) {i : Nat} (hi : i < 128) :
    lineNum (layOver a k o) i 1 = if i / 32 = k then (o.map (fun x => lineNum x i 1)).getD (lineNum a i 1) else lineNum a i 1 := by
  cases o with
  | none => exact (ite_self _).symm
  | some x => exact lineNum_sector a x k hi

theorem lineNum_foldl_layOver {g : Nat → Option (BitVec 1024)} (l : List Nat) (hl : l.Nodup) (d : BitVec 1024) {i : Nat} (hi : i < 128) :
    lineNum (l.foldl (fun a k => layOver a k (g k)) d) i 1
      = if i / 32 ∈ l then ((g (i / 32)).map (fun x => lineNum x i 1)).getD (lineNum d i 1) else lineNum d i 1 := by
  induction l generalizing d with
  | nil => exact (if_neg List.not_mem_nil).symm
  | cons k l ih =>
    obtain ⟨hk, hl⟩ := List.nodup_cons.1 hl
    rw [List.foldl_cons, ih hl, lineNum_layOver _ _ _ hi]
    by_cases hm : i / 32 ∈ l
    · have hn : i / 32 ≠ k := fun e => hk (e ▸ hm)
      rw [if_pos hm, if_neg hn, if_pos (List.mem_cons_of_mem _ hm)]
    · rw [if_neg hm]
      by_cases he : i / 32 = k
      · rw [if_pos he, if_pos (he ▸ List.mem_cons_self), he]
      · rw [if_neg he, if_neg (fun h => (List.mem_cons.1 h).elim he hm)]

theorem nodup_bitsOf (n v : Nat) : (bitsOf n v).Nodup := List.Nodup.filter _ List.nodup_range

/-- A byte of a line as its present key decrypts it: its sector decrypted where its seal is another's, the byte of memory otherwise. -/
theorem lineNum_plainLine {i : Nat} (hi : i < 128) : lineNum (s.plainLine dpa tile line) i 1
    = if (s.foreign dpa tile line).getLsbD (i / 32)
      then ((s.decrypted dpa tile line (i / 32)).map (fun x => lineNum x i 1)).getD (lineNum (s.hbmLine tile line) i 1)
      else lineNum (s.hbmLine tile line) i 1 := by
  rw [plainLine_eq, lineNum_foldl_layOver _ (nodup_bitsOf _ _) _ hi]
  refine if_congr ?_ rfl rfl
  rw [mem_bitsOf, BitVec.testBit_toNat]
  exact ⟨fun h => h.2, fun h => ⟨by omega, h⟩⟩

theorem lineNum_plainLine_own {i : Nat} (hi : i < 128) (h : (s.foreign dpa tile line).getLsbD (i / 32) = false) :
    lineNum (s.plainLine dpa tile line) i 1 = (s.hbm.get 0 (hbmKey tile (128 * line + i))).toNat := by
  rw [lineNum_plainLine hi, h, if_neg Bool.false_ne_true, lineNum_hbmLine s tile line hi]

/-- The state with other bytes, seals and poison of device memory. -/
def State.withMemory (s : State) (hbm : Tab Byte) (seals : Tab Seal) (poisoned : Tab Bool) (latent : Tab Nat) : State :=
  { s with hbm := hbm, seals := seals, poisoned := poisoned, latent := latent }

/-- A sector whose bytes and seal are as before reads as before. -/
theorem lineNum_plainLine_congr {h : Tab Byte} {z : Tab Seal} {p : Tab Bool} {l : Tab Nat} {i : Nat} (hi : i < 128)
    (hz : z.get? (secKey tile line (i / 32)) = s.seals.get? (secKey tile line (i / 32)))
    (hb : ∀ j, j < 128 → j / 32 = i / 32 → h.get 0 (hbmKey tile (128 * line + j)) = s.hbm.get 0 (hbmKey tile (128 * line + j))) :
    lineNum ((s.withMemory h z p l).plainLine dpa tile line) i 1 = lineNum (s.plainLine dpa tile line) i 1 := by
  have hbytes : ∀ j, j < 128 → j / 32 = i / 32 →
      lineNum ((s.withMemory h z p l).hbmLine tile line) j 1 = lineNum (s.hbmLine tile line) j 1 := by
    intro j hj hs
    rw [lineNum_hbmLine _ _ _ hj, lineNum_hbmLine _ _ _ hj]
    exact congrArg BitVec.toNat (hb j hj hs)
  have haway : (s.withMemory h z p l).sealedAway dpa tile line (i / 32) = s.sealedAway dpa tile line (i / 32) :=
    congrArg (Option.any (fun y => !s.opens y (s.sealOf dpa (i / 32)))) hz
  have hsector := sectorAt_congr hbytes
  have hdec : (s.withMemory h z p l).decrypted dpa tile line (i / 32) = s.decrypted dpa tile line (i / 32) := by
    rw [State.decrypted, hsector]
    exact congrArg (Option.map _) hz
  have hk : i / 32 < 4 := by omega
  rw [lineNum_plainLine hi, lineNum_plainLine hi, foreign_bit hk, foreign_bit hk, haway, hdec, hbytes i hi rfl]

/-! ## What a write of device memory leaves -/

theorem getLsbD_sectorsOf (m : BitVec 128) {k : Nat} (hk : k < 4) :
    (sectorsOf m).getLsbD k = true ↔ ∃ i, i < 128 ∧ i / 32 = k ∧ m.getLsbD i = true := by
  rw [sectorsOf, getLsbD_bits4 _ hk, bne_iff_ne]
  constructor
  · intro h
    obtain ⟨j, hj⟩ := Nat.exists_testBit_of_ne_zero h
    rw [field, Nat.testBit_mod_two_pow, Bool.and_eq_true, decide_eq_true_eq, Nat.testBit_shiftRight, BitVec.testBit_toNat] at hj
    exact ⟨32 * k + j, by omega, by omega, hj.2⟩
  · rintro ⟨i, hi, rfl, hm⟩ h0
    have hb : (field m (32 * (i / 32)) 32).testBit (i % 32) = true := by
      rw [field, Nat.testBit_mod_two_pow, Nat.testBit_shiftRight, Nat.div_add_mod, BitVec.testBit_toNat, hm,
        decide_eq_true (by omega : i % 32 < 32), Bool.true_and]
    rw [h0, Nat.zero_testBit] at hb
    exact Bool.false_ne_true hb

theorem getLsbD_wholeSectors (m : BitVec 128) {i : Nat} (hi : i < 128) (h : (wholeSectors m).getLsbD (i / 32) = true) :
    m.getLsbD i = true := by
  rw [wholeSectors, getLsbD_bits4 _ (by omega : i / 32 < 4), decide_eq_true_eq] at h
  have hb : (field m (32 * (i / 32)) 32).testBit (i % 32) = true := by
    rw [h, Nat.testBit_two_pow_sub_one, decide_eq_true_eq]; omega
  rw [field, Nat.testBit_mod_two_pow, Nat.testBit_shiftRight, Nat.div_add_mod, BitVec.testBit_toNat, Bool.and_eq_true] at hb
  exact hb.2

section
variable {s : State} {dpa tile line : Nat} {d : BitVec 1024} {m : BitVec 128}

/-- The sectors that a write changes in part and that another seal encrypted. -/
def State.oddSectors (s : State) (dpa tile line : Nat) (m : BitVec 128) : BitVec 4 :=
  s.foreign dpa tile line &&& sectorsOf m &&& ~~~(wholeSectors m)

/-- The bytes that a write stores, those of its odd sectors included. -/
def State.storedMask (s : State) (dpa tile line : Nat) (m : BitVec 128) : BitVec 128 :=
  if s.oddSectors dpa tile line m = 0 then m else m ||| maskOfSectors (s.oddSectors dpa tile line m)

/-- The line that a write stores. -/
def State.storedLine (s : State) (dpa tile line : Nat) (d : BitVec 1024) (m : BitVec 128) : BitVec 1024 :=
  if s.oddSectors dpa tile line m = 0 then d else mergeLine (s.plainLine dpa tile line) d m

/-- The seals after a write. -/
def State.sealed (s : State) (dpa tile line : Nat) (m : BitVec 128) : Tab Seal :=
  if 2 ^ 28 ≤ tile then s.seals
  else (bitsOf 4 (sectorsOf m).toNat).foldl (fun t k => t.set (secKey tile line k) (s.sealOf dpa k)) s.seals

/-- The bytes of device memory after a write. -/
def State.stored (s : State) (dpa tile line : Nat) (d : BitVec 1024) (m : BitVec 128) : Tab Byte :=
  s.hbm.putAll 0 ((bitsOf 128 (s.storedMask dpa tile line m).toNat).map
    (fun i => (hbmKey tile (128 * line + i), BitVec.ofNat 8 (lineNum (s.storedLine dpa tile line d m) i 1))))

theorem hbmWrite_eq : ∃ p l, s.hbmWrite dpa tile line d m
    = s.withMemory (s.stored dpa tile line d m) (s.sealed dpa tile line m) p l := ⟨_, _, rfl⟩

/-! ### The bytes stored -/

theorem hbmKey_inj {i j : Nat} (h : hbmKey tile (128 * line + i) = hbmKey tile (128 * line + j)) : i = j := by
  simp only [hbmKey] at h; omega

theorem get_putAll_map {α β : Type} [DecidableEq β] (d : β) (key : α → Nat) (v : α → β) (l : List α) (hl : l.Nodup)
    (hk : ∀ i j, key i = key j → i = j) (t : Tab β) (i : α) :
    i ∈ l → (t.putAll d (l.map (fun i => (key i, v i)))).get d (key i) = v i := by
  induction l generalizing t with
  | nil => exact fun h => (List.not_mem_nil h).elim
  | cons a l ih =>
    obtain ⟨ha, hl⟩ := List.nodup_cons.1 hl
    intro h
    rcases List.mem_cons.1 h with rfl | h
    · refine (Tab.get_putAll_of_not_mem d _ (t.put d (key i) (v i)) fun kv hkv => ?_).trans (Tab.get_put_self d t (key i) (v i))
      obtain ⟨b, hb, rfl⟩ := List.mem_map.1 hkv
      exact fun e => ha (hk _ _ e ▸ hb)
    · exact ih hl (t.put d (key a) (v a)) h

theorem stored_get {i : Nat} (hi : i < 128) : ((s.stored dpa tile line d m).get 0 (hbmKey tile (128 * line + i))).toNat
    = if (s.storedMask dpa tile line m).getLsbD i then lineNum (s.storedLine dpa tile line d m) i 1
      else (s.hbm.get 0 (hbmKey tile (128 * line + i))).toNat := by
  by_cases hm : (s.storedMask dpa tile line m).getLsbD i = true
  · rw [if_pos hm, State.stored]
    have hmem : i ∈ bitsOf 128 (s.storedMask dpa tile line m).toNat := mem_bitsOf.2 ⟨hi, (BitVec.testBit_toNat _).trans hm⟩
    rw [get_putAll_map 0 (fun i => hbmKey tile (128 * line + i)) _ _ (nodup_bitsOf _ _) (fun _ _ => hbmKey_inj) _ i hmem,
      BitVec.toNat_ofNat]
    exact Nat.mod_eq_of_lt (lineNum_lt _ _)
  · rw [if_neg hm, State.stored, Tab.get_putAll_of_not_mem]
    intro kv hkv e
    obtain ⟨j, hj, rfl⟩ := List.mem_map.1 hkv
    rw [hbmKey_inj e, mem_bitsOf, BitVec.testBit_toNat] at hj
    exact hm hj.2

/-- A byte stored is one that the mask selects, or one of an odd sector. -/
theorem storedMask_bit {i : Nat} (hi : i < 128) : (s.storedMask dpa tile line m).getLsbD i
    = (m.getLsbD i || (s.oddSectors dpa tile line m).getLsbD (i / 32)) := by
  rw [State.storedMask]
  split
  next h => rw [h]; simp
  next h => rw [BitVec.getLsbD_or, getLsbD_maskOfSectors _ hi]

theorem oddSectors_bit {k : Nat} (hk : k < 4) : (s.oddSectors dpa tile line m).getLsbD k
    = ((s.foreign dpa tile line).getLsbD k && (sectorsOf m).getLsbD k && !(wholeSectors m).getLsbD k) := by
  rw [State.oddSectors, BitVec.getLsbD_and, BitVec.getLsbD_and, BitVec.getLsbD_not, decide_eq_true hk, Bool.true_and]

/-- Every byte stored lies in a sector that the mask touches. -/
theorem storedMask_touches {i : Nat} (hi : i < 128) (h : (s.storedMask dpa tile line m).getLsbD i = true) :
    (sectorsOf m).getLsbD (i / 32) = true := by
  rw [storedMask_bit hi, Bool.or_eq_true] at h
  rcases h with h | h
  · exact (getLsbD_sectorsOf m (by omega)).2 ⟨i, hi, rfl, h⟩
  · rw [oddSectors_bit (by omega), Bool.and_eq_true, Bool.and_eq_true] at h
    exact h.1.2

theorem stored_get_other {a : Nat} (h : ∀ i, i < 128 → (sectorsOf m).getLsbD (i / 32) = true → a ≠ hbmKey tile (128 * line + i)) :
    (s.stored dpa tile line d m).get 0 a = s.hbm.get 0 a := by
  rw [State.stored, Tab.get_putAll_of_not_mem]
  intro kv hkv e
  obtain ⟨i, hi, rfl⟩ := List.mem_map.1 hkv
  rw [mem_bitsOf, BitVec.testBit_toNat] at hi
  exact h i hi.1 (storedMask_touches hi.1 hi.2) e.symm

/-! ### The seals -/

theorem secKey_inj {k j : Nat} (h : secKey tile line k = secKey tile line j) : k = j := by
  simp only [secKey] at h; omega

theorem get?_foldl_set {α : Type} (key : Nat → Nat) (hk : ∀ i j, key i = key j → i = j) (v : Nat → α) (l : List Nat) (t : Tab α) (k : Nat) :
    (l.foldl (fun t k => t.set (key k) (v k)) t).get? (key k) = if k ∈ l then some (v k) else t.get? (key k) := by
  induction l generalizing t with
  | nil => exact (if_neg List.not_mem_nil).symm
  | cons a l ih =>
    rw [List.foldl_cons, ih]
    by_cases hm : k ∈ l
    · rw [if_pos hm, if_pos (List.mem_cons_of_mem _ hm)]
    · rw [if_neg hm]
      by_cases he : k = a
      · rw [if_pos (he ▸ List.mem_cons_self), he, Tab.get?_set_self]
      · rw [if_neg (fun h => (List.mem_cons.1 h).elim he hm), Tab.get?_set_ne _ (fun e => he (hk _ _ e))]

theorem get?_foldl_set_other {α : Type} (key : Nat → Nat) (v : Nat → α) (l : List Nat) (t : Tab α) {n : Nat} (h : ∀ k ∈ l, n ≠ key k) :
    (l.foldl (fun t k => t.set (key k) (v k)) t).get? n = t.get? n := by
  induction l generalizing t with
  | nil => rfl
  | cons a l ih =>
    rw [List.foldl_cons, ih _ (fun k hk => h k (List.mem_cons_of_mem _ hk)), Tab.get?_set_ne _ (h a List.mem_cons_self)]

/-- A sector that the mask touches takes the present seal. -/
theorem sealed_touched (ht : tile < 2 ^ 28) {k : Nat} (hk : k < 4) (h : (sectorsOf m).getLsbD k = true) :
    (s.sealed dpa tile line m).get? (secKey tile line k) = some (s.sealOf dpa k) := by
  rw [State.sealed, if_neg (Nat.not_le.2 ht), get?_foldl_set (secKey tile line) (fun _ _ => secKey_inj)]
  exact if_pos (mem_bitsOf.2 ⟨hk, (BitVec.testBit_toNat _).trans h⟩)

theorem sealed_other {n : Nat} (h : ∀ k, k < 4 → (sectorsOf m).getLsbD k = true → n ≠ secKey tile line k) :
    (s.sealed dpa tile line m).get? n = s.seals.get? n := by
  rw [State.sealed]
  split
  next => rfl
  next =>
    refine get?_foldl_set_other _ _ _ _ fun k hk => ?_
    rw [mem_bitsOf, BitVec.testBit_toNat] at hk
    exact h k hk.1 hk.2

theorem opens_self (z : Seal) : s.opens z z = true := by simp [State.opens]

/-! ### Lines after a write -/

/-- A touched sector is the present key's own after the write. -/
theorem foreign_hbmWrite {k : Nat} (hk : k < 4) (h : (sectorsOf m).getLsbD k = true) :
    ((s.hbmWrite dpa tile line d m).foreign dpa tile line).getLsbD k = false := by
  obtain ⟨p, l, e⟩ := hbmWrite_eq (s := s) (dpa := dpa) (tile := tile) (line := line) (d := d) (m := m)
  rw [e, foreign_bit hk, Bool.and_eq_false_iff]
  by_cases ht : tile < 2 ^ 28
  · right
    show ((s.sealed dpa tile line m).get? (secKey tile line k)).any (fun z => !s.opens z (s.sealOf dpa k)) = false
    rw [sealed_touched ht hk h, Option.any_some, opens_self, Bool.not_true]
  · exact .inl (decide_eq_false ht)

/-- A byte that the write stores as it was, or not at all, in a touched sector. -/
theorem stored_unselected {i : Nat} (hi : i < 128) (hm : m.getLsbD i = false) (h : (sectorsOf m).getLsbD (i / 32) = true) :
    ((s.stored dpa tile line d m).get 0 (hbmKey tile (128 * line + i))).toNat = lineNum (s.plainLine dpa tile line) i 1 := by
  have hw : (wholeSectors m).getLsbD (i / 32) = false := by
    rw [← Bool.not_eq_true]
    exact fun e => Bool.false_ne_true (hm.symm.trans (getLsbD_wholeSectors m hi e))
  have ho : (s.oddSectors dpa tile line m).getLsbD (i / 32) = (s.foreign dpa tile line).getLsbD (i / 32) := by
    rw [oddSectors_bit (by omega), h, hw, Bool.and_true, Bool.not_false, Bool.and_true]
  rw [stored_get hi, storedMask_bit hi, hm, Bool.false_or, ho]
  cases hf : (s.foreign dpa tile line).getLsbD (i / 32) with
  | false => rw [if_neg Bool.false_ne_true, lineNum_plainLine_own hi hf]
  | true =>
    have hn : s.oddSectors dpa tile line m ≠ 0 := by
      intro e
      rw [e, hf] at ho
      simp at ho
    rw [if_pos rfl, State.storedLine, if_neg hn, lineNum_mergeLine _ _ _ hi, hm, if_neg Bool.false_ne_true]

theorem stored_selected {i : Nat} (hi : i < 128) (hm : m.getLsbD i = true) :
    ((s.stored dpa tile line d m).get 0 (hbmKey tile (128 * line + i))).toNat = lineNum d i 1 := by
  rw [stored_get hi, storedMask_bit hi, hm, Bool.true_or, if_pos rfl, State.storedLine]
  split
  next => rfl
  next => rw [lineNum_mergeLine _ _ _ hi, hm, if_pos rfl]

theorem lineNum_hbmWrite {i : Nat} (hi : i < 128) : lineNum ((s.hbmWrite dpa tile line d m).plainLine dpa tile line) i 1
    = if m.getLsbD i then lineNum d i 1 else lineNum (s.plainLine dpa tile line) i 1 := by
  cases ht : (sectorsOf m).getLsbD (i / 32) with
  | true =>
    rw [lineNum_plainLine_own hi (foreign_hbmWrite (by omega) ht)]
    show ((s.stored dpa tile line d m).get 0 (hbmKey tile (128 * line + i))).toNat = _
    cases hm : m.getLsbD i with
    | true => exact stored_selected hi hm
    | false => exact stored_unselected hi hm ht
  | false =>
    have hn : ∀ j, j < 128 → j / 32 = i / 32 → ¬ m.getLsbD j = true := by
      intro j hj e hm
      rw [(getLsbD_sectorsOf m (by omega)).2 ⟨j, hj, e, hm⟩] at ht
      exact Bool.false_ne_true ht.symm
    rw [if_neg (hn i hi rfl)]
    obtain ⟨p, l, e⟩ := hbmWrite_eq (s := s) (dpa := dpa) (tile := tile) (line := line) (d := d) (m := m)
    rw [e]
    refine lineNum_plainLine_congr hi (sealed_other fun k hk hs e => ?_) fun j hj e => stored_get_other fun n hn hs e' => ?_
    · rw [← secKey_inj e, ht] at hs
      exact Bool.false_ne_true hs
    · rw [← hbmKey_inj e', e, ht] at hs
      exact Bool.false_ne_true hs

/-- Another line, of whatever tile and at whatever address, reads as before. -/
theorem plainLine_hbmWrite_other {a k l : Nat} (hline : line < 16) (hl : l < 16) (h : (k, l) ≠ (tile, line)) :
    (s.hbmWrite dpa tile line d m).plainLine a k l = s.plainLine a k l := by
  obtain ⟨p, q, e⟩ := hbmWrite_eq (s := s) (dpa := dpa) (tile := tile) (line := line) (d := d) (m := m)
  rw [e]
  have hne : ¬(k = tile ∧ l = line) := fun ⟨h1, h2⟩ => h (by rw [h1, h2])
  refine line_ext fun i hi => lineNum_plainLine_congr hi (sealed_other fun j hj _ e => ?_) fun j hj _ => stored_get_other fun n hn _ e => ?_
  · simp only [secKey] at e; omega
  · simp only [hbmKey] at e; omega

end

end

end Sys2Proof.Machine
end

section
/-! Memory writes change only their bytes (R271, R300). -/

namespace Sys2Proof.Machine

section
variable {s t : State}

/-! ## Host memory -/

/-- What a run of bytes leaves at an address. -/
theorem get_hostWrite_run (a : Nat) (v : List Byte) {i : Nat} (hi : i < v.length) :
    (s.hostWrite a v).hostMem.get 0 (a + i) = v.getD i 0 := by
  have hk : v.mapIdx (fun i x => (a + i, x)) = (List.range v.length).map (fun i => (a + i, v.getD i 0)) := by
    refine List.ext_getElem (by simp) fun n hn _ => ?_
    rw [List.length_mapIdx] at hn
    simp [hn]
  show (s.hostMem.putAll 0 (v.mapIdx (fun i x => (a + i, x)))).get 0 (a + i) = _
  rw [hk]
  exact get_putAll_map 0 (fun i => a + i) _ _ List.nodup_range (fun _ _ => Nat.add_left_cancel) _ i (List.mem_range.2 hi)

theorem get_hostWrite_other (a : Nat) (v : List Byte) {b : Nat} (hb : b < a ∨ a + v.length ≤ b) :
    (s.hostWrite a v).hostMem.get 0 b = s.hostMem.get 0 b := by
  refine Tab.get_putAll_of_not_mem 0 _ _ fun kv hkv e => ?_
  obtain ⟨i, hi, rfl⟩ := List.mem_mapIdx.1 hkv
  have : a + i = b := e
  omega

/-! ## The issue of a memory controller (R271) -/

theorem retryTxns_empty (h : s.txns.rows = []) : s.retryTxns = s := by
  rw [State.retryTxns, Tab.keys, h]
  rfl

/-- The queues of the controllers say nothing of what memory holds. -/
theorem plainLine_pseudo (u : State) (p : Tab PseudoChan) (a k l : Nat) :
    ({ u with pseudo := p } : State).plainLine a k l = u.plainLine a k l := rfl

theorem hbmWrite_hostMem (dpa tile line : Nat) (d : BitVec 1024) (m : BitVec 128) :
    (s.hbmWrite dpa tile line d m).hostMem = s.hostMem := rfl

theorem hbmWrite_txns (dpa tile line : Nat) (d : BitVec 1024) (m : BitVec 128) :
    (s.hbmWrite dpa tile line d m).txns = s.txns := rfl

theorem retryTxns_pseudo {u : State} {p : Tab PseudoChan} (h : u.txns.rows = []) :
    ({ u with pseudo := p } : State).retryTxns = { u with pseudo := p } := retryTxns_empty h

theorem execMcIssue_closed {pc : Fin 512} (h : s.memOpen (pc.val / 2) = false) : execMcIssue pc s = .next s :=
  if_pos (congrArg (!·) h)

theorem execMcIssue_none {pc : Fin 512} (ho : s.memOpen (pc.val / 2) = true) (h : (s.pseudoChan pc).pick = none) :
    execMcIssue pc s = .next s := by
  simp only [execMcIssue, ho, h, Bool.not_true, Bool.false_eq_true, if_false]

/-- What an issue does where no transaction waits: a write is done, or only the queue changes. -/
theorem mcIssue_cases {pc : Fin 512} (ht : s.txns.rows = []) (h : exec (.mcIssue pc) s = .next t) :
    (∃ j e p, s.memOpen (pc.val / 2) = true ∧ (s.pseudoChan pc).pick = some (j, e) ∧ e.writes = true
      ∧ t = { s.hbmWrite e.dpaLine (tileKey e.ch e.row) e.line e.data e.mask with pseudo := p })
    ∨ ((∀ j e, s.memOpen (pc.val / 2) = true → (s.pseudoChan pc).pick = some (j, e) → e.writes = false) ∧ ∃ p, t = { s with pseudo := p }) := by
  have hx : execMcIssue pc s = .next t := h
  cases ho : s.memOpen (pc.val / 2) with
  | false =>
    obtain rfl := Host.Outcome.next.inj (hx.symm.trans (execMcIssue_closed ho))
    exact .inr ⟨fun _ _ hn => (nomatch hn), t.pseudo, rfl⟩
  | true =>
    cases hp : (s.pseudoChan pc).pick with
    | none =>
      obtain rfl := Host.Outcome.next.inj (hx.symm.trans (execMcIssue_none ho hp))
      exact .inr ⟨fun _ _ _ hn => (nomatch hn), t.pseudo, rfl⟩
    | some r =>
      obtain ⟨j, e⟩ := r
      cases hw : e.writes with
      | true =>
        have hs := hx.symm.trans (execMcIssue_write ho hp hw rfl rfl)
        rw [retryTxns_pseudo (by rw [hbmWrite_txns, ht])] at hs
        exact .inl ⟨j, e, _, rfl, rfl, hw, Host.Outcome.next.inj hs⟩
      | false =>
        have hs := hx.symm.trans (execMcIssue_read ho hp hw rfl)
        refine .inr ⟨fun j' e' _ he => ?_, _, Host.Outcome.next.inj hs⟩
        cases he
        exact hw

end

/-- Settles O58: a byte of a line follows its sector, which a write leaves alone or takes under the present key. -/
theorem memoryWritesChangeOnlyTheirBytes : Obligations.MemoryWritesChangeOnlyTheirBytes := by
  refine ⟨fun s dpa tile line d m hl => ?_, fun s a v => ⟨fun i => get_hostWrite_run a v, fun b => get_hostWrite_other a v⟩,
    fun s t pc ht h => ?_⟩
  · intro t
    exact ⟨fun i hi => lineNum_hbmWrite hi, fun a k l hk hne => plainLine_hbmWrite_other hl hk hne, fun a ha => stored_get_other ha⟩
  · rcases mcIssue_cases ht h with ⟨j, e, p, ho, hp, hw, rfl⟩ | ⟨hr, p, rfl⟩
    · refine ⟨fun a => ?_, fun j' e' i he' _ _ _ hi => ?_, fun a k l hl hne hline => ?_⟩
      · exact congrArg (fun m => Tab.get 0 m a) (hbmWrite_hostMem (s := s) e.dpaLine (tileKey e.ch e.row) e.line e.data e.mask)
      · cases hp.symm.trans he'
        rw [plainLine_pseudo]
        exact lineNum_hbmWrite hi
      · rw [plainLine_pseudo]
        exact plainLine_hbmWrite_other (hline j e hp hw) hl (hne j e hp hw)
    · refine ⟨fun a => rfl, fun j e i hp hw ho _ _ => ?_, fun a k l _ _ _ => rfl⟩
      exact (Bool.false_ne_true ((hr j e ho hp).symm.trans hw)).elim

end Sys2Proof.Machine
end

section
/-! What a task's instruction may touch (R544): the relation that each operation of an instruction keeps. -/

namespace Sys2Proof.Machine

/-- The state with the parts that an instruction of a group may change taken from another. -/
def State.withWork (s t : State) : State :=
  { s with
    blocks := t.blocks, tasks := t.tasks, mxus := t.mxus, cores := t.cores, reqs := t.reqs, spents := t.spents
    tileOps := t.tileOps, nextId := t.nextId, freeCtr := t.freeCtr }

/-- From `s` to `t` only the work of task `k` went on: other tasks stand as before, and so do their blocks but for saved entries that found
room (R178). -/
structure OnlyTask (k : Nat) (s t : State) : Prop where
  frame : t = s.withWork t
  tasks : ∀ j, j ≠ k → t.tasks.get? j = s.tasks.get? j
  others : ∀ b o, s.blocks.get? b = some o → o.task ≠ k → ∃ l, l.Sublist o.saved ∧ t.blocks.get? b = some { o with saved := l }
  own : ∀ b m, s.blocks.get? b = some m → m.task = k → ∃ n, t.blocks.get? b = some n ∧ n.task = k

namespace OnlyTask

variable {k : Nat} {s t u : State}

/-- Work that leaves blocks and tasks as they are. -/
theorem quiet (hf : t = s.withWork t) (hb : t.blocks = s.blocks) (ht : t.tasks = s.tasks) : OnlyTask k s t where
  frame := hf
  tasks _ _ := by rw [ht]
  others _ o ho _ := ⟨o.saved, List.Sublist.refl _, by rw [hb]; exact ho⟩
  own _ m hm hk := ⟨m, by rw [hb]; exact hm, hk⟩

theorem refl (k : Nat) (s : State) : OnlyTask k s s := quiet rfl rfl rfl

theorem trans (h : OnlyTask k s t) (g : OnlyTask k t u) : OnlyTask k s u where
  frame := by
    have e : (s.withWork t).withWork u = s.withWork u := rfl
    rw [← e, ← h.frame]
    exact g.frame
  tasks j hj := (g.tasks j hj).trans (h.tasks j hj)
  others b o ho hk := by
    obtain ⟨l, hl, ht⟩ := h.others b o ho hk
    obtain ⟨l', hl', hu⟩ := g.others b _ ht hk
    exact ⟨l', hl'.trans hl, hu⟩
  own b m hm hk := by
    obtain ⟨n, hn, hk'⟩ := h.own b m hm hk
    exact g.own b n hn hk'

/-- A block of the task replaced by one of the task. -/
theorem setBlock {b : Nat} {m m' : Block} (hm : s.blocks.get? b = some m) (hk : m.task = k) (hk' : m'.task = k) :
    OnlyTask k s (s.setBlock b m') where
  frame := rfl
  tasks _ _ := rfl
  others c o ho hne := by
    have hc : c ≠ b := by
      rintro rfl
      rw [hm] at ho
      cases ho
      exact hne hk
    exact ⟨o.saved, List.Sublist.refl _, (Tab.get?_set_ne _ hc _).trans ho⟩
  own c n hn hc := by
    by_cases hcb : c = b
    · exact ⟨m', hcb ▸ Tab.get?_set_self _ _ _, hk'⟩
    · exact ⟨n, (Tab.get?_set_ne _ hcb _).trans hn, hc⟩

theorem setTask (v : Task) : OnlyTask k s (s.setTask k v) where
  frame := rfl
  tasks _ hj := Tab.get?_set_ne _ hj _
  others _ o ho _ := ⟨o.saved, List.Sublist.refl _, ho⟩
  own _ m hm hk := ⟨m, hm, hk⟩

theorem foldl {α : Type} {f : State → α → State} (hf : ∀ u a, OnlyTask k u (f u a)) (l : List α) (s : State) :
    OnlyTask k s (l.foldl f s) := by
  induction l generalizing s with
  | nil => exact refl k s
  | cons a l ih => exact (hf s a).trans (ih _)

end OnlyTask

/-! ## Saved entries that find room (R178) -/

/-- A saved entry that enters its queue, or stays. -/
def Block.enterQueue (b : Block) (acc : Tab Mxu × List MxEntry) (e : MxEntry) : Tab Mxu × List MxEntry :=
  let u := 4 * b.core + e.group % 4
  let m := acc.1.get Mxu.init u
  if m.queue.length < 16 then (acc.1.put Mxu.init u { m with queue := m.queue ++ [{ e with started := false }] }, acc.2)
  else (acc.1, acc.2 ++ [e])

theorem enterQueue_sublist (b : Block) (l : List MxEntry) (acc : Tab Mxu × List MxEntry) :
    (l.foldl b.enterQueue acc).2.Sublist (acc.2 ++ l) := by
  induction l generalizing acc with
  | nil => rw [List.append_nil]; exact List.Sublist.refl _
  | cons e l ih =>
    refine (ih _).trans ?_
    have h : (b.enterQueue acc e).2.Sublist (acc.2 ++ [e]) := by
      unfold Block.enterQueue
      dsimp only
      split
      · exact List.sublist_append_left _ _
      · exact List.Sublist.refl _
    rw [List.append_cons acc.2 e l]
    exact h.append (List.Sublist.refl l)

/-- The saved entries of one block that enter their queues. -/
def State.refillBlock (s : State) (k : Nat) : State :=
  match s.blocks.get? k with
  | none => s
  | some b =>
    if b.saved = [] || b.phase ≠ .resident then s
    else
      { s with
        mxus := (b.saved.foldl b.enterQueue (s.mxus, [])).1
        blocks := s.blocks.set k { b with saved := (b.saved.foldl b.enterQueue (s.mxus, [])).2 } }

theorem refill_eq (s : State) : s.refill = s.blocks.keys.foldl State.refillBlock s := rfl

/-- A block with fewer saved entries. -/
theorem OnlyTask.fewerSaved {k b : Nat} {s : State} {m : Block} {l : List MxEntry} (x : Tab Mxu) (hm : s.blocks.get? b = some m)
    (hl : l.Sublist m.saved) : OnlyTask k s { s with mxus := x, blocks := s.blocks.set b { m with saved := l } } where
  frame := rfl
  tasks _ _ := rfl
  others c o ho _ := by
    by_cases hc : c = b
    · subst hc
      rw [hm] at ho
      cases ho
      exact ⟨l, hl, Tab.get?_set_self _ _ _⟩
    · exact ⟨o.saved, List.Sublist.refl _, (Tab.get?_set_ne _ hc _).trans ho⟩
  own c n hn hk := by
    by_cases hc : c = b
    · subst hc
      rw [hm] at hn
      cases hn
      exact ⟨_, Tab.get?_set_self _ _ _, hk⟩
    · exact ⟨n, (Tab.get?_set_ne _ hc _).trans hn, hk⟩

theorem OnlyTask.refillBlock (k b : Nat) (s : State) : OnlyTask k s (s.refillBlock b) := by
  unfold State.refillBlock
  cases hm : s.blocks.get? b with
  | none => exact .refl k s
  | some m =>
    dsimp only
    split
    · exact .refl k s
    · exact .fewerSaved _ hm (enterQueue_sublist m m.saved (s.mxus, []))

theorem OnlyTask.refill (k : Nat) (s : State) : OnlyTask k s s.refill := by
  rw [refill_eq]
  exact .foldl (fun u b => .refillBlock k b u) _ s

/-! ## The end of a task (R86, R153) -/

theorem Tab.get?_mapVal {α β : Type} (f : Nat → α → β) (t : Tab α) (k : Nat) : (t.mapVal f).get? k = (t.get? k).map (f k) := by
  show Tab.findIn k (t.rows.map (fun r => (r.1, f r.1 r.2))) = (Tab.findIn k t.rows).map (f k)
  induction t.rows with
  | nil => rfl
  | cons r l ih =>
    by_cases h : r.1 = k
    · simp only [List.map_cons, Tab.findIn, h, if_true, Option.map_some]
    · simp only [List.map_cons, Tab.findIn, h, if_false, ih]

/-- A block of a task that ended. -/
def Block.emptied (b : Block) : Block := { b with groups := b.groups.map (fun g => { g with foot := Foot.empty }), saved := [] }

/-- The blocks of a task that ended lose their footprints and saved entries. -/
def State.emptyBlocks (s : State) (k : Nat) : State :=
  { s with blocks := s.blocks.mapVal (fun _ b => if b.task = k then b.emptied else b) }

theorem OnlyTask.emptyBlocks (k : Nat) (s : State) : OnlyTask k s (s.emptyBlocks k) where
  frame := rfl
  tasks _ _ := rfl
  others b o ho hk := by
    refine ⟨o.saved, List.Sublist.refl _, (Tab.get?_mapVal _ _ _).trans ?_⟩
    rw [ho, Option.map_some, if_neg hk]
  own b m hm hk := by
    refine ⟨m.emptied, (Tab.get?_mapVal _ _ _).trans ?_, hk⟩
    rw [hm, Option.map_some, if_pos hk]

theorem OnlyTask.mxuDrop (k b : Nat) (s : State) : OnlyTask k s (s.mxuDrop b) := .quiet rfl rfl rfl

/-- What ends a task that has not ended. -/
theorem endTask_running {s : State} {k : Nat} {t : Task} {st : Status} {d : DWord} (ht : s.tasks.get? k = some t) (hn : t.state ≠ .ended) :
    s.endTask k st d = (((((s.setTask k { t with state := .ended, status := st, detail := d }).blocksOf k).foldl State.mxuDrop
      (s.setTask k { t with state := .ended, status := st, detail := d })).emptyBlocks k).refill) := by
  simp only [State.endTask, ht, hn, if_false]
  rfl

theorem OnlyTask.endTask (k : Nat) (st : Status) (d : DWord) (s : State) : OnlyTask k s (s.endTask k st d) := by
  cases ht : s.tasks.get? k with
  | none => simp only [State.endTask, ht]; exact .refl k s
  | some t =>
    by_cases hn : t.state = .ended
    · simp only [State.endTask, ht, hn, if_true]; exact .refl k s
    · rw [endTask_running ht hn]
      exact (((OnlyTask.setTask _).trans (.foldl (fun u b => .mxuDrop k b u) _ _)).trans (.emptyBlocks k _)).trans (.refill k _)

end Sys2Proof.Machine
end

section
/-! What the operations of an instruction reach (R544): each keeps `OnlyTask` of the instruction's own task. -/

namespace Sys2Proof.Machine

/-- The instruction stands in its own block. -/
def Ctx.Placed (x : Ctx) : Prop := x.s.blocks.get? x.r.block = some x.b

/-- A state that the instruction's task alone has led to, in which its block still is the task's. -/
structure Ctx.Reaches (x : Ctx) (t : State) : Prop where
  only : OnlyTask x.b.task x.s t
  block : ∃ m, t.blocks.get? x.r.block = some m ∧ m.task = x.b.task

theorem ctx?_placed {s : State} {r : GroupRef} {i : Ins} {x : Ctx} (h : s.ctx? r i = some x) : x.Placed := by
  unfold State.ctx? at h
  split at h
  · cases h
  next b hb =>
    split at h
    · split at h
      · cases h
        exact hb
      · cases h
    · cases h

section
variable {x : Ctx} {u : State}

namespace Ctx.Reaches

theorem start (hx : x.Placed) : x.Reaches x.s := ⟨.refl _ _, x.b, hx, rfl⟩

theorem step {t : State} (h : x.Reaches u) (g : OnlyTask x.b.task u t) : x.Reaches t := by
  obtain ⟨m, hm, hk⟩ := h.block
  exact ⟨h.only.trans g, g.own _ m hm hk⟩

theorem quiet {t : State} (h : x.Reaches u) (hf : t = u.withWork t) (hb : t.blocks = u.blocks) (ht : t.tasks = u.tasks) : x.Reaches t :=
  h.step (.quiet hf hb ht)

theorem foldl {α : Type} {f : State → α → State} (hf : ∀ u a, x.Reaches u → x.Reaches (f u a)) (l : List α) {u : State}
    (h : x.Reaches u) : x.Reaches (l.foldl f u) := by
  induction l generalizing u with
  | nil => exact h
  | cons a l ih => exact ih (hf u a h)

theorem ite {c : Prop} [Decidable c] {a b : State} (ha : x.Reaches a) (hb : x.Reaches b) : x.Reaches (if c then a else b) := by
  split
  · exact ha
  · exact hb

theorem setBlock (h : x.Reaches u) {m : Block} (hm : m.task = x.b.task) : x.Reaches (u.setBlock x.r.block m) := by
  obtain ⟨n, hn, hk⟩ := h.block
  exact h.step (.setBlock hn hk hm)

theorem putGroup (h : x.Reaches u) (g : Group) : x.Reaches (u.putGroup x.r g) := by
  obtain ⟨n, hn, hk⟩ := h.block
  unfold State.putGroup
  rw [hn]
  exact h.setBlock hk

theorem updGroup (h : x.Reaches u) (f : Group → Group) : x.Reaches (u.updGroup x.r f) := by
  unfold State.updGroup
  split
  · exact h
  · exact h.putGroup _

theorem setTask (h : x.Reaches u) (v : Task) : x.Reaches (u.setTask x.b.task v) := h.step (.setTask v)

theorem raise (h : x.Reaches u) (f : BitVec 16) : x.Reaches (u.raise x.b.task f) := by
  unfold State.raise
  split
  · exact h
  · exact h.setTask _

theorem noteAccess (h : x.Reaches u) (p va : Nat) (d : Home) : x.Reaches (u.noteAccess x.b.task p va d) := by
  unfold State.noteAccess
  dsimp only
  split
  · exact h
  · exact h.raise _

theorem addReq (h : x.Reaches u) (q : MemReq) : x.Reaches (u.addReq q).2 := h.quiet rfl rfl rfl

theorem nextId (h : x.Reaches u) (n : Nat) : x.Reaches { u with nextId := n } := h.quiet rfl rfl rfl

theorem smudge (h : x.Reaches u) (b : Nat) (l : List Nat) : x.Reaches (u.smudge b l) := h.quiet rfl rfl rfl

theorem setMxu (h : x.Reaches u) (n : Nat) (m : Mxu) : x.Reaches (u.setMxu n m) := h.quiet rfl rfl rfl

theorem setCore (h : x.Reaches u) (c : Nat) (k : Core) : x.Reaches (u.setCore c k) := h.quiet rfl rfl rfl

theorem stopFills (h : x.Reaches u) (c : Nat) (o : Option Home) : x.Reaches (u.stopFills c o) := h.quiet rfl rfl rfl

theorem layOver (h : x.Reaches u) (c : Nat) (d : Home) (v : BitVec 1024) (m : BitVec 128) : x.Reaches (u.layOver c d v m) :=
  h.quiet rfl rfl rfl

theorem l1Invalidate (h : x.Reaches u) (c : Nat) : x.Reaches (u.l1Invalidate c) := (h.setCore _ _).stopFills _ _

theorem l1Drop (h : x.Reaches u) (c : Nat) (d : Home) : x.Reaches (u.l1Drop c d) := (h.setCore _ _).stopFills _ _

theorem acquire (h : x.Reaches u) (c n : Nat) : x.Reaches (u.acquire c n) := .ite (h.l1Invalidate c) h

theorem l1Store (h : x.Reaches u) (c : Nat) (d : Home) (v : BitVec 1024) (m : BitVec 128) : x.Reaches (u.l1Store c d v m) := by
  unfold State.l1Store
  dsimp only
  split
  · exact h.layOver _ _ _ _
  · exact (h.layOver _ _ _ _).setCore _ _

theorem dropCopies (h : x.Reaches u) (c : Nat) (d : Home) : x.Reaches (u.dropCopies c d) := by
  refine foldl (fun v k hv => ?_) _ h
  cases d with
  | dev n => exact hv.l1Drop _ _
  | host n => exact hv.l1Drop _ _
  | peer a e n => exact hv.l1Drop _ _

theorem sendSpent (h : x.Reaches u) (src : Src) (p : Nat) (pc : DWord) (w : List Nat) (l : List (Nat × Home)) :
    x.Reaches (u.sendSpent src p pc w l) := foldl (fun _ _ hv => hv.addReq _) _ h

theorem takeFree (h : x.Reaches u) : x.Reaches u.takeFree.2 := h.quiet rfl rfl rfl

/-! ### Lines of an access -/

theorem loadLine {n w hint op : Nat} {signed cache : Bool} {acc : State × List Nat} (p : Nat × List (Nat × Nat)) (h : x.Reaches acc.1) :
    x.Reaches (x.loadLine n w hint op signed cache acc p).1 := by
  have asks : ∀ (q : MemReq) (g : Group), x.Reaches ((acc.1.addReq q).2.putGroup x.r g) := fun q g => (h.addReq q).putGroup g
  unfold Ctx.loadLine
  dsimp only
  split
  · split
    · split
      · exact h.putGroup _
      · exact asks _ _
    · exact asks _ _
  · exact h

theorem loadLines {n w hint op : Nat} {signed cache : Bool} (l : List (Nat × List (Nat × Nat))) {acc : State × List Nat}
    (h : x.Reaches acc.1) : x.Reaches (l.foldl (x.loadLine n w hint op signed cache) acc).1 := by
  induction l generalizing acc with
  | nil => exact h
  | cons p l ih => exact ih (loadLine p h)

theorem storeLanes {hint w : Nat} {val : Nat → Nat} (p : Nat × List (Nat × Nat)) (h : x.Reaches u) :
    x.Reaches (x.storeLanes hint w val u p) := by
  unfold Ctx.storeLanes
  split
  · exact h
  · exact ((h.l1Store _ _ _ _).noteAccess _ _ _).addReq _

theorem atomLanes {op : AtomOp} {w : Nat} {ret : Option Nat} {b c : Nat → Nat} {v : Via} (p : Nat × List (Nat × Nat)) (h : x.Reaches u) :
    x.Reaches (x.atomLanes op w ret b c v u p) := by
  unfold Ctx.atomLanes
  split
  · exact h
  · exact (((h.l1Drop _ _).noteAccess _ _ _).addReq _).updGroup _

end Ctx.Reaches

/-! ## What an instruction answers -/

/-- Every state that a body answers is one that the task alone leads to. -/
def Ctx.Confined (x : Ctx) (e : Except Stop State) : Prop := ∀ t, e = .ok t → x.Reaches t

namespace Ctx.Confined

theorem ok {t : State} (h : x.Reaches t) : x.Confined (.ok t) := by
  intro u e
  cases e
  exact h

theorem error (e : Stop) : x.Confined (.error e) := fun _ h => nomatch h

theorem bind {α : Type} {e : Except Stop α} {f : α → Except Stop State} (h : ∀ a, x.Confined (f a)) : x.Confined (e >>= f) := by
  cases e with
  | error e => exact error e
  | ok a => exact h a

theorem ite {c : Prop} [Decidable c] {a b : Except Stop State} (ha : x.Confined a) (hb : x.Confined b) :
    x.Confined (if c then a else b) := by
  split
  · exact ha
  · exact hb

theorem doneIn (h : x.Reaches u) (g : Group) : x.Confined (x.doneIn u g) := ok (h.putGroup _)

section
variable (hx : x.Placed)
include hx

theorem done (g : Group) : x.Confined (x.done g) := ok ((Reaches.start hx).putGroup _)

theorem doneBlock {m : Block} (hm : m.task = x.b.task) (g : Group) (l : List Nat) : x.Confined (x.doneBlock m g l) :=
  ok (((Reaches.start hx).setBlock (m := m.putGroup x.r.group.val { g with pc := x.nextPc }) hm).smudge _ _)

theorem goto (g : Group) : x.Confined (x.goto g) := ok ((Reaches.start hx).putGroup _)

theorem forGroup {e : Except Stop State} (h : x.Confined e) : x.Confined (x.forGroup e) := ite (done hx _) h

theorem write32 (f : Nat → Word) : x.Confined (x.write32 f) := bind fun _ => done hx _

theorem write64 (f : Nat → DWord) : x.Confined (x.write64 f) := bind fun _ => done hx _

theorem writeP (f : Nat → Bool) : x.Confined (x.writeP f) := bind fun _ => done hx _

theorem writeU (v : Word) : x.Confined (x.writeU v) := bind fun _ => done hx _

theorem writeU64 (v : DWord) : x.Confined (x.writeU64 v) := bind fun _ => done hx _

theorem setPred (f : Nat → Option Bool) : x.Confined (setPred f x) := bind fun _ => writeP hx _

theorem valu1 (f : Word → Word) : x.Confined (valu1 f x) := bind fun _ => write32 hx _

theorem valu2 (f : Word → Word → Word) : x.Confined (valu2 f x) := bind fun _ => bind fun _ => write32 hx _

theorem valu3 (f : Word → Word → Word → Word) : x.Confined (valu3 f x) := bind fun _ => bind fun _ => bind fun _ => write32 hx _

theorem valuPair (f : DWord → DWord → DWord) : x.Confined (valuPair f x) := bind fun _ => bind fun _ => write64 hx _

theorem valuWide (f : Word → Word → DWord → DWord) : x.Confined (valuWide f x) := bind fun _ => bind fun _ => bind fun _ => write64 hx _

theorem shuffle (f : Nat → Word → Int) : x.Confined (shuffle f x) := bind fun _ => bind fun _ => write32 hx _

theorem salu2 (f : Word → Word → Word) : x.Confined (salu2 f x) := forGroup hx (bind fun _ => bind fun _ => writeU hx _)

theorem special (n : Nat) : x.Reaches (x.special n).2 := by
  unfold Ctx.special
  dsimp only
  split
  case h_12 => exact (Reaches.start hx).takeFree
  case h_13 => exact (Reaches.start hx).takeFree
  all_goals exact Reaches.start hx

theorem branch (a : DWord) : x.Confined (x.branch a) := by
  refine ite (done hx _) (ite (goto hx _) ?_)
  extract_lets g next
  have hnext : ∀ l, x.Confined (next l) := fun l => done hx _
  split
  · exact ite (bind fun _ => hnext _) (bind fun _ => hnext _)
  · exact bind fun _ => hnext _

theorem atomic (op : AtomOp) (w : Nat) : x.Confined (atomic op w x) := by
  unfold Machine.atomic
  extract_lets v next
  have hnext : ∀ ret, x.Confined (next ret) := by
    refine fun ret => bind fun a => bind fun b => ?_
    extract_lets f send
    have hsend : ∀ c, x.Confined (send c) := fun c => bind fun _ => bind fun _ =>
      ok ((Reaches.foldl (fun _ p hv => hv.atomLanes p) _ (.start hx)).updGroup _)
    exact ite (bind fun _ => hsend _) (bind fun _ => hsend _)
  exact ite (bind fun _ => bind fun _ => hnext _) (bind fun _ => hnext _)

end

end Ctx.Confined

end

end Sys2Proof.Machine
end

section
/-! Instructions change only their task (R544): what each body reaches, and what follows of the command. -/

namespace Sys2Proof.Machine

/-- Every state in which an instruction ends well is one that its task alone leads to. -/
def Confines (c : GroupRef → Ins → Instr) : Prop :=
  ∀ s r i, ∃ body, exec (c r i) s = issue r i body s ∧ ∀ x, s.ctx? r i = some x → x.Confined (body x)

section
variable {c : GroupRef → Ins → Instr}

theorem confines_of {body : State → GroupRef → Ins → Ctx → Except Stop State} (he : ∀ s r i, exec (c r i) s = issue r i (body s r i) s)
    (hb : ∀ x : Ctx, x.Placed → x.Confined (body x.s x.r x.i x)) : Confines c := by
  refine fun s r i => ⟨_, he s r i, fun x hx => ?_⟩
  obtain ⟨hs, hr, hi⟩ := ctx?_state hx
  have h := hb x (ctx?_placed hx)
  rwa [hs, hr, hi] at h

/-! ## The shared operations -/

theorem confines_valu1 {f : Ins → Word → Word} (he : ∀ s r i, exec (c r i) s = issue r i (valu1 (f i)) s) : Confines c :=
  confines_of he fun _ hx => .valu1 hx _

theorem confines_valu2 {f : Ins → Word → Word → Word} (he : ∀ s r i, exec (c r i) s = issue r i (valu2 (f i)) s) : Confines c :=
  confines_of he fun _ hx => .valu2 hx _

theorem confines_valu3 {f : Ins → Word → Word → Word → Word} (he : ∀ s r i, exec (c r i) s = issue r i (valu3 (f i)) s) : Confines c :=
  confines_of he fun _ hx => .valu3 hx _

theorem confines_valuPair {f : DWord → DWord → DWord} (he : ∀ s r i, exec (c r i) s = issue r i (valuPair f) s) : Confines c :=
  confines_of he fun _ hx => .valuPair hx _

theorem confines_valuWide {f : Word → Word → DWord → DWord} (he : ∀ s r i, exec (c r i) s = issue r i (valuWide f) s) : Confines c :=
  confines_of he fun _ hx => .valuWide hx _

theorem confines_shuffle {f : Nat → Word → Int} (he : ∀ s r i, exec (c r i) s = issue r i (shuffle f) s) : Confines c :=
  confines_of he fun _ hx => .shuffle hx _

theorem confines_salu2 {f : Word → Word → Word} (he : ∀ s r i, exec (c r i) s = issue r i (salu2 f) s) : Confines c :=
  confines_of he fun _ hx => .salu2 hx _

theorem confines_atomic {op : AtomOp} {w : Nat} (he : ∀ s r i, exec (c r i) s = issue r i (atomic op w) s) : Confines c :=
  confines_of he fun _ hx => .atomic hx _ _

theorem writeL_task (l : List Nat) (a : Nat → Nat) (v : Block → Nat → List Byte) (b : Block) :
    (l.foldl (fun b k => b.writeL (a k) (v b k)) b).task = b.task := by
  induction l generalizing b with
  | nil => rfl
  | cons k l ih => exact ih _

theorem foldl_task {α : Type} {f : Block × Group → α → Block × Group} (hf : ∀ p k, (f p k).1.task = p.1.task) (l : List α)
    (p : Block × Group) : (l.foldl f p).1.task = p.1.task := by
  induction l generalizing p with
  | nil => rfl
  | cons k l ih => exact (ih _).trans (hf p k)

theorem confined_localAtomic {x : Ctx} (hx : x.Placed) (useC : Bool) (f : Word → Word → Word → Word) :
    x.Confined (localAtomic useC f x) := by
  refine .bind fun _ => .bind fun b => ?_
  extract_lets ret last
  have hlast : ∀ c, x.Confined (last c) := by
    intro c
    show x.Confined (if ret = true then _ else _)
    refine .ite (.bind fun _ => .bind fun _ => .bind fun _ => ?_) (.bind fun _ => .bind fun _ => .bind fun _ => ?_)
    · refine .doneBlock hx (foldl_task ?_ _ _) _ _
      exact fun _ _ => rfl
    · refine .doneBlock hx (foldl_task ?_ _ _) _ _
      exact fun _ _ => rfl
  exact .ite (.bind fun _ => hlast _) (.bind fun _ => hlast _)

theorem confines_localAtomic {useC : Bool} {f : Ins → Word → Word → Word → Word}
    (he : ∀ s r i, exec (c r i) s = issue r i (localAtomic useC (f i)) s) : Confines c :=
  confines_of he fun _ hx => confined_localAtomic hx _ _

theorem settleBar_task (b : Block) (n : Nat) : (b.settleBar n).task = b.task := by
  unfold Block.settleBar
  dsimp only
  split
  · rfl
  · split
    · rfl
    · rfl

theorem settleBars_task (b : Block) : b.settleBars.task = b.task := by
  unfold Block.settleBars
  generalize List.range 16 = l
  induction l generalizing b with
  | nil => rfl
  | cons n l ih => exact (ih _).trans (settleBar_task b n)

theorem confined_barrier {x : Ctx} (hx : x.Placed) (hold : Bool) : x.Confined (barrier hold x) := by
  refine .forGroup hx ?_
  dsimp only
  have hend : ∀ g n count f m, x.Confined (.ok (({ x.s with nextId := x.s.nextId + 1 }.setBlock x.r.block
      (((x.b.putGroup x.r.group.val g).arrive m n count).settleBar m)).raise x.b.task f)) := fun g n count f m =>
    .ok ((((Ctx.Reaches.start hx).nextId _).setBlock
      (settleBar_task ((x.b.putGroup x.r.group.val g).arrive m n count) m)).raise _)
  split
  · exact .bind fun _ => .bind fun _ => .bind fun _ => hend _ _ _ _ _
  · exact .bind fun _ => .bind fun _ => .bind fun _ => hend _ _ _ _ _

theorem confines_barrier {hold : Bool} (he : ∀ s r i, exec (c r i) s = issue r i (barrier hold) s) : Confines c :=
  confines_of he fun _ hx => confined_barrier hx _

theorem confined_tileIssue {x : Ctx} (hx : x.Placed) (store : Bool) : x.Confined (tileIssue store x) := by
  refine .forGroup hx (.bind fun _ => .bind fun _ => .bind fun _ => .bind fun _ => .bind fun _ => .bind fun _ => .bind fun _ =>
    .bind fun _ => .ok ?_)
  refine Ctx.Reaches.setBlock ?_ rfl
  refine Ctx.Reaches.quiet (Ctx.Reaches.smudge (Ctx.Reaches.raise (Ctx.Reaches.foldl (fun u k hu => ?_) _ (.start hx)) _) _ _) rfl rfl rfl
  split
  · exact hu.noteAccess _ _ _
  · exact hu

theorem confines_tile {store : Bool} (he : ∀ s r i, exec (c r i) s = issue r i (tileIssue store) s) : Confines c :=
  confines_of he fun _ hx => confined_tileIssue hx _

/-! ## Matrix instructions -/

theorem confined_enqueue {x : Ctx} (hx : x.Placed) (op : MxOp) (units : List Nat) (slot : Option Nat) (g : Group) :
    x.Confined (x.enqueue op units slot g) := by
  have waits : x.Confined (.ok { x.s.putGroup x.r { x.g with foot := { x.g.foot with st := .waiting x.s.nextId } } with
      nextId := x.s.nextId + 1 }) := .ok (((Ctx.Reaches.start hx).putGroup _).nextId _)
  refine .bind fun _ => .bind fun _ => ?_
  split
  · exact waits
  · exact waits
  · exact .error _
  · exact .bind fun _ => .doneIn ((((Ctx.Reaches.start hx).smudge _ _).nextId _).setMxu _ _) _

theorem confined_mxiMma {x : Ctx} (hx : x.Placed) (repro : Bool) : x.Confined (mxiMma repro x) := by
  refine .forGroup hx (.bind fun _ => .bind fun _ => .bind fun _ => .bind fun _ => ?_)
  dsimp only
  split
  · exact .bind fun _ => .bind fun _ => .bind fun _ => confined_enqueue hx _ _ _ _
  · exact .error _

theorem confines_mxiMma {repro : Bool} (he : ∀ s r i, exec (c r i) s = issue r i (mxiMma repro) s) : Confines c :=
  confines_of he fun _ hx => confined_mxiMma hx _

theorem confined_mxfMma {x : Ctx} (hx : x.Placed) (repro masked : Bool) : x.Confined (mxfMma repro masked x) := by
  refine .forGroup hx (.ite (.error _) (.bind fun _ => ?_))
  split
  · exact .bind fun _ => .bind fun _ => .bind fun _ => .bind fun _ => .bind fun _ => confined_enqueue hx _ _ _ _
  · exact .error _

theorem confines_mxfMma {repro masked : Bool} (he : ∀ s r i, exec (c r i) s = issue r i (mxfMma repro masked) s) : Confines c :=
  confines_of he fun _ hx => confined_mxfMma hx _ _

end

theorem confines_mxiAclr : Confines .mxiAclr := by
  refine confines_of (fun _ _ _ => rfl) fun x hx => ?_
  exact .forGroup hx (.bind fun _ => .bind fun _ => .bind fun _ => confined_enqueue hx _ _ _ _)

theorem confines_mxiArd : Confines .mxiArd := by
  refine confines_of (fun _ _ _ => rfl) fun x hx => ?_
  exact .forGroup hx (.bind fun _ => .bind fun _ => .bind fun _ => .bind fun _ => .bind fun _ => .bind fun _ => .bind fun _ =>
    .bind fun _ => confined_enqueue hx _ _ _ _)

theorem confines_mxiArd128 : Confines .mxiArd128 := by
  refine confines_of (fun _ _ _ => rfl) fun x hx => ?_
  exact .forGroup hx (.bind fun _ => .bind fun _ => .bind fun _ => .bind fun _ => .bind fun _ => confined_enqueue hx _ _ _ _)

theorem confines_mxiAld : Confines .mxiAld := by
  refine confines_of (fun _ _ _ => rfl) fun x hx => ?_
  exact .forGroup hx (.bind fun _ => .bind fun _ => .bind fun _ => .bind fun _ => .bind fun _ => confined_enqueue hx _ _ _ _)

theorem confines_mxfArd : Confines .mxfArd := by
  refine confines_of (fun _ _ _ => rfl) fun x hx => ?_
  exact .forGroup hx (.bind fun _ => .bind fun _ => .bind fun _ => confined_enqueue hx _ _ _ _)

/-! ## Local and global memory -/

theorem confines_lds : Confines .lds := by
  refine confines_of (fun _ _ _ => rfl) fun x hx => ?_
  exact .bind fun _ => .bind fun _ => .bind fun _ => .bind fun _ => .done hx _

theorem confines_sts : Confines .sts := by
  refine confines_of (fun _ _ _ => rfl) fun x hx => ?_
  exact .bind fun w => .bind fun n => .bind fun f => .bind fun _ =>
    .doneBlock hx (writeL_task _ f (fun _ l => bytesOf w (x.vNum n (regsFor w) l)) _) _ _

theorem confines_ld : Confines .ld := by
  refine confines_of (fun _ _ _ => rfl) fun x hx => ?_
  refine .bind fun w => .bind fun n => .bind fun f => .bind fun _ => .bind fun _ => .bind fun _ => .ok (Ctx.Reaches.updGroup ?_ _)
  have hloaded := Ctx.Reaches.loadLines (x := x) (n := n) (w := w) (hint := field x.i.mod 0 2) (op := x.s.nextId)
    (signed := x.i.mod.getLsbD 6) (cache := !x.i.mod.getLsbD 2) (lineGroups f (lanesIn x.sel))
    (acc := ((lanesIn x.sel).foldl (fun s l => match s.homeOf x.t.part (f l) with
      | some h => s.noteAccess x.b.task x.t.part (f l) h
      | none => s) { x.s with nextId := x.s.nextId + 1 }, [])) (Ctx.Reaches.foldl (fun u l hu => by
        split
        · exact hu.noteAccess _ _ _
        · exact hu) _ ((Ctx.Reaches.start hx).nextId _))
  refine .ite hloaded (.ite ?_ ?_)
  · exact Ctx.Reaches.foldl (fun _ _ hu => hu.dropCopies _ _) _ (hloaded.sendSpent _ _ _ _ _)
  · exact (hloaded.sendSpent _ _ _ _ _).quiet rfl rfl rfl

theorem confines_st : Confines .st := by
  refine confines_of (fun _ _ _ => rfl) fun x hx => ?_
  refine .bind fun _ => .bind fun _ => .bind fun _ => .bind fun _ => .bind fun _ => .bind fun _ => .doneIn ?_ _
  exact Ctx.Reaches.foldl (fun _ p hu => hu.storeLanes p) _ (.ite ((Ctx.Reaches.start hx).raise _) (.start hx))

theorem confines_prefetch : Confines .prefetch := by
  refine confines_of (fun _ _ _ => rfl) fun x hx => ?_
  refine .bind fun _ => .bind fun _ => .bind fun _ => .bind fun _ => .doneIn ?_ _
  refine Ctx.Reaches.foldl (fun u p hu => ?_) _ (.ite ((Ctx.Reaches.start hx).raise _) (.start hx))
  split
  · exact hu.addReq _
  · exact hu

/-! ## Vector and uniform instructions with a form of their own -/

theorem confines_isetp : Confines .isetp := by
  refine confines_of (fun _ _ _ => rfl) fun x hx => ?_
  exact .bind fun _ => .bind fun _ => .setPred hx _

theorem confines_isetp64 : Confines .isetp64 := by
  refine confines_of (fun _ _ _ => rfl) fun x hx => ?_
  exact .bind fun _ => .bind fun _ => .setPred hx _

theorem confines_fsetp : Confines .fsetp := by
  refine confines_of (fun _ _ _ => rfl) fun x hx => ?_
  exact .bind fun _ => .bind fun _ => .setPred hx _

theorem confines_plop : Confines .plop := by
  refine confines_of (fun _ _ _ => rfl) fun x hx => ?_
  exact .bind fun _ => .bind fun _ => .setPred hx _

theorem confines_sel : Confines .sel := by
  refine confines_of (fun _ _ _ => rfl) fun x hx => ?_
  exact .bind fun _ => .bind fun _ => .write32 hx _

theorem confines_p2v : Confines .p2v := by
  refine confines_of (fun _ _ _ => rfl) fun x hx => ?_
  exact .write32 hx _

theorem confines_v2p : Confines .v2p := by
  refine confines_of (fun _ _ _ => rfl) fun x hx => ?_
  exact .bind fun _ => .writeP hx _

theorem confines_mov64 : Confines .mov64 := by
  refine confines_of (fun _ _ _ => rfl) fun x hx => ?_
  exact .bind fun _ => .write64 hx _

theorem confines_s2v : Confines .s2v := by
  refine confines_of (fun _ _ _ => rfl) fun x hx => ?_
  exact .bind fun _ => .doneIn (Ctx.Confined.special hx _) _

theorem confines_cvt : Confines .cvt := by
  refine confines_of (fun _ _ _ => rfl) fun x hx => .bind fun _ => ?_
  split
  · exact .write32 hx _
  · exact .error _

theorem confines_cvt2 : Confines .cvt2 := by
  refine confines_of (fun _ _ _ => rfl) fun x hx => ?_
  exact .bind fun _ => .bind fun _ => .bind fun _ => .write32 hx _

theorem confines_voteAll : Confines .voteAll := by
  refine confines_of (fun _ _ _ => rfl) fun x hx => ?_
  exact .writeP hx _

theorem confines_voteAny : Confines .voteAny := by
  refine confines_of (fun _ _ _ => rfl) fun x hx => ?_
  exact .writeP hx _

theorem confines_voteBallot : Confines .voteBallot := by
  refine confines_of (fun _ _ _ => rfl) fun x hx => ?_
  exact .write32 hx _

theorem confines_umov : Confines .umov := by
  refine confines_of (fun _ _ _ => rfl) fun x hx => ?_
  exact .forGroup hx (.bind fun _ => .writeU hx _)

theorem confines_uadd64 : Confines .uadd64 := by
  refine confines_of (fun _ _ _ => rfl) fun x hx => ?_
  exact .forGroup hx (.bind fun _ => .bind fun _ => .writeU64 hx _)

theorem confines_umov64 : Confines .umov64 := by
  refine confines_of (fun _ _ _ => rfl) fun x hx => ?_
  exact .forGroup hx (.bind fun _ => .writeU64 hx _)

theorem confines_usetp : Confines .usetp := by
  refine confines_of (fun _ _ _ => rfl) fun x hx => .forGroup hx (.bind fun _ => .bind fun _ => .bind fun _ => ?_)
  split
  · exact .error _
  · exact .done hx _

theorem confines_usel : Confines .usel := by
  refine confines_of (fun _ _ _ => rfl) fun x hx => ?_
  exact .forGroup hx (.bind fun _ => .bind fun _ => .writeU hx _)

theorem confines_s2u : Confines .s2u := by
  refine confines_of (fun _ _ _ => rfl) fun x hx => ?_
  exact .forGroup hx (.bind fun _ => .doneIn (Ctx.Confined.special hx _) _)

theorem confines_laneToUniform : Confines .laneToUniform := by
  refine confines_of (fun _ _ _ => rfl) fun x hx => ?_
  exact .forGroup hx (.bind fun _ => .writeU hx _)

theorem confines_ldp : Confines .ldp := by
  refine confines_of (fun _ _ _ => rfl) fun x hx => ?_
  exact .forGroup hx (.bind fun _ => .bind fun _ => .bind fun _ => .bind fun _ => .done hx _)

/-! ## Semaphores, fences and control -/

theorem confines_semAcq : Confines .semAcq := by
  refine confines_of (fun _ _ _ => rfl) fun x hx => .forGroup hx (.bind fun _ => .bind fun _ => .ite ?_ ?_)
  · exact .bind fun _ => .doneIn ((Ctx.Reaches.start hx).acquire _ _) _
  · exact .ok ((((Ctx.Reaches.start hx).noteAccess _ _ _).addReq _).putGroup _)

theorem confines_semRel : Confines .semRel := by
  refine confines_of (fun _ _ _ => rfl) fun x hx => ?_
  exact .forGroup hx (.bind fun _ => .bind fun _ => .doneIn ((((Ctx.Reaches.start hx).noteAccess _ _ _).l1Drop _ _).addReq _) _)

theorem confines_fenceAcq : Confines .fenceAcq := by
  refine confines_of (fun _ _ _ => rfl) fun x hx => ?_
  exact .forGroup hx (.bind fun _ => .bind fun _ => .doneIn (.ite (.start hx) ((Ctx.Reaches.start hx).acquire _ _)) _)

theorem confines_fenceRel : Confines .fenceRel := by
  refine confines_of (fun _ _ _ => rfl) fun x hx => ?_
  exact .forGroup hx (.ite (.done hx _) (.done hx _))

theorem confines_fenceAr : Confines .fenceAr := by
  refine confines_of (fun _ _ _ => rfl) fun x hx => ?_
  exact .forGroup hx (.bind fun _ => .bind fun _ => .bind fun _ => .doneIn (.ite (.start hx) ((Ctx.Reaches.start hx).acquire _ _)) _)

theorem confines_lbxFence : Confines .lbxFence := by
  refine confines_of (fun _ _ _ => rfl) fun x hx => ?_
  exact .forGroup hx (.done hx _)

theorem confines_nop : Confines .nop := by
  refine confines_of (fun s r i => show execNop r i s = _ from rfl) fun x hx => ?_
  exact .done hx _

theorem confines_bra : Confines .bra := by
  refine confines_of (fun _ _ _ => rfl) fun x hx => ?_
  exact .branch hx _

theorem confines_brx : Confines .brx := by
  refine confines_of (fun _ _ _ => rfl) fun x hx => ?_
  exact .ite (.done hx _) (.bind fun _ => .branch hx _)

theorem confines_call : Confines .call := by
  refine confines_of (fun _ _ _ => rfl) fun x hx => ?_
  exact .forGroup hx (.bind fun _ => .goto hx _)

theorem confines_ret : Confines .ret := by
  refine confines_of (fun _ _ _ => rfl) fun x hx => ?_
  split
  · exact .error _
  · split
    · exact .error _
    · exact .goto hx _
    · exact .goto hx _

theorem confines_joinPush : Confines .joinPush := by
  refine confines_of (fun _ _ _ => rfl) fun x hx => ?_
  exact .bind fun _ => .done hx _

theorem confines_join : Confines .join := by
  refine confines_of (fun _ _ _ => rfl) fun x hx => ?_
  split
  · exact .error _
  · split
    · exact .error _
    · exact .goto hx _
    · exact .ite (.goto hx _) (.error _)

theorem confines_exit : Confines .exit := by
  refine confines_of (fun _ _ _ => rfl) fun x hx => ?_
  exact .forGroup hx (.ok ((Ctx.Reaches.start hx).setBlock (settleBars_task (x.b.putGroup x.r.group.val _))))

theorem confines_wait : Confines .wait := by
  refine confines_of (fun _ _ _ => rfl) fun x hx => ?_
  refine .forGroup hx (.bind fun _ => .bind fun _ => .ok ?_)
  exact (Ctx.Reaches.start hx).setBlock rfl

/-! ## Every instruction but POUR -/

theorem confines_integerAndFloat : ∀ c ∈ ([
    .iadd, .isub, .imul, .imulhiS, .imulhiU, .imad, .iminS, .iminU, .imaxS, .imaxU, .iabs, .iadd64, .isub64, .imadwU, .imadwS, .fadd,
    .fsub, .fmul, .ffma, .fmin, .fmax, .fabs, .fneg, .frint, .ftrunc, .ffloor, .fceil, .hadd2, .hsub2, .hmul2, .hfma2, .hmin2, .hmax2,
    .isetp, .isetp64, .fsetp, .sel, .plop, .p2v, .v2p] : List (GroupRef → Ins → Instr)), Confines c := by
  simp only [List.forall_mem_cons]
  exact ⟨
    confines_valu2 fun _ _ _ => rfl, confines_valu2 fun _ _ _ => rfl, confines_valu2 fun _ _ _ => rfl, confines_valu2 fun _ _ _ => rfl,
    confines_valu2 fun _ _ _ => rfl, confines_valu3 fun _ _ _ => rfl, confines_valu2 fun _ _ _ => rfl, confines_valu2 fun _ _ _ => rfl,
    confines_valu2 fun _ _ _ => rfl, confines_valu2 fun _ _ _ => rfl, confines_valu1 fun _ _ _ => rfl, confines_valuPair fun _ _ _ => rfl,
    confines_valuPair fun _ _ _ => rfl, confines_valuWide fun _ _ _ => rfl, confines_valuWide fun _ _ _ => rfl, confines_valu2 fun _ _ _
    => rfl, confines_valu2 fun _ _ _ => rfl, confines_valu2 fun _ _ _ => rfl, confines_valu3 fun _ _ _ => rfl, confines_valu2 fun _ _ _ =>
    rfl, confines_valu2 fun _ _ _ => rfl, confines_valu1 fun _ _ _ => rfl, confines_valu1 fun _ _ _ => rfl, confines_valu1 fun _ _ _ =>
    rfl, confines_valu1 fun _ _ _ => rfl, confines_valu1 fun _ _ _ => rfl, confines_valu1 fun _ _ _ => rfl, confines_valu2 fun _ _ _ =>
    rfl, confines_valu2 fun _ _ _ => rfl, confines_valu2 fun _ _ _ => rfl, confines_valu3 fun _ _ _ => rfl, confines_valu2 fun _ _ _ =>
    rfl, confines_valu2 fun _ _ _ => rfl, confines_isetp, confines_isetp64, confines_fsetp, confines_sel, confines_plop, confines_p2v,
    confines_v2p,
    fun _ h => nomatch h⟩

theorem confines_logicAndScalar : ∀ c ∈ ([
    .and, .or, .xor, .not, .shl, .shrU, .shrS, .bfeU, .bfeS, .bfi, .popc, .clz, .brev, .mov, .mov64, .s2v, .cvt, .cvt2, .rcp, .rsq, .sqrt,
    .ex2, .lg2, .sin, .cos, .shflIdx, .shflUp, .shflDown, .shflXor, .voteAll, .voteAny, .voteBallot, .uadd, .usub, .umul, .uminS, .uminU,
    .umaxS, .umaxU, .uand] : List (GroupRef → Ins → Instr)), Confines c := by
  simp only [List.forall_mem_cons]
  exact ⟨
    confines_valu2 fun _ _ _ => rfl, confines_valu2 fun _ _ _ => rfl, confines_valu2 fun _ _ _ => rfl, confines_valu1 fun _ _ _ => rfl,
    confines_valu2 fun _ _ _ => rfl, confines_valu2 fun _ _ _ => rfl, confines_valu2 fun _ _ _ => rfl, confines_valu2 fun _ _ _ => rfl,
    confines_valu2 fun _ _ _ => rfl, confines_valu3 fun _ _ _ => rfl, confines_valu1 fun _ _ _ => rfl, confines_valu1 fun _ _ _ => rfl,
    confines_valu1 fun _ _ _ => rfl, confines_valu1 fun _ _ _ => rfl, confines_mov64, confines_s2v, confines_cvt, confines_cvt2,
    confines_valu1 fun _ _ _ => rfl, confines_valu1 fun _ _ _ => rfl, confines_valu1 fun _ _ _ => rfl, confines_valu1 fun _ _ _ => rfl,
    confines_valu1 fun _ _ _ => rfl, confines_valu1 fun _ _ _ => rfl, confines_valu1 fun _ _ _ => rfl, confines_shuffle fun _ _ _ => rfl,
    confines_shuffle fun _ _ _ => rfl, confines_shuffle fun _ _ _ => rfl, confines_shuffle fun _ _ _ => rfl, confines_voteAll,
    confines_voteAny, confines_voteBallot, confines_salu2 fun _ _ _ => rfl, confines_salu2 fun _ _ _ => rfl, confines_salu2 fun _ _ _ =>
    rfl, confines_salu2 fun _ _ _ => rfl, confines_salu2 fun _ _ _ => rfl, confines_salu2 fun _ _ _ => rfl, confines_salu2 fun _ _ _ =>
    rfl, confines_salu2 fun _ _ _ => rfl,
    fun _ h => nomatch h⟩

theorem confines_memoryAndMatrix : ∀ c ∈ ([
    .uor, .uxor, .ushl, .ushrU, .ushrS, .umov, .uadd64, .umov64, .usetp, .usel, .s2u, .laneToUniform, .ldp, .ld, .st, .prefetch, .lds,
    .sts, .atomsAdd, .atomsMin, .atomsMax, .atomsExch, .atomsCas, .tld, .tst, .mxiMma, .mxiMmaR, .mxiAclr, .mxiArd, .mxiArd128, .mxiAld,
    .mxfMma, .mxfMmaR, .mxfMmaMasked, .mxfMmaRMasked, .mxfArd, .barSync, .barArrive, .semAcq, .semRel] : List (GroupRef → Ins → Instr)), Confines c := by
  simp only [List.forall_mem_cons]
  exact ⟨
    confines_salu2 fun _ _ _ => rfl, confines_salu2 fun _ _ _ => rfl, confines_salu2 fun _ _ _ => rfl, confines_salu2 fun _ _ _ => rfl,
    confines_salu2 fun _ _ _ => rfl, confines_umov, confines_uadd64, confines_umov64, confines_usetp, confines_usel, confines_s2u,
    confines_laneToUniform, confines_ldp, confines_ld, confines_st, confines_prefetch, confines_lds, confines_sts, confines_localAtomic
    fun _ _ _ => rfl, confines_localAtomic fun _ _ _ => rfl, confines_localAtomic fun _ _ _ => rfl, confines_localAtomic fun _ _ _ => rfl,
    confines_localAtomic fun _ _ _ => rfl, confines_tile fun _ _ _ => rfl, confines_tile fun _ _ _ => rfl, confines_mxiMma fun _ _ _ =>
    rfl, confines_mxiMma fun _ _ _ => rfl, confines_mxiAclr, confines_mxiArd, confines_mxiArd128, confines_mxiAld, confines_mxfMma fun _ _
    _ => rfl, confines_mxfMma fun _ _ _ => rfl, confines_mxfMma fun _ _ _ => rfl, confines_mxfMma fun _ _ _ => rfl, confines_mxfArd,
    confines_barrier fun _ _ _ => rfl, confines_barrier fun _ _ _ => rfl, confines_semAcq, confines_semRel,
    fun _ h => nomatch h⟩

theorem confines_orderAndControl : ∀ c ∈ ([
    .fenceAcq, .fenceRel, .fenceAr, .lbxFence, .atomAddU32, .atomAddU64, .atomMinS32, .atomMinU32, .atomMaxS32, .atomMaxU32, .atomMinS64,
    .atomMinU64, .atomMaxS64, .atomMaxU64, .atomAndB32, .atomOrB32, .atomXorB32, .atomAndB64, .atomOrB64, .atomXorB64, .atomExchB32,
    .atomExchB64, .atomCasB32, .atomCasB64, .atomCasB128, .atomAddF32, .fxadd128, .nop, .bra, .brx, .call, .ret, .joinPush, .join, .exit,
    .wait] : List (GroupRef → Ins → Instr)), Confines c := by
  simp only [List.forall_mem_cons]
  exact ⟨
    confines_fenceAcq, confines_fenceRel, confines_fenceAr, confines_lbxFence, confines_atomic fun _ _ _ => rfl, confines_atomic fun _ _ _
    => rfl, confines_atomic fun _ _ _ => rfl, confines_atomic fun _ _ _ => rfl, confines_atomic fun _ _ _ => rfl, confines_atomic fun _ _
    _ => rfl, confines_atomic fun _ _ _ => rfl, confines_atomic fun _ _ _ => rfl, confines_atomic fun _ _ _ => rfl, confines_atomic fun _
    _ _ => rfl, confines_atomic fun _ _ _ => rfl, confines_atomic fun _ _ _ => rfl, confines_atomic fun _ _ _ => rfl, confines_atomic fun
    _ _ _ => rfl, confines_atomic fun _ _ _ => rfl, confines_atomic fun _ _ _ => rfl, confines_atomic fun _ _ _ => rfl, confines_atomic
    fun _ _ _ => rfl, confines_atomic fun _ _ _ => rfl, confines_atomic fun _ _ _ => rfl, confines_atomic fun _ _ _ => rfl,
    confines_atomic fun _ _ _ => rfl, confines_atomic fun _ _ _ => rfl, confines_nop, confines_bra, confines_brx, confines_call,
    confines_ret, confines_joinPush, confines_join, confines_exit, confines_wait,
    fun _ h => nomatch h⟩

theorem instruction_confines : ∀ c ∈ instructionCommands, Confines c := by
  unfold instructionCommands
  simp only [List.forall_mem_append]
  exact ⟨⟨⟨confines_integerAndFloat, confines_logicAndScalar⟩, confines_memoryAndMatrix⟩, confines_orderAndControl⟩

end Sys2Proof.Machine
end

section
/-! Instructions change only their task (R544). -/

namespace Sys2Proof.Machine

section
variable {s t : State} {r : GroupRef} {i : Ins}

theorem ctx?_noBlock (h : s.blocks.get? r.block = none) : s.ctx? r i = none := by
  simp only [State.ctx?, h]

/-- What an instruction ends in: the state as it was, or one that its task alone led to. -/
theorem issue_cases {body : Ctx → Except Stop State} (hb : ∀ x, s.ctx? r i = some x → x.Confined (body x))
    (h : issue r i body s = .next t) : t = s ∨ ∃ b, s.blocks.get? r.block = some b ∧ OnlyTask b.task s t := by
  cases hx : s.ctx? r i with
  | none =>
    simp only [issue, hx] at h
    exact .inl (Host.Outcome.next.inj h).symm
  | some x =>
    obtain ⟨hs, hr, -⟩ := ctx?_state hx
    have hp : s.blocks.get? r.block = some x.b := by rw [← hs, ← hr]; exact ctx?_placed hx
    refine .inr ⟨x.b, hp, ?_⟩
    simp only [issue, hx] at h
    split at h
    · cases h
      exact .endTask _ _ _ _
    · split at h
      next u hu =>
        cases h
        rw [← hs]
        exact (hb x hx _ hu).only
      · cases h
        exact .refl _ _
      · cases h
        exact .endTask _ _ _ _

end

/-- Settles O57: what every instruction reaches is its own task's work. -/
theorem instructionsChangeOnlyTheirTask : Obligations.InstructionsChangeOnlyTheirTask := by
  intro c hc s t r i h
  obtain ⟨body, he, hb⟩ := instruction_confines c hc s r i
  rw [he] at h
  rcases issue_cases hb h with rfl | ⟨b, hblock, ho⟩
  · exact ⟨rfl, fun _ => ⟨rfl, rfl⟩, fun _ => rfl, fun mine _ => ⟨fun _ _ => rfl, fun k o ho _ => ⟨o.saved, List.Sublist.refl _, ho⟩⟩⟩
  · refine ⟨ho.frame, fun a => ?_, fun hn => ?_, fun mine hm => ?_⟩
    · rw [ho.frame]
      exact ⟨rfl, rfl⟩
    · rw [hblock] at hn
      cases hn
    · cases hblock.symm.trans hm
      exact ⟨ho.tasks, ho.others⟩

end Sys2Proof.Machine
end

section
/-! What every command keeps (R540, R542): the relation, how it runs through branches, folds and answers, and the operations that write
memory or the log. -/

namespace Sys2Proof.Machine

/-- The parts of a state that `State.keeps` speaks of. -/
def State.kept (s : State) : List Instr × Fuses × Tab Byte × Tab Byte × List LogRec × Nat :=
  (s.pending, s.fuses, s.hbm, s.hostMem, s.flash.log, s.flash.nextSeq)

/-- Every state that may come of an operation keeps. -/
def State.keepsSome (s : State) (o : Option State) : Prop := ∀ t, o = some t → s.keeps t

/-- Every state that a request's body answers in keeps. -/
def State.keepsAns (s : State) (a : Except MbStatus Ans) : Prop := ∀ b, a = .ok b → s.keeps b.s

section
variable {s₀ s t : State}

namespace State.keeps

theorem refl (s : State) : s.keeps s := ⟨rfl, rfl, Nat.le_refl _, id⟩

theorem trans (h : s₀.keeps s) (g : s.keeps t) : s₀.keeps t := by
  obtain ⟨hp, hf, hn, hs⟩ := h
  obtain ⟨gp, gf, gn, gs⟩ := g
  exact ⟨gp.trans hp, gf.trans hf, Nat.le_trans hn gn, fun x => gs (hs x)⟩

/-- A step that leaves those parts as they are. -/
theorem still (h : s₀.keeps s) (e : t.kept = s.kept) : s₀.keeps t := by
  simp only [State.kept, Prod.mk.injEq] at e
  obtain ⟨hp, hf, hb, hm, hl, hn⟩ := e
  refine h.trans ⟨hp, hf, hn.ge, fun ⟨wb, wm, hr, hlt⟩ => ⟨hb ▸ wb, hm ▸ wm, ?_, ?_⟩⟩
  · rw [hl]; exact hr
  · rw [hl, hn]; exact hlt

theorem ite {c : Prop} [Decidable c] (hs : s₀.keeps s) (ht : s₀.keeps t) : s₀.keeps (if c then s else t) := by
  split
  · exact hs
  · exact ht

theorem foldl {α : Type} {f : State → α → State} (hf : ∀ u a, s₀.keeps u → s₀.keeps (f u a)) (l : List α) {u : State} (h : s₀.keeps u) :
    s₀.keeps (l.foldl f u) := by
  induction l generalizing u with
  | nil => exact h
  | cons a l ih => exact ih (hf u a h)

end State.keeps

namespace State.keepsSome

theorem some (h : s₀.keeps s) : s₀.keepsSome (some s) := by
  intro t e
  cases e
  exact h

theorem none : s₀.keepsSome none := fun _ e => nomatch e

theorem ite {c : Prop} [Decidable c] {a b : Option State} (ha : s₀.keepsSome a) (hb : s₀.keepsSome b) :
    s₀.keepsSome (if c then a else b) := by
  split
  · exact ha
  · exact hb

theorem getD {o : Option State} (ho : s₀.keepsSome o) (h : s₀.keeps s) : s₀.keeps (o.getD s) := by
  cases o with
  | none => exact h
  | some t => exact ho t rfl

theorem bind {o : Option State} {f : State → Option State} (ho : s₀.keepsSome o) (hf : ∀ u, s₀.keeps u → s₀.keepsSome (f u)) :
    s₀.keepsSome (o.bind f) := by
  cases o with
  | none => exact none
  | some u => exact hf u (ho u rfl)

theorem map {o : Option State} {f : State → State} (ho : s₀.keepsSome o) (hf : ∀ u, s₀.keeps u → s₀.keeps (f u)) :
    s₀.keepsSome (o.map f) := by
  cases o with
  | none => exact none
  | some u => exact some (hf u (ho u rfl))

theorem foldlM {α : Type} {f : State → α → Option State} (hf : ∀ u a, s₀.keeps u → s₀.keepsSome (f u a)) (l : List α) {u : State}
    (h : s₀.keeps u) : s₀.keepsSome (l.foldlM f u) := by
  induction l generalizing u with
  | nil => exact some h
  | cons a l ih => exact bind (hf u a h) fun v hv => ih hv

end State.keepsSome

namespace Kept

theorem next (h : s₀.keeps s) : Kept s₀ (.next s) := ⟨s, rfl, h⟩

theorem ite {c : Prop} [Decidable c] {a b : Out} (ha : Kept s₀ a) (hb : Kept s₀ b) : Kept s₀ (if c then a else b) := by
  split
  · exact ha
  · exact hb

end Kept

namespace State.keepsAns

theorem ok {a : Ans} (h : s₀.keeps a.s) : s₀.keepsAns (.ok a) := by
  intro b e
  cases e
  exact h

/-- MB_OK in a state. -/
theorem done (h : s₀.keeps s) {clamped : Bool} {payload : List Byte} : s₀.keepsAns (.ok (Ans.ok s clamped payload)) := ok h

theorem error (st : MbStatus) : s₀.keepsAns (.error st) := fun _ e => nomatch e

theorem ite {c : Prop} [Decidable c] {a b : Except MbStatus Ans} (ha : s₀.keepsAns a) (hb : s₀.keepsAns b) :
    s₀.keepsAns (if c then a else b) := by
  split
  · exact ha
  · exact hb

theorem bind {α : Type} {e : Except MbStatus α} {f : α → Except MbStatus Ans} (h : ∀ a, s₀.keepsAns (f a)) : s₀.keepsAns (e >>= f) := by
  cases e with
  | error st => exact error st
  | ok a => exact h a

end State.keepsAns

/-! ## Results that carry a state -/

theorem State.keeps.of_eq (h : s₀.keeps s) (e : s = t) : s₀.keeps t := e ▸ h

/-- The state in which a front end's read leaves the machine. -/
def FrontRead.state : FrontRead → State
  | .wait s => s
  | .stop s _ _ => s
  | .got s _ _ => s

/-- The state in which a tile's fetch leaves the machine. -/
def Fetch.state : Fetch → State
  | .got s => s
  | .held s => s
  | .ended s => s

/-- The state in which a copy engine's read of a piece leaves the machine. -/
def Piece.state : Piece → State
  | .got s _ => s
  | .held s => s
  | .failed s _ => s

/-- The state of a result that is a state alone or a state with a value. -/
def eitherState {α : Type} : Except State (State × α) → State
  | .error s => s
  | .ok r => r.1

theorem State.keeps.foldlSnd {α β : Type} {f : β × State → α → β × State} (hf : ∀ p a, s₀.keeps p.2 → s₀.keeps (f p a).2) (l : List α)
    {p : β × State} (h : s₀.keeps p.2) : s₀.keeps (l.foldl f p).2 := by
  induction l generalizing p with
  | nil => exact h
  | cons a l ih => exact ih (hf p a h)

namespace State.keepsSome

theorem mapAny {α : Type} {o : Option α} {f : α → State} (hf : ∀ a, s₀.keeps (f a)) : s₀.keepsSome (o.map f) := by
  cases o with
  | none => exact none
  | some a => exact some (hf a)

theorem bindAny {α : Type} {o : Option α} {f : α → Option State} (hf : ∀ a, s₀.keepsSome (f a)) : s₀.keepsSome (o.bind f) := by
  cases o with
  | none => exact none
  | some a => exact hf a

/-- As `bind`, for a state that comes with a value. -/
theorem bindSnd {β : Type} {o : Option (β × State)} {f : β × State → Option State} (ho : s₀.keepsSome (o.map Prod.snd))
    (hf : ∀ r, s₀.keeps r.2 → s₀.keepsSome (f r)) : s₀.keepsSome (o.bind f) := by
  cases o with
  | none => exact none
  | some r => exact hf r (ho r.2 rfl)

/-- As `bind`, for a state that comes with a value. -/
theorem bindFst {β : Type} {o : Option (State × β)} {f : State × β → Option State} (ho : s₀.keepsSome (o.map Prod.fst))
    (hf : ∀ r, s₀.keeps r.1 → s₀.keepsSome (f r)) : s₀.keepsSome (o.bind f) := by
  cases o with
  | none => exact none
  | some r => exact hf r (ho r.1 rfl)

theorem mapFst {β : Type} {o : Option (State × β)} {f : State × β → State} (ho : s₀.keepsSome (o.map Prod.fst))
    (hf : ∀ r, s₀.keeps r.1 → s₀.keeps (f r)) : s₀.keepsSome (o.map f) := by
  cases o with
  | none => exact none
  | some r => exact some (hf r (ho r.1 rfl))

theorem mapMap {α β : Type} {o : Option α} {f : α → β} {g : β → State} (h : s₀.keepsSome (o.map fun a => g (f a))) :
    s₀.keepsSome ((o.map f).map g) := by
  rw [Option.map_map]
  exact h

theorem mapBind {α β : Type} {o : Option α} {f : α → Option β} {g : β → State} (h : s₀.keepsSome (o.bind fun a => (f a).map g)) :
    s₀.keepsSome ((o.bind f).map g) := by
  rw [Option.map_bind]
  exact h

theorem foldlMSnd {α β : Type} {f : β × State → α → Option (β × State)} (hf : ∀ p a, s₀.keeps p.2 → s₀.keepsSome ((f p a).map Prod.snd))
    (l : List α) {p : β × State} (h : s₀.keeps p.2) : s₀.keepsSome ((l.foldlM f p).map Prod.snd) := by
  induction l generalizing p with
  | nil => exact some h
  | cons a l ih => exact mapBind (bindSnd (hf p a h) fun r hr => ih hr)

theorem foldlMFst {α β : Type} {f : State × β → α → Option (State × β)} (hf : ∀ p a, s₀.keeps p.1 → s₀.keepsSome ((f p a).map Prod.fst))
    (l : List α) {p : State × β} (h : s₀.keeps p.1) : s₀.keepsSome ((l.foldlM f p).map Prod.fst) := by
  induction l generalizing p with
  | nil => exact some h
  | cons a l ih => exact mapBind (bindFst (hf p a h) fun r hr => ih hr)

end State.keepsSome

/-! ## Memory and the log -/

theorem State.keeps.hbmWrite (h : s₀.keeps s) (dpa tile line : Nat) (d : BitVec 1024) (m : BitVec 128) :
    s₀.keeps (s.hbmWrite dpa tile line d m) :=
  h.trans ⟨rfl, rfl, Nat.le_refl _, fun ⟨wb, wm, hr⟩ => ⟨Tab.wf_putAll _ wb, wm, hr⟩⟩

theorem State.keeps.hostWrite (h : s₀.keeps s) (a : Nat) (v : List Byte) : s₀.keeps (s.hostWrite a v) :=
  h.trans ⟨rfl, rfl, Nat.le_refl _, fun ⟨wb, wm, hr⟩ => ⟨wb, Tab.wf_putAll _ wm, hr⟩⟩

/-- A record with the next SEQ keeps the log in order, whether or not the oldest leaves. -/
theorem rising_append {f : Flash} (h : f.rising) {r : LogRec} (hr : r.seq = f.nextSeq) : (f.append r).rising := by
  obtain ⟨hp, hlt⟩ := h
  have hall : (f.log ++ [r]).Pairwise (fun a b => a.seq < b.seq) :=
    List.pairwise_append.2 ⟨hp, List.pairwise_singleton _ _, fun a ha b hb => by
      rw [List.mem_singleton.1 hb, hr]
      exact hlt a ha⟩
  have hseq : ∀ a ∈ f.log ++ [r], a.seq < f.nextSeq + 1 := by
    intro a ha
    rcases List.mem_append.1 ha with ha | ha
    · exact Nat.lt_succ_of_lt (hlt a ha)
    · rw [List.mem_singleton.1 ha, hr]
      exact Nat.lt_succ_self _
  unfold Flash.append Flash.rising
  dsimp only
  split
  · exact ⟨hall.sublist (List.drop_sublist 1 _), fun a ha => hseq a (List.mem_of_mem_drop ha)⟩
  · exact ⟨hall, hseq⟩

theorem State.keeps.append (h : s₀.keeps s) {r : LogRec} (hr : r.seq = s.flash.nextSeq) :
    s₀.keeps { s with flash := s.flash.append r } :=
  h.trans ⟨rfl, rfl, Nat.le_succ _, fun ⟨wb, wm, hf⟩ => ⟨wb, wm, rising_append hf hr⟩⟩

theorem State.keeps.eventAt (h : s₀.keeps s) (code unit data : Nat) : s₀.keeps (s.eventAt code unit data) := by
  have hlog : s₀.keeps (if (s.flash.log.filter (fun r => r.event = code && r.starts = s.boot.starts && r.ms / 1000 = s.fw.ms / 1000)).length < 16
      then { s with flash := s.flash.append ⟨s.flash.nextSeq, s.boot.starts, s.fw.ms, code, unit, data⟩ } else s) := .ite (h.append rfl) h
  exact .ite (hlog.still rfl) hlog

/-- Device memory is empty after a reset; the log and host memory stay. -/
theorem State.keeps.resetAll (h : s₀.keeps s) : s₀.keeps s.resetAll :=
  h.trans ⟨rfl, rfl, Nat.le_refl _, fun ⟨_, wm, hr⟩ => ⟨rfl, wm, hr⟩⟩

end

end Sys2Proof.Machine
end

section
/-! What every command keeps: the operations on blocks, lines, the cache and tiles. -/

namespace Sys2Proof.Machine

variable {s₀ s t : State}

theorem State.keeps.setBlock (h : s₀.keeps s) (k : Nat) (b : Block) : s₀.keeps (s.setBlock k b) :=
  h.still rfl

theorem State.keeps.setTask (h : s₀.keeps s) (k : Nat) (t : Task) : s₀.keeps (s.setTask k t) :=
  h.still rfl

theorem State.keeps.putGroup (h : s₀.keeps s) (r : GroupRef) (g : Group) : s₀.keeps (s.putGroup r g) := by
  unfold State.putGroup
  split
  · exact h
  · exact h.setBlock _ _

theorem State.keeps.updGroup (h : s₀.keeps s) (r : GroupRef) (f : Group → Group) : s₀.keeps (s.updGroup r f) := by
  unfold State.updGroup
  split
  · exact h
  · exact h.putGroup _ _

theorem State.keeps.raise (h : s₀.keeps s) (t : Nat) (f : BitVec 16) : s₀.keeps (s.raise t f) := by
  unfold State.raise
  split
  · exact h
  · exact h.setTask _ _

theorem State.keeps.newId (h : s₀.keeps s) : s₀.keeps s.newId.2 :=
  h.still rfl

theorem State.keeps.takeFree (h : s₀.keeps s) : s₀.keeps s.takeFree.2 :=
  h.still rfl

theorem State.keeps.mxuDrop (h : s₀.keeps s) (blk : Nat) : s₀.keeps (s.mxuDrop blk) :=
  h.still rfl

theorem State.keeps.refill (h : s₀.keeps s) : s₀.keeps s.refill := by
  unfold State.refill
  refine .foldl (fun u a hu => ?_) _ h
  split
  · exact hu
  · exact .ite hu (hu.still (by rfl))

theorem State.keeps.endTask (h : s₀.keeps s) (t : Nat) (st : Status) (detail : DWord) : s₀.keeps (s.endTask t st detail) := by
  unfold State.endTask
  split
  · exact h
  · refine .ite h ?_
    extract_lets +onlyGivenNames s1
    have hs1 : s₀.keeps s1 := h.setTask _ _
    extract_lets +onlyGivenNames s2
    have hs2 : s₀.keeps s2 := .foldl (fun _ _ hu => hu.mxuDrop _) _ hs1
    exact (hs2.still (by rfl)).refill

theorem State.keeps.memWrite (h : s₀.keeps s) (dpa ch row line : Nat) (d : BitVec 1024) (m : BitVec 128) :
    s₀.keeps (s.memWrite dpa ch row line d m) :=
  (h.still (by rfl)).hbmWrite _ _ _ _ _

theorem State.keeps.poisonSectors (h : s₀.keeps s) (ch row line : Nat) (v : BitVec 4) : s₀.keeps (s.poisonSectors ch row line v) :=
  h.still rfl

theorem State.keeps.countLookup (h : s₀.keeps s) (part : Nat) (q : Requester) (hint : Nat) (hit : Bool) :
    s₀.keeps (s.countLookup part q hint hit) :=
  h.still rfl

theorem State.keeps.countEvent (h : s₀.keeps s) (part n : Nat) : s₀.keeps (s.countEvent part n) :=
  h.still rfl

theorem State.keeps.tagFill (h : s₀.keeps s) (slice region : Nat) : s₀.keeps (s.tagFill slice region) := by
  unfold State.tagFill
  split
  · exact h.still rfl
  · exact h.still rfl

theorem State.keeps.tagDrop (h : s₀.keeps s) (slice region : Nat) : s₀.keeps (s.tagDrop slice region) := by
  unfold State.tagDrop
  split
  · exact h
  · exact .ite (h.still (by rfl)) (h.still (by rfl))

theorem State.keeps.hostSectors (h : s₀.keeps s) (line : Nat) (d : BitVec 1024) (v : BitVec 4) : s₀.keeps (s.hostSectors line d v) :=
  .foldl (fun _ _ hu => hu.hostWrite _ _) _ h

theorem State.keeps.mcPush (h : s₀.keeps s) (e : McEntry) : s₀.keeps (s.mcPush e) :=
  h.still rfl

theorem State.keeps.llcEvict (h : s₀.keeps s) (key : Nat) (e : LlcLine) (discard : Bool) : s₀.keeps (s.llcEvict key e discard) := by
  unfold State.llcEvict
  extract_lets +onlyGivenNames s1
  have hs1 : s₀.keeps s1 := h.still rfl
  extract_lets +onlyGivenNames s2
  have hs2 : s₀.keeps s2 := .ite hs1 (hs1.tagDrop _ _)
  refine .ite hs2 ?_
  extract_lets +onlyGivenNames s3
  have hs3 : s₀.keeps s3 := hs2.countEvent _ _
  refine .ite (hs3.hostSectors _ _ _) ?_
  split
  · exact hs3
  · exact hs3.mcPush _

theorem State.keeps.pin (h : s₀.keeps s) (base : Nat) (a : Access) (e : LlcLine) : s₀.keeps (s.pin base a e).1 := by
  unfold State.pin
  split
  · exact h.countEvent _ _
  · exact h.countEvent _ _

theorem State.keeps.hintHit (h : s₀.keeps s) (base : Nat) (a : Access) (e : LlcLine) : s₀.keeps (s.hintHit base a e).1 := by
  unfold State.hintHit
  split
  · exact h
  · split
    · exact h
    · exact h
    · exact h.pin _ _ _

theorem State.keeps.victim (h : s₀.keeps s) (base : Nat) (drip : Bool) : s₀.keepsSome (Option.map Prod.snd (s.victim base drip)) := by
  unfold State.victim
  split
  · exact .some h
  · exact .some h
  · dsimp only
    split
    · exact .none
    · exact .some (h.still (by rfl))

theorem State.keeps.llcPlace (h : s₀.keeps s) (l : LineId) (a : Access) (d : BitVec 1024) (valid dirty : BitVec 4) :
    s₀.keepsSome (s.llcPlace l a d valid dirty) := by
  unfold State.llcPlace
  extract_lets +onlyGivenNames base
  split
  · exact .none
  next t e =>
    have ht : s₀.keeps t := (h.victim _ _) _ (congrArg (Option.map Prod.snd) e)
    extract_lets +onlyGivenNames old room
    refine .ite .none ?_
    extract_lets +onlyGivenNames s1
    have hs1 : s₀.keeps s1 := by
      unfold s1
      clear_value old
      split
      · exact .llcEvict (.ite (ht.countEvent _ _) ht) _ _ _
      · exact ht
    extract_lets +onlyGivenNames s2
    have hs2 : s₀.keeps s2 := .ite hs1 (hs1.tagFill _ _)
    extract_lets +onlyGivenNames e1 s3 s4
    have hs4 : s₀.keeps s4 := .ite (hs2.still (by rfl)) hs2
    extract_lets +onlyGivenNames r
    have hr : s₀.keeps r.1 := by
      unfold r
      split
      · exact hs4.pin _ _ _
      · exact hs4
    exact .some (hr.still (by rfl))

theorem State.keeps.llcPut (h : s₀.keeps s) (l : LineId) (a : Access) (d : BitVec 1024) (valid dirty : BitVec 4) :
    s₀.keepsSome (s.llcPut l a d valid dirty) := by
  unfold State.llcPut
  split
  · extract_lets +onlyGivenNames base r
    have hr : s₀.keeps r.1 := h.hintHit _ _ _
    extract_lets +onlyGivenNames e' e'1
    exact .some (hr.still (by rfl))
  · exact h.llcPlace _ _ _ _ _

theorem State.keeps.setTss (h : s₀.keeps s) (t : Nat) (e : Tss) : s₀.keeps (s.setTss t e) :=
  h.still rfl

theorem State.keeps.tileTo (h : s₀.keeps s) (t : Nat) (st : TileState) : s₀.keeps (s.tileTo t st) :=
  h.setTss _ _

theorem State.keeps.tileStale (h : s₀.keeps s) (t : TileAt) : s₀.keeps (s.tileStale t) :=
  h.setTss _ _

theorem State.keeps.storeLine (h : s₀.keeps s) (line : Nat) (d : BitVec 1024) (m : BitVec 128) (w : WritePath) :
    s₀.keepsSome (s.storeLine line d m w) := by
  unfold State.storeLine
  split
  · extract_lets +onlyGivenNames bad good full s1
    have hs1 : s₀.keeps s1 := by
      unfold s1
      refine .ite h ?_
      split
      · exact h.memWrite _ _ _ _ _ _
      · exact h
    exact .ite (.some hs1) (hs1.llcPut _ _ _ _ _)
  · split
    · extract_lets +onlyGivenNames inside rest e' s1
      have hs1 : s₀.keeps s1 := h.still rfl
      split
      · exact .ite (.some hs1) (.ite .none (.some (hs1.mcPush _)))
      · exact .some hs1
    · split
      · exact .ite .none (.some (h.mcPush _))
      · exact .some h

theorem State.keeps.zeroCached (h : s₀.keeps s) (t : TileAt) (ks : List Nat) : s₀.keeps (s.zeroCached t ks) := by
  unfold State.zeroCached
  refine .foldl (fun u a hu => ?_) _ h
  split
  · exact hu.still rfl
  · exact hu

theorem State.keeps.zeroLines (h : s₀.keeps s) (t : TileAt) (ks : List Nat) : s₀.keeps (s.zeroLines t ks) :=
  .foldl (fun _ _ hu => hu.memWrite _ _ _ _ _ _) _ (h.zeroCached _ _)

theorem State.keeps.markBad (h : s₀.keeps s) (line : Nat) (bad : BitVec 4) (mirrored : Bool) : s₀.keeps (s.markBad line bad mirrored) := by
  unfold State.markBad
  split
  · refine .ite h ?_
    extract_lets +onlyGivenNames s1
    have hs1 : s₀.keeps s1 := h.poisonSectors _ _ _ _
    extract_lets +onlyGivenNames s2
    have hs2 : s₀.keeps s2 := hs1.still rfl
    split
    · exact .ite (hs2.setTss _ _) (hs2.tileTo _ _)
    · exact hs2.still rfl
    · exact hs2
  · exact h

theorem State.keeps.foundBad (h : s₀.keeps s) (line : Nat) (need : BitVec 4) (mirrored : Bool) : s₀.keeps (s.foundBad line need mirrored) :=
  h.markBad _ _ _

theorem State.keeps.lineWrite (h : s₀.keeps s) (line : Nat) (d : BitVec 1024) (m : BitVec 128) (w : WritePath) :
    s₀.keepsSome (s.lineWrite line d m w) := by
  unfold State.lineWrite
  split
  · exact .none
  · extract_lets +onlyGivenNames k e old new hit s1
    have hs1 : s₀.keeps s1 := by
      unfold s1
      refine .ite h ?_
      split
      · exact h.poisonSectors _ _ _ _
      · exact h
    split
    · exact .ite ((hs1.storeLine _ _ _ _).map fun _ hu => hu.setTss _ _) ((hs1.storeLine _ _ _ _).map fun _ hu => hu.tileTo _ _)
    · exact .ite (.some hs1) (((hs1.zeroLines _ _).setTss _ _).storeLine _ _ _ _)
    · extract_lets +onlyGivenNames others bad s2
      have hs2 : s₀.keeps s2 := .foldl (fun _ _ hu => hu.foundBad _ _ _) _ hs1
      exact (hs2.storeLine _ _ _ _).map fun _ hu => .ite ((hu.setTss _ _).setTss _ _) (hu.tileTo _ _)
    · exact hs1.storeLine _ _ _ _
    · exact .none
    · extract_lets +onlyGivenNames o
      clear_value s1
      refine .ite .none ?_
      refine .map (hs1.storeLine _ _ _ _) fun u hu => ?_
      extract_lets +onlyGivenNames bit zm pm s2
      have hs2 : s₀.keeps s2 := hu.setTss _ _
      exact hs2.still rfl

theorem State.keeps.beginWrite (h : s₀.keeps s) (line : Nat) : s₀.keepsSome (s.beginWrite line) := by
  unfold State.beginWrite
  split
  · exact .none
  · extract_lets +onlyGivenNames e
    split
    · extract_lets +onlyGivenNames o
      exact .ite .none (.some (h.setTss _ _))
    · refine .ite .none ?_
      extract_lets +onlyGivenNames s1
      have hs1 : s₀.keeps s1 := h.zeroLines _ _
      extract_lets +onlyGivenNames s2
      have hs2 : s₀.keeps s2 := hs1.setTss _ _
      clear_value s1 s2
      exact .some (hs2.still (by rfl))
    · refine .ite .none ?_
      extract_lets +onlyGivenNames pm zm s1
      have hs1 : s₀.keeps s1 := h.setTss _ _
      exact .some (hs1.still (by rfl))

theorem State.keeps.openLine (h : s₀.keeps s) (line : Nat) (d : BitVec 1024) (w : WritePath) : s₀.keepsSome (s.openLine line d w) := by
  unfold State.openLine
  split
  · exact .none
  · exact .ite (.some h) (h.lineWrite _ _ _ _)

theorem State.keeps.dropTile (h : s₀.keeps s) (t : TileAt) : s₀.keeps (s.dropTile t) := by
  unfold State.dropTile
  refine .foldl (fun u a hu => ?_) _ h
  split
  · exact hu.llcEvict _ _ _
  · exact hu

theorem State.keeps.countSpent (h : s₀.keeps s) (t : TileAt) : s₀.keeps (s.countSpent t) := by
  unfold State.countSpent
  split
  · exact h.countEvent _ _
  · exact h

theorem State.keeps.endWrite (h : s₀.keeps s) (line : Nat) : s₀.keeps (s.endWrite line) := by
  unfold State.endWrite
  split
  · exact h
  · extract_lets +onlyGivenNames e
    refine .ite h ?_
    refine .ite (h.setTss _ _) ?_
    extract_lets +onlyGivenNames o s1
    have hs1 : s₀.keeps s1 := h.still rfl
    exact .ite (((hs1.dropTile _).tileTo _ _).countSpent _) (.ite (hs1.tileTo _ _) (.ite (hs1.tileTo _ _) (hs1.setTss _ _)))

theorem State.keeps.fullWrite (h : s₀.keeps s) (line : Nat) (data : List (BitVec 1024)) (w : WritePath) :
    s₀.keepsSome (s.fullWrite line data w) := by
  unfold State.fullWrite
  refine .bind (h.beginWrite _) fun u hu => ?_
  refine .bind (.foldlM (fun _ _ hu1 => hu1.openLine _ _ _) _ hu) fun u1 hu1 => ?_
  split
  · exact .none
  · exact .some ((hu1.setTss _ _).endWrite _)

theorem State.keeps.spentHint (h : s₀.keeps s) (line part : Nat) : s₀.keeps (s.spentHint line part) := by
  unfold State.spentHint
  split
  · exact h
  · exact .ite (h.still (by rfl)) (((h.dropTile _).tileTo _ _).countEvent _ _)

theorem State.keeps.repair (h : s₀.keeps s) (line : Nat) : s₀.keeps (s.repair line).1 := by
  unfold State.repair
  split
  · split
    next u e =>
      extract_lets +onlyGivenNames s1
      have hs1 : s₀.keeps s1 := .ite (.foldl (fun _ _ hu => hu.foundBad _ _ _) _ h) h
      clear_value s1
      extract_lets +onlyGivenNames e1
      split
      · extract_lets +onlyGivenNames data s2 s3
        have hs2 : s₀.keeps s2 := hs1.dropTile _
        have hs3 : s₀.keeps s3 := .foldl (fun _ _ hu => hu.memWrite _ _ _ _ _ _) _ hs2
        exact hs3.setTss _ _
      · exact (hs1.tileTo _ _).tileTo _ _
    · exact h
  · exact h

end Sys2Proof.Machine
end

section
/-! What every command keeps: requests, the event log, mailbox answers and the hinge. -/

namespace Sys2Proof.Machine

variable {s₀ s t : State}

theorem State.keeps.setCore (h : s₀.keeps s) (c : Nat) (k : Core) : s₀.keeps (s.setCore c k) :=
  h.still rfl

theorem State.keeps.stopFills (h : s₀.keeps s) (core : Nat) (only : Option Home) : s₀.keeps (s.stopFills core only) :=
  h.still rfl

theorem State.keeps.l1Invalidate (h : s₀.keeps s) (core : Nat) : s₀.keeps (s.l1Invalidate core) :=
  (h.setCore _ _).stopFills _ _

theorem State.keeps.l1Drop (h : s₀.keeps s) (core : Nat) (h' : Home) : s₀.keeps (s.l1Drop core h') :=
  (h.setCore _ _).stopFills _ _

theorem State.keeps.outdate (h : s₀.keeps s) (core : Nat) (h' : Home) (arr : Nat) : s₀.keeps (s.outdate core h' arr) :=
  h.still rfl

theorem State.keeps.l1Fill (h : s₀.keeps s) (core : Nat) (h' : Home) (d : BitVec 1024) (v : BitVec 4) (fill : Nat) :
    s₀.keeps (s.l1Fill core h' d v fill) := by
  unfold State.l1Fill
  split
  · exact .ite (h.setCore _ _) h
  · exact .ite (h.setCore _ _) h

theorem State.keeps.addReq (h : s₀.keeps s) (q : MemReq) : s₀.keeps (s.addReq q).2 :=
  h.still rfl

theorem State.keeps.dropCopies (h : s₀.keeps s) (core : Nat) (h' : Home) : s₀.keeps (s.dropCopies core h') := by
  unfold State.dropCopies
  refine .foldl (fun u a hu => ?_) _ h
  split
  · exact hu.l1Drop _ _
  · exact hu.l1Drop _ _
  · exact hu.l1Drop _ _

theorem State.keeps.sendSpent (h : s₀.keeps s) (src : Src) (part : Nat) (pc : DWord) (waits : List Nat) (tiles : List (Nat × Home)) :
    s₀.keeps (s.sendSpent src part pc waits tiles) :=
  .foldl (fun _ _ hu => hu.addReq _) _ h

theorem State.keeps.event (h : s₀.keeps s) (code unit : Nat) : s₀.keeps (s.event code unit) :=
  h.eventAt _ _ _

theorem State.keeps.rowEvent (h : s₀.keeps s) (code ch row : Nat) : s₀.keeps (s.rowEvent code ch row) :=
  h.eventAt _ _ _

theorem State.keeps.setFn (h : s₀.keeps s) (f : Nat) (v : Fn) : s₀.keeps (s.setFn f v) :=
  h.still rfl

theorem State.keeps.dirtyMark (h : s₀.keeps s) (f a : Nat) : s₀.keeps (s.dirtyMark f a) := by
  unfold State.dirtyMark
  extract_lets +onlyGivenNames r
  split
  · exact h
  · exact .ite (h.hostWrite _ _) (h.setFn _ _)

theorem State.keeps.ioWrite (h : s₀.keeps s) (f a : Nat) (v : List Byte) : s₀.keeps (s.ioWrite f a v) :=
  .foldl (fun _ _ hu => hu.dirtyMark _ _) _ (h.hostWrite _ _)

theorem State.keeps.trace (h : s₀.keeps s) : s₀.keeps s.trace := by
  have hc : ∀ u c t, s₀.keeps u → s₀.keeps { u with freeCtr := c, sec := { u.sec with trace := t } } := fun _ _ _ hu => hu.still (by rfl)
  unfold State.trace
  split
  · exact h
  · exact hc _ _ _ (h.ioWrite _ _ _)

theorem State.keeps.closeCore (h : s₀.keeps s) (c reason : Nat) : s₀.keeps (s.closeCore c reason) := by
  unfold State.closeCore
  extract_lets +onlyGivenNames s1
  have hs1 : s₀.keeps s1 := h.still rfl
  exact .ite hs1 (hs1.still (by rfl))

theorem State.keeps.vacate (h : s₀.keeps s) (p : Nat → Bool) : s₀.keeps (s.vacate p) :=
  h.still rfl

theorem State.keeps.setPort (h : s₀.keeps s) (k : Nat) (p : LbxPort) : s₀.keeps (s.setPort k p) :=
  h.still rfl

theorem State.keeps.aliveLow (h : s₀.keeps s) : s₀.keeps s.aliveLow :=
  h.still rfl

theorem State.keeps.beginStart (h : s₀.keeps s) (forced : Bool) : s₀.keeps (s.beginStart forced) :=
  h.still rfl

theorem State.keeps.failStart (h : s₀.keeps s) (reason : Nat) : s₀.keeps (s.failStart reason) := by
  unfold State.failStart
  extract_lets +onlyGivenNames keep cxl s1
  have hs1 : s₀.keeps s1 := h.event _ _
  extract_lets +onlyGivenNames s2 s3
  have hs3 : s₀.keeps s3 := hs1.still rfl
  extract_lets +onlyGivenNames r
  have hr : s₀.keeps r := hs3.resetAll.beginStart _
  exact .ite hr (hr.still (by rfl))

theorem State.keeps.dropHostLines (h : s₀.keeps s) : s₀.keeps s.dropHostLines :=
  h.still rfl

theorem State.keeps.fatalError (h : s₀.keeps s) (cause : Nat) (reason : Option Nat) : s₀.keeps (s.fatalError cause reason) :=
  .ite (h.failStart _) (h.dropHostLines.still (by rfl)).aliveLow

theorem State.keeps.answer (h : s₀.keeps s) (fn slot : Nat) (st : MbStatus) (clamped : Bool) (detail : Nat) (payload : List Byte) :
    s₀.keeps (s.answer fn slot st clamped detail payload) :=
  .ite (h.setFn _ _) h

theorem State.keeps.tumblerDrop (h : s₀.keeps s) (fn kind rid : Nat) : s₀.keeps (s.tumblerDrop fn kind rid) :=
  h.setFn _ _

theorem Kept.inbound (h : s₀.keeps s) (fn : Nat) (rid : Option Nat) (doorbell : Bool) {body : State} (hb : s₀.keeps body) :
    Kept s₀ (inbound fn rid doorbell s body) :=
  .ite (.next h) (.ite (.next ((h.tumblerDrop _ _ _).event _ _)) (.next hb))

theorem State.keeps.submitSlot (h : s₀.keeps s) (fn slot : Nat) : s₀.keeps (s.submitSlot fn slot) :=
  .ite h (.ite ((h.still (by rfl)).setFn _ _) ((h.still (by rfl)).setFn _ _))

theorem Kept.execMbSubmit (h : s₀.keeps s) (fn : Fin 64) (rid : Option Nat) (slots : BitVec 8) : Kept s₀ (execMbSubmit fn rid slots s) :=
  .inbound h _ _ _ (.foldl (fun _ _ hu => hu.submitSlot _ _) _ h)

theorem Kept.execMbAck (h : s₀.keeps s) (fn : Fin 64) (rid : Option Nat) (slots : BitVec 8) : Kept s₀ (execMbAck fn rid slots s) :=
  .inbound h _ _ _ (h.setFn _ _)

theorem Kept.execMailboxDispatch (h : s₀.keeps s) : Kept s₀ (execMailboxDispatch s) := by
  unfold Machine.execMailboxDispatch
  split
  · exact .next h
  · extract_lets +onlyGivenNames s1 s2
    have hs2 : s₀.keeps s2 := h.still rfl
    exact .ite (.next (hs2.answer _ _ _ _ _ _)) (.ite (.next (hs2.answer _ _ _ _ _ _)) (.next (hs2.setFn _ _)))

theorem Kept.serve (h : s₀.keeps s) (r : Req) (code : Nat) (sizes : List Nat) (perm : State → List Nat → Bool) (body : List Nat → State → Serve)
    (hb : ∀ fs, s₀.keepsAns (body fs s)) : Kept s₀ (serve r code sizes perm body s) := by
  refine .ite (.next h) (.ite (.next (h.answer _ _ _ _ _ _)) (.ite (.next (h.answer _ _ _ _ _ _)) ?_))
  split
  · exact .next (h.answer _ _ _ _ _ _)
  next a e =>
    have ha : s₀.keeps a.s := hb _ a e
    exact .ite (.next ha) (.next (ha.answer _ _ _ _ _ _))

theorem Kept.serveList (h : s₀.keeps s) (r : Req) (code : Nat) (sizes : List Nat) (m : Nat) (perm : State → List Nat → Bool)
    (body : List Nat → List Nat → State → Serve) (hb : ∀ fs xs, s₀.keepsAns (body fs xs s)) : Kept s₀ (serveList r code sizes m perm body s) :=
  .serve h _ _ _ _ _ fun _ => hb _ _

theorem State.keeps.pageAns (h : s₀.keeps s) (fn : Nat) (image : List Byte) (page : Nat) (clamped : Bool) :
    s₀.keepsAns (pageAns s fn image page clamped) := by
  unfold Machine.pageAns
  extract_lets +onlyGivenNames n last p
  exact .ok h

theorem State.keeps.setLeaf (h : s₀.keeps s) (l : Nat) (v : Leaf) : s₀.keeps (s.setLeaf l v) :=
  h.still rfl

theorem State.keeps.settleLeaf (h : s₀.keeps s) (k : Nat) (was : LeafState) : s₀.keeps (s.settleLeaf k was) := by
  unfold State.settleLeaf
  extract_lets +onlyGivenNames now s1
  have hs1 : s₀.keeps s1 := .ite (h.event _ _) h
  extract_lets +onlyGivenNames runs s2 s3
  have hs3 : s₀.keeps s3 := .ite (hs1.still (by rfl)) hs1
  exact .ite ((hs3.event _ _).fatalError _ _) hs3

theorem State.keeps.stepLeaf (h : s₀.keeps s) (k : Nat) (f : Leaf → Leaf) : s₀.keeps (s.stepLeaf k f) :=
  (h.setLeaf _ _).settleLeaf _ _

theorem Kept.execWidthOffer (h : s₀.keeps s) (leaf : Fin 4) (end1 : Bool) (mask : BitVec 4) : Kept s₀ (execWidthOffer leaf end1 mask s) :=
  .ite (.next h) (.next (h.stepLeaf _ _))

theorem Kept.execWidthConfirm (h : s₀.keeps s) (leaf : Fin 4) (end1 : Bool) (width : Nat) (groups : BitVec 4) :
    Kept s₀ (execWidthConfirm leaf end1 width groups s) :=
  .ite (.next h) (.next (h.stepLeaf _ _))

theorem Kept.execLeafTestDone (h : s₀.keeps s) (leaf : Fin 4) (clean : Bool) : Kept s₀ (execLeafTestDone leaf clean s) := by
  unfold Machine.execLeafTestDone
  extract_lets +onlyGivenNames l
  split
  · exact .ite (.next h) (.next (h.stepLeaf _ _))
  · exact .next h

theorem Kept.execSidebandSilence (h : s₀.keeps s) (leaf : Fin 4) : Kept s₀ (execSidebandSilence leaf s) :=
  .ite (.next (h.stepLeaf _ _)) (.next h)

theorem Kept.execResetSeen (h : s₀.keeps s) (leaf : Fin 4) (end1 : Bool) : Kept s₀ (execResetSeen leaf end1 s) := by
  unfold Machine.execResetSeen
  extract_lets +onlyGivenNames l far near
  exact .ite (.next h) (.next ((h.setLeaf _ _).settleLeaf _ _))

theorem Kept.execHalfReset (h : s₀.keeps s) (half1 : Bool) : Kept s₀ (execHalfReset half1 s) :=
  .next (.foldl (fun _ _ hu => hu.setLeaf _ _) _ h)

theorem Kept.execLeafReplayStorm (h : s₀.keeps s) (leaf : Fin 4) : Kept s₀ (execLeafReplayStorm leaf s) := by
  unfold Machine.execLeafReplayStorm
  extract_lets +onlyGivenNames l
  exact .ite (.next h) (.next ((h.event _ _).setLeaf _ _))

theorem Kept.execBridgeFlit (h : s₀.keeps s) (leaf : Fin 4) (toEnd1 : Bool) (seq ack : BitVec 12) (rest : BitVec 2024) :
    Kept s₀ (execBridgeFlit leaf toEnd1 seq ack rest s) := by
  unfold Machine.execBridgeFlit
  extract_lets +onlyGivenNames flit l
  refine .ite (.next h) ?_
  refine .ite ?_ (.next ((h.setLeaf _ _).event _ _))
  split
  · exact .next h
  · exact .next (h.setLeaf _ _)

theorem Kept.execBridgeNak (h : s₀.keeps s) (leaf : Fin 4) (toEnd1 : Bool) (seq : BitVec 12) :
    Kept s₀ (execBridgeNak leaf toEnd1 seq s) := by
  unfold Machine.execBridgeNak
  extract_lets +onlyGivenNames l
  exact .ite (.next h) (.next (h.setLeaf _ _))

theorem State.keeps.leafSend (h : s₀.keeps s) (k half cls : Nat) : s₀.keeps (s.leafSend k half cls) :=
  h.setLeaf _ _

theorem Kept.execBucketResteer (h : s₀.keeps s) : Kept s₀ (execBucketResteer s) :=
  .ite (.next h) (.next (h.still (by rfl)))

theorem State.keeps.fenceDie (h : s₀.keeps s) (die reason : Nat) : s₀.keeps (s.fenceDie die reason) := by
  unfold State.fenceDie
  extract_lets +onlyGivenNames onDie tasks s1
  have hs1 : s₀.keeps s1 := .foldl (fun _ _ hu => hu.endTask _ _ _) _ h
  extract_lets +onlyGivenNames s2 s3
  have hs3 : s₀.keeps s3 := hs1.still rfl
  exact .ite hs3 (hs3.still (by rfl))

theorem Kept.execBondedWord (h : s₀.keeps s) (die : Fin 10) (chan : Fin 16) (parityOk : Bool) :
    Kept s₀ (execBondedWord die chan parityOk s) := by
  unfold Machine.execBondedWord
  extract_lets +onlyGivenNames key again set unit
  have hset : ∀ v, s₀.keeps (set s v) := fun v => h.still (by rfl)
  refine .ite (.next (.ite ((hset false).event _ _) h)) (.ite (.next ?_) (.next (hset true)))
  exact .ite (((hset false).event _ _).fenceDie _ _) (((hset false).event _ _).fatalError _ _)

theorem Kept.execCapabilityWord (h : s₀.keeps s) (die : Fin 10) (word : DWord) : Kept s₀ (execCapabilityWord die word s) :=
  .ite (.next h) (.next (h.still (by rfl)))

theorem State.keeps.negotiate (h : s₀.keeps s) (bond : List Nat) : s₀.keepsSome (s.negotiate bond) := by
  unfold State.negotiate
  extract_lets +onlyGivenNames word bad
  refine .ite .none ?_
  extract_lets +onlyGivenNames out kept quads cores s1
  have hs1 : s₀.keeps s1 := .foldl (fun _ _ hu => .ite hu (hu.event _ _)) _ h
  exact .some (hs1.still (by rfl))

theorem Kept.execHingeStatus (h : s₀.keeps s) (r : Req) : Kept s₀ (execHingeStatus r s) :=
  .serve h _ _ _ _ _ (fun _ => h.pageAns _ _ _ _)

theorem Kept.execHingeRetrain (h : s₀.keeps s) (r : Req) : Kept s₀ (execHingeRetrain r s) :=
  .serve h _ _ _ _ _ (fun _ => .bind fun _ => .done (h.setLeaf _ _))

end Sys2Proof.Machine
end

section
/-! What every command keeps: power, heat and the start-up stages. -/

namespace Sys2Proof.Machine

variable {s₀ s t : State}

theorem Kept.execPowerEstimate (h : s₀.keeps s) (die : Fin 10) (watts : Nat) : Kept s₀ (execPowerEstimate die watts s) :=
  .next (h.still (by rfl))

theorem Kept.execCapPeriod (h : s₀.keeps s) : Kept s₀ (execCapPeriod s) := by
  unfold Machine.execCapPeriod
  extract_lets +onlyGivenNames w w1
  exact .next (h.still (by rfl))

theorem Kept.execVoltagePeriod (h : s₀.keeps s) : Kept s₀ (execVoltagePeriod s) := by
  unfold Machine.execVoltagePeriod
  extract_lets +onlyGivenNames w t
  exact .next (h.still (by rfl))

theorem Kept.execDieTempRead (h : s₀.keeps s) (die : Fin 10) (temp : Int) : Kept s₀ (execDieTempRead die temp s) := by
  unfold Machine.execDieTempRead
  extract_lets +onlyGivenNames was now s1 s2
  have hs2 : s₀.keeps s2 := h.still rfl
  exact .next (.ite (hs2.event _ _) hs2)

theorem Kept.execStackTempRead (h : s₀.keeps s) (stack : Fin 16) (temp : Int) : Kept s₀ (execStackTempRead stack temp s) := by
  unfold Machine.execStackTempRead
  extract_lets +onlyGivenNames was now s1 s2
  have hs2 : s₀.keeps s2 := h.still rfl
  exact .next (.ite (hs2.event _ _) hs2)

theorem Kept.execDroopCrossing (h : s₀.keeps s) (quad : Fin 40) (level : Fin 4) : Kept s₀ (execDroopCrossing quad level s) := by
  unfold Machine.execDroopCrossing
  extract_lets +onlyGivenNames q t
  exact .ite (.next h) (.ite (.next (h.still (by rfl))) (.ite (.next (h.still (by rfl))) (.next ((h.still (by rfl)).event _ _))))

theorem Kept.execDroopLevelExit (h : s₀.keeps s) (quad : Fin 40) : Kept s₀ (execDroopLevelExit quad s) :=
  .next (h.still (by rfl))

theorem Kept.execDroopAllowanceExpiry (h : s₀.keeps s) (die : Fin 8) : Kept s₀ (execDroopAllowanceExpiry die s) :=
  .next (h.still (by rfl))

theorem Kept.execThermtrip (h : s₀.keeps s) : Kept s₀ (execThermtrip s) :=
  .next (((h.still (by rfl)).event _ _).fatalError _ _)

theorem Kept.execSupplyFault (h : s₀.keeps s) : Kept s₀ (execSupplyFault s) :=
  .next ((h.event _ _).fatalError _ _)

theorem Kept.execClockUnitFault (h : s₀.keeps s) : Kept s₀ (execClockUnitFault s) :=
  .next ((h.event _ _).fatalError _ _)

theorem Kept.execIdleEntry (h : s₀.keeps s) : Kept s₀ (execIdleEntry s) :=
  .ite (.next (h.still (by rfl))) (.next h)

theorem State.keeps.wake (h : s₀.keeps s) : s₀.keeps s.wake :=
  .ite (h.still (by rfl)) h

theorem State.keeps.answerCode (h : s₀.keeps s) (code : Nat) : s₀.keeps (s.answerCode code) :=
  .foldl (fun _ _ hu => .ite (hu.answer _ _ _ _ _ _) hu) _ h

theorem Kept.execRetainEntry (h : s₀.keeps s) : Kept s₀ (execRetainEntry s) := by
  unfold Machine.execRetainEntry
  extract_lets +onlyGivenNames ready
  exact .ite (.next h) (.next ((h.still (by rfl)).answerCode _))

theorem State.keeps.leaveRetain (h : s₀.keeps s) : s₀.keeps s.leaveRetain :=
  h.still rfl

theorem Kept.execSelfRefreshReentry (h : s₀.keeps s) : Kept s₀ (execSelfRefreshReentry s) :=
  .ite (.next (h.still (by rfl))) (.next h)

theorem Kept.execPfD3hot (h : s₀.keeps s) : Kept s₀ (execPfD3hot s) :=
  .ite (.next h) (.next (h.still (by rfl)))

theorem Kept.execPfD0 (h : s₀.keeps s) : Kept s₀ (execPfD0 s) :=
  .ite (.next h) (.ite (.next (h.still (by rfl)).leaveRetain) (.next (h.still (by rfl))))

theorem Kept.execSensorUpdate (h : s₀.keeps s) : Kept s₀ (execSensorUpdate s) := by
  unfold Machine.execSensorUpdate
  extract_lets +onlyGivenNames hot v
  exact .next (h.still (by rfl))

theorem Kept.execPwrSetCap (h : s₀.keeps s) (r : Req) : Kept s₀ (execPwrSetCap r s) :=
  .serve h _ _ _ _ _ (fun _ => .done (h.still (by rfl)))

theorem Kept.execPwrStatus (h : s₀.keeps s) (r : Req) : Kept s₀ (execPwrStatus r s) :=
  .serve h _ _ _ _ _ (fun _ => h.pageAns _ _ _ _)

theorem Kept.execPwrSetState (h : s₀.keeps s) (r : Req) : Kept s₀ (execPwrSetState r s) := by
  unfold Machine.execPwrSetState
  refine .serve h _ _ _ _ _ ?_
  intro fs
  refine .bind fun _ => ?_
  refine .ite ?_ (.done (.ite h.leaveRetain (h.still (by rfl))))
  extract_lets +onlyGivenNames s1 s2
  have hs2 : s₀.keeps s2 := h.still rfl
  refine .ok ?_
  split
  · exact hs2
  · dsimp only
    exact hs2

theorem Kept.execErrCounts (h : s₀.keeps s) (r : Req) : Kept s₀ (execErrCounts r s) :=
  .serve h _ _ _ _ _ (fun _ => h.pageAns _ _ _ _)

theorem Kept.execErrInject (h : s₀.keeps s) (r : Req) : Kept s₀ (execErrInject r s) := by
  unfold Machine.execErrInject
  refine .serve h _ _ _ _ _ ?_
  intro fs
  extract_lets +onlyGivenNames kind unit
  refine .bind fun _ => ?_
  refine .bind fun _ => ?_
  refine .bind fun _ => ?_
  refine .bind fun _ => ?_
  extract_lets +onlyGivenNames st
  refine .bind fun _ => ?_
  clear_value kind
  split
  · exact .done (h.still (by rfl))
  · exact .done (h.still (by rfl))
  · exact .done (h.still (by rfl))
  · exact .done (h.still (by rfl))
  · exact .done (h.setLeaf _ _)
  · exact .done (h.setPort _ _)

theorem State.keeps.tryStart (h : s₀.keeps s) : s₀.keeps s.tryStart :=
  .ite (h.beginStart _) h

theorem State.keeps.assertReset (h : s₀.keeps s) (f : Pins → Pins) : s₀.keeps (s.assertReset f) := by
  unfold State.assertReset
  extract_lets +onlyGivenNames r
  have hr : s₀.keeps r := h.resetAll
  exact hr.still rfl

theorem Kept.execPerstAssert (h : s₀.keeps s) : Kept s₀ (execPerstAssert s) :=
  .next (h.assertReset _)

theorem Kept.execColdRstAssert (h : s₀.keeps s) : Kept s₀ (execColdRstAssert s) :=
  .next (h.assertReset _)

theorem Kept.execPwrgdFall (h : s₀.keeps s) : Kept s₀ (execPwrgdFall s) :=
  .next (h.assertReset _)

theorem Kept.execPerstRelease (h : s₀.keeps s) : Kept s₀ (execPerstRelease s) :=
  .ite (.next h) (.next (h.still (by rfl)).tryStart)

theorem Kept.execColdRstRelease (h : s₀.keeps s) : Kept s₀ (execColdRstRelease s) :=
  .ite (.next h) (.next (h.still (by rfl)).tryStart)

theorem Kept.execPwrgdRise (h : s₀.keeps s) : Kept s₀ (execPwrgdRise s) :=
  .ite (.next h) (.next (h.still (by rfl)).tryStart)

theorem Kept.execPowerRemoved (h : s₀.keeps s) : Kept s₀ (execPowerRemoved s) := by
  unfold Machine.execPowerRemoved
  extract_lets +onlyGivenNames f r was flash
  have hr : s₀.keeps r := h.takeFree.resetAll
  clear_value r
  refine .next (hr.still (?_))
  have hf : flash.log = r.flash.log ∧ flash.nextSeq = r.flash.nextSeq := by
    unfold flash
    split
    · exact ⟨rfl, rfl⟩
    · exact ⟨rfl, rfl⟩
  obtain ⟨hlog, hseq⟩ := hf
  simp only [State.kept, hlog, hseq]

theorem Kept.execStart (h : s₀.keeps s) : Kept s₀ (execStart s) :=
  .ite (.next h.tryStart) (.next h)

theorem State.keeps.lockPlls (h : s₀.keeps s) (sites : List Nat) : s₀.keeps (s.lockPlls sites) :=
  h.still rfl

theorem State.keeps.stageTo (h : s₀.keeps s) (n : Nat) : s₀.keeps (s.stageTo n) :=
  h.still rfl

theorem State.keeps.enterMinimal (h : s₀.keeps s) : s₀.keeps s.enterMinimal :=
  (h.still (by rfl)).lockPlls _

theorem State.keeps.stage6 (h : s₀.keeps s) (bond : List Nat) : s₀.keeps (s.stage6 bond) := by
  unfold State.stage6
  refine .ite h ?_
  split
  · exact (h.event _ _).failStart _
  next t e =>
    have ht : s₀.keeps t := (h.negotiate _) _ e
    extract_lets +onlyGivenNames s1
    have hs1 : s₀.keeps s1 := ht.lockPlls _
    extract_lets +onlyGivenNames s2 s3 s4
    have hs4 : s₀.keeps s4 := by
      unfold s4
      clear_value s1 s4
      exact hs1.still rfl
    exact .stageTo (.foldl (fun _ _ hu => hu.setLeaf _ _) _ hs4) _

theorem State.keeps.stage7 (h : s₀.keeps s) : s₀.keeps s.stage7 := by
  unfold State.stage7
  refine .ite h ?_
  split
  · exact h.failStart _
  · exact (h.still (by rfl)).stageTo _

theorem State.keeps.stage8 (h : s₀.keeps s) (failing : List Nat) : s₀.keeps (s.stage8 failing) := by
  have hc : ∀ c, s₀.keeps { s with chans := c } := fun _ => h.still (by rfl)
  unfold State.stage8
  extract_lets +onlyGivenNames bad
  refine .ite (h.failStart _) ?_
  extract_lets +onlyGivenNames src chan
  exact .stageTo (hc _) _

theorem State.keeps.putUnits (h : s₀.keeps s) (chans : List Nat) (rows : Nat) : s₀.keeps (s.putUnits chans rows).2 :=
  .foldlSnd (fun _ _ hu => hu.still (by rfl)) _ h

theorem State.keeps.stage9 (h : s₀.keeps s) : s₀.keeps s.stage9 := by
  unfold State.stage9
  extract_lets +onlyGivenNames out s1
  have hs1 : s₀.keeps s1 := .foldl (fun _ _ hu => hu.putUnits _ _) _ h
  exact (hs1.still (by rfl)).stageTo _

theorem State.keeps.stage10 (h : s₀.keeps s) (failing : List Nat) : s₀.keeps (s.stage10 failing) := by
  unfold State.stage10
  extract_lets +onlyGivenNames bad gen s1
  have hs1 : s₀.keeps s1 := .foldl (fun _ _ hu => (hu.closeCore _ _).event _ _) _ h
  extract_lets +onlyGivenNames s2 s3
  have hs3 : s₀.keeps s3 := hs1.still rfl
  exact .stageTo (.foldl (fun _ _ hu => hu.setPort _ _) _ hs3) _

theorem State.keeps.stage11 (h : s₀.keeps s) (unconnected : List Nat) : s₀.keeps (s.stage11 unconnected) := by
  unfold State.stage11
  extract_lets +onlyGivenNames s1
  have hs1 : s₀.keeps s1 := .foldl (fun _ _ hu => .ite (hu.setPort _ _) hu) _ h
  exact .ite hs1 (hs1.stageTo _)

theorem Kept.execStartWatchdog (h : s₀.keeps s) : Kept s₀ (execStartWatchdog s) :=
  .ite (.next (h.failStart _)) (.next h)

theorem Kept.execFwHeartbeatTick (h : s₀.keeps s) : Kept s₀ (execFwHeartbeatTick s) := by
  unfold Machine.execFwHeartbeatTick
  refine .ite (.next h) ?_
  extract_lets +onlyGivenNames s1 s2
  have hs2 : s₀.keeps s2 := h.still rfl
  extract_lets +onlyGivenNames s3
  have hs3 : s₀.keeps s3 := .ite hs2 (hs2.still (by rfl))
  exact .ite (.next hs3) (.next (hs3.still (by rfl)))

theorem Kept.execFwWatchdogExpiry (h : s₀.keeps s) : Kept s₀ (execFwWatchdogExpiry s) :=
  .ite (.next h) (.next ((h.still (by rfl)).event _ _))

theorem Kept.execMbLimitAdjust (h : s₀.keeps s) : Kept s₀ (execMbLimitAdjust s) := by
  unfold Machine.execMbLimitAdjust
  extract_lets +onlyGivenNames q halve fns
  exact .next (h.still (by rfl))

theorem State.keeps.restart (h : s₀.keeps s) (forced : Bool) : s₀.keeps (s.restart forced) :=
  h.aliveLow.resetAll.beginStart _

theorem Kept.execFlashWriteComplete (h : s₀.keeps s) : Kept s₀ (execFlashWriteComplete s) := by
  unfold Machine.execFlashWriteComplete
  split
  · exact .next h
  · extract_lets +onlyGivenNames s1 s2
    have hs2 : s₀.keeps s2 := h.still rfl
    extract_lets +onlyGivenNames s3
    have hs3 : s₀.keeps s3 := .ite hs2 (hs2.answer _ _ _ _ _ _)
    refine .ite (.next ((hs3.still (by rfl)).restart _)) ?_
    split
    · exact .next (hs3.restart _)
    · exact .next hs3

theorem State.keeps.fwWrite (h : s₀.keeps s) (r : Req) (load : Bool) (image : List Byte) (fs : List Nat) :
    s₀.keepsAns (fwWrite r load image fs s) :=
  .ite (.ok h) (.bind fun _ => .ite (.ok h) (.ok (h.still (by rfl))))

theorem Kept.execFwUpdate (h : s₀.keeps s) (r : Req) (image : List Byte) : Kept s₀ (execFwUpdate r image s) :=
  .serve h _ _ _ _ _ (fun _ => h.fwWrite _ _ _ _)

theorem Kept.execFwLoad (h : s₀.keeps s) (r : Req) (image : List Byte) : Kept s₀ (execFwLoad r image s) :=
  .serve h _ _ _ _ _ (fun _ => .bind fun _ => h.fwWrite _ _ _ _)

theorem Kept.execDevRestart (h : s₀.keeps s) (r : Req) : Kept s₀ (execDevRestart r s) := by
  unfold Machine.execDevRestart
  refine .serve h _ _ _ _ _ ?_
  intro fs
  extract_lets +onlyGivenNames target s1 s2
  have hs2 : s₀.keeps s2 := .ite (h.still (by rfl)) h
  exact .ite (.ok (hs2.still (by rfl))) (.ok (hs2.restart _))

theorem Kept.execDevStatus (h : s₀.keeps s) (r : Req) : Kept s₀ (execDevStatus r s) :=
  .serve h _ _ _ _ _ (fun _ => h.pageAns _ _ _ _)

theorem Kept.execFwStatus (h : s₀.keeps s) (r : Req) : Kept s₀ (execFwStatus r s) :=
  .serve h _ _ _ _ _ (fun _ => h.pageAns _ _ _ _)

theorem Kept.execLogRead (h : s₀.keeps s) (r : Req) : Kept s₀ (execLogRead r s) :=
  .serve h _ _ _ _ _ (fun _ => .done (h.ioWrite _ _ _))

theorem Kept.execMbSetLimit (h : s₀.keeps s) (r : Req) : Kept s₀ (execMbSetLimit r s) :=
  .serve h _ _ _ _ _ (fun _ => .done (h.setFn _ _))

end Sys2Proof.Machine
end

section
/-! What every command keeps: security, the peer links, the commands of queues and the directory. -/

namespace Sys2Proof.Machine

variable {s₀ s t : State}

theorem State.keeps.reply (h : s₀.keeps s) (port kind : Nat) (data : List Byte) : s₀.keeps (s.reply port kind data) :=
  h.still rfl

theorem State.keeps.releaseCores (h : s₀.keeps s) (p : Nat → Bool) : s₀.keeps (s.releaseCores p) :=
  h.still rfl

theorem State.keeps.endSession (h : s₀.keeps s) : s₀.keeps s.endSession := by
  unfold State.endSession
  extract_lets +onlyGivenNames x
  have hx : s₀.keeps x := h.releaseCores _
  exact hx.still rfl

theorem State.keeps.leaveMask (h : s₀.keeps s) (p : Nat) : s₀.keeps (s.leaveMask p) := by
  unfold State.leaveMask
  extract_lets +onlyGivenNames s1
  have hs1 : s₀.keeps s1 := h.releaseCores _
  exact hs1.still rfl

theorem Kept.execUnlock (h : s₀.keeps s) (token : BitVec 128) : Kept s₀ (execUnlock token s) := by
  unfold Machine.execUnlock
  split
  · exact .ite (.next (h.still (by rfl))) (.next h)
  · exact .next h

theorem Kept.execDebugWindowExpiry (h : s₀.keeps s) : Kept s₀ (execDebugWindowExpiry s) :=
  .next (h.still (by rfl))

theorem Kept.execDebugHalt (h : s₀.keeps s) (core : Fin 160) (halt : Bool) : Kept s₀ (execDebugHalt core halt s) :=
  .ite (.next (h.still (by rfl))) (.next h)

theorem Kept.execDebugStateAccess (h : s₀.keeps s) (g : GroupRef) (target : DbgTarget) (write : Option Word) :
    Kept s₀ (execDebugStateAccess g target write s) := by
  unfold Machine.execDebugStateAccess
  split
  · exact .next h
  · split
    · refine .ite (.next h) ?_
      split
      · exact .next (h.reply _ _ _)
      · exact .next (h.putGroup _ _)
      · exact .next (h.reply _ _ _)
      · exact .next (h.putGroup _ _)
      · exact .next (h.reply _ _ _)
      · exact .next (h.putGroup _ _)
      · exact .next (h.reply _ _ _)
      · exact .next (.ite (h.setBlock _ _) h)
      · exact .next (h.reply _ _ _)
      · exact .next (h.putGroup _ _)
    · exact .next h

theorem Kept.execDbgAuthorize (h : s₀.keeps s) (r : Req) : Kept s₀ (execDbgAuthorize r s) :=
  .serve h _ _ _ _ _ (fun _ => .bind fun _ => .bind fun _ => .done (h.still (by rfl)))

theorem Kept.execDbgRevoke (h : s₀.keeps s) (r : Req) : Kept s₀ (execDbgRevoke r s) :=
  .serve h _ _ _ _ _ (fun _ => .done h.endSession)

theorem Kept.execDbgTraceStart (h : s₀.keeps s) (r : Req) : Kept s₀ (execDbgTraceStart r s) :=
  .serve h _ _ _ _ _ (fun _ => .bind fun _ => .done (h.still (by rfl)))

theorem Kept.execDbgTraceStop (h : s₀.keeps s) (r : Req) : Kept s₀ (execDbgTraceStop r s) :=
  .serve h _ _ _ _ _ (fun _ => .bind fun _ => .done (h.still (by rfl)))

theorem Kept.execSecStatus (h : s₀.keeps s) (r : Req) : Kept s₀ (execSecStatus r s) :=
  .serve h _ _ _ _ _ (fun _ => h.pageAns _ _ _ _)

theorem Kept.execSecPageQuery (h : s₀.keeps s) (r : Req) : Kept s₀ (execSecPageQuery r s) :=
  .serve h _ _ _ _ _ (fun _ => .done h)

theorem Kept.execPageQuery (h : s₀.keeps s) (r : Req) : Kept s₀ (execPageQuery r s) :=
  .serve h _ _ _ _ _ (fun _ => .done h)

theorem Kept.execSecPartReport (h : s₀.keeps s) (r : Req) : Kept s₀ (execSecPartReport r s) :=
  .serve h _ _ _ _ _ (fun _ => .bind fun _ => .bind fun _ => .done (h.ioWrite _ _ _))

theorem Kept.spdm (h : s₀.keeps s) {body : State} (hb : s₀.keeps body) : Kept s₀ (s.spdm body) :=
  .ite (.next h) (.ite (.next (h.reply _ _ _)) (.next hb))

theorem Kept.execGetMeasurements (h : s₀.keeps s) (index : BitVec 8) : Kept s₀ (execGetMeasurements index s) := by
  unfold Machine.execGetMeasurements
  extract_lets +onlyGivenNames ks
  exact .spdm h (h.reply _ _ _)

theorem Kept.execChallenge (h : s₀.keeps s) (nonce : List Byte) : Kept s₀ (execChallenge nonce s) :=
  .spdm h (h.reply _ _ _)

theorem Kept.execGetCertificate (h : s₀.keeps s) (slot : BitVec 3) : Kept s₀ (execGetCertificate slot s) :=
  .spdm h (.ite (h.reply _ _ _) (h.reply _ _ _))

theorem Kept.execKeyExchange (h : s₀.keeps s) : Kept s₀ (execKeyExchange s) := by
  unfold Machine.execKeyExchange
  extract_lets +onlyGivenNames n secret
  exact .spdm h (.ite (h.reply _ _ _) ((h.reply 2 0 (Config.dhePublic secret)).still (by rfl)))

theorem Kept.execIdeKm (h : s₀.keeps s) (session : Nat) (stream : Fin 2) : Kept s₀ (execIdeKm session stream s) :=
  .spdm h (.ite (h.reply _ _ _) ((h.reply 2 0 []).still (by rfl)))

theorem Kept.execBypass (h : s₀.keeps s) : Kept s₀ (execBypass s) :=
  .next (h.still (by rfl))

theorem Kept.execIdcode (h : s₀.keeps s) : Kept s₀ (execIdcode s) := by
  unfold Machine.execIdcode
  extract_lets +onlyGivenNames digit v
  exact .next ((h.still (by rfl)).reply _ _ _)

theorem Kept.execSamplePreload (h : s₀.keeps s) : Kept s₀ (execSamplePreload s) :=
  .next (h.still (by rfl))

theorem Kept.execExtest (h : s₀.keeps s) : Kept s₀ (execExtest s) :=
  .ite (.next (h.still (by rfl))) (.next h)

theorem Kept.execEntdaa (h : s₀.keeps s) (addr : BitVec 7) : Kept s₀ (execEntdaa addr s) :=
  .next ((h.still (by rfl)).reply _ _ _)

theorem Kept.mctp (h : s₀.keeps s) (kind : Nat) (data : List Byte) : Kept s₀ (s.mctp kind data) :=
  .ite (.next h) (.next (h.reply _ _ _))

theorem Kept.execMctpControl (h : s₀.keeps s) : Kept s₀ (execMctpControl s) :=
  .mctp h _ _

theorem Kept.execPldmSensorRead (h : s₀.keeps s) (sensor : Fin 25) : Kept s₀ (execPldmSensorRead sensor s) :=
  .ite (.mctp h _ _) (.mctp h _ _)

theorem Kept.execQueryDeviceIdentifiers (h : s₀.keeps s) : Kept s₀ (execQueryDeviceIdentifiers s) :=
  .mctp h _ _

theorem Kept.execGetFirmwareParameters (h : s₀.keeps s) : Kept s₀ (execGetFirmwareParameters s) :=
  .mctp h _ _

theorem Kept.execPldmUnsupported (h : s₀.keeps s) : Kept s₀ (execPldmUnsupported s) :=
  .mctp h _ _

theorem State.keeps.portSend (h : s₀.keeps s) (k : Nat) (m : Msg) : s₀.keeps (s.portSend k m) := by
  unfold State.portSend
  extract_lets +onlyGivenNames p credits x
  have hx : s₀.keeps x := h.setPort _ _
  exact hx.still rfl

theorem State.keeps.portGive (h : s₀.keeps s) (k : Nat) (m : Msg) : s₀.keeps (s.portGive k m) :=
  .ite (h.portSend _ _) (h.setPort _ _)

theorem State.keeps.portDrain (h : s₀.keeps s) (k : Nat) : s₀.keeps (s.portDrain k) :=
  .foldl (fun _ _ hu => hu.portGive _ _) _ (h.setPort _ _)

theorem State.keeps.lbxSend (h : s₀.keeps s) (dest tile kind : Nat) (args : List Nat) (data : List Byte) :
    s₀.keeps (s.lbxSend dest tile kind args data) := by
  unfold State.lbxSend
  extract_lets +onlyGivenNames msgs
  split
  · exact h.still rfl
  · exact .foldl (fun _ _ hu => hu.portGive _ _) _ h

theorem Kept.execLbxCtrlFlit (h : s₀.keeps s) (port : Fin 12) (d : Fin 8) (peerPort : Fin 12) (twin versionOk : Bool) (lastSeq : BitVec 12) :
    Kept s₀ (execLbxCtrlFlit port d peerPort twin versionOk lastSeq s) := by
  unfold Machine.execLbxCtrlFlit
  extract_lets +onlyGivenNames p
  exact .ite (.next h) (.ite (.next ((h.setPort _ _).event _ _)) (.next (h.setPort _ _)))

theorem Kept.execLbxTrainingDone (h : s₀.keeps s) (port : Fin 12) (half : Bool) : Kept s₀ (execLbxTrainingDone port half s) := by
  unfold Machine.execLbxTrainingDone
  extract_lets +onlyGivenNames p
  refine .ite (.next h) ?_
  extract_lets +onlyGivenNames s1 s2
  have hs2 : s₀.keeps s2 := .ite (h.still (by rfl)) h
  extract_lets +onlyGivenNames d s3 s4
  have hs4 : s₀.keeps s4 := .ite hs2 (hs2.still (by rfl))
  exact .next (hs4.setPort _ _)

theorem Kept.execLbxTrainingTimeout (h : s₀.keeps s) (port : Fin 12) : Kept s₀ (execLbxTrainingTimeout port s) := by
  unfold Machine.execLbxTrainingTimeout
  extract_lets +onlyGivenNames p
  exact .ite (.next h) (.ite (.next (h.setPort _ _)) (.next (h.setPort _ _)))

theorem State.keeps.retrainPort (h : s₀.keeps s) (port : Nat) : s₀.keeps (s.retrainPort port) :=
  .ite h (.ite ((h.setPort _ _).event _ _) (((h.setPort _ _).event _ _).event _ _))

theorem Kept.execLbxPortSilence (h : s₀.keeps s) (port : Fin 12) : Kept s₀ (execLbxPortSilence port s) :=
  .next (h.retrainPort _)

theorem Kept.execLbxReplayStorm (h : s₀.keeps s) (port : Fin 12) : Kept s₀ (execLbxReplayStorm port s) :=
  .next (h.retrainPort _)

theorem Kept.execLbxFlit (h : s₀.keeps s) (port : Fin 12) (seq ack : BitVec 12) (rest : BitVec 2024) :
    Kept s₀ (execLbxFlit port seq ack rest s) := by
  unfold Machine.execLbxFlit
  extract_lets +onlyGivenNames flit p
  exact .ite (.next h) (.ite (.next ((h.setPort _ _).portDrain _)) (.next (((h.setPort ↑port _).event 1281 ↑port).still (by rfl))))

theorem Kept.execLbxNak (h : s₀.keeps s) (port : Fin 12) (seq : BitVec 12) : Kept s₀ (execLbxNak port seq s) := by
  unfold Machine.execLbxNak
  extract_lets +onlyGivenNames p
  exact .ite (.next h) (.next ((h.setPort _ _).portDrain _))

theorem Kept.execLbxCodeword (h : s₀.keeps s) (port : Fin 12) (corrected discarded : Bool) :
    Kept s₀ (execLbxCodeword port corrected discarded s) := by
  unfold Machine.execLbxCodeword
  extract_lets +onlyGivenNames p
  exact .ite (.next ((h.setPort _ _).event _ _)) (.ite (.next ((h.setPort _ _).event _ _)) (.next h))

theorem Kept.execLbxIdleTimer (h : s₀.keeps s) (port : Fin 12) : Kept s₀ (execLbxIdleTimer port s) := by
  unfold Machine.execLbxIdleTimer
  extract_lets +onlyGivenNames p
  exact .ite (.next h) (.next (h.still (by rfl)))

theorem State.keeps.putPage (h : s₀.keeps s) (p key : Nat) (g : Page) : s₀.keeps (s.putPage p key g) :=
  h.still rfl

theorem State.keeps.dropPage (h : s₀.keeps s) (p key : Nat) : s₀.keeps (s.dropPage p key) :=
  h.still rfl

theorem Kept.execLbxSetId (h : s₀.keeps s) (r : Req) : Kept s₀ (execLbxSetId r s) :=
  .serve h _ _ _ _ _ (fun _ => .bind fun _ => .done (h.still (by rfl)))

theorem Kept.execLbxStatus (h : s₀.keeps s) (r : Req) : Kept s₀ (execLbxStatus r s) :=
  .serve h _ _ _ _ _ (fun _ => h.pageAns _ _ _ _)

theorem Kept.execLbxRetrain (h : s₀.keeps s) (r : Req) : Kept s₀ (execLbxRetrain r s) :=
  .serve h _ _ _ _ _ (fun _ => .bind fun _ => .done (.ite (h.setPort _ _) h))

theorem Kept.execLbxExport (h : s₀.keeps s) (r : Req) : Kept s₀ (execLbxExport r s) :=
  .serve h _ _ _ _ _ (fun _ => .done (h.still (by rfl)))

theorem State.keeps.closeExport (h : s₀.keeps s) (x : Nat) : s₀.keeps (s.closeExport x) := by
  unfold State.closeExport
  split
  · exact h
  · split
    · exact h
    · exact .ite h ((h.still (by rfl)).answer _ _ _ _ _ _)

theorem Kept.execLbxUnexport (h : s₀.keeps s) (r : Req) : Kept s₀ (execLbxUnexport r s) := by
  unfold Machine.execLbxUnexport
  refine .serve h _ _ _ _ _ ?_
  intro fs
  split
  · exact .error _
  · extract_lets +onlyGivenNames e' s1 s2
    have hs2 : s₀.keeps s2 := h.still rfl
    exact .ok (hs2.closeExport _)

theorem Kept.execLbxImport (h : s₀.keeps s) (r : Req) : Kept s₀ (execLbxImport r s) :=
  .serve h _ _ _ _ _ (fun _ => .bind fun _ => .bind fun _ => .done (.foldl (fun _ _ hu3 => hu3.putPage _ _ _) _ h))

theorem State.keeps.setCmd (h : s₀.keeps s) (id : Nat) (c : Cmd) : s₀.keeps (s.setCmd id c) :=
  h.still rfl

theorem State.keeps.setQueue (h : s₀.keeps s) (q : Nat) (v : Queue) : s₀.keeps (s.setQueue q v) :=
  h.still rfl

theorem State.keeps.cmdDone (h : s₀.keeps s) (id : Nat) (st : Status) (detail : DWord) : s₀.keeps (s.cmdDone id st detail) := by
  unfold State.cmdDone
  split
  · exact h
  · refine .ite h ?_
    split
    · exact h.setCmd _ _
    · exact h.setCmd _ _

theorem State.keeps.cmdRaise (h : s₀.keeps s) (id : Nat) (f : BitVec 16) : s₀.keeps (s.cmdRaise id f) := by
  unfold State.cmdRaise
  split
  · exact h
  · exact h.setCmd _ _

theorem State.keeps.skipPass (h : s₀.keeps s) (cmd : Nat) : s₀.keeps (s.skipPass cmd) := by
  unfold State.skipPass
  refine .foldl (fun u a hu => ?_) _ h
  split
  · exact .ite (hu.setTask _ _) hu
  · exact hu

theorem State.keeps.settleStep (h : s₀.keeps s) (cmd : Nat) : s₀.keeps (s.settleStep cmd) := by
  unfold State.settleStep
  split
  · exact h
  · refine .ite h ?_
    extract_lets +onlyGivenNames s1
    have hs1 : s₀.keeps s1 := .foldl (fun _ _ hu => hu.skipPass _) _ h
    extract_lets +onlyGivenNames ts left
    clear_value s1
    refine .ite hs1 ?_
    extract_lets +onlyGivenNames flags f c s2
    have hs2 : s₀.keeps s2 := hs1.setCmd _ _
    exact hs2.still rfl

theorem State.keeps.coreIdle (h : s₀.keeps s) (c : Nat) : s₀.keeps (s.coreIdle c) :=
  .ite (h.still (by rfl)) h

theorem State.keeps.dropBlock (h : s₀.keeps s) (b : Nat) : s₀.keeps (s.dropBlock b) := by
  unfold State.dropBlock
  split
  · exact h
  · extract_lets +onlyGivenNames s1
    have hs1 : s₀.keeps s1 := h.mxuDrop _
    extract_lets +onlyGivenNames s2
    have hs2 : s₀.keeps s2 := (hs1.still (by rfl)).refill
    exact hs2.coreIdle _

theorem State.keeps.dirPut (h : s₀.keeps s) (line : Nat) (e : Option DirEntry) : s₀.keeps (s.dirPut line e) := by
  unfold State.dirPut
  split
  · exact h.still rfl
  · refine .ite (h.still (by rfl)) ?_
    split
    · exact h.still rfl
    · exact h.still rfl

theorem State.keeps.toPeer (h : s₀.keeps s) (dest line : Nat) (k : LbxKind) (args : List Nat) (data : List Byte) :
    s₀.keeps (s.toPeer dest line k args data) :=
  h.lbxSend _ _ _ _ _

theorem State.keeps.sendSnoops (h : s₀.keeps s) (line : Nat) (inv : Bool) (m : BitVec 10) : s₀.keeps (s.sendSnoops line inv m) :=
  .foldl (fun _ _ hu => .ite ((hu.still (by rfl)).toPeer _ _ _ _ _) (hu.still (by rfl))) _ h

theorem State.keeps.openTxn (h : s₀.keeps s) (line : Nat) (d : DirStep) (cause : Option Nat) (drop : Bool) :
    s₀.keeps (s.openTxn line d cause drop) := by
  unfold State.openTxn
  extract_lets +onlyGivenNames s1
  have hs1 : s₀.keeps s1 := h.still rfl
  exact hs1.sendSnoops _ _ _

theorem State.keeps.evictDir (h : s₀.keeps s) (line : Nat) : s₀.keepsSome (s.evictDir line) := by
  unfold State.evictDir
  extract_lets +onlyGivenNames ways
  refine .ite .none ?_
  split
  · exact .none
  · extract_lets +onlyGivenNames s1
    have hs1 : s₀.keeps s1 := h.still rfl
    exact .some (hs1.openTxn _ _ _ _)

theorem State.keeps.access (h : s₀.keeps s) (line : Nat) (ev : DirEvent) (cause : Option Nat) (drop : Bool) :
    s₀.keepsSome (Option.map Prod.snd (s.access line ev cause drop)) := by
  unfold State.access
  split
  · exact .none
  · dsimp only
    split
    · exact .some (h.openTxn _ _ _ _)
    · split
      · exact .mapMap ((h.evictDir _).map fun _ hu => hu)
      · exact .some (h.dirPut _ _)

theorem State.keeps.accessAll (h : s₀.keeps s) (lines : List Nat) (ev : DirEvent) (cause : Option Nat) (drop : Bool) :
    s₀.keepsSome (Option.map Prod.snd (s.accessAll lines ev cause drop)) := by
  unfold State.accessAll
  split
  · exact .none
  · refine .some ?_
    refine .foldlSnd (fun u a hu => ?_) _ h
    split
    next t e =>
      have ht : s₀.keeps t.2 := (hu.access _ _ _ _) _ (congrArg (Option.map Prod.snd) e)
      exact ht
    · exact hu

end Sys2Proof.Machine
end

section
/-! What every command keeps: the homes and what they serve. -/

namespace Sys2Proof.Machine

variable {s₀ s t : State}

theorem State.keeps.setReq (h : s₀.keeps s) (id : Nat) (q : MemReq) : s₀.keeps (s.setReq id q) :=
  h.still rfl

theorem State.keeps.stageReq (h : s₀.keeps s) (id : Nat) (q : MemReq) (g : ReqStage) : s₀.keeps (s.stageReq id q g) :=
  h.setReq _ _

theorem State.keeps.endReq (h : s₀.keeps s) (id : Nat) (q : MemReq) : s₀.keeps (s.endReq id q) := by
  unfold State.endReq
  extract_lets +onlyGivenNames s1
  have hs1 : s₀.keeps s1 := h.still rfl
  split
  · exact hs1.closeExport _
  · exact hs1

theorem State.keeps.reqRaise (h : s₀.keeps s) (q : MemReq) (f : BitVec 16) : s₀.keeps (s.reqRaise q f) := by
  unfold State.reqRaise
  split
  · split
    · exact h.raise _ _
    · exact h
  · exact h.cmdRaise _ _
  · exact h

theorem State.keeps.comeBack (h : s₀.keeps s) (q : MemReq) (cls n : Nat) : s₀.keepsSome (s.comeBack q cls n) := by
  unfold State.comeBack
  split
  · exact .some h
  · extract_lets +onlyGivenNames to_
    refine .ite ?_ .none
    refine .some ?_
    extract_lets +onlyGivenNames x
    have hx : s₀.keeps x := h.leafSend _ _ _
    exact hx.still rfl

theorem State.keeps.respond (h : s₀.keeps s) (id : Nat) (q : MemReq) (k : LbxKind) (d : BitVec 1024) (zero poison spent : Bool) :
    s₀.keeps (s.respond id q k d zero poison spent) := by
  unfold State.respond
  extract_lets +onlyGivenNames data s1
  have hs1 : s₀.keeps s1 := (h.comeBack _ _ _).getD h
  extract_lets +onlyGivenNames s2
  have hs2 : s₀.keeps s2 := hs1.endReq _ _
  split
  · refine .ite ?_ (hs2.toPeer _ _ _ _ _)
    extract_lets +onlyGivenNames s3
    have hs3 : s₀.keeps s3 := by
      unfold s3
      split
      · exact hs2.still rfl
      · exact hs2
    exact hs3.still rfl
  · exact hs2

theorem State.keeps.reqFail (h : s₀.keeps s) (id : Nat) (q : MemReq) (st : Status) : s₀.keeps (s.reqFail id q st) := by
  unfold State.reqFail
  refine .ite (h.endReq _ _) ?_
  split
  · split
    · exact (h.endReq _ _).endTask _ _ _
    · exact h.endReq _ _
  · split
    · exact .ite (h.endReq _ _) ((h.endReq _ _).cmdDone _ _ _)
    · exact h.endReq _ _
  · exact h.stageReq _ _ _
  · exact h.respond _ _ _ _ _ _ _

theorem State.keeps.answered (h : s₀.keeps s) (id : Nat) (q : MemReq) (k : LbxKind) (d : BitVec 1024) (zero spent : Bool) :
    s₀.keeps (s.answered id q k d zero spent) := by
  unfold State.answered
  split
  · exact h.respond _ _ _ _ _ _ _
  · exact .ite (h.endReq _ _) (h.stageReq _ _ _)

theorem State.keeps.ordered (h : s₀.keeps s) (id : Nat) (q : MemReq) (sat : Bool) : s₀.keeps (s.ordered id q sat) := by
  unfold State.ordered
  split
  · exact h.respond _ _ _ _ _ _ _
  · exact h.endReq _ _

theorem State.keeps.takeLine (h : s₀.keeps s) (line : Nat) : s₀.keeps (s.takeLine line).2 :=
  h.still rfl

theorem State.keeps.cross (h : s₀.keeps s) (q : MemReq) : s₀.keepsSome (Option.map Prod.fst (s.cross q)) := by
  unfold State.cross
  extract_lets +onlyGivenNames to_ k data
  split
  · exact .some h
  · split
    · extract_lets +onlyGivenNames s1 s2
      have hs2 : s₀.keeps s2 := .ite (h.leafSend _ _ _) ((h.leafSend _ _ _).leafSend _ _ _)
      clear_value s2
      exact .some (hs2.still (by rfl))
    · exact .none

theorem State.keeps.quarantine (h : s₀.keeps s) (line : Nat) : s₀.keeps (s.quarantine line) := by
  unfold State.quarantine
  split
  · exact .ite (h.still (by rfl)) h
  · exact h

theorem State.keeps.noteBad (h : s₀.keeps s) (line : Nat) : s₀.keeps (s.noteBad line) :=
  .ite (h.rowEvent _ _ _) (.ite (h.rowEvent _ _ _) ((h.quarantine _).rowEvent _ _ _))

theorem State.keeps.corruptTile (h : s₀.keeps s) (t : TileAt) : s₀.keeps (s.corruptTile t) :=
  ((h.tileTo _ _).quarantine _).rowEvent _ _ _

theorem State.keeps.discoverBad (h : s₀.keeps s) (line : Nat) (need : BitVec 4) : s₀.keeps (s.discoverBad line need) :=
  .ite h ((h.foundBad _ _ _).noteBad _)

theorem State.keeps.tssLost (h : s₀.keeps s) (ch row : Nat) : s₀.keeps (s.tssLost ch row) := by
  unfold State.tssLost
  extract_lets +onlyGivenNames s1
  have hs1 : s₀.keeps s1 := by
    unfold s1
    clear_value s1
    refine .foldl (fun u a hu => ?_) _ h
    extract_lets +onlyGivenNames t x
    have hx : s₀.keeps x := hu.tileTo _ _
    exact hx.still rfl
  exact hs1.rowEvent _ _ _

theorem State.keeps.tssMeet (h : s₀.keeps s) (line : Nat) : s₀.keeps (s.tssMeet line) := by
  unfold State.tssMeet
  split
  · exact h
  · exact .ite (((h.still (by rfl)).tssLost _ _).quarantine _) h

theorem State.keeps.askTwin (h : s₀.keeps s) (id line : Nat) (k : LbxKind) : s₀.keeps (s.askTwin id line k) :=
  h.toPeer _ _ _ _ _

theorem State.keeps.readData (h : s₀.keeps s) (id : Nat) (q : MemReq) (line : Nat) : s₀.keeps (s.readData id q line) := by
  unfold State.readData
  extract_lets +onlyGivenNames s1
  have hs1 : s₀.keeps s1 := .ite (h.reqRaise _ _) h
  exact hs1.answered _ _ _ _ _ _

theorem State.keeps.readOther (h : s₀.keeps s) (id : Nat) (q : MemReq) (line : Nat) (m : ReadMeets) :
    s₀.keepsSome (s.readOther id q line m) := by
  unfold State.readOther
  split
  · exact .some (h.answered _ _ _ _ _ _)
  · exact .ite (.some (h.reqFail _ _ _)) (.some (((h.takeLine _).reqRaise _ _).answered _ _ _ _ _ _))
  · exact .ite (.some (h.stageReq _ _ _)) (.some (h.reqFail _ _ _))
  · refine .ite (.some (h.endReq _ _)) ?_
    exact .ite (.some (h.reqFail _ _ _)) (.ite .none (.some (((h.stageReq _ _ _).reqRaise _ _).askTwin _ _ _)))
  · exact .none

theorem State.keeps.llcReserve (h : s₀.keeps s) (l : LineId) (a : Access) : s₀.keepsSome (s.llcReserve l a) := by
  unfold State.llcReserve
  split
  · extract_lets +onlyGivenNames r
    have hr : s₀.keeps r.1 := h.hintHit _ _ _
    exact .some (hr.still (by rfl))
  · exact h.llcPlace _ _ _ _ _

theorem State.keeps.llcFill (h : s₀.keeps s) (l : LineId) (a : Access) (d : BitVec 1024) (v : BitVec 4) :
    s₀.keepsSome (s.llcFill l a d v) := by
  unfold State.llcFill
  split
  · extract_lets +onlyGivenNames new
    exact .some (h.still (by rfl))
  · exact h.llcPlace _ _ _ _ _

theorem State.keeps.askMemory (h : s₀.keeps s) (id : Nat) (q : MemReq) (line : Nat) (v : BitVec 4) :
    s₀.keepsSome (s.askMemory id q line v) := by
  unfold State.askMemory
  split
  · exact .none
  · extract_lets +onlyGivenNames pc who
    exact .ite .none (.ite (.bind (.some h) fun _ hu => .some (hu.mcPush _)) ((h.llcReserve _ _).bind fun _ hu => .some (hu.mcPush _)))

theorem State.keeps.lookup (h : s₀.keeps s) (id : Nat) (q : MemReq) (hit : Bool) : s₀.keeps (s.lookup id q hit).1 := by
  unfold State.lookup
  split
  · exact h
  · dsimp only
    exact (h.countLookup _ _ _ _).setReq _ _

theorem State.keeps.readTile (h : s₀.keeps s) (id : Nat) (q : MemReq) (line : Nat) : s₀.keepsSome (s.readTile id q line) := by
  unfold State.readTile
  extract_lets +onlyGivenNames need held
  split
  · extract_lets +onlyGivenNames r
    have hr : s₀.keeps r.1 := h.lookup _ _ _
    refine .ite (.ite (.bind (.some hr) fun _ hu => .some (hu.readData _ _ _)) ((hr.llcReserve _ _).bind fun _ hu => .some (hu.readData _ _ _)))
        ?_
    exact (hr.askMemory _ _ _ _).map fun _ hu => hu.stageReq _ _ _
  · extract_lets +onlyGivenNames r
    have hr : s₀.keeps r.1 := h.lookup _ _ _
    exact hr.readOther _ _ _ _

theorem State.keeps.serveRead (h : s₀.keeps s) (id : Nat) (q : MemReq) (line : Nat) : s₀.keepsSome (s.serveRead id q line) :=
  .bindSnd (h.access _ _ _ _) fun _ hu => .ite (.some hu) (hu.readTile _ _ _)

theorem State.keeps.hostStore (h : s₀.keeps s) (line : Nat) (d : BitVec 1024) (m : BitVec 128) (a : Access) :
    s₀.keepsSome (s.hostStore line d m a) := by
  unfold State.hostStore
  split
  · exact .none
  · extract_lets +onlyGivenNames r
    have hr : s₀.keeps r.1 := h.hintHit _ _ _
    extract_lets +onlyGivenNames e' e'1
    exact .some (hr.still (by rfl))

theorem State.keeps.homeWrite (h : s₀.keeps s) (h' : Home) (d : BitVec 1024) (m : BitVec 128) (w : WritePath) (a : Access) :
    s₀.keepsSome (s.homeWrite h' d m w a) := by
  unfold State.homeWrite
  split
  · exact h.lineWrite _ _ _ _
  · exact h.hostStore _ _ _ _
  · exact .none

theorem State.keeps.granted (h : s₀.keeps s) (id : Nat) (q : MemReq) : s₀.keeps (s.granted id q) := by
  unfold State.granted
  split
  · exact h.respond _ _ _ _ _ _ _
  · exact h.stageReq _ _ _

theorem State.keeps.mayGrant (h : s₀.keeps s) (h' : Home) : s₀.keeps (s.mayGrant h').2 := by
  unfold State.mayGrant
  split
  · split
    next t e =>
      have ht : s₀.keeps t.2 := (h.access _ _ _ _) _ (congrArg (Option.map Prod.snd) e)
      exact ht
    · exact h
  · exact h
  · exact h

/-- What a wait that was granted leaves: the new value is sent to the twin where the line is mirrored. -/
theorem State.keeps.toTwin (h : s₀.keeps s) (a : Home) (id : Nat) :
    s₀.keeps (match a with
      | .dev k => if s.mirrored k then s.toPeer s.twinNum k .wr [id, k] (lineBytes (s.devLine k)) else s
      | _ => s) := by
  split
  · exact .ite (h.toPeer _ _ _ _ _) h
  · exact h

theorem State.keeps.wakeStep {acc : State × Bool} (h : s₀.keeps acc.1) (a : Home) (off k : Nat) :
    s₀.keepsSome ((wakeStep a off acc k).map Prod.fst) := by
  unfold Machine.wakeStep
  split
  · exact .some h
  · split
    · exact .some h
    · split
      · dsimp only
        split
        · split
          next t e =>
            have ht : s₀.keeps t := (h.mayGrant _).of_eq (congrArg Prod.snd e)
            exact .some ht
          next t e =>
            have ht : s₀.keeps t := (h.mayGrant _).of_eq (congrArg Prod.snd e)
            exact .mapBind ((ht.homeWrite _ _ _ _ _).bind fun _ hu => .some (((hu.toTwin a k).still (by rfl)).granted _ _))
        · exact .some h
      · exact .some h

theorem State.keeps.wakeWord (h : s₀.keeps s) (a : Home) (off : Nat) : s₀.keepsSome (s.wakeWord a off) :=
  .foldlMFst (fun _ _ hu => hu.wakeStep _ _ _) _ h

theorem State.keeps.wakeAfter (h : s₀.keeps s) (l : List (Nat × MemReq)) : s₀.keeps (s.wakeAfter l) := by
  unfold State.wakeAfter
  refine .foldl (fun u a hu => ?_) _ h
  split
  · exact hu
  · exact (hu.wakeWord _ _).getD hu
  · exact hu

theorem State.keeps.wakeLine (h : s₀.keeps s) (h' : Home) : s₀.keepsSome (s.wakeLine h') :=
  .foldlM (fun _ _ hu => hu.wakeWord _ _) _ h

theorem State.keeps.mirrorFirst (h : s₀.keeps s) (id : Nat) (q : MemReq) (line : Nat) : s₀.keepsSome (s.mirrorFirst id q line).join := by
  unfold State.mirrorFirst
  extract_lets +onlyGivenNames wait
  split
  · exact .none
  · split
    · exact .none
    · extract_lets +onlyGivenNames old c s1
      have hs1 : s₀.keeps s1 := h.stageReq _ _ _
      exact .some (.ite (hs1.toPeer _ _ _ _ _) (hs1.toPeer _ _ _ _ _))

theorem State.keeps.rmwRead (h : s₀.keeps s) (id : Nat) (q : MemReq) (h' : Home) (need : BitVec 4) :
    s₀.keeps (eitherState (s.rmwRead id q h' need)) := by
  unfold State.rmwRead
  split
  · dsimp only
    split
    · exact (h.discoverBad _ _).reqFail _ _ _
    · split
      · exact (h.discoverBad _ _).reqFail _ _ _
      · exact ((h.discoverBad _ _).takeLine _).reqRaise _ _
    · exact h.discoverBad _ _
  · exact h

theorem State.keeps.homeEffect (h : s₀.keeps s) (id : Nat) (q : MemReq) (h' : Home) : s₀.keepsSome (s.homeEffect id q h') := by
  unfold State.homeEffect
  extract_lets +onlyGivenNames a
  split
  · exact ((h.lookup _ _ _).homeWrite _ _ _ _ _).bind fun _ hu => (hu.wakeLine _).bind fun _ hu1 => .some (hu1.ordered _ _ _)
  · extract_lets +onlyGivenNames m
    split
    next t e =>
      have ht : s₀.keeps t := (h.rmwRead _ _ _ _).of_eq (congrArg eitherState e)
      exact .some ht
    next t _ e =>
      have ht : s₀.keeps t := (h.rmwRead _ _ _ _).of_eq (congrArg eitherState e)
      exact ((ht.lookup _ _ _).homeWrite _ _ _ _ _).bind fun _ hu => (hu.wakeLine _).bind fun _ hu1 => .some (hu1.answered _ _ _ _ _ _)
  · extract_lets +onlyGivenNames m
    split
    next t e =>
      have ht : s₀.keeps t := (h.rmwRead _ _ _ _).of_eq (congrArg eitherState e)
      exact .some ht
    next t _ e =>
      have ht : s₀.keeps t := (h.rmwRead _ _ _ _).of_eq (congrArg eitherState e)
      extract_lets +onlyGivenNames sat s1
      have hs1 : s₀.keeps s1 := .ite (ht.reqRaise _ _) ht
      exact ((hs1.lookup _ _ _).homeWrite _ _ _ _ _).bind fun _ hu => (hu.wakeLine _).bind fun _ hu1 => .some (hu1.ordered _ _ _)
  · split
    next t e =>
      have ht : s₀.keeps t := (h.rmwRead _ _ _ _).of_eq (congrArg eitherState e)
      exact .some ht
    next t _ e =>
      have ht : s₀.keeps t := (h.rmwRead _ _ _ _).of_eq (congrArg eitherState e)
      extract_lets +onlyGivenNames key r
      have hr : s₀.keeps r.1 := ht.lookup _ _ _
      extract_lets +onlyGivenNames s1 s2
      have hs2 : s₀.keeps s2 := hr.stageReq _ _ _
      exact (hs2.still (by rfl)).wakeWord _ _
  · exact .none

/-- As `bind`, for a state that may be all of the answer. -/
theorem State.keepsSome.bindJoin {o : Option (Option State)} {f : Option State → Option State} (ho : s₀.keepsSome o.join)
    (hf : ∀ p, s₀.keepsSome p → s₀.keepsSome (f p)) : s₀.keepsSome (o.bind f) := by
  cases o with
  | none => exact .none
  | some p => exact hf p ho

theorem State.keeps.serveWrite (h : s₀.keeps s) (id : Nat) (q : MemReq) (line : Nat) : s₀.keepsSome (s.serveWrite id q line) := by
  unfold State.serveWrite
  refine .ite .none (.bindSnd (h.access _ _ _ _) fun r hr => .ite (.some (.ite (hr.stageReq _ _ _) hr)) ?_)
  extract_lets +onlyGivenNames s1 v
  refine .ite (((hr.lookup _ _ _).askMemory _ _ _ _).map fun _ hu => hu.stageReq _ _ _) ?_
  extract_lets +onlyGivenNames t done
  have ht : s₀.keeps t := hr.discoverBad _ _
  have hdone : s₀.keepsSome done := by
    unfold done
    refine .bindJoin (ht.mirrorFirst _ _ _) fun p hp => ?_
    cases p with
    | none => exact ht.homeEffect _ _ _
    | some t => exact hp
  clear_value done
  cases done with
  | none => exact .ite .none (.some ht)
  | some t => exact hdone

theorem State.keeps.serveSpent (h : s₀.keeps s) (id : Nat) (q : MemReq) (line : Nat) : s₀.keepsSome (s.serveSpent id q line) := by
  unfold State.serveSpent
  extract_lets +onlyGivenNames lines
  refine .ite .none (.bindSnd (h.accessAll _ _ _ _) fun r hr => .ite (.some hr) (.bindJoin (hr.mirrorFirst _ _ _) fun p hp => ?_))
  cases p with
  | none => exact .some ((hr.spentHint _ _).ordered _ _ _)
  | some t => exact hp

theorem State.keeps.serveHost (h : s₀.keeps s) (id : Nat) (q : MemReq) (line : Nat) : s₀.keepsSome (s.serveHost id q line) := by
  unfold State.serveHost
  extract_lets +onlyGivenNames own
  refine .ite (.some (h.reqFail _ _ _)) ?_
  refine .ite (((h.lookup _ _ _).llcReserve _ _).map fun _ hu => hu.stageReq _ _ _) ?_
  refine .ite (h.homeEffect _ _ _) ?_
  extract_lets +onlyGivenNames x
  have hx : ∀ u, s₀.keeps u → s₀.keepsSome (x u) := by
    intro u hu
    unfold x
    extract_lets +onlyGivenNames r
    have hr : s₀.keeps r.1 := hu.lookup _ _ _
    exact .some (hr.answered _ _ _ _ _ _)
  exact .ite (.bind (.some h) fun _ hu1 => hx _ hu1) ((h.llcReserve _ _).bind fun _ hu1 => hx _ hu1)

theorem State.keeps.servePeer (h : s₀.keeps s) (id : Nat) (q : MemReq) (dest exp line : Nat) :
    s₀.keepsSome (s.servePeer id q dest exp line) := by
  unfold State.servePeer
  refine .ite (.some (h.reqFail _ _ _)) ?_
  split
  · exact .some (h.endReq _ _)
  · exact .ite .none (.some ((h.stageReq _ _ _).toPeer _ _ _ _ _))

theorem State.keeps.arriveReq (h : s₀.keeps s) (id : Nat) : s₀.keepsSome (s.arriveReq id) := by
  unfold State.arriveReq
  split
  · exact .none
  · refine .ite .none ?_
    split
    · exact .none
    next t _ e =>
      have ht : s₀.keeps t := (h.cross _) _ (congrArg (Option.map Prod.fst) e)
      exact .ite (.ite .none (.some (ht.setReq _ _))) (.some ((ht.still (by rfl)).setReq _ _))

theorem State.keeps.serveReq (h : s₀.keeps s) (id : Nat) : s₀.keepsSome (s.serveReq id) := by
  unfold State.serveReq
  split
  · exact .none
  · refine .ite .none ?_
    refine .ite (.some (h.reqFail _ _ _)) ?_
    split
    · exact .ite .none (.bindFst (h.cross _) fun _ hu => hu.servePeer _ _ _ _ _)
    · exact .ite .none (h.serveHost _ _ _)
    · refine .ite .none ?_
      extract_lets +onlyGivenNames reads line s1
      have hs1 : s₀.keeps s1 := h.tssMeet _
      extract_lets +onlyGivenNames at0
      refine .ite ?_ ?_
      · clear_value at0
        split
        · exact hs1.servePeer _ _ _ _ _
        · exact .none
      · refine .ite .none ?_
        split
        · exact hs1.serveSpent _ _ _
        · exact .none
        · exact .ite (hs1.serveRead _ _ _) (hs1.serveWrite _ _ _)

theorem State.keeps.advance (h : s₀.keeps s) (id : Nat) : s₀.keeps (s.advance id) := by
  unfold State.advance
  extract_lets +onlyGivenNames s1
  have hs1 : s₀.keeps s1 := (h.arriveReq _).getD h
  exact (hs1.serveReq _).getD hs1

theorem Kept.deliver (h : s₀.keeps s) (id : Nat) (p : MemReq → Bool) : Kept s₀ (deliver id p s) := by
  unfold Machine.deliver
  split
  · exact .next h
  · exact .ite (.next (h.advance _)) (.next h)

theorem State.keeps.refusePeer (h : s₀.keeps s) (m : PeerMsg) : s₀.keeps (s.refusePeer m) :=
  (h.setPort _ _).toPeer _ _ _ _ _

theorem Kept.arrive (h : s₀.keeps s) (m : PeerMsg) (len : Nat) (write : Bool) (kind : Nat → ReqKind) :
    Kept s₀ (arrive m len write kind s) := by
  unfold Machine.arrive
  refine .ite (.next h) ?_
  split
  · exact .next (h.refusePeer _)
  · extract_lets +onlyGivenNames r
    have hr : s₀.keeps r.2 := h.addReq _
    exact .next (hr.advance _)

theorem Kept.execRd (h : s₀.keeps s) (q : ReadMsg) : Kept s₀ (execRd q s) := by
  unfold Machine.execRd
  split
  · exact .deliver h _ _
  · exact .arrive h _ _ _ _

theorem Kept.outerRead (h : s₀.keeps s) (q : OuterMsg) (cache : Option Bool) : Kept s₀ (outerRead q cache s) := by
  unfold Machine.outerRead
  split
  · exact .deliver h _ _
  · exact .ite (.next h) (.next ((h.addReq _).advance _))
  · exact .arrive h _ _ _ _

theorem Kept.execRds (h : s₀.keeps s) (q : OuterMsg) : Kept s₀ (execRds q s) :=
  .outerRead h _ _

theorem Kept.execRdo (h : s₀.keeps s) (q : OuterMsg) : Kept s₀ (execRdo q s) :=
  .outerRead h _ _

theorem Kept.execRdna (h : s₀.keeps s) (q : OuterMsg) : Kept s₀ (execRdna q s) :=
  .outerRead h _ _

theorem Kept.execAtom (h : s₀.keeps s) (q : AtomMsg) : Kept s₀ (execAtom q s) := by
  unfold Machine.execAtom
  split
  · exact .deliver h _ _
  · extract_lets +onlyGivenNames o
    exact .arrive h _ _ _ _

theorem Kept.execSpent (h : s₀.keeps s) (q : SpentMsg) : Kept s₀ (execSpent q s) := by
  unfold Machine.execSpent
  split
  · exact .deliver h _ _
  · exact .arrive h _ _ _ _

theorem Kept.execSemAcqRequest (h : s₀.keeps s) (q : SemMsg) : Kept s₀ (execSemAcqRequest q s) := by
  unfold Machine.execSemAcqRequest
  split
  · exact .deliver h _ _
  · exact .arrive h _ _ _ _

theorem Kept.execSemRelRequest (h : s₀.keeps s) (q : SemMsg) : Kept s₀ (execSemRelRequest q s) := by
  unfold Machine.execSemRelRequest
  split
  · exact .deliver h _ _
  · exact .arrive h _ _ _ _

theorem Kept.execSig (h : s₀.keeps s) (m : PeerMsg) (value : DWord) (add : Bool) : Kept s₀ (execSig m value add s) :=
  .arrive h _ _ _ _

end Sys2Proof.Machine
end

section
/-! What every command keeps: synchronisation, answers and tiles. -/

namespace Sys2Proof.Machine

variable {s₀ s t : State}

theorem State.keeps.acquire (h : s₀.keeps s) (core scope : Nat) : s₀.keeps (s.acquire core scope) :=
  .ite (h.l1Invalidate _) h

theorem State.keeps.closeTxn (h : s₀.keeps s) (line : Nat) : s₀.keeps (s.closeTxn line) := by
  unfold State.closeTxn
  split
  · exact h
  next t e =>
    have hw : s₀.keepsSome (match (if t.drop then none else t.data) with
        | some d => s.lineWrite line d allBytes (.outer 1)
        | none => some s) := by
      split
      · exact h.lineWrite _ _ _ _
      · exact .some h
    refine .ite h ?_
    split
    · exact h
    next u eu =>
      have hu : s₀.keeps u := hw u eu
      extract_lets +onlyGivenNames s1 s2
      have hs1 : s₀.keeps s1 := (hu.still (by rfl)).dirPut _ _
      have hs2 : s₀.keeps s2 := by
        unfold s2
        split
        · exact (hs1.serveReq _).getD hs1
        · exact hs1
      exact .ite ((hs2.wakeLine _).getD hs2) hs2

theorem State.keeps.retryTxns (h : s₀.keeps s) : s₀.keeps s.retryTxns :=
  .foldl (fun _ _ hu => hu.closeTxn _) _ h

theorem Kept.snoopAnswer (h : s₀.keeps s) (a line : Nat) (keeps due : Bool) (data : Option (BitVec 1024)) :
    Kept s₀ (snoopAnswer a line keeps due data s) := by
  unfold Machine.snoopAnswer
  split
  · exact .next h
  · exact .ite (.next h) (.next ((h.still (by rfl)).closeTxn _))

theorem Kept.execRspI (h : s₀.keeps s) (agent : Fin 10) (line : Nat) : Kept s₀ (execRspI agent line s) :=
  .ite (.next h) (.snoopAnswer h _ _ _ _ _)

theorem Kept.execRspS (h : s₀.keeps s) (agent : Fin 10) (line : Nat) : Kept s₀ (execRspS agent line s) :=
  .ite (.next h) (.snoopAnswer h _ _ _ _ _)

theorem Kept.execRspNp (h : s₀.keeps s) (agent : Fin 10) (line : Nat) (crossing : Bool) : Kept s₀ (execRspNp agent line crossing s) :=
  .ite (.next h) (.snoopAnswer h _ _ _ _ _)

theorem Kept.execRspFwd (h : s₀.keeps s) (agent : Fin 10) (line : Nat) (data : BitVec 1024) : Kept s₀ (execRspFwd agent line data s) :=
  .ite (.next h) (.snoopAnswer h _ _ _ _ _)

theorem Kept.execBirsp (h : s₀.keeps s) (line : Nat) (shared : Bool) : Kept s₀ (execBirsp line shared s) :=
  .snoopAnswer h _ _ _ _ _

theorem Kept.execWbData (h : s₀.keeps s) (agent : Fin 10) (line : Nat) (data : BitVec 1024) : Kept s₀ (execWbData agent line data s) := by
  unfold Machine.execWbData
  extract_lets +onlyGivenNames a
  split
  · exact .ite (.next h) (.next ((h.still (by rfl)).closeTxn _))
  · split
    · exact .ite (.next ((h.still (by rfl)).closeTxn _)) (.next h)
    · exact .next h

theorem Kept.snoopReceived (h : s₀.keeps s) (peer : Option (Fin 8)) (line : Nat) (inv : Bool) :
    Kept s₀ (snoopReceived peer line inv s) := by
  unfold Machine.snoopReceived
  split
  · exact .ite (.next h) (.next (h.toPeer _ _ _ _ _))
  · split
    · exact .ite (.next (h.still (by rfl))) (.next h)
    · exact .next h

theorem Kept.execSnpInv (h : s₀.keeps s) (peer : Option (Fin 8)) (line : Nat) : Kept s₀ (execSnpInv peer line s) :=
  .snoopReceived h _ _ _

theorem Kept.execSnpData (h : s₀.keeps s) (peer : Option (Fin 8)) (line : Nat) : Kept s₀ (execSnpData peer line s) :=
  .snoopReceived h _ _ _

theorem State.keeps.spentStep (h : s₀.keeps s) (core op id : Nat) : s₀.keeps (s.spentStep core op id) := by
  unfold State.spentStep
  split
  · exact h
  · exact .ite (.foldl (fun _ _ hu => hu.dropCopies _ _) _ (h.still (by rfl))) (h.still (by rfl))

theorem State.keeps.deliverData (h : s₀.keeps s) (id : Nat) (q : MemReq) (d : BitVec 1024) : s₀.keeps (s.deliverData id q d) := by
  unfold State.deliverData
  split
  · split
    · exact h.endReq _ _
    · extract_lets +onlyGivenNames s1
      have hs1 : s₀.keeps s1 := h.endReq _ _
      extract_lets +onlyGivenNames r clear
      split
      · extract_lets +onlyGivenNames s2
        have hs2 : s₀.keeps s2 := hs1.updGroup _ _
        extract_lets +onlyGivenNames s3
        have hs3 : s₀.keeps s3 := hs2.l1Fill _ _ _ _ _
        extract_lets +onlyGivenNames s4
        have hs4 : s₀.keeps s4 := by
          unfold s4
          split
          · exact hs3.outdate _ _ _
          · exact hs3
        exact hs4.spentStep _ _ _
      · extract_lets +onlyGivenNames olds s2
        have hs2 : s₀.keeps s2 := hs1.updGroup _ _
        exact .ite ((hs2.updGroup _ _).l1Invalidate _) hs2
      · exact hs1
  · exact h.endReq _ _

theorem Kept.execData (h : s₀.keeps s) (id : Nat) (rep : Option PeerData) : Kept s₀ (execData id rep s) := by
  unfold Machine.execData
  split
  · exact .next h
  · extract_lets +onlyGivenNames home
    have hhome : ∀ x0, Kept s₀ (home x0) := by
      intro x0
      unfold home
      split
      next t e =>
        have ht : s₀.keeps t := (h.comeBack _ _ _) _ e
        exact .next (ht.deliverData _ _ _)
      · exact .next h
    extract_lets +onlyGivenNames peer
    have hpeer : ∀ x1, Kept s₀ (peer x1) := by
      intro x1
      unfold peer
      refine .ite (.next h) ?_
      refine .ite (.next (h.reqFail _ _ _)) ?_
      refine .ite (.next (h.reqFail _ _ _)) ?_
      extract_lets +onlyGivenNames s1
      have hs1 : s₀.keeps s1 := .ite (h.reqRaise _ _) h
      split
      · extract_lets +onlyGivenNames r
        exact .next (hs1.deliverData _ _ _)
      · exact .next (hs1.answered _ _ _ _ _ _)
    split
    · exact hhome _
    · exact hhome _
    · exact hpeer _
    · exact hpeer _
    · exact .next h

theorem Kept.execAtomRsp (h : s₀.keeps s) (id : Nat) (data : BitVec 1024) : Kept s₀ (execAtomRsp id data s) := by
  unfold Machine.execAtomRsp
  split
  · exact .next h
  · split
    · exact .ite (.next (h.deliverData _ _ _)) (.next h)
    · exact .next h

theorem Kept.execCmp (h : s₀.keeps s) (m : CmpMsg) : Kept s₀ (execCmp m s) := by
  unfold Machine.execCmp
  extract_lets +onlyGivenNames id
  split
  · exact .next h
  · split
    · split
      · exact .ite (.next (h.endReq _ _)) (.next ((h.endReq _ _).cmdDone _ _ _))
      · exact .next (h.stageReq _ _ _)
    · exact .next h
    · exact .next h
    · split
      · extract_lets +onlyGivenNames o
        exact .next ((h.still (by rfl)).endReq _ _)
      · split
        · exact .next ((h.still (by rfl)).endReq _ _)
        · exact .next (h.endReq _ _)
    · split
      · split
        · exact .next h
        · refine .next ?_
          refine .endReq ?_ _ _
          split
          · exact h.reqRaise _ _
          · exact h
        · exact .next (h.endReq _ _)
      · exact .ite (.next (((h.stageReq _ _ _).serveReq _).getD (h.stageReq _ _ _))) (.next h)
      · exact .next h
    · exact .next h

theorem Kept.execSemGrant (h : s₀.keeps s) (id : Nat) : Kept s₀ (execSemGrant id s) := by
  unfold Machine.execSemGrant
  split
  · exact .next h
  · split
    · exact .ite (.next (h.stageReq _ _ _)) (.next h)
    · exact .next h

theorem Kept.execSemWake (h : s₀.keeps s) (id : Nat) : Kept s₀ (execSemWake id s) := by
  unfold Machine.execSemWake
  split
  · exact .next h
  · refine .ite (.next h) ?_
    split
    · extract_lets +onlyGivenNames r
      split
      · refine .ite (.next h) ?_
        split
        · exact .ite (.next (((h.endReq _ _).putGroup _ _).acquire _ _)) (.next h)
        · exact .next h
      · exact .next (h.endReq _ _)
    · split
      · extract_lets +onlyGivenNames k
        exact .ite (.next (h.endReq _ _)) (.next (((h.endReq _ _).setCmd _ _).cmdDone _ _ _))
      · exact .next (h.endReq _ _)
    · exact .next h

theorem Kept.execRspErr (h : s₀.keeps s) (id : Nat) : Kept s₀ (execRspErr id s) := by
  unfold Machine.execRspErr
  split
  · exact .next h
  · exact .ite (.next (h.reqFail _ _ _)) (.next h)

theorem Kept.execHostCacheResponse (h : s₀.keeps s) (line : Nat) (own : Bool) (data : BitVec 1024) :
    Kept s₀ (execHostCacheResponse line own data s) := by
  unfold Machine.execHostCacheResponse
  extract_lets +onlyGivenNames ws
  refine .ite (.next h) ?_
  extract_lets +onlyGivenNames a s0
  have hs0 : s₀.keeps s0 := h.hostWrite _ _
  split
  · exact .next h
  next t e =>
    have ht : s₀.keeps t := (hs0.llcFill _ _ _ _) _ e
    extract_lets +onlyGivenNames s1
    have hs1 : s₀.keeps s1 := ht.still rfl
    extract_lets +onlyGivenNames s11
    have hs11 : s₀.keeps s11 := .foldl (fun _ _ hu => hu.setReq _ _) _ hs1
    extract_lets +onlyGivenNames s12
    have hs12 : s₀.keeps s12 := .foldl (fun _ _ hu => (hu.serveReq _).getD hu) _ hs11
    exact .next (.ite ((hs12.wakeLine _).getD hs12) hs12)

theorem Kept.execH2dSnoop (h : s₀.keeps s) (line : Nat) (inv : Bool) : Kept s₀ (execH2dSnoop line inv s) := by
  unfold Machine.execH2dSnoop
  split
  · extract_lets +onlyGivenNames s1
    have hs1 : s₀.keeps s1 := h.hostSectors _ _ _
    extract_lets +onlyGivenNames s2
    have hs2 : s₀.keeps s2 := hs1.still rfl
    exact .ite (.next (hs2.still (by rfl))) (.ite (.next (hs2.still (by rfl))) (.next (hs2.llcEvict _ _ _)))
  · exact .next (h.still (by rfl))

theorem Kept.execDebugMemoryAccess (h : s₀.keeps s) (part : Fin 16) (va : BitVec 48) (write : Option Byte) :
    Kept s₀ (execDebugMemoryAccess part va write s) := by
  unfold Machine.execDebugMemoryAccess
  refine .ite (.next h) ?_
  split
  · exact .next (h.reply _ _ _)
  · exact .next (h.reply _ _ _)
  · exact .next (((h.lineWrite _ _ _ _).bind fun _ hu => hu.wakeLine _).getD h)
  · extract_lets +onlyGivenNames s1
    have hs1 : s₀.keeps s1 := by
      unfold s1
      split
      · exact h.still rfl
      · exact h
    extract_lets +onlyGivenNames s2
    have hs2 : s₀.keeps s2 := hs1.hostWrite _ _
    exact .next ((hs2.wakeLine _).getD hs2)
  · exact .next h

theorem State.keeps.setTileOp (h : s₀.keeps s) (id : Nat) (o : TileOp) : s₀.keeps (s.setTileOp id o) :=
  h.still rfl

theorem State.keeps.zeroTile (h : s₀.keeps s) (line : Nat) : s₀.keepsSome (s.zeroTile line) := by
  unfold State.zeroTile
  split
  · exact .none
  · refine .bind (h.beginWrite _) fun u hu => ?_
    extract_lets +onlyGivenNames s1
    have hs1 : s₀.keeps s1 := hu.zeroCached _ _
    extract_lets +onlyGivenNames o s2
    have hs2 : s₀.keeps s2 := by
      unfold s2
      clear_value s1 s2
      exact hs1.still rfl
    exact .foldlM (fun _ _ hu1 => hu1.wakeLine _) _ (hs2.endWrite _)

theorem State.keeps.tstBlock (h : s₀.keeps s) (o : TileOp) (b : Block) : s₀.keeps (s.tstBlock o b).1 := by
  unfold State.tstBlock
  split
  · exact h
  · exact h.still rfl

theorem State.keeps.tstTook (h : s₀.keeps s) (id : Nat) (o : TileOp) (k l line : Nat) : s₀.keepsSome (s.tstTook id o k l line) := by
  unfold State.tstTook
  extract_lets +onlyGivenNames o1 s1
  have hs1 : s₀.keeps s1 := .ite (h.endWrite _) h
  exact (hs1.wakeLine _).bind fun _ hu => .some (hu.setTileOp _ _)

theorem State.keeps.tstDev (h : s₀.keeps s) (id : Nat) (o : TileOp) (b : Block) (base k l : Nat) :
    s₀.keepsSome (s.tstDev id o b base k l) := by
  unfold State.tstDev
  extract_lets +onlyGivenNames line
  refine .ite (h.tstTook _ _ _ _ _) ?_
  refine .ite .none ?_
  extract_lets +onlyGivenNames s1
  have hs1 : s₀.keeps s1 := h.tssMeet _
  extract_lets +onlyGivenNames q
  refine .bindSnd (hs1.access _ _ _ _) fun r hr => ?_
  refine .ite (.some hr) ?_
  extract_lets +onlyGivenNames s2
  have hs2 : s₀.keeps s2 := hr
  extract_lets +onlyGivenNames v
  have hv : s₀.keeps v.1 := hs2.tstBlock _ _
  refine .ite (.ite .none (.some ((hv.addReq _).toPeer _ _ _ _ _))) ?_
  refine .ite ?_ ?_
  · extract_lets +onlyGivenNames lines
    refine .bindSnd (hs2.accessAll _ _ _ _) fun r1 hr1 => ?_
    exact .ite (.some hr1) (.bindFst (hr1.cross _) fun _ hu2 => (hu2.zeroTile _).bind fun _ hu3 => .some (hu3.setTileOp _ _))
  · refine .bindFst (hv.cross _) fun r1 hr1 => ?_
    extract_lets +onlyGivenNames x
    have hx : ∀ u2, s₀.keeps u2 → s₀.keepsSome (x u2) := by
      intro u2 hu2
      unfold x
      extract_lets +onlyGivenNames s3
      have hs3 : s₀.keeps s3 := hu2.countLookup _ _ _ _
      exact (hs3.openLine _ _ _).bind fun _ hu4 => hu4.tstTook _ _ _ _ _
    exact .ite (.bind (.some hr1) fun _ hu3 => hx _ hu3) ((hr1.beginWrite _).bind fun _ hu3 => hx _ hu3)

theorem State.keeps.tstLine (h : s₀.keeps s) (id k l : Nat) : s₀.keepsSome (s.tstLine id k l) := by
  unfold State.tstLine
  split
  · exact .none
  · extract_lets +onlyGivenNames va
    split
    · refine .ite .none ?_
      refine .ite (.some (h.endTask _ _ _)) ?_
      split
      · exact (h.tstDev _ _ _ _ _ _).map fun _ hu => hu.retryTxns
      · exact .ite (.some (h.endTask _ _ _)) (.some ((((h.tstBlock _ _).addReq _).setTileOp _ _).advance _))
      · refine .ite (.some (h.endTask _ _ _)) ?_
        exact .ite .none (.bindFst ((h.tstBlock _ _).cross _) fun _ hu => .some ((hu.addReq _).toPeer _ _ _ _ _))
    · exact .none

theorem State.keeps.tokenDone (h : s₀.keeps s) (o : TileOp) (id : Nat) : s₀.keeps (s.tokenDone o id) := by
  unfold State.tokenDone
  extract_lets +onlyGivenNames s1
  have hs1 : s₀.keeps s1 := h.still rfl
  extract_lets +onlyGivenNames r
  split
  · exact hs1.setBlock _ _
  · exact hs1

theorem Kept.execTstTokenComplete (h : s₀.keeps s) (op : Nat) : Kept s₀ (execTstTokenComplete op s) := by
  unfold Machine.execTstTokenComplete
  split
  · exact .next h
  · exact .ite (.next h) (.next (h.tokenDone _ _))

theorem Kept.execWr (h : s₀.keeps s) (q : WriteMsg) : Kept s₀ (execWr q s) := by
  unfold Machine.execWr
  split
  · exact .deliver h _ _
  · exact .ite (.next h) (.next ((h.tstLine _ _ _).getD h))
  · exact .ite (.arrive h _ _ _ _) (.next h)

theorem Kept.execWrp (h : s₀.keeps s) (q : WriteMsg) : Kept s₀ (execWrp q s) := by
  unfold Machine.execWrp
  split
  · exact .deliver h _ _
  · exact .next h
  · exact .ite (.next h) (.arrive h _ _ _ _)

theorem State.keeps.askTile (h : s₀.keeps s) (id : Nat) (q : MemReq) (t : TileAt) :
    s₀.keepsSome (Option.map Prod.snd (s.askTile id q t)) := by
  unfold State.askTile
  refine .foldlMSnd (fun u a hu => ?_) _ (h.setReq _ _)
  split
  · exact .some (hu.countLookup _ _ _ _)
  · split
    · dsimp only
      split
      · exact .mapBind (.bind (.some (hu.countLookup _ _ _ _)) fun _ hu1 => .some hu1)
      · exact .mapMap (((hu.countLookup _ _ _ _).askMemory _ _ _ _).map fun _ hu1 => hu1)
    · dsimp only
      split
      · exact .mapBind (((hu.countLookup _ _ _ _).llcReserve _ _).bind fun _ hu1 => .some hu1)
      · exact .mapMap (((hu.countLookup _ _ _ _).askMemory _ _ _ _).map fun _ hu1 => hu1)

theorem State.keeps.spentTileBytes (h : s₀.keeps s) (t : TileAt) : s₀.keeps (s.spentTileBytes t).2 :=
  h.still rfl

theorem State.keeps.putTile (h : s₀.keeps s) (o : TileOp) (k : Nat) (data : Option (List Byte)) : s₀.keeps (s.putTile o k data) := by
  unfold State.putTile
  split
  · exact h
  · exact .ite ((h.still (by rfl)).setBlock _ _) (h.setBlock _ _)

theorem State.keeps.tldTook (h : s₀.keeps s) (id k : Nat) : s₀.keeps (s.tldTook id k) := by
  unfold State.tldTook
  split
  · exact h
  · extract_lets +onlyGivenNames s1
    have hs1 : s₀.keeps s1 := h.setTileOp _ _
    exact .ite (hs1.sendSpent _ _ _ _ _) hs1

theorem State.keeps.tldMeets (h : s₀.keeps s) (id : Nat) (q : MemReq) (o : TileOp) (task k : Nat) (t : TileAt) :
    s₀.keeps (s.tldMeets id q o task k t).state := by
  unfold State.tldMeets
  split
  · exact h.endReq _ _
  next t1 e =>
    have ht1 : s₀.keeps t1 := (h.comeBack _ _ _) _ e
    split
    · dsimp only
      dsimp only [Fetch.state]
      exact (ht1.endReq _ _).putTile _ _ _
    · split
      · dsimp only
        exact (ht1.endReq _ _).endTask _ _ _
      · dsimp only
        dsimp only [Fetch.state]
        exact (((ht1.endReq _ _).spentTileBytes _).raise _ _).putTile _ _ _
    · split
      · dsimp only
        exact ht1.stageReq _ _ _
      · dsimp only
        exact (ht1.endReq _ _).endTask _ _ _
    · split
      · dsimp only
        exact (ht1.endReq _ _).endTask _ _ _
      · split
        · dsimp only
          exact ht1.endReq _ _
        · dsimp only
          exact ((ht1.stageReq _ _ _).raise _ _).askTwin _ _ _
    · dsimp only
      exact ((ht1.endReq _ _).corruptTile _).endTask _ _ _
    · dsimp only
      dsimp only [Fetch.state]
      exact ((ht1.endReq _ _).raise _ _).putTile _ _ _
    · split
      · dsimp only
        dsimp only [Fetch.state]
        exact ((ht1.endReq _ _).raise _ _).putTile _ _ _
      · dsimp only
        dsimp only [Fetch.state]
        exact (ht1.endReq _ _).putTile _ _ _

theorem State.keeps.tileRead (h : s₀.keeps s) (id : Nat) (q : MemReq) (n0 : Nat) : s₀.keeps (s.tileRead id q n0).1 := by
  unfold State.tileRead
  split
  · exact h
  · dsimp only
    split
    · exact h.tssMeet _
    · split
      · exact h.tssMeet _
      next t e =>
        have ht : s₀.keeps t := ((h.tssMeet _).accessAll _ _ _ _) _ (congrArg (Option.map Prod.snd) e)
        exact ht
      next t e =>
        have ht : s₀.keeps t := ((h.tssMeet _).accessAll _ _ _ _) _ (congrArg (Option.map Prod.snd) e)
        split
        · exact ht
        next t1 _ e1 =>
          have ht1 : s₀.keeps t1 := (ht.cross _) _ (congrArg (Option.map Prod.fst) e1)
          split
          · exact ht
          next t2 e2 =>
            have ht2 : s₀.keeps t2 := (ht1.askTile _ _ _) _ (congrArg (Option.map Prod.snd) e2)
            exact ht2

theorem State.keeps.fetchDev (h : s₀.keeps s) (id : Nat) (o : TileOp) (task k n0 : Nat) : s₀.keeps (s.fetchDev id o task k n0).state := by
  unfold State.fetchDev
  dsimp only
  split
  · exact (h.still (by rfl)).tileRead _ _ _
  · exact (h.still (by rfl)).tileRead _ _ _
  · exact ((h.still (by rfl)).tileRead _ _ _).tldMeets _ _ _ _ _ _

theorem State.keeps.fetchHost (h : s₀.keeps s) (id : Nat) (o : TileOp) (task k n : Nat) : s₀.keeps (s.fetchHost id o task k n).state := by
  unfold State.fetchHost
  split
  · exact h.endTask _ _ _
  · dsimp only
    split
    · split
      · dsimp only [Fetch.state]
        exact .putTile (.raise (.setTileOp (.foldl (fun _ _ hu => (hu.addReq _).advance _) _ h) _ _) _ _) _ _ _
      · exact .setTileOp (.foldl (fun _ _ hu => (hu.addReq _).advance _) _ h) _ _
    · split
      · dsimp only [Fetch.state]
        exact .putTile (.raise (.foldl (fun _ _ hu => (hu.addReq _).advance _) _ h) _ _) _ _ _
      · exact .foldl (fun _ _ hu => (hu.addReq _).advance _) _ h

theorem State.keeps.fetchTile (h : s₀.keeps s) (id : Nat) (o : TileOp) (task k : Nat) : s₀.keeps (s.fetchTile id o task k).state := by
  unfold State.fetchTile
  split
  · dsimp only
    exact h
  · dsimp only
    split
    · exact h.endTask _ _ _
    · split
      · exact h.endTask _ _ _
      · exact h.fetchDev _ _ _ _ _
      · exact h.fetchHost _ _ _ _ _
      · split
        · exact h.endTask _ _ _
        · split
          · exact h
          · split
            · exact h
            next t _ e =>
              have ht : s₀.keeps t := (h.cross _) _ (congrArg (Option.map Prod.fst) e)
              exact (ht.addReq _).toPeer _ _ _ _ _

theorem State.keeps.fetchTiles (h : s₀.keeps s) (id task : Nat) (ks : List Nat) (waits : Bool) :
    s₀.keeps (s.fetchTiles id task ks waits).1 := by
  induction ks generalizing s waits with
  | nil => exact h
  | cons k ks ih =>
    unfold State.fetchTiles
    split
    · exact h
    · split
      next t e => exact ih (((h.fetchTile _ _ _ _).of_eq (congrArg Fetch.state e)).tldTook _ _) _
      next t e => exact ih ((h.fetchTile _ _ _ _).of_eq (congrArg Fetch.state e)) _
      next t e => exact (h.fetchTile _ _ _ _).of_eq (congrArg Fetch.state e)

theorem Kept.execTldTokenComplete (h : s₀.keeps s) (op : Nat) : Kept s₀ (execTldTokenComplete op s) := by
  unfold Machine.execTldTokenComplete
  split
  · exact .next h
  · split
    · exact .next h
    · refine .ite (.next h) ?_
      extract_lets +onlyGivenNames left r
      have hr : s₀.keeps r.1 := h.fetchTiles _ _ _ _
      exact .ite (.next (hr.still (by rfl))) (.ite (.next hr) (.next (hr.tokenDone _ _)))

theorem State.keeps.answerTile (h : s₀.keeps s) (id : Nat) (q : MemReq) (code : Nat) (good : Bool) (data : List Byte) :
    s₀.keeps (s.answerTile id q code good data) := by
  unfold State.answerTile
  extract_lets +onlyGivenNames s1
  have hs1 : s₀.keeps s1 := (h.comeBack _ _ _).getD h
  extract_lets +onlyGivenNames s2
  have hs2 : s₀.keeps s2 := hs1.endReq _ _
  split
  · exact hs2.toPeer _ _ _ _ _
  · exact hs2

theorem State.keeps.takeTile (h : s₀.keeps s) (id op k : Nat) (q : MemReq) (data : Option (List Byte)) :
    s₀.keeps (s.takeTile id op k q data) := by
  unfold State.takeTile
  split
  · extract_lets +onlyGivenNames s1
    have hs1 : s₀.keeps s1 := h.endReq _ _
    split
    · exact hs1.setCmd _ _
    · exact hs1
  · exact h.answerTile _ _ _ _ _
  · extract_lets +onlyGivenNames s1
    have hs1 : s₀.keeps s1 := h.endReq _ _
    split
    · exact (hs1.putTile _ _ _).tldTook _ _
    · exact hs1

theorem State.keeps.tileFail (h : s₀.keeps s) (id : Nat) (q : MemReq) (st : Status) : s₀.keeps (s.tileFail id q st) := by
  unfold State.tileFail
  split
  · split
    · exact (h.setCmd _ _).endReq _ _
    · exact h.endReq _ _
  · exact h.answerTile _ _ _ _ _
  · exact h.reqFail _ _ _

theorem State.keeps.copyMeets (h : s₀.keeps s) (id : Nat) (q : MemReq) (t : TileAt) : s₀.keeps (s.copyMeets id q t) := by
  unfold State.copyMeets
  extract_lets +onlyGivenNames take
  have htake : ∀ u x1, s₀.keeps u → s₀.keeps (take u x1) := by
    intro u x1 hu
    unfold take
    split
    next t1 e =>
      have ht1 : s₀.keeps t1 := (hu.comeBack _ _ _) _ e
      exact ht1.takeTile _ _ _ _ _
    · exact hu.endReq _ _
  split
  · exact h.takeTile _ _ _ _ _
  · exact .ite (h.tileFail _ _ _) (htake _ _ ((h.spentTileBytes _).reqRaise _ _))
  · exact .ite (h.stageReq _ _ _) (h.tileFail _ _ _)
  · exact .ite (h.tileFail _ _ _) (.ite (h.endReq _ _) (((h.stageReq _ _ _).reqRaise _ _).askTwin _ _ _))
  · exact (h.corruptTile _).tileFail _ _ _
  · exact htake _ _ (h.reqRaise _ _)
  · exact htake _ _ (.ite (h.reqRaise _ _) h)

theorem State.keeps.peerMeets (h : s₀.keeps s) (id : Nat) (q : MemReq) (t : TileAt) : s₀.keeps (s.peerMeets id q t) := by
  unfold State.peerMeets
  split
  · exact h.answerTile _ _ _ _ _
  · exact h.answerTile _ _ _ _ _
  · exact .ite (h.stageReq _ _ _) (h.tileFail _ _ _)
  · exact .ite (h.tileFail _ _ _) (.ite (h.stageReq _ _ _) ((h.stageReq _ _ _).askTwin _ _ _))
  · exact (h.corruptTile _).tileFail _ _ _
  · exact h.answerTile _ _ _ _ _
  · exact h.answerTile _ _ _ _ _

theorem State.keeps.tileBack (h : s₀.keeps s) (id : Nat) (q : MemReq) : s₀.keeps (s.tileBack id q) := by
  unfold State.tileBack
  refine .ite h ?_
  split
  · split
    · exact h
    · split
      · split
        · split
          next t e =>
            have ht : s₀.keeps t := (h.tldMeets _ _ _ _ _ _).of_eq (congrArg Fetch.state e)
            exact ht.tldTook _ _
          next t e =>
            have ht : s₀.keeps t := (h.tldMeets _ _ _ _ _ _).of_eq (congrArg Fetch.state e)
            exact ht
          next t e =>
            have ht : s₀.keeps t := (h.tldMeets _ _ _ _ _ _).of_eq (congrArg Fetch.state e)
            exact ht.still rfl
        · exact h.endReq _ _
      · exact h.copyMeets _ _ _
      · exact h.peerMeets _ _ _
      · exact h
  · exact h

theorem Kept.execDataTile (h : s₀.keeps s) (id : Nat) (state : Fin 6) (crcOk : Bool) (data : List (BitVec 1024)) :
    Kept s₀ (execDataTile id state crcOk data s) := by
  unfold Machine.execDataTile
  split
  · exact .next h
  · split
    · extract_lets +onlyGivenNames bytes
      refine .ite (.next h) ?_
      extract_lets +onlyGivenNames s1
      have hs1 : s₀.keeps s1 := .ite ((h.comeBack _ _ _).getD h) h
      split
      · exact .next (hs1.takeTile _ _ _ _ _)
      · exact .next (hs1.tileFail _ _ _)
      · exact .next ((hs1.reqRaise _ _).takeTile _ _ _ _ _)
      · exact .next (hs1.takeTile _ _ _ _ _)
      · exact .ite (.next (hs1.tileFail _ _ _)) (.next (((hs1.still (by rfl)).reqRaise _ _).takeTile _ _ _ _ _))
      · exact .next ((hs1.reqRaise _ _).takeTile _ _ _ _ _)
      · exact .next (hs1.tileFail _ _ _)
      · exact .next ((hs1.reqRaise _ _).takeTile _ _ _ _ _)
      · exact .next (hs1.tileFail _ _ _)
    · exact .next h

theorem State.keeps.serveTile (h : s₀.keeps s) (id : Nat) : s₀.keeps (s.serveTile id) := by
  unfold State.serveTile
  split
  · exact h
  · split
    · refine .ite h ?_
      extract_lets +onlyGivenNames r
      have hr : s₀.keeps r.1 := h.tileRead _ _ _
      split
      · exact hr.peerMeets _ _ _
      · exact hr
    · exact h

theorem Kept.execRdTile (h : s₀.keeps s) (q : TileMsg) : Kept s₀ (execRdTile q s) := by
  unfold Machine.execRdTile
  split
  · exact .ite (.next h) (.next (((h.arriveReq _).getD h).serveTile _))
  · refine .ite (.next h) ?_
    split
    · exact .next (h.refusePeer _)
    · extract_lets +onlyGivenNames r
      have hr : s₀.keeps r.2 := h.addReq _
      exact .next (((hr.arriveReq _).getD hr).serveTile _)

theorem Kept.execWrTile (h : s₀.keeps s) (m : PeerMsg) (data : List (BitVec 1024)) : Kept s₀ (execWrTile m data s) := by
  unfold Machine.execWrTile
  refine .ite (.next h) ?_
  split
  · exact .next (h.refusePeer _)
  · extract_lets +onlyGivenNames n
    split
    · exact .next h
    · refine .ite (.next h) ?_
      split
      · exact .next h
      next t e =>
        have ht : s₀.keeps t := (h.accessAll _ _ _ _) _ (congrArg (Option.map Prod.snd) e)
        exact .next ht
      next t e =>
        have ht : s₀.keeps t := (h.accessAll _ _ _ _) _ (congrArg (Option.map Prod.snd) e)
        extract_lets +onlyGivenNames s1 written
        have hs1 : s₀.keeps s1 := .foldl (fun _ _ hu => hu.countLookup _ _ _ _) _ ht
        have hw : s₀.keepsSome written :=
          .ite (hs1.zeroTile _) ((hs1.fullWrite _ _ _).bind fun _ hu => .foldlM (fun _ _ hv => hv.wakeLine _) _ hu)
        clear_value written
        cases written with
        | none => exact .next hs1
        | some v =>
          have hv : s₀.keeps v := hw v rfl
          exact .next (hv.retryTxns.toPeer _ _ _ _ _)

end Sys2Proof.Machine
end

section
/-! What every command keeps: the memory controllers, repair and the front ends. -/

namespace Sys2Proof.Machine

variable {s₀ s t : State}

theorem Kept.execMcIssue (h : s₀.keeps s) (pc : Fin 512) : Kept s₀ (execMcIssue pc s) := by
  have hp : ∀ u p, s₀.keeps u → s₀.keeps { u with pseudo := p } := fun _ _ hu => hu.still (by rfl)
  unfold Machine.execMcIssue
  extract_lets +onlyGivenNames p
  refine .ite (.next h) ?_
  split
  · exact .next h
  · extract_lets +onlyGivenNames aged
    exact .ite (.next (State.keeps.retryTxns (hp _ _ (h.hbmWrite _ _ _ _ _)))) (.next (hp _ _ h))

theorem State.keeps.corrected (h : s₀.keeps s) (ch n : Nat) : s₀.keeps (s.corrected ch n) :=
  .ite h ((h.still (by rfl)).event _ _)

theorem State.keeps.onDieEcc (h : s₀.keeps s) (ch n : Nat) : s₀.keeps (s.onDieEcc ch n) :=
  .ite h (h.still (by rfl))

theorem State.keeps.placeBad (h : s₀.keeps s) (ch row line : Nat) (v : BitVec 4) : s₀.keeps (s.placeBad ch row line v) :=
  h.still rfl

theorem State.keeps.readBack (h : s₀.keeps s) (e : McEntry) (id : Nat) (q : MemReq) (fill : Bool) :
    s₀.keepsSome (s.readBack e id q fill) := by
  unfold State.readBack
  extract_lets +onlyGivenNames line s1
  have hs1 : s₀.keeps s1 := h.discoverBad _ _
  extract_lets +onlyGivenNames x x1
  have hx1 : ∀ u, s₀.keeps u → s₀.keepsSome (x1 u) := by
    intro u hu
    unfold x1
    split
    · exact .some (hu.tileBack _ _)
    · refine .ite ?_ (.some (((hu.setReq _ _).serveReq _).getD (hu.setReq _ _)))
      split
      · exact .some (hu.readData _ _ _)
      · exact hu.readOther _ _ _ _
  exact .ite ((hs1.llcFill _ _ _ _).bind fun _ hu1 => hx1 _ hu1) (.bind (.some hs1) fun _ hu1 => hx1 _ hu1)

theorem Kept.execMemReadComplete (h : s₀.keeps s) (pc : Fin 512) (entry : Nat) (corrected bad : BitVec 4) (also : ReadReport) :
    Kept s₀ (execMemReadComplete pc entry corrected bad also s) := by
  unfold Machine.execMemReadComplete
  extract_lets +onlyGivenNames p
  split
  · exact .next h
  · refine .ite (.next h) ?_
    extract_lets +onlyGivenNames n s1
    have hs1 : s₀.keeps s1 := h.still rfl
    extract_lets +onlyGivenNames s11
    have hs11 : s₀.keeps s11 := (hs1.corrected _ _).placeBad _ _ _ _
    extract_lets +onlyGivenNames s12
    have hs12 : s₀.keeps s12 := hs11.onDieEcc _ _
    extract_lets +onlyGivenNames s13
    have hs13 : s₀.keeps s13 := .ite (hs12.tssLost _ _) hs12
    extract_lets +onlyGivenNames back
    have hback : ∀ x0 x1, s₀.keepsSome (back x0 x1) := by
      intro x0 x1
      unfold back
      split
      · exact .some hs13
      · exact .ite (hs13.readBack _ _ _ _) (.some hs13)
    split
    · exact .next ((hback _ _).getD h)
    · exact .next ((hback _ _).getD h)
    · exact .next h

theorem State.keeps.releaseTile (h : s₀.keeps s) (line : Nat) (f : BitVec 16) : s₀.keeps (s.releaseTile line f) := by
  unfold State.releaseTile
  refine .foldl (fun u a hu => ?_) _ h
  extract_lets +onlyGivenNames q here
  refine .ite hu ?_
  split
  · exact (hu.stageReq _ _ _).reqRaise _ _
  · exact hu.stageReq _ _ _
  · exact hu.setReq _ _
  · exact (hu.endReq _ _).reqRaise _ _
  · exact hu

theorem Kept.execHalfReplicaRepair (h : s₀.keeps s) (line : Nat) : Kept s₀ (execHalfReplicaRepair line s) := by
  unfold Machine.execHalfReplicaRepair
  split
  · exact .next h
  · extract_lets +onlyGivenNames open_ moving
    refine .ite (.next h) ?_
    split
    next t e =>
      have ht : s₀.keeps t := (h.repair _).of_eq (congrArg Prod.fst e)
      extract_lets +onlyGivenNames mm mm1
      exact .next ((ht.still (by rfl)).releaseTile _ _)
    next t e =>
      have ht : s₀.keeps t := (h.repair _).of_eq (congrArg Prod.fst e)
      extract_lets +onlyGivenNames s1
      have hs1 : s₀.keeps s1 := ht.releaseTile _ _
      extract_lets +onlyGivenNames n s2
      have hs2 : s₀.keeps s2 := hs1.still rfl
      extract_lets +onlyGivenNames s3
      have hs3 : s₀.keeps s3 := hs2.rowEvent _ _ _
      exact .ite (.next hs3) (.next (hs3.still (by rfl)))

theorem Kept.execMirrorResync (h : s₀.keeps s) (line : Nat) (twin : TwinTile) : Kept s₀ (execMirrorResync line twin s) := by
  unfold Machine.execMirrorResync
  split
  · exact .next h
  · refine .ite (.next h) ?_
    split
    · exact .next h
    next t e =>
      have ht : s₀.keeps t := (h.fullWrite _ _ _) _ e
      extract_lets +onlyGivenNames s1
      have hs1 : s₀.keeps s1 := ht.setTss _ _
      extract_lets +onlyGivenNames s2
      have hs2 : s₀.keeps s2 := .foldl (fun _ _ hu => (hu.wakeLine _).getD hu) _ hs1
      exact .next ((hs2.releaseTile _ _).retryTxns)

theorem State.keeps.scrubUsable (h : s₀.keeps s) (key : Nat) : s₀.keeps (s.scrubUsable key) := by
  unfold State.scrubUsable
  extract_lets +onlyGivenNames t line ch
  refine .ite h ?_
  split
  · exact (h.still (by rfl)).corrected _ _
  · exact (h.markBad _ _ _).noteBad _
  · exact h.poisonSectors _ _ _ _
  · exact h

theorem State.keeps.scrubReserve (h : s₀.keeps s) (key : Nat) : s₀.keeps (s.scrubReserve key) := by
  unfold State.scrubReserve
  extract_lets +onlyGivenNames t line ch row
  split
  · exact (h.still (by rfl)).corrected _ _
  · exact .ite ((h.still (by rfl)).tssLost _ _) (h.poisonSectors _ _ _ _)
  · exact h

theorem State.keeps.scrubSector (h : s₀.keeps s) (key : Nat) : s₀.keeps (s.scrubSector key) :=
  .ite h (.ite (h.scrubUsable _) (h.scrubReserve _))

theorem Kept.execScrubPass (h : s₀.keeps s) : Kept s₀ (execScrubPass s) := by
  unfold Machine.execScrubPass
  refine .ite (.next h) ?_
  extract_lets +onlyGivenNames s1
  have hs1 : s₀.keeps s1 := .foldl (fun _ _ hu => hu.scrubSector _) _ h
  exact .next (hs1.still (by rfl))

theorem Kept.cxlMem (h : s₀.keeps s) (hpa : Nat) (body : Nat → State → State) (hb : ∀ b u, s₀.keeps u → s₀.keeps (body b u)) :
    Kept s₀ (cxlMem hpa s body) := by
  unfold Machine.cxlMem
  split
  · exact .next h
  · exact .ite (.next h) (.next (hb _ _ (h.still (by rfl))))

theorem State.keeps.unmappedAccess (h : s₀.keeps s) : s₀.keeps s.unmappedAccess :=
  h.still rfl

theorem State.keeps.hostRequest (h : s₀.keeps s) (tag dpa : Nat) (k : ReqKind) : s₀.keeps (s.hostRequest tag dpa k) :=
  (h.addReq _).advance _

theorem Kept.execCxlMemRead (h : s₀.keeps s) (hpa tag : Nat) (meta_ : Fin 3) : Kept s₀ (execCxlMemRead hpa tag meta_ s) := by
  unfold Machine.execCxlMemRead
  refine .cxlMem h _ _ ?_
  intro b u hu
  refine .ite (hu.still (by rfl)) ?_
  split
  · extract_lets +onlyGivenNames x
    have hx : s₀.keeps x := hu.unmappedAccess
    exact hx.still rfl
  · exact hu.hostRequest _ _ _

theorem Kept.execCxlMemWrite (h : s₀.keeps s) (hpa tag : Nat) (data : BitVec 512) (mask : BitVec 64) :
    Kept s₀ (execCxlMemWrite hpa tag data mask s) := by
  unfold Machine.execCxlMemWrite
  refine .cxlMem h _ _ ?_
  intro b u hu
  refine .ite hu ?_
  split
  · exact hu.hostRequest _ _ _
  · exact hu.unmappedAccess

theorem State.keeps.setPart (h : s₀.keeps s) (p : Nat) (v : Part) : s₀.keeps (s.setPart p v) :=
  h.still rfl

theorem State.keeps.updSlice (h : s₀.keeps s) (k : Nat) (f : Slice → Slice) : s₀.keeps (s.updSlice k f) :=
  h.still rfl

theorem State.keeps.reserveSave (h : s₀.keeps s) (p : Nat) : s₀.keeps (s.reserveSave p) :=
  h.setPart _ _

theorem State.keeps.endRebind (h : s₀.keeps s) (p : Nat) : s₀.keeps (s.endRebind p) := by
  unfold State.endRebind
  extract_lets +onlyGivenNames r
  split
  · exact h
  · refine .ite h ?_
    extract_lets +onlyGivenNames cores s1
    have hs1 : s₀.keeps s1 := .foldl (fun _ _ hu => hu.l1Invalidate _) _ h
    extract_lets +onlyGivenNames s2
    have hs2 : s₀.keeps s2 := hs1.still rfl
    exact (hs2.setPart _ _).reserveSave _

theorem State.keeps.boundary (h : s₀.keeps s) (p : Nat) : s₀.keeps (s.boundary p) := by
  unfold State.boundary
  extract_lets +onlyGivenNames r
  split
  · exact h
  · exact .ite h (((((h.updSlice _ _).setPart _ _).reserveSave _).vacate _).endRebind _)

theorem State.keeps.settleQuiesce (h : s₀.keeps s) (p : Nat) : s₀.keeps (s.settleQuiesce p) :=
  .ite (h.setPart _ _) h

theorem State.keeps.settleQueue (h : s₀.keeps s) (q : Nat) : s₀.keeps (s.settleQueue q) := by
  unfold State.settleQueue
  split
  · exact h
  · split
    · exact .ite (h.setQueue _ _) h
    · exact .ite (h.setQueue _ _) h
    · exact .ite ((h.setQueue _ _).settleQuiesce _) h
    · exact h

theorem State.keeps.drainQueue (h : s₀.keeps s) (q : Nat) : s₀.keeps (s.drainQueue q) := by
  unfold State.drainQueue
  split
  · exact h
  · split
    · exact (h.setQueue _ _).settleQueue _
    · exact (h.setQueue _ _).settleQueue _
    · exact h.setQueue _ _
    · exact h

theorem State.keeps.changeOwner (h : s₀.keeps s) (p : Nat) : s₀.keeps (s.changeOwner p) := by
  unfold State.changeOwner
  extract_lets +onlyGivenNames r
  exact h.setPart _ _

theorem State.keeps.settleOwner (h : s₀.keeps s) (p : Nat) : s₀.keeps (s.settleOwner p) := by
  unfold State.settleOwner
  split
  · exact .ite h (h.changeOwner _)
  · exact .ite (h.changeOwner _) h

theorem State.keeps.frontGather (h : s₀.keeps s) (src : Src) (op : Option Nat) (p va n : Nat) (pc : DWord) :
    s₀.keeps (s.frontGather src op p va n pc).state := by
  unfold State.frontGather
  dsimp only
  split
  · refine .foldl (fun u a hu => ?_) _ h
    split
    · exact hu.addReq _
    · exact hu
  · split
    · exact h.still rfl
    · split
      · exact h
      · exact h.still rfl

theorem State.keeps.frontRead (h : s₀.keeps s) (src : Src) (op : Option Nat) (p va n : Nat) (pc : DWord) :
    s₀.keeps (s.frontRead src op p va n pc).state := by
  unfold State.frontRead
  split
  · exact h
  · split
    · split
      · exact h
      · dsimp only
        exact .ite h (h.still (by rfl))
    · exact h.frontGather _ _ _ _ _ _

theorem Kept.queueWrite (h : s₀.keeps s) (fn : Nat) (rid : Option Nat) (doorbell : Bool) (q : Nat) (f : Queue → State)
    (hf : ∀ v, s₀.keeps (f v)) : Kept s₀ (queueWrite fn rid doorbell q f s) := by
  unfold Machine.queueWrite
  split
  · exact .next h
  · exact .ite (.inbound h _ _ _ (hf _)) (.next h)

theorem Kept.execQueueEnable (h : s₀.keeps s) (fn : Fin 64) (rid : Option Nat) (q : Fin 1024) : Kept s₀ (execQueueEnable fn rid q s) :=
  .queueWrite h _ _ _ _ _ (fun _ => .ite ((h.setQueue _ _).settleQueue _) h)

theorem Kept.execQueueDisable (h : s₀.keeps s) (fn : Fin 64) (rid : Option Nat) (q : Fin 1024) : Kept s₀ (execQueueDisable fn rid q s) :=
  .queueWrite h _ _ _ _ _ (fun _ => h.drainQueue _)

theorem Kept.execDoorbell (h : s₀.keeps s) (fn : Fin 64) (rid : Option Nat) (q : Fin 1024) (tail : BitVec 16) :
    Kept s₀ (execDoorbell fn rid q tail s) :=
  .queueWrite h _ _ _ _ _ (fun _ => (h.setQueue _ _).settleQueue _)

theorem Kept.execCqHeadWrite (h : s₀.keeps s) (fn : Fin 64) (rid : Option Nat) (q : Fin 1024) (head : BitVec 16) :
    Kept s₀ (execCqHeadWrite fn rid q head s) :=
  .queueWrite h _ _ _ _ _ (fun _ => h.setQueue _ _)

theorem State.keeps.slotRead (h : s₀.keeps s) (q : Nat) (v : Queue) (host : Option (List Byte)) : s₀.keeps (s.slotRead q v host).state := by
  unfold State.slotRead
  split
  · exact h.frontRead _ _ _ _ _ _
  · split
    · dsimp only
      exact h
    · dsimp only
      exact h

theorem State.keeps.readBatch (h : s₀.keeps s) (q : Nat) (c : Cmd) : s₀.keeps (s.readBatch q c).state := by
  unfold State.readBatch
  split
  · exact h
  · exact h.frontRead _ _ _ _ _ _

theorem State.keeps.enterCmd (h : s₀.keeps s) (q : Nat) (v : Queue) (c : Cmd) : s₀.keeps (s.enterCmd q v c) := by
  unfold State.enterCmd
  extract_lets +onlyGivenNames s1
  have hs1 : s₀.keeps s1 := h.setQueue _ _
  extract_lets +onlyGivenNames s2
  have hs2 : s₀.keeps s2 := hs1.still rfl
  extract_lets +onlyGivenNames id
  have hid : s₀.keeps id.2 := hs2.newId
  extract_lets +onlyGivenNames s3
  have hs3 : s₀.keeps s3 := hid.setCmd _ _
  exact (hs3.wake.settleOwner _).trace

theorem State.keeps.fetchDone (h : s₀.keeps s) (q : Nat) : s₀.keeps (s.fetchDone q) :=
  h.still rfl

theorem Kept.execCommandFetch (h : s₀.keeps s) (q : Fin 1024) (host : Option (List Byte)) : Kept s₀ (execCommandFetch q host s) := by
  unfold Machine.execCommandFetch
  split
  · exact .next h
  · refine .ite (.next h) ?_
    extract_lets +onlyGivenNames a
    split
    next t e =>
      have ht : s₀.keeps t := (h.slotRead _ _ _).of_eq (congrArg FrontRead.state e)
      exact .next ht
    next t _ _ e =>
      have ht : s₀.keeps t := (h.slotRead _ _ _).of_eq (congrArg FrontRead.state e)
      exact .next ((ht.fetchDone _).enterCmd _ _ _)
    next t _ _ e =>
      have ht : s₀.keeps t := (h.slotRead _ _ _).of_eq (congrArg FrontRead.state e)
      extract_lets +onlyGivenNames c
      split
      next t1 e1 =>
        have ht1 : s₀.keeps t1 := (ht.readBatch _ _).of_eq (congrArg FrontRead.state e1)
        exact .next (ht1.still (by rfl))
      next t1 _ _ e1 =>
        have ht1 : s₀.keeps t1 := (ht.readBatch _ _).of_eq (congrArg FrontRead.state e1)
        extract_lets +onlyGivenNames c1
        exact .next ((ht1.fetchDone _).enterCmd _ _ _)
      next t1 _ _ e1 =>
        have ht1 : s₀.keeps t1 := (ht.readBatch _ _).of_eq (congrArg FrontRead.state e1)
        exact .next ((ht1.fetchDone _).enterCmd _ _ _)

theorem Kept.starts (h : s₀.keeps s) (id op : Nat) (f : Cmd → State) (hf : ∀ c, s₀.keeps (f c)) : Kept s₀ (starts id op s f) := by
  unfold Machine.starts
  split
  · exact .next h
  · exact .next (hf _)

theorem Kept.execCmdNop (h : s₀.keeps s) (id : Nat) : Kept s₀ (execCmdNop id s) :=
  .starts h _ _ _ (fun _ => h.cmdDone _ _ _)

theorem Kept.execSemWait (h : s₀.keeps s) (id : Nat) : Kept s₀ (execSemWait id s) := by
  unfold Machine.execSemWait
  refine .starts h _ _ _ ?_
  intro c
  extract_lets +onlyGivenNames va n
  split
  · exact .ite (h.cmdDone _ _ _) ((h.addReq _).setCmd _ _)
  · exact h.cmdDone _ _ _

theorem State.keeps.writeRecord (h : s₀.keeps s) (q : Nat) (v : Queue) (r : List Byte) : s₀.keeps (s.writeRecord q v r) := by
  unfold State.writeRecord
  extract_lets +onlyGivenNames b s1
  have hs1 : s₀.keeps s1 := h.still rfl
  extract_lets +onlyGivenNames s2
  have hs2 : s₀.keeps s2 := hs1.ioWrite _ _ _
  exact hs2.setQueue _ _

theorem State.keeps.gcVersions (h : s₀.keeps s) : s₀.keeps s.gcVersions :=
  h.still rfl

theorem State.keeps.afterRecord (h : s₀.keeps s) (c : Cmd) : s₀.keeps (s.afterRecord c) := by
  unfold State.afterRecord
  extract_lets +onlyGivenNames p s1
  have hs1 : s₀.keeps s1 := h.gcVersions.settleQueue _
  extract_lets +onlyGivenNames s2
  have hs2 : s₀.keeps s2 := .ite (hs1.boundary _) hs1
  exact (hs2.settleQuiesce _).settleOwner _

theorem Kept.execCompletionWrite (h : s₀.keeps s) (id : Nat) (rejected : Bool) : Kept s₀ (execCompletionWrite id rejected s) := by
  unfold Machine.execCompletionWrite
  split
  · exact .next h
  · split
    · exact .next h
    · refine .ite (.next ((h.still (by rfl)).afterRecord _)) (.ite (.next h) ?_)
      extract_lets +onlyGivenNames wants drop held v' s1 out
      have hdrop : ∀ u, s₀.keeps u → s₀.keeps (drop u) := fun u hu => hu.still (by rfl)
      have hs1 : s₀.keeps s1 := .ite (h.writeRecord _ _ _) h
      have hout : s₀.keeps out :=
        .ite (.ite (hdrop _ (h.setQueue _ _)) (hdrop _ h))
          (.ite (hdrop _ ((h.setQueue _ _).event _ _)) (.ite (hs1.setCmd _ _) (hdrop _ hs1)))
      exact .next ((hout.afterRecord _).trace)

theorem State.keeps.sendSignal (h : s₀.keeps s) (q id : Nat) (sig : DWord × DWord × Bool) (rejected : Bool) :
    s₀.keeps (s.sendSignal q id sig rejected) := by
  unfold State.sendSignal
  extract_lets +onlyGivenNames a dropped
  have hdropped : s₀.keeps dropped := by
    unfold dropped
    split
    · exact (h.setQueue _ _).event _ _
    · exact h
  refine .ite ?_ (.ite hdropped (h.still (by rfl)))
  extract_lets +onlyGivenNames va
  split
  · exact .ite hdropped (h.addReq _)
  · exact hdropped

theorem Kept.execSignalSend (h : s₀.keeps s) (id : Nat) (rejected : Bool) : Kept s₀ (execSignalSend id rejected s) := by
  unfold Machine.execSignalSend
  split
  · exact .next h
  · refine .ite (.next h) ?_
    split
    · exact .next h
    · exact .next ((h.still (by rfl)).sendSignal _ _ _ _)

theorem Kept.execQCreate (h : s₀.keeps s) (r : Req) : Kept s₀ (execQCreate r s) :=
  .serve h _ _ _ _ _ (fun _ => .bind fun _ => .bind fun _ => .done (h.setQueue _ _))

theorem Kept.execQDestroy (h : s₀.keeps s) (r : Req) : Kept s₀ (execQDestroy r s) := by
  unfold Machine.execQDestroy
  refine .serve h _ _ _ _ _ ?_
  intro fs
  split
  · exact .error _
  · exact .bind fun _ => .done (h.still (by rfl))

theorem Kept.execQShadowRead (h : s₀.keeps s) (r : Req) : Kept s₀ (execQShadowRead r s) := by
  unfold Machine.execQShadowRead
  refine .serve h _ _ _ _ _ ?_
  intro fs
  split
  · exact .error _
  · exact .bind fun _ => .done h

theorem State.keeps.deliverHeld (h : s₀.keeps s) (q : Nat) (discard : Bool) (rejected sigRejected : List Nat) (held : List (HeldRec × Nat)) :
    s₀.keeps (s.deliverHeld q discard rejected sigRejected held) := by
  induction held generalizing s with
  | nil => exact h
  | cons r held ih =>
    unfold State.deliverHeld
    split
    · exact h
    · refine .ite h ?_
      extract_lets +onlyGivenNames s1 s2 s3
      have hs1 : s₀.keeps s1 := h.setQueue _ _
      have hs2 : s₀.keeps s2 := by
        unfold s2
        split
        · exact .ite hs1 (hs1.writeRecord _ _ _)
        · exact hs1
      have hs3 : s₀.keeps s3 := by
        unfold s3
        split
        · exact hs2.sendSignal _ _ _ _
        · exact hs2
      exact ih hs3

theorem State.keeps.endStall (h : s₀.keeps s) (k : Nat) : s₀.keeps (s.endStall k) := by
  unfold State.endStall
  split
  · exact .ite ((h.setQueue _ _).settleQueue _) h
  · exact h

theorem Kept.execQStallAck (h : s₀.keeps s) (r : Req) (rejected sigRejected : List Nat) :
    Kept s₀ (execQStallAck r rejected sigRejected s) := by
  unfold Machine.execQStallAck
  refine .serve h _ _ _ _ _ ?_
  intro fs
  split
  · exact .error _
  · exact .bind fun _ => .done (((h.setQueue _ _).deliverHeld _ _ _ _ _).endStall _)

end Sys2Proof.Machine
end

section
/-! What every command keeps: graphs, the matrix units, tasks and the schedulers. -/

namespace Sys2Proof.Machine

variable {s₀ s t : State}

theorem State.keeps.newVersion (h : s₀.keeps s) (id : Nat) (c : Cmd) (ns : List Node) : s₀.keeps (s.newVersion id c ns) :=
  .ite h (.gcVersions (.cmdDone (.ite ((h.newId.still (by rfl)).cmdRaise _ _) (h.newId.still (by rfl))) _ _ _))

theorem State.keeps.imagesRead (h : s₀.keeps s) (id : Nat) (f : BitVec 16) : s₀.keeps (s.imagesRead id f) :=
  .ite h (h.cmdRaise _ _)

theorem State.keeps.withImages (h : s₀.keeps s) (id : Nat) (c : Cmd) (n : Nat) (use : State → List Node → State)
    (hu : ∀ u l, s₀.keeps u → s₀.keeps (use u l)) : s₀.keeps (s.withImages id c n use) := by
  unfold State.withImages
  split
  next t e => exact (h.frontRead _ _ _ _ _ _).of_eq (congrArg FrontRead.state e)
  next t st a e =>
    have ht : s₀.keeps t := (h.frontRead _ _ _ _ _ _).of_eq (congrArg FrontRead.state e)
    exact ht.cmdDone _ _ _
  next t bytes f e =>
    have ht : s₀.keeps t := (h.frontRead _ _ _ _ _ _).of_eq (congrArg FrontRead.state e)
    exact hu _ _ (ht.imagesRead _ _)

theorem Kept.execGraphLoad (h : s₀.keeps s) (id : Nat) : Kept s₀ (execGraphLoad id s) :=
  .starts h _ _ _ (fun _ => h.withImages _ _ _ _ (fun _ _ hu1 => hu1.newVersion _ _ _))

theorem Kept.execGraphPatch (h : s₀.keeps s) (id : Nat) : Kept s₀ (execGraphPatch id s) := by
  unfold Machine.execGraphPatch
  refine .starts h _ _ _ ?_
  intro c
  split
  · exact h.cmdDone _ _ _
  · exact h.withImages _ _ _ _ (fun _ _ hu => .newVersion (.ite (hu.cmdRaise _ _) hu) _ _ _)

theorem Kept.execGraphFree (h : s₀.keeps s) (id : Nat) : Kept s₀ (execGraphFree id s) :=
  .starts h _ _ _ (fun _ => .ite (h.cmdDone _ _ _) (((h.still (by rfl)).cmdDone _ _ _).gcVersions))

theorem State.keeps.startNode (h : s₀.keeps s) (id : Nat) (c : Cmd) (e : Node × Nat) : s₀.keeps (s.startNode id c e) :=
  .ite h (h.newId.setTask _ _)

theorem Kept.execLaunch (h : s₀.keeps s) (id : Nat) : Kept s₀ (execLaunch id s) := by
  unfold Machine.execLaunch
  refine .starts h _ _ _ ?_
  intro c
  split
  · exact h.cmdDone _ _ _
  · extract_lets +onlyGivenNames v s1
    have hs1 : s₀.keeps s1 := h.boundary _
    extract_lets +onlyGivenNames c1 s2
    have hs2 : s₀.keeps s2 := .foldl (fun _ _ hu => hu.startNode _ _ _) _ (hs1.setCmd _ _)
    exact hs2.settleStep _

theorem State.keeps.setMxu (h : s₀.keeps s) (u : Nat) (m : Mxu) : s₀.keeps (s.setMxu u m) :=
  h.still rfl

theorem State.keeps.countMxu (h : s₀.keeps s) (part n k : Nat) : s₀.keeps (s.countMxu part n k) :=
  h.still rfl

theorem State.keeps.spoil (h : s₀.keeps s) (blk k : Nat) : s₀.keeps (s.spoil blk k) :=
  h.updGroup _ _

theorem State.keeps.fenceSubCore (h : s₀.keeps s) (mxu task : Nat) (pc : DWord) : s₀.keeps (s.fenceSubCore mxu task pc) := by
  unfold State.fenceSubCore
  extract_lets +onlyGivenNames s1 s2
  have hs2 : s₀.keeps s2 := h.setMxu _ _
  extract_lets +onlyGivenNames s3
  have hs3 : s₀.keeps s3 := hs2.endTask _ _ _
  extract_lets +onlyGivenNames core s4
  have hs4 : s₀.keeps s4 := hs3.still rfl
  exact (hs4.closeCore _ _).event _ _

theorem Kept.execMxuInstructionStart (h : s₀.keeps s) (mxu : Fin 640) (entry : MxuEntry) :
    Kept s₀ (execMxuInstructionStart mxu entry s) := by
  unfold Machine.execMxuInstructionStart
  extract_lets +onlyGivenNames m
  split
  · exact .next h
  · extract_lets +onlyGivenNames before
    split
    · exact .next h
    · split
      · refine .ite (.next h) ?_
        refine .ite (.next (h.endTask _ _ _)) ?_
        split
        · exact .ite (.next ((h.spoil _ _).fenceSubCore _ _ _)) (.next (((h.setMxu _ _).setBlock _ _).refill))
        · exact .next (h.setMxu _ _)
      · exact .next h

theorem Kept.execMxuStep (h : s₀.keeps s) (mxu : Fin 640) (check : Residue) : Kept s₀ (execMxuStep mxu check s) := by
  unfold Machine.execMxuStep
  extract_lets +onlyGivenNames m
  split
  · exact .next h
  · split
    · exact .next h
    · split
      · refine .ite (.next h) ?_
        refine .ite (.next (((h.setMxu _ _).countMxu _ _ _).refill)) ?_
        extract_lets +onlyGivenNames check1
        refine .ite (.next (h.fenceSubCore _ _ _)) ?_
        refine .ite (.next ((h.spoil _ _).fenceSubCore _ _ _)) ?_
        extract_lets +onlyGivenNames s1
        have hs1 : s₀.keeps s1 := .ite h (h.still (by rfl))
        extract_lets +onlyGivenNames s2
        have hs2 : s₀.keeps s2 := .ite (((hs1.raise _ _).countMxu _ _ _).event _ _) hs1
        extract_lets +onlyGivenNames m1 r
        refine .ite (.next ((hs2.setMxu _ _).endTask _ _ _)) ?_
        extract_lets +onlyGivenNames s3
        have hs3 : s₀.keeps s3 := .ite (hs2.raise _ _) hs2
        extract_lets +onlyGivenNames s4
        have hs4 : s₀.keeps s4 := (hs3.setMxu _ _).countMxu _ _ _
        exact .next ((hs4.updGroup _ _).refill)
      · exact .next h

theorem Kept.execMxiTokenComplete (h : s₀.keeps s) (mxu : Fin 640) (entry : MxuEntry) : Kept s₀ (execMxiTokenComplete mxu entry s) := by
  unfold Machine.execMxiTokenComplete
  extract_lets +onlyGivenNames m
  split
  · exact .next h
  · split
    · exact .next h
    · split
      · exact .ite (.next h) (.ite (.next ((h.spoil _ _).fenceSubCore _ _ _))
            (.next (.refill (.setBlock (.setMxu (.ite h (h.still (by rfl))) _ _) _ _))))
      · exact .next h

theorem Kept.execAccFootprintAcquire (h : s₀.keeps s) (g : GroupRef) : Kept s₀ (execAccFootprintAcquire g s) := by
  unfold Machine.execAccFootprintAcquire
  split
  · exact .next h
  · extract_lets +onlyGivenNames sub
    split
    · exact .next h
    · exact .ite (.next (h.putGroup _ _)) (.next h)

theorem Kept.execAccFootprintEvict (h : s₀.keeps s) (w : Eviction) : Kept s₀ (execAccFootprintEvict w s) := by
  unfold Machine.execAccFootprintEvict
  extract_lets +onlyGivenNames g
  split
  · exact .next h
  · extract_lets +onlyGivenNames sub
    split
    · exact .next h
    · extract_lets +onlyGivenNames need l total
      refine .ite (.next h) ?_
      extract_lets +onlyGivenNames sorted
      exact .next (.foldl (fun _ _ hu => .ite hu (.ite ((hu.spoil _ _).fenceSubCore _ _ _) ((hu.updGroup _ _).countMxu _ _ _))) _ h)

theorem State.keeps.readyTask (h : s₀.keeps s) (id : Nat) (t : Task) : s₀.keeps (s.readyTask id t) :=
  .ite (h.endTask _ _ _) (.ite (h.endTask _ _ _) ((h.still (by rfl)).setTask _ _))

theorem State.keeps.paramsRead (h : s₀.keeps s) (id : Nat) (t : Task) (f : BitVec 16) : s₀.keeps (s.paramsRead id t f) :=
  .ite (h.readyTask _ _) ((h.raise _ _).readyTask _ _)

theorem Kept.execTaskReady (h : s₀.keeps s) (task : Nat) : Kept s₀ (execTaskReady task s) := by
  unfold Machine.execTaskReady
  split
  · exact .next h
  · split
    · exact .next h
    · refine .ite (.next h) ?_
      extract_lets +onlyGivenNames n len va
      split
      next t e =>
        have ht : s₀.keeps t := (h.frontRead _ _ _ _ _ _).of_eq (congrArg FrontRead.state e)
        exact .next ht
      next t _ _ e =>
        have ht : s₀.keeps t := (h.frontRead _ _ _ _ _ _).of_eq (congrArg FrontRead.state e)
        exact .next (((ht.endTask _ _ _).settleStep _).trace)
      next t _ _ e =>
        have ht : s₀.keeps t := (h.frontRead _ _ _ _ _ _).of_eq (congrArg FrontRead.state e)
        exact .next (((ht.paramsRead _ _ _).settleStep _).trace)

theorem Kept.execBlockEnd (h : s₀.keeps s) (b : Nat) : Kept s₀ (execBlockEnd b s) := by
  unfold Machine.execBlockEnd
  split
  · exact .next h
  · split
    · exact .next h
    · refine .ite (.next h) ?_
      extract_lets +onlyGivenNames t s1
      have hs1 : s₀.keeps s1 := (h.dropBlock _).setTask _ _
      extract_lets +onlyGivenNames s2
      have hs2 : s₀.keeps s2 := .ite (hs1.endTask _ _ _) hs1
      exact .next (((hs2.endRebind _).settleStep _).trace)

theorem Kept.execBlockStuck (h : s₀.keeps s) (b : Nat) : Kept s₀ (execBlockStuck b s) := by
  unfold Machine.execBlockStuck
  split
  · exact .next h
  · extract_lets +onlyGivenNames live heard
    refine .ite (.next h) ?_
    split
    · exact .next h
    · exact .next ((h.endTask _ _ _).trace)

theorem State.keeps.withdrawSem (h : s₀.keeps s) (id : Nat) (q : MemReq) : s₀.keeps (s.withdrawSem id q) := by
  unfold State.withdrawSem
  split
  · exact (h.stageReq _ _ _).toPeer _ _ _ _ _
  · exact (h.still (by rfl)).stageReq _ _ _
  · exact h.stageReq _ _ _
  · exact h

theorem State.keeps.dropReq (h : s₀.keeps s) (cmd id : Nat) (q : MemReq) : s₀.keeps (s.dropReq cmd id q) := by
  unfold State.dropReq
  extract_lets +onlyGivenNames back tileWrite
  refine .ite (h.setReq _ _) ?_
  extract_lets +onlyGivenNames s1
  have hs1 : s₀.keeps s1 := h.withdrawSem _ _
  split
  · exact .ite (hs1.setReq _ _) (hs1.endReq _ _)
  · exact hs1

theorem State.keeps.closeWrites (h : s₀.keeps s) (o : TileOp) : s₀.keeps (s.closeWrites o) := by
  unfold State.closeWrites
  refine .foldl (fun u a hu => ?_) _ h
  split
  · exact hu.endWrite _
  · exact hu

theorem State.keeps.killBlock (h : s₀.keeps s) (cmd b : Nat) : s₀.keeps (s.killBlock cmd b) := by
  unfold State.killBlock
  extract_lets +onlyGivenNames mine s1
  have hs1 : s₀.keeps s1 := .wakeAfter (.foldl (fun _ _ hu => hu.dropReq _ _ _) _ h) _
  extract_lets +onlyGivenNames ops s2
  have hs2 : s₀.keeps s2 := .foldl (fun _ _ hu => .ite (hu.closeWrites _) hu) _ hs1
  extract_lets +onlyGivenNames s3
  have hs3 : s₀.keeps s3 := hs2.still rfl
  exact hs3.dropBlock _

theorem Kept.execTaskKill (h : s₀.keeps s) (task : Nat) : Kept s₀ (execTaskKill task s) := by
  unfold Machine.execTaskKill
  split
  · exact .next h
  · split
    · exact .next h
    · exact .ite (.next h) (.next (.settleStep (.endRebind (.setTask (.foldl (fun _ _ hu => hu.killBlock _ _) _ h) _ _) _) _))

theorem State.keeps.stopCmd (h : s₀.keeps s) (id : Nat) (c : Cmd) (why : Status) : s₀.keeps (s.stopCmd id c why) := by
  unfold State.stopCmd
  refine .ite h ?_
  extract_lets +onlyGivenNames s'
  have hs' : s₀.keeps s' := h.setCmd _ _
  refine .ite ((h.setCmd _ _).settleStep _) ?_
  split
  · exact hs'.cmdDone _ _ _
  · split
    · exact .ite h ((hs'.endReq _ _).cmdDone _ _ _)
    · extract_lets +onlyGivenNames s'1
      have hs'1 : s₀.keeps s'1 := hs'.withdrawSem _ _
      split
      · exact .ite hs'1 (((hs'1.endReq _ _).cmdDone _ _ _).wakeAfter _)
      · exact hs'1.cmdDone _ _ _

theorem Kept.execCommandTimeout (h : s₀.keeps s) (cmd : Nat) : Kept s₀ (execCommandTimeout cmd s) := by
  unfold Machine.execCommandTimeout
  split
  · exact .next h
  · exact .ite (.next h) (.next ((h.stopCmd _ _ _).trace))

theorem Kept.execAbort (h : s₀.keeps s) (fn : Fin 64) (rid : Option Nat) (q : Fin 1024) : Kept s₀ (execAbort fn rid q s) :=
  .queueWrite h _ _ _ _ _ (fun _ => .drainQueue (.foldl (fun _ _ hu1 => hu1.stopCmd _ _ _) _ h) _)

theorem Kept.execDrain (h : s₀.keeps s) (cmd : Nat) (core : Fin 160) : Kept s₀ (execDrain cmd core s) := by
  unfold Machine.execDrain
  split
  · exact .next h
  · extract_lets +onlyGivenNames here
    exact .ite (.next h) (.next (h.setCmd _ _))

theorem Kept.execDrainBoundExpiry (h : s₀.keeps s) (cmd : Nat) : Kept s₀ (execDrainBoundExpiry cmd s) := by
  unfold Machine.execDrainBoundExpiry
  split
  · exact .next h
  · extract_lets +onlyGivenNames resident
    exact .ite (.next h) (.next ((h.setCmd _ _).settleStep _))

theorem State.keeps.preempt (h : s₀.keeps s) (fe p : Nat) : s₀.keepsSome (s.preempt fe p) := by
  unfold State.preempt
  split
  · exact .none
  · extract_lets +onlyGivenNames busy
    refine .ite .none ?_
    split
    · exact .none
    · split
      · exact .none
      · exact .mapAny fun _ => h.setBlock _ _

theorem State.keeps.placeNew (h : s₀.keeps s) (task c : Nat) (t : Task) : s₀.keeps (s.placeNew task c t) :=
  ((h.newId.setBlock _ _).setTask _ _).l1Invalidate _

theorem State.keeps.restoreFoot (h : s₀.keeps s) (b k : Nat) : s₀.keeps (s.restoreFoot b k) := by
  unfold State.restoreFoot
  split
  · exact h
  · split
    · exact h
    · exact .ite h (.ite (h.putGroup _ _) (.ite (h.putGroup _ _) ((h.putGroup _ _).still (by rfl))))

theorem State.keeps.restore (h : s₀.keeps s) (b c : Nat) : s₀.keeps (s.restore b c) := by
  unfold State.restore
  split
  · exact h
  · split
    · exact h
    · extract_lets +onlyGivenNames away s1
      have hs1 : s₀.keeps s1 := (h.setBlock _ _).setTask _ _
      extract_lets +onlyGivenNames s2
      have hs2 : s₀.keeps s2 := .foldl (fun _ _ hu => hu.restoreFoot _ _) _ hs1
      extract_lets +onlyGivenNames s3
      have hs3 : s₀.keeps s3 := hs2.refill
      extract_lets +onlyGivenNames s4
      have hs4 : s₀.keeps s4 := hs3.still rfl
      exact ((hs4.l1Invalidate _).setPart _ _).reserveSave _

theorem State.keeps.restoreChecked (h : s₀.keeps s) (b c : Nat) (save : SaveCheck) : s₀.keeps (s.restoreChecked b c save) := by
  unfold State.restoreChecked
  extract_lets +onlyGivenNames task
  split
  · exact h.restore _ _
  · exact (h.event _ _).endTask _ _ _
  · exact (h.event _ _).endTask _ _ _

theorem State.keeps.placeReady (h : s₀.keeps s) (r : Ready) (c : Nat) (save : SaveCheck) : s₀.keeps (s.placeReady r c save) := by
  unfold State.placeReady
  split
  · exact h.restoreChecked _ _ _
  · split
    · exact h.placeNew _ _ _
    · exact h

theorem Kept.execBlockPlace (h : s₀.keeps s) (fe : Fin 2) (part : Fin 16) (save : SaveCheck) : Kept s₀ (execBlockPlace fe part save s) := by
  unfold Machine.execBlockPlace
  refine .ite (.next h) ?_
  extract_lets +onlyGivenNames own
  split
  next t e =>
    have ht : s₀.keeps t := (h.preempt _ _) _ e
    clear_value own
    split
    · exact .next (h.placeReady _ _ _)
    · exact .next ht
  · split
    · clear_value own
      split
      · exact .next (h.placeReady _ _ _)
      · exact .next h
    · clear_value own
      split
      · exact .next (h.placeReady _ _ _)
      · exact .next ((h.still (by rfl)).placeReady _ _ _)

theorem Kept.execSwitchOut (h : s₀.keeps s) (b : Nat) (bad : Option (Fin 32)) : Kept s₀ (execSwitchOut b bad s) := by
  unfold Machine.execSwitchOut
  split
  · exact .next h
  · refine .ite (.next h) ?_
    extract_lets +onlyGivenNames s1
    have hs1 : s₀.keeps s1 := .wakeAfter (.foldl (fun _ _ hu => hu.withdrawSem _ _) _ h) _
    refine .ite (.next hs1) ?_
    extract_lets +onlyGivenNames fails
    clear_value fails
    split
    · exact .next ((hs1.spoil _ _).fenceSubCore _ _ _)
    · exact .next (hs1.setBlock _ _)

theorem Kept.execSaved (h : s₀.keeps s) (b : Nat) : Kept s₀ (execSaved b s) := by
  unfold Machine.execSaved
  split
  · exact .next h
  · refine .ite (.next h) ?_
    extract_lets +onlyGivenNames task es s1
    have hs1 : s₀.keeps s1 := (h.mxuDrop _).setBlock _ _
    extract_lets +onlyGivenNames s2
    have hs2 : s₀.keeps s2 := (hs1.still (by rfl)).refill.coreIdle _
    clear_value task
    split
    · exact .next hs2
    · extract_lets +onlyGivenNames p
      exact .next ((hs2.setPart _ _).endRebind _)

theorem Kept.execQuantumExpiry (h : s₀.keeps s) (part : Fin 16) : Kept s₀ (execQuantumExpiry part s) := by
  unfold Machine.execQuantumExpiry
  extract_lets +onlyGivenNames p
  refine .ite (.next h) ?_
  refine .ite (.next (h.setPart _ _)) ?_
  extract_lets +onlyGivenNames s1
  have hs1 : s₀.keeps s1 := h.changeOwner _
  extract_lets +onlyGivenNames stuck
  split
  next t e =>
    have ht : s₀.keeps t := (show s₀.keepsSome _ from .ite (hs1.preempt _ _) .none) _ e
    exact .next ht
  · exact .next (State.keepsSome.getD (.ite (hs1.preempt _ _) .none) hs1)

theorem Kept.execSchedSet (h : s₀.keeps s) (r : Req) : Kept s₀ (execSchedSet r s) :=
  .serve h _ _ _ _ _ (fun _ => .bind fun _ => .done (.ite ((h.setPart _ _).settleOwner _) (h.setPart _ _)))

theorem Kept.execSchedStatus (h : s₀.keeps s) (r : Req) : Kept s₀ (execSchedStatus r s) :=
  .serve h _ _ _ _ _ (fun _ => h.pageAns _ _ _ _)

end Sys2Proof.Machine
end

section
/-! What every command keeps: composition, migration and page maps. -/

namespace Sys2Proof.Machine

variable {s₀ s t : State}

theorem State.keeps.addSet (h : s₀.keeps s) (owner : Owner) (copy : Nat) (chans : List Nat) (rows : Nat) :
    s₀.keeps (s.addSet owner copy chans rows) := by
  unfold State.addSet
  extract_lets +onlyGivenNames k
  clear_value k
  split
  · exact h
  · exact .ite h (h.still (by rfl))

theorem State.keeps.formSets (h : s₀.keeps s) (owner : Owner) (whole : Bool) (chans : List Nat) : s₀.keeps (s.formSets owner whole chans) :=
  .foldl (fun _ _ hu => hu.addSet _ _ _ _) _ h

theorem State.keeps.scrub (h : s₀.keeps s) (p : Nat → Nat → Bool) : s₀.keeps (s.scrub p) := by
  unfold State.scrub
  extract_lets +onlyGivenNames at_ ls l1 s'
  have hs' : s₀.keeps s' := .foldl (fun _ _ hu => hu.llcEvict _ _ _) _ h
  exact hs'.still rfl

theorem State.keeps.scrubRange (h : s₀.keeps s) (dpa n : Nat) : s₀.keeps (s.scrubRange dpa n) :=
  h.scrub _

theorem State.keeps.recall (h : s₀.keeps s) (p : Nat → Bool) : s₀.keeps (s.recall p).2 := by
  unfold State.recall
  dsimp only
  split
  next t e =>
    have ht : s₀.keeps t := (h.accessAll _ _ _ _) _ (congrArg (Option.map Prod.snd) e)
    exact ht
  next t e =>
    have ht : s₀.keeps t := (h.accessAll _ _ _ _) _ (congrArg (Option.map Prod.snd) e)
    exact ht
  · exact h

theorem State.keeps.removeSet (h : s₀.keeps s) (k : Nat) (e : IntSet) : s₀.keeps (s.removeSet k e) := by
  unfold State.removeSet
  extract_lets +onlyGivenNames s1
  have hs1 : s₀.keeps s1 := h.scrub _
  exact hs1.still rfl

theorem State.keeps.putWhole (h : s₀.keeps s) (line : Nat) (data : List (BitVec 1024)) : s₀.keeps (s.putWhole line data) := by
  unfold State.putWhole
  split
  · exact h
  · extract_lets +onlyGivenNames s1
    have hs1 : s₀.keeps s1 := h.dropTile _
    extract_lets +onlyGivenNames s2
    have hs2 : s₀.keeps s2 := by
      unfold s2
      clear_value s1 s2
      exact hs1.still rfl
    exact .ite (hs2.tileTo _ _) (.setTss (.setTss (.foldl (fun _ _ hu => hu.memWrite _ _ _ _ _ _) _ hs2) _ _) _ _)

theorem Kept.execSliceDefine (h : s₀.keeps s) (r : Req) : Kept s₀ (execSliceDefine r s) :=
  .serve h _ _ _ _ _ (fun _ => .bind fun _ => .bind fun _ => .bind fun _ => .done (h.still (by rfl)))

theorem Kept.execQuadSetL1 (h : s₀.keeps s) (r : Req) : Kept s₀ (execQuadSetL1 r s) :=
  .serve h _ _ _ _ _ (fun _ => .done (.foldl (fun _ _ hu1 => hu1.coreIdle _) _ (h.still (by rfl))))

theorem Kept.execSharedCreate (h : s₀.keeps s) (r : Req) : Kept s₀ (execSharedCreate r s) := by
  unfold Machine.execSharedCreate
  refine .serve h _ _ _ _ _ ?_
  intro fs
  refine .bind fun _ => ?_
  extract_lets +onlyGivenNames half most want len n s1
  have hs1 : s₀.keeps s1 := .foldl (fun _ _ hu => hu.addSet _ _ _ _) _ h
  extract_lets +onlyGivenNames s2
  have hs2 : s₀.keeps s2 := .foldl (fun _ _ hu => hu.scrub _) _ hs1
  extract_lets +onlyGivenNames parts s3 s4
  have hs4 : s₀.keeps s4 := hs2.still rfl
  exact .done hs4

theorem Kept.execSharedDestroy (h : s₀.keeps s) (r : Req) : Kept s₀ (execSharedDestroy r s) := by
  unfold Machine.execSharedDestroy
  refine .serve h _ _ _ _ _ ?_
  intro fs
  extract_lets +onlyGivenNames mapped
  refine .bind fun _ => ?_
  split
  next t e =>
    have ht : s₀.keeps t := (h.recall _).of_eq (congrArg Prod.snd e)
    exact .ok ht
  next t e =>
    have ht : s₀.keeps t := (h.recall _).of_eq (congrArg Prod.snd e)
    extract_lets +onlyGivenNames s1
    have hs1 : s₀.keeps s1 := .foldl (fun _ _ hu => hu.removeSet _ _) _ ht
    exact .done (hs1.still (by rfl))

theorem State.keeps.loadShared (h : s₀.keeps s) (g : SharedRegion) (ts : List Nat) (host : List Byte) :
    s₀.keeps (s.loadShared g ts host) := by
  unfold State.loadShared
  extract_lets +onlyGivenNames s1
  have hs1 : s₀.keeps s1 := by
    unfold s1
    refine .foldl (fun u a hu => ?_) _ h
    extract_lets +onlyGivenNames data
    refine .foldl (fun u1 a1 hu1 => ?_) _ hu
    split
    · exact hu1.putWhole _ _
    · exact hu1
  exact hs1.still rfl

theorem Kept.execSharedLoad (h : s₀.keeps s) (r : Req) (host : List Byte) : Kept s₀ (execSharedLoad r host s) := by
  unfold Machine.execSharedLoad
  refine .serve h _ _ _ _ _ ?_
  intro fs
  split
  · exact .error _
  · extract_lets +onlyGivenNames off len ts src lines
    refine .ite (.ok h) ?_
    split
    next t e =>
      have ht : s₀.keeps t := (h.recall _).of_eq (congrArg Prod.snd e)
      exact .ok ht
    next t e =>
      have ht : s₀.keeps t := (h.recall _).of_eq (congrArg Prod.snd e)
      extract_lets +onlyGivenNames bytes
      exact .done (ht.loadShared _ _ _)

theorem Kept.execLlcSetKeepQuota (h : s₀.keeps s) (r : Req) : Kept s₀ (execLlcSetKeepQuota r s) :=
  .serve h _ _ _ _ _ (fun _ => .done (h.setPart _ _))

theorem Kept.execLlcKeepRelease (h : s₀.keeps s) (r : Req) : Kept s₀ (execLlcKeepRelease r s) :=
  .serve h _ _ _ _ _ (fun _ => .done (h.still (by rfl)))

theorem State.keeps.flush (h : s₀.keeps s) (p : Bool → Nat → Bool) : s₀.keeps (s.flush p).2 := by
  unfold State.flush
  split
  next t e =>
    have ht : s₀.keeps t := (h.recall _).of_eq (congrArg Prod.snd e)
    exact ht
  next t e =>
    have ht : s₀.keeps t := (h.recall _).of_eq (congrArg Prod.snd e)
    dsimp only
    exact .foldl (fun _ _ hu => .ite (hu.llcEvict _ _ _) hu) _ ht

theorem Kept.execLlcFlush (h : s₀.keeps s) (r : Req) : Kept s₀ (execLlcFlush r s) :=
  .serve h _ _ _ _ _ (fun _ => .ok (h.flush _))

theorem Kept.execMemSetSpentPolicy (h : s₀.keeps s) (r : Req) : Kept s₀ (execMemSetSpentPolicy r s) :=
  .serve h _ _ _ _ _ (fun _ => .done (h.setPart _ _))

theorem Kept.execMemTileState (h : s₀.keeps s) (r : Req) : Kept s₀ (execMemTileState r s) :=
  .serve h _ _ _ _ _ (fun _ => .done h.takeFree)

theorem Kept.execMemChannelStatus (h : s₀.keeps s) (r : Req) : Kept s₀ (execMemChannelStatus r s) :=
  .serve h _ _ _ _ _ (fun _ => h.pageAns _ _ _ _)

theorem State.keeps.reserveBack (h : s₀.keeps s) (half : Nat) : s₀.keeps (s.reserveBack half) :=
  .foldlSnd (fun _ _ hu => hu.still (by rfl)) _ h

theorem Kept.execMemChannelAdmit (h : s₀.keeps s) (r : Req) : Kept s₀ (execMemChannelAdmit r s) := by
  unfold Machine.execMemChannelAdmit
  refine .serve h _ _ _ _ _ ?_
  intro fs
  extract_lets +onlyGivenNames k c
  exact .bind fun _ => .done ((h.reserveBack (halfOfChan k)).still (by rfl))

theorem Kept.execMemSetMode (h : s₀.keeps s) (r : Req) : Kept s₀ (execMemSetMode r s) :=
  .serve h _ _ _ _ _ (fun _ => .done (h.still (by rfl)))

theorem State.keeps.openSession (h : s₀.keeps s) (stack : Nat) : s₀.keeps (s.openSession stack) :=
  h.still rfl

theorem State.keeps.closeSession (h : s₀.keeps s) (stack : Nat) : s₀.keeps (s.closeSession stack) :=
  h.still rfl

theorem State.keeps.inSession (h : s₀.keeps s) (stack : Nat) (body : State → Serve) (hb : ∀ u, s₀.keeps u → s₀.keepsAns (body u)) :
    s₀.keepsAns (s.inSession stack body) :=
  .ite (hb _ (h.closeSession _)) (.ok (h.openSession _))

theorem Kept.repair (h : s₀.keeps s) (r : Req) (code : Nat) (soft : Bool) : Kept s₀ (repair r code soft s) :=
  .serve h _ _ _ _ _ (fun _ => .bind fun _ => .bind fun _ => h.inSession _ _
      (fun _ hu3 => .ite (.done (hu3.still (by rfl))) (.done (hu3.takeFree.still (by rfl)))))

theorem Kept.execHbmPprSoft (h : s₀.keeps s) (r : Req) : Kept s₀ (execHbmPprSoft r s) :=
  .repair h _ _ _

theorem Kept.execHbmPprHard (h : s₀.keeps s) (r : Req) : Kept s₀ (execHbmPprHard r s) :=
  .repair h _ _ _

theorem Kept.execHbmLaneMapRead (h : s₀.keeps s) (r : Req) : Kept s₀ (execHbmLaneMapRead r s) :=
  .serve h _ _ _ _ _ (fun _ => .bind fun _ => h.inSession _ _ (fun _ hu2 => hu2.pageAns _ _ _ _))

theorem Kept.execHbmLaneMapWrite (h : s₀.keeps s) (r : Req) : Kept s₀ (execHbmLaneMapWrite r s) :=
  .serve h _ _ _ _ _ (fun _ => .bind fun _ => .bind fun _ => h.inSession _ _ (fun _ hu3 => .done (hu3.still (by rfl))))

theorem Kept.execHbmRowTest (h : s₀.keeps s) (r : Req) : Kept s₀ (execHbmRowTest r s) :=
  .serve h _ _ _ _ _ (fun _ => .bind fun _ => .bind fun _ => h.inSession _ _ (fun _ hu3 => .done hu3.takeFree))

theorem State.keeps.copyRow (h : s₀.keeps s) (src dst : TileAt) (lines : Bool) : s₀.keeps (s.copyRow src dst lines) := by
  unfold State.copyRow
  extract_lets +onlyGivenNames bad s1
  have hs1 : s₀.keeps s1 := .ite (.foldl (fun _ _ hu => hu.memWrite _ _ _ _ _ _) _ h) h
  exact hs1.still rfl

theorem State.keeps.clearRow (h : s₀.keeps s) (t : TileAt) : s₀.keeps (s.clearRow t) := by
  unfold State.clearRow
  extract_lets +onlyGivenNames s1
  have hs1 : s₀.keeps s1 := .foldl (fun _ _ hu => hu.memWrite _ _ _ _ _ _) _ h
  exact hs1.still rfl

theorem State.keeps.flushTile (h : s₀.keeps s) (t : TileAt) : s₀.keeps (s.flushTile t) := by
  unfold State.flushTile
  refine .foldl (fun u a hu => ?_) _ h
  split
  · extract_lets +onlyGivenNames s1
    have hs1 : s₀.keeps s1 := .ite hu ((hu.memWrite _ _ _ _ _ _).countEvent _ _)
    exact hs1.llcEvict _ _ _
  · exact hu

theorem State.keeps.moveReady (h : s₀.keeps s) (t : TileAt) : s₀.keepsSome (Option.map Prod.snd (s.moveReady t)) := by
  unfold State.moveReady
  split
  · exact .none
  · exact h.accessAll _ _ _ _

theorem State.keeps.leaveCheck (h : s₀.keeps s) (t : TileAt) : s₀.keeps (s.leaveCheck t) := by
  unfold State.leaveCheck
  refine .ite h ?_
  extract_lets +onlyGivenNames s1
  have hs1 : s₀.keeps s1 := .foldl (fun _ _ hu => hu.discoverBad _ _) _ h
  extract_lets +onlyGivenNames s2
  have hs2 : s₀.keeps s2 := .ite (.ite ((hs1.tileStale _).rowEvent _ _ _) (hs1.corruptTile _)) hs1
  clear_value s1 s2
  exact .ite (.ite ((hs2.repair _).rowEvent _ _ _) ((hs2.repair t.line0).still (by rfl))) hs2

theorem State.keeps.lift (h : s₀.keeps s) (line : Nat) : s₀.keeps (eitherState (s.lift line)) := by
  unfold State.lift
  split
  · exact h
  · split
    · exact h
    · split
      · exact h
      next t e =>
        have ht : s₀.keeps t := (h.moveReady _) _ (congrArg (Option.map Prod.snd) e)
        exact ht
      next t e =>
        have ht : s₀.keeps t := (h.moveReady _) _ (congrArg (Option.map Prod.snd) e)
        dsimp only [eitherState]
        exact (ht.leaveCheck _).flushTile _

theorem State.keeps.rehome (h : s₀.keeps s) (l : List (Nat × Nat × Nat)) : s₀.keeps (s.rehome l) :=
  h.still rfl

theorem State.keeps.setSet (h : s₀.keeps s) (k : Nat) (e : IntSet) : s₀.keeps (s.setSet k e) :=
  h.still rfl

theorem State.keeps.moveInSet (h : s₀.keeps s) (k : Nat) (e : IntSet) (h' : Shadow) (t : Nat) : s₀.keeps (s.moveInSet k e h' t) := by
  unfold State.moveInSet
  refine .ite h ?_
  split
  next t1 e1 =>
    have ht1 : s₀.keeps t1 := (h.lift _).of_eq (congrArg eitherState e1)
    exact ht1
  next t1 _ e1 =>
    have ht1 : s₀.keeps t1 := (h.lift _).of_eq (congrArg eitherState e1)
    extract_lets +onlyGivenNames b s1
    have hs1 : s₀.keeps s1 := ht1.copyRow _ _ _
    exact hs1.setSet _ _

theorem State.keeps.dropChan (h : s₀.keeps s) (ch : Nat) : s₀.keeps (s.dropChan ch) :=
  h.still rfl

theorem State.keeps.giveRows (h : s₀.keeps s) (chans : List Nat) (given rows : Nat) : s₀.keeps (s.giveRows chans given rows) :=
  .foldlSnd (fun _ _ hu => hu.still (by rfl)) _ h

theorem State.keeps.placeShare (h : s₀.keeps s) (ch : Nat) : s₀.keeps (s.placeShare ch) := by
  unfold State.placeShare
  extract_lets +onlyGivenNames left d r
  have hr : s₀.keeps r.2 := h.putUnits _ _
  clear_value d
  split
  · exact hr
  · extract_lets +onlyGivenNames rows s1
    have hs1 : s₀.keeps s1 := hr.scrub _
    exact (hs1.setSet _ _).giveRows _ _ _

theorem State.keeps.shareInSet (h : s₀.keeps s) (ch given : Nat) (chans : List Nat) : s₀.keeps (s.shareInSet ch given chans) :=
  .ite (h.giveRows _ _ _) (h.placeShare _)

theorem State.keeps.chanLeft (h : s₀.keeps s) (ch : Nat) : s₀.keeps (s.chanLeft ch) := by
  unfold State.chanLeft
  extract_lets +onlyGivenNames unbind s1
  have hs1 : s₀.keeps s1 := (h.dropChan _).scrub _
  exact hs1.still rfl

theorem State.keeps.retire (h : s₀.keeps s) (k : Nat) (e : IntSet) (h' : Shadow) : s₀.keeps (s.retire k e h') := by
  unfold State.retire
  extract_lets +onlyGivenNames s1
  have hs1 : s₀.keeps s1 := h.setSet _ _
  extract_lets +onlyGivenNames s2
  have hs2 : s₀.keeps s2 := hs1.scrub _
  extract_lets +onlyGivenNames s3
  have hs3 : s₀.keeps s3 := .ite (hs2.shareInSet _ _ _) hs2
  extract_lets +onlyGivenNames s4
  have hs4 : s₀.keeps s4 := hs3.chanLeft _
  exact hs4.still rfl

theorem State.keeps.commitInSet (h : s₀.keeps s) (k : Nat) (e : IntSet) (h' : Shadow) (t : Nat) : s₀.keeps (s.commitInSet k e h' t) :=
  .ite h (.ite h (.ite (((h.copyRow _ _ _).clearRow _).setSet _ _) (((h.copyRow _ _ _).clearRow _).retire _ _ _)))

theorem State.keeps.setMig (h : s₀.keeps s) (m : Migration) (m' : Option Migration) : s₀.keeps (s.setMig m m') :=
  h.still rfl

theorem State.keeps.reframe (h : s₀.keeps s) (src dst n : Nat) : s₀.keeps (s.reframe src dst n) :=
  h.still rfl

theorem State.keeps.rebase (h : s₀.keeps s) (p key src dst : Nat) : s₀.keeps (s.rebase p key src dst) := by
  unfold State.rebase
  extract_lets +onlyGivenNames r
  split
  · exact h
  · exact (h.setPart _ _).reframe _ _ _

theorem State.keeps.moveInPage (h : s₀.keeps s) (m : Migration) (p key src dst tiles : Nat) (held moved : List Nat) (t : Nat) :
    s₀.keeps (s.moveInPage m p key src dst tiles held moved t) := by
  unfold State.moveInPage
  refine .ite h ?_
  split
  next t1 e =>
    have ht1 : s₀.keeps t1 := (h.lift _).of_eq (congrArg eitherState e)
    exact ht1
  next t1 _ e =>
    have ht1 : s₀.keeps t1 := (h.lift _).of_eq (congrArg eitherState e)
    exact ht1.setMig _ _

theorem State.keeps.commitInPage (h : s₀.keeps s) (m : Migration) (p key src dst tiles : Nat) (held moved : List Nat) (t : Nat) :
    s₀.keeps (s.commitInPage m p key src dst tiles held moved t) := by
  unfold State.commitInPage
  refine .ite h ?_
  split
  · refine .ite h ?_
    extract_lets +onlyGivenNames s1
    have hs1 : s₀.keeps s1 := (h.copyRow _ _ _).rehome _
    exact .ite (hs1.setMig _ _) ((((hs1.setMig _ _).rehome _).rebase _ _ _ _).scrubRange _ _)
  · exact h

theorem State.keeps.moveBack (h : s₀.keeps s) (m : Migration) (p key dst tiles : Nat) (moved : List Nat) (t : Nat)
    (data : List (BitVec 1024)) : s₀.keeps (s.moveBack m p key dst tiles moved t data) := by
  unfold State.moveBack
  refine .ite h ?_
  split
  · exact h.setMig _ _
  · extract_lets +onlyGivenNames base lineAt
    clear_value base
    split
    · exact h.setMig _ _
    · exact .ite h (.ite ((h.putWhole _ _).setMig _ _) (((h.putWhole _ _).setMig _ _).rebase _ _ _ _))

theorem State.keeps.moreRoom (h : s₀.keeps s) (e : IntSet) : s₀.keepsSome (s.moreRoom e) := by
  unfold State.moreRoom
  extract_lets +onlyGivenNames cs
  refine .ite .none ?_
  extract_lets +onlyGivenNames s1
  have hs1 : s₀.keeps s1 := by
    unfold s1
    split
    · exact h.still rfl
    · exact h
  exact .some (hs1.addSet _ _ _ _)

theorem State.keeps.relocate (h : s₀.keeps s) (e : IntSet) (g : Nat × Nat × Nat × Nat) : s₀.keepsSome (s.relocate e g) := by
  unfold State.relocate
  extract_lets +onlyGivenNames sets go
  have hgo : ∀ u, s₀.keeps u → s₀.keepsSome (go u) := by
    intro u hu
    unfold go
    exact .mapAny fun _ => hu.still (by rfl)
  split
  next t e1 =>
    have ht : s₀.keeps t := (hgo _ h) _ e1
    exact .some ht
  · exact (h.moreRoom _).bind fun _ hu1 => hgo _ hu1

theorem State.keeps.roomFor (h : s₀.keeps s) (e : IntSet) (loss : Nat) : s₀.keepsSome (s.roomFor e loss) := by
  unfold State.roomFor
  split
  · exact .ite (.some h) (h.moreRoom _)
  · exact .some h

theorem State.keeps.shadowed (h : s₀.keeps s) (k : Nat) (e : IntSet) (ch : Nat) (chans : List Nat) (rows : Nat) :
    s₀.keeps (s.shadowed k e ch chans rows) := by
  unfold State.shadowed
  extract_lets +onlyGivenNames p s1
  have hs1 : s₀.keeps s1 := h.setSet _ _
  exact hs1.still rfl

theorem State.keeps.bringIn (h : s₀.keeps s) (ch new : Nat) : s₀.keeps (s.bringIn ch new) :=
  h.still rfl

theorem State.keeps.leaveSoon (h : s₀.keeps s) (ch : Nat) : s₀.keeps (s.leaveSoon ch) :=
  .ite h (.still (.ite h (h.placeShare ch)) (by rfl))

theorem State.keeps.clearRange (h : s₀.keeps s) (e : IntSet) (lo hi loss : Nat) (go : State → Option State) (hg : s₀.keepsSome (go s)) :
    s₀.keepsSome (s.clearRange e lo hi loss go) := by
  unfold State.clearRange
  extract_lets +onlyGivenNames pages todo
  exact .ite ((h.roomFor _ _).bind fun _ hu => .foldlM (fun _ _ hu1 => hu1.relocate _ _) _ hu) (.ite (.some h) hg)

theorem State.keeps.withShare (h : s₀.keeps s) (ch : Nat) (go : State → Option State) (hg : s₀.keepsSome (go s)) :
    s₀.keepsSome (s.withShare ch go) := by
  unfold State.withShare
  refine .ite hg ?_
  split
  · exact hg
  · exact h.clearRange _ _ _ _ _ hg

theorem State.keeps.leaveAlone (h : s₀.keeps s) (ch : Nat) (set : Option IntSet) : s₀.keepsSome (s.leaveAlone ch set) := by
  unfold State.leaveAlone
  split
  · extract_lets +onlyGivenNames s1
    have hs1 : s₀.keepsSome s1 := .ite (.some h) (.map (State.keeps.clearRange h _ _ _ _ _ (.some h)) fun _ hu => hu.still (by rfl))
    exact hs1.bind fun _ hu => State.keeps.clearRange hu _ _ _ _ _ (State.keeps.withShare hu _ _ (.some (hu.leaveSoon _)))
  · refine .ite (.bindAny fun _ => State.keeps.withShare h _ _ (.some ((h.bringIn _ _).leaveSoon _))) ?_
    exact State.keeps.withShare h _ _ (.some (h.leaveSoon _))

theorem State.keeps.leaveStep (h : s₀.keeps s) (ch : Nat) : s₀.keepsSome (s.leaveStep ch) := by
  unfold State.leaveStep
  split
  · exact h.leaveAlone _ _
  · refine .ite (.some h) ?_
    refine .ite (.bindAny fun _ => State.keeps.withShare h _ _ (.some (.shadowed (.bringIn (.ite h (h.placeShare _)) _ _) _ _ _ _ _))) ?_
    extract_lets +onlyGivenNames w size
    exact .ite (h.leaveAlone _ _) (h.clearRange _ _ _ _ _ ((h.roomFor _ _).map fun _ hu => hu.shadowed _ _ _ _ _))

theorem State.keeps.advanceMigs (h : s₀.keeps s) : s₀.keeps s.advanceMigs :=
  .foldl (fun _ _ hu => (hu.leaveStep _).getD hu) _ h

theorem State.keeps.logNoSpace (h : s₀.keeps s) (ch : Nat) : s₀.keeps (s.logNoSpace ch) :=
  h.takeFree.append rfl

theorem State.keeps.leaveNow (h : s₀.keeps s) (ch : Nat) : s₀.keeps (s.leaveNow ch) := by
  unfold State.leaveNow
  extract_lets +onlyGivenNames s1 s2
  have hs2 : s₀.keeps s2 := h.still rfl
  extract_lets +onlyGivenNames s3
  have hs3 : s₀.keeps s3 := by
    unfold s3
    split
    · exact hs2.removeSet _ _
    · exact hs2
  exact (hs3.chanLeft _).advanceMigs

theorem State.keeps.failChan (h : s₀.keeps s) (ch trigger : Nat) : s₀.keeps (s.failChan ch trigger) := by
  unfold State.failChan
  extract_lets +onlyGivenNames s1 s2
  have hs2 : s₀.keeps s2 := h.still rfl
  split
  next t e =>
    have ht : s₀.keeps t := (hs2.leaveStep _) _ e
    exact ht
  · exact hs2.logNoSpace _

theorem Kept.execDevSetMigRate (h : s₀.keeps s) (r : Req) : Kept s₀ (execDevSetMigRate r s) :=
  .serve h _ _ _ _ _ (fun _ => .done (h.still (by rfl)))

theorem State.keeps.mapFrames (p : Nat) (large rw : Bool) (n key : Nat) (h : s₀.keeps s) :
    s₀.keeps (State.mapFrames p large rw n key s).2 := by
  induction n generalizing key s with
  | zero => exact h
  | succ n ih =>
    unfold State.mapFrames
    split
    · exact h
    · exact ih _ (h.putPage _ _ _)

theorem State.keeps.hostMapped (h : s₀.keeps s) (p : Nat) : s₀.keeps (s.hostMapped p) :=
  h.setPart _ _

theorem Kept.execPageMap (h : s₀.keeps s) (r : Req) : Kept s₀ (execPageMap r s) := by
  unfold Machine.execPageMap
  refine .serve h _ _ _ _ _ ?_
  intro fs
  extract_lets +onlyGivenNames p large u size back key n region target n1 rw
  refine .bind fun _ => ?_
  refine .bind fun _ => ?_
  refine .bind fun _ => ?_
  extract_lets +onlyGivenNames d
  have hd : s₀.keeps d.2 := by
    unfold d
    split
    · exact h.mapFrames _ _ _ _ _
    · split
      · refine .foldl (fun u a hu => ?_) _ h
        split
        · exact hu.putPage _ _ _
        · exact hu
      · exact .hostMapped (.foldl (fun _ _ hu => hu.putPage _ _ _) _ h) _
  exact .done hd

theorem State.keeps.unmapPage (h : s₀.keeps s) (p key : Nat) (g : Page) : s₀.keeps (s.unmapPage p key g) := by
  unfold State.unmapPage
  extract_lets +onlyGivenNames mine s1 s2
  have hs2 : s₀.keeps s2 := h.still rfl
  extract_lets +onlyGivenNames s3
  have hs3 : s₀.keeps s3 := by
    unfold s3
    refine .foldl (fun u a hu => ?_) _ hs2
    split
    · exact hu.scrubRange _ _
    · exact hu.scrubRange _ _
    · exact hu
  extract_lets +onlyGivenNames s4
  have hs4 : s₀.keeps s4 := hs3.dropPage _ _
  split
  · extract_lets +onlyGivenNames s5
    have hs5 : s₀.keeps s5 := hs4.scrubRange _ _
    exact hs5.still rfl
  · exact hs4

theorem State.keeps.failWaits (h : s₀.keeps s) (p : Nat → Bool) : s₀.keeps (s.failWaits p) := by
  unfold State.failWaits
  refine .foldl (fun u a hu => ?_) _ h
  split
  · exact .ite ((hu.still (by rfl)).reqFail _ _ _) hu
  · exact hu

theorem State.keeps.unmapPages (h : s₀.keeps s) (p : Nat) (pages : List (Nat × Page)) : s₀.keeps (s.unmapPages p pages).2 := by
  unfold State.unmapPages
  split
  next t e =>
    have ht : s₀.keeps t := (h.recall _).of_eq (congrArg Prod.snd e)
    exact ht
  next t e =>
    have ht : s₀.keeps t := (h.recall _).of_eq (congrArg Prod.snd e)
    split
    · exact ht
    · dsimp only
      exact .foldl (fun _ _ hu => hu.unmapPage _ _ _) _ (ht.failWaits _)

theorem Kept.execPageUnmap (h : s₀.keeps s) (r : Req) : Kept s₀ (execPageUnmap r s) := by
  unfold Machine.execPageUnmap
  refine .serve h _ _ _ _ _ ?_
  intro fs
  extract_lets +onlyGivenNames p key n met pages host
  refine .bind fun _ => ?_
  extract_lets +onlyGivenNames clamped
  split
  next t e =>
    have ht : s₀.keeps t := (h.unmapPages _ _).of_eq (congrArg Prod.snd e)
    exact .ok ht
  next t e =>
    have ht : s₀.keeps t := (h.unmapPages _ _).of_eq (congrArg Prod.snd e)
    extract_lets +onlyGivenNames s1
    have hs1 : s₀.keeps s1 := .ite (ht.hostMapped _) ht
    exact .done hs1.advanceMigs

end Sys2Proof.Machine
end

section
/-! What every command keeps: pools and partitions. -/

namespace Sys2Proof.Machine

variable {s₀ s t : State}

theorem State.keeps.directWrite (h : s₀.keeps s) (line : Nat) (d : BitVec 1024) (m : BitVec 128) : s₀.keeps (s.directWrite line d m) := by
  unfold State.directWrite
  split
  · exact h
  · extract_lets +onlyGivenNames s1
    have hs1 : s₀.keeps s1 := by
      unfold s1
      split
      · exact (h.sendSnoops _ _ _).dirPut _ _
      · exact h
    extract_lets +onlyGivenNames s2
    have hs2 : s₀.keeps s2 := hs1.still rfl
    extract_lets +onlyGivenNames s3
    have hs3 : s₀.keeps s3 := by
      unfold s3
      split
      next t e =>
        have ht : s₀.keeps t := (hs2.lineWrite _ _ _ _) _ e
        exact ht
      · exact hs2.memWrite _ _ _ _ _ _
    extract_lets +onlyGivenNames s4
    have hs4 : s₀.keeps s4 := (hs3.wakeLine _).getD hs3
    exact .ite (hs4.toPeer _ _ _ _ _) hs4

theorem State.keeps.scanRecord (h : s₀.keeps s) (fails : Nat → Bool) (mirror : Nat → Option Nat) (part va : Nat) :
    s₀.keeps (s.scanRecord fails mirror part va) := by
  unfold State.scanRecord
  split
  · exact .ite h (h.directWrite _ _ _)
  · exact h

theorem State.keeps.scanWith (h : s₀.keeps s) (fails : Nat → Bool) (mirror : Nat → Option Nat) : s₀.keeps (s.scanWith fails mirror) :=
  .foldl (fun _ _ hu => .foldl (fun _ _ hu1 => hu1.scanRecord _ _ _ _) _ hu) _ h

theorem State.keeps.scanLedgers (h : s₀.keeps s) (fails : Nat → Bool) : s₀.keeps (s.scanLedgers fails) :=
  h.scanWith _ _

theorem State.keeps.failPool (h : s₀.keeps s) (n : Nat) : s₀.keeps (s.failPool n) := by
  unfold State.failPool
  split
  · exact h
  · exact (h.still (by rfl)).scanLedgers _

theorem State.keeps.loseChan (h : s₀.keeps s) (ch trigger : Nat) : s₀.keeps (s.loseChan ch trigger) := by
  unfold State.loseChan
  refine .ite ((h.still (by rfl)).event _ _) ?_
  extract_lets +onlyGivenNames group
  split
  · exact (h.event _ _).failChan _ _
  · exact .ite (((h.event _ _).failChan _ _).failPool _) ((h.event _ _).failChan _ _)

theorem Kept.execChannelTrigger (h : s₀.keeps s) (ch : Fin 256) (trigger : Fin 5) : Kept s₀ (execChannelTrigger ch trigger s) := by
  unfold Machine.execChannelTrigger
  extract_lets +onlyGivenNames c met
  exact .ite (.next h) (.next (h.loseChan _ _))

theorem Kept.execMemChannelMapOut (h : s₀.keeps s) (r : Req) : Kept s₀ (execMemChannelMapOut r s) :=
  .serve h _ _ _ _ _ (fun _ => .bind fun _ => .done (h.loseChan _ _))

theorem State.keeps.takeChans (h : s₀.keeps s) (p : Nat) (chans : List Nat) : s₀.keeps (s.takeChans p chans) := by
  unfold State.takeChans
  extract_lets +onlyGivenNames hit rest s1
  have hs1 : s₀.keeps s1 := .foldl (fun _ _ hu => hu.removeSet _ _) _ h
  exact hs1.formSets _ _ _

theorem State.keeps.formPool (h : s₀.keeps s) (p : Nat) (chans : List Nat) (groups : List (List Nat)) (coded : Bool) :
    s₀.keeps (s.formPool p chans groups coded) := by
  unfold State.formPool
  extract_lets +onlyGivenNames s1
  have hs1 : s₀.keeps s1 := h.takeChans _ _
  refine .ite ?_ (hs1.formSets _ _ _)
  clear_value s1
  refine .foldl (fun u a hu => ?_) _ hs1
  extract_lets +onlyGivenNames s2
  have hs2 : s₀.keeps s2 := hu.addSet _ _ _ _
  exact hs2.still rfl

theorem Kept.execPoolCreate (h : s₀.keeps s) (r : Req) : Kept s₀ (execPoolCreate r s) := by
  unfold Machine.execPoolCreate
  refine .serve h _ _ _ _ _ ?_
  intro fs
  extract_lets +onlyGivenNames n p twin mirror coded
  refine .bind fun _ => ?_
  refine .bind fun _ => ?_
  extract_lets +onlyGivenNames asked ok k ok1 groups ok2 base len mask pool s1
  have hs1 : s₀.keeps s1 := .ite h (h.formPool _ _ _ _)
  extract_lets +onlyGivenNames s2
  have hs2 : s₀.keeps s2 := hs1.still rfl
  extract_lets +onlyGivenNames s3
  have hs3 : s₀.keeps s3 := .ite (hs2.toPeer _ _ _ _ _) hs2
  exact .done hs3

theorem State.keeps.mapPool (p : Pool) (n key host twinFree : Nat) (h : s₀.keeps s) :
    s₀.keeps (State.mapPool p n key host twinFree s).2 := by
  induction n generalizing key host twinFree s with
  | zero => exact h
  | succ n ih =>
    unfold State.mapPool
    split
    · exact h
    · exact ih _ _ _ (h.putPage _ _ _)

theorem Kept.execPoolMap (h : s₀.keeps s) (r : Req) (twinFree : Nat) : Kept s₀ (execPoolMap r twinFree s) := by
  unfold Machine.execPoolMap
  refine .serve h _ _ _ _ _ ?_
  intro fs
  split
  · exact .error _
  · extract_lets +onlyGivenNames w
    exact .bind fun _ => .done (h.mapPool _ _ _ _ _)

theorem Kept.execPoolUnmap (h : s₀.keeps s) (r : Req) : Kept s₀ (execPoolUnmap r s) := by
  unfold Machine.execPoolUnmap
  refine .serve h _ _ _ _ _ ?_
  intro fs
  split
  · exact .error _
  · extract_lets +onlyGivenNames w
    split
    next t e =>
      have ht : s₀.keeps t := (h.unmapPages _ _).of_eq (congrArg Prod.snd e)
      exact .ok ht
    next t e =>
      have ht : s₀.keeps t := (h.unmapPages _ _).of_eq (congrArg Prod.snd e)
      exact .done ht.advanceMigs

theorem State.keeps.recallPages (h : s₀.keeps s) (p : Pool) (pages : List (Nat × Page)) : s₀.keeps (s.recallPages p pages) := by
  unfold State.recallPages
  refine .foldl (fun u a hu => ?_) _ h
  refine .ite hu ?_
  split
  · exact hu.still rfl
  · exact hu

theorem Kept.execPoolRecall (h : s₀.keeps s) (r : Req) : Kept s₀ (execPoolRecall r s) := by
  unfold Machine.execPoolRecall
  refine .serve h _ _ _ _ _ ?_
  intro fs
  split
  · exact .error _
  · extract_lets +onlyGivenNames w spilled s1
    have hs1 : s₀.keeps s1 := h.recallPages _ _
    extract_lets +onlyGivenNames busy
    exact .ok hs1

theorem Kept.execPoolLedger (h : s₀.keeps s) (r : Req) : Kept s₀ (execPoolLedger r s) := by
  unfold Machine.execPoolLedger
  refine .serve h _ _ _ _ _ ?_
  intro fs
  extract_lets +onlyGivenNames n
  split
  · exact .error _
  · extract_lets +onlyGivenNames base len
    exact .done (h.still (by rfl))

theorem Kept.execPoolStatus (h : s₀.keeps s) (r : Req) : Kept s₀ (execPoolStatus r s) :=
  .serve h _ _ _ _ _ (fun _ => h.pageAns _ _ _ _)

theorem Kept.execLedgerScan (h : s₀.keeps s) (r : Req) : Kept s₀ (execLedgerScan r s) :=
  .serve h _ _ _ _ _ (fun _ => .done (h.scanLedgers _))

theorem State.keeps.clearCounters (h : s₀.keeps s) (p : Nat) : s₀.keeps (s.clearCounters p) :=
  h.still rfl

theorem State.keeps.dropGraphs (h : s₀.keeps s) (p : Nat) : s₀.keeps (s.dropGraphs p) :=
  (h.still (by rfl)).gcVersions

theorem State.keeps.scrubPart (h : s₀.keeps s) (p : Nat) : s₀.keeps (s.scrubPart p) := by
  unfold State.scrubPart
  extract_lets +onlyGivenNames sets s1
  have hs1 : s₀.keeps s1 := .foldl (fun _ _ hu => hu.scrub _) _ h
  extract_lets +onlyGivenNames quads s2
  have hs2 : s₀.keeps s2 := .foldl (fun _ _ hu => hu.l1Invalidate _) _ hs1
  extract_lets +onlyGivenNames s3
  have hs3 : s₀.keeps s3 := .foldl (fun _ _ hu => hu.setQueue _ _) _ hs2
  exact (hs3.dropGraphs _).clearCounters _

theorem State.keeps.nextGeneration (h : s₀.keeps s) (p : Nat) : s₀.keeps (s.nextGeneration p) :=
  h.setPart _ _

theorem Kept.execPartCreate (h : s₀.keeps s) (r : Req) : Kept s₀ (execPartCreate r s) :=
  .serve h _ _ _ _ _ (fun _ => .done ((h.setPart _ _).clearCounters _))

theorem Kept.sliceChange (h : s₀.keeps s) (r : Req) (code : Nat) (add : Bool) : Kept s₀ (sliceChange r code add s) :=
  .serve h _ _ _ _ _ (fun _ => .bind fun _ => .bind fun _ => .bind fun _ => .done (h.updSlice _ _))

theorem Kept.execPartAddSlice (h : s₀.keeps s) (r : Req) : Kept s₀ (execPartAddSlice r s) :=
  .sliceChange h _ _ _

theorem Kept.execPartRemoveSlice (h : s₀.keeps s) (r : Req) : Kept s₀ (execPartRemoveSlice r s) :=
  .sliceChange h _ _ _

theorem Kept.execPartActivate (h : s₀.keeps s) (r : Req) : Kept s₀ (execPartActivate r s) := by
  unfold Machine.execPartActivate
  refine .serve h _ _ _ _ _ ?_
  intro fs
  extract_lets +onlyGivenNames p
  refine .bind fun _ => ?_
  refine .bind fun _ => ?_
  refine .bind fun _ => ?_
  extract_lets +onlyGivenNames free s'
  have hs' : s₀.keeps s' := h.formSets _ _ _
  refine .bind fun _ => ?_
  extract_lets +onlyGivenNames s1
  have hs1 : s₀.keeps s1 := .foldl (fun _ _ hu => hu.scrub _) _ hs'
  extract_lets +onlyGivenNames s2
  have hs2 : s₀.keeps s2 := hs1.nextGeneration _
  extract_lets +onlyGivenNames s3 s4
  have hs4 : s₀.keeps s4 := hs2.setPart _ _
  exact .done ((hs4.reserveSave _).clearCounters _)

theorem State.keeps.quiesce (h : s₀.keeps s) (p : Nat) : s₀.keeps (s.quiesce p) := by
  unfold State.quiesce
  extract_lets +onlyGivenNames s1 s2
  have hs2 : s₀.keeps s2 := h.setPart _ _
  exact .settleQuiesce (.foldl (fun _ _ hu => hu.drainQueue _) _ hs2) _

theorem Kept.execPartQuiesce (h : s₀.keeps s) (r : Req) : Kept s₀ (execPartQuiesce r s) :=
  .serve h _ _ _ _ _ (fun _ => .bind fun _ => .done (h.quiesce _))

theorem Kept.execPartResume (h : s₀.keeps s) (r : Req) : Kept s₀ (execPartResume r s) :=
  .serve h _ _ _ _ _ (fun _ => .bind fun _ => .bind fun _ => .done (.foldl (fun _ _ hu3 => .ite ((hu3.setQueue _ _).settleQueue _) hu3) _
      (h.setPart _ _)))

theorem State.keeps.giveUpSet (h : s₀.keeps s) (k : Nat) (e : IntSet) : s₀.keeps (s.giveUpSet k e) := by
  unfold State.giveUpSet
  extract_lets +onlyGivenNames s1
  have hs1 : s₀.keeps s1 := h.removeSet _ _
  exact hs1.still rfl

theorem State.keeps.destroyPart (h : s₀.keeps s) (p : Nat) : s₀.keeps (s.destroyPart p) := by
  unfold State.destroyPart
  extract_lets +onlyGivenNames old s1
  have hs1 : s₀.keeps s1 := h.leaveMask _
  extract_lets +onlyGivenNames s2 s3
  have hs3 : s₀.keeps s3 := hs1.still rfl
  extract_lets +onlyGivenNames pools s4
  have hs4 : s₀.keeps s4 := .foldl (fun _ _ hu => hu.failPool _) _ hs3
  extract_lets +onlyGivenNames parity freed s5
  have hs5 : s₀.keeps s5 := .ite (hs4.scrubPart _) hs4
  extract_lets +onlyGivenNames s6
  have hs6 : s₀.keeps s6 := .foldl (fun _ _ hu => hu.giveUpSet _ _) _ hs5
  extract_lets +onlyGivenNames s7
  have hs7 : s₀.keeps s7 := (hs6.dropGraphs _).clearCounters _
  extract_lets +onlyGivenNames s8 s9 s10 s11
  have hs11 : s₀.keeps s11 := hs7.still rfl
  exact hs11.setPart _ _

theorem Kept.execPartDestroy (h : s₀.keeps s) (r : Req) : Kept s₀ (execPartDestroy r s) := by
  unfold Machine.execPartDestroy
  refine .serve h _ _ _ _ _ ?_
  intro fs
  extract_lets +onlyGivenNames p
  refine .bind fun _ => ?_
  refine .bind fun _ => ?_
  split
  next t e =>
    have ht : s₀.keeps t := (h.recall _).of_eq (congrArg Prod.snd e)
    exact .ok ht
  next t e =>
    have ht : s₀.keeps t := (h.recall _).of_eq (congrArg Prod.snd e)
    exact .ite (.ok ht) (.done (((ht.failWaits _).destroyPart _).advanceMigs))

theorem Kept.execPartRebindQuads (h : s₀.keeps s) (r : Req) : Kept s₀ (execPartRebindQuads r s) :=
  .serve h _ _ _ _ _ (fun _ => .bind fun _ => .bind fun _ => .bind fun _ => .bind fun _ => .done
      (.ite (h.setPart _ _) ((h.setPart _ _).boundary _)))

theorem Kept.execPartRebindChannels (h : s₀.keeps s) (r : Req) : Kept s₀ (execPartRebindChannels r s) := by
  unfold Machine.execPartRebindChannels
  refine .serve h _ _ _ _ _ ?_
  intro fs
  extract_lets +onlyGivenNames p k
  refine .bind fun _ => ?_
  refine .bind fun _ => ?_
  refine .bind fun _ => ?_
  extract_lets +onlyGivenNames add rem s1
  have hs1 : s₀.keeps s1 := h.updSlice _ _
  extract_lets +onlyGivenNames s2
  have hs2 : s₀.keeps s2 := hs1.formSets _ _ _
  extract_lets +onlyGivenNames out s3 s4
  have hs4 : s₀.keeps s4 := hs2.still rfl
  extract_lets +onlyGivenNames s5
  have hs5 : s₀.keeps s5 := .foldl (fun _ _ hu => hu.dropChan _) _ hs4
  exact .done hs5.advanceMigs

theorem State.keeps.takeAttributes (h : s₀.keeps s) (p contexts : Nat) (whole conf : Bool) (spill : Nat) (ks : List Nat) :
    s₀.keeps (s.takeAttributes p contexts whole conf spill ks) := by
  unfold State.takeAttributes
  extract_lets +onlyGivenNames secret s1
  have hs1 : s₀.keeps s1 := .ite (h.leaveMask _) h
  extract_lets +onlyGivenNames s2
  have hs2 : s₀.keeps s2 := hs1.still rfl
  extract_lets +onlyGivenNames s3
  have hs3 : s₀.keeps s3 := .foldl (fun _ _ hu => hu.updSlice _ _) _ hs2
  extract_lets +onlyGivenNames s4
  have hs4 : s₀.keeps s4 := .ite (hs3.scrubPart _) hs3
  extract_lets +onlyGivenNames s5 s6 s7
  have hs7 : s₀.keeps s7 := .ite (hs4.still (by rfl)) hs4
  extract_lets +onlyGivenNames s8 s9
  have hs9 : s₀.keeps s9 := hs7.setPart _ _
  exact hs9.still rfl

theorem Kept.execPartReconfigure (h : s₀.keeps s) (r : Req) : Kept s₀ (execPartReconfigure r s) := by
  unfold Machine.execPartReconfigure
  refine .serveList h _ _ _ _ _ _ ?_
  intro fs xs
  extract_lets +onlyGivenNames p
  refine .bind fun _ => ?_
  refine .bind fun _ => ?_
  refine .bind fun _ => ?_
  extract_lets +onlyGivenNames c whole conf chans quads
  refine .bind fun _ => ?_
  extract_lets +onlyGivenNames clamped
  split
  next t e =>
    have ht : s₀.keeps t := (h.recall _).of_eq (congrArg Prod.snd e)
    exact .ok ht
  next t e =>
    have ht : s₀.keeps t := (h.recall _).of_eq (congrArg Prod.snd e)
    exact .done (ht.takeAttributes _ _ _ _ _ _)

theorem State.keeps.bufferTiles (h : s₀.keeps s) (out : Bool) (tiles : List Nat) : s₀.keeps (s.bufferTiles out tiles) := by
  unfold State.bufferTiles
  refine .foldl (fun u a hu => ?_) _ h
  split
  · exact hu
  · exact .ite hu (.ite (hu.copyRow _ _ _) ((hu.copyRow _ _ _).clearRow _))

theorem State.keeps.placePages (h : s₀.keeps s) (p : Nat) (gs : List (Nat × Page × Nat)) : s₀.keeps (s.placePages p gs).1 := by
  induction gs generalizing s with
  | nil => exact h
  | cons g gs ih =>
    unfold State.placePages
    split
    · exact ih h
    · exact ih (h.putPage _ _ _)

theorem State.keeps.reseal (h : s₀.keeps s) (p : Nat) : s₀.keeps (s.reseal p) :=
  h.still rfl

theorem State.keeps.rekey (h : s₀.keeps s) (p : Nat) : s₀.keepsSome (s.rekey p) := by
  unfold State.rekey
  extract_lets +onlyGivenNames plain inside busy
  refine .ite .none ?_
  extract_lets +onlyGivenNames pages pages1 tiles s1
  have hs1 : s₀.keeps s1 := by
    unfold s1
    refine .foldl (fun u a hu => ?_) _ h
    split
    · exact (hu.leaveCheck _).flushTile _
    · exact hu
  extract_lets +onlyGivenNames s2
  have hs2 : s₀.keeps s2 := (hs1.bufferTiles _ _).nextGeneration _
  extract_lets +onlyGivenNames s3
  have hs3 : s₀.keeps s3 := hs2.reseal _
  extract_lets +onlyGivenNames s4
  have hs4 : s₀.keeps s4 := .foldl (fun _ _ hu => hu.putPage _ _ _) _ hs3
  extract_lets +onlyGivenNames s5
  have hs5 : s₀.keeps s5 := .foldl (fun _ _ hu => hu.giveUpSet _ _) _ hs4
  extract_lets +onlyGivenNames free s6
  have hs6 : s₀.keeps s6 := hs5.formSets _ _ _
  extract_lets +onlyGivenNames r
  have hr : s₀.keeps r.1 := hs6.placePages _ _
  extract_lets +onlyGivenNames s7
  have hs7 : s₀.keeps s7 := hr.bufferTiles _ _
  extract_lets +onlyGivenNames s8
  have hs8 : s₀.keeps s8 := hs7.rehome _
  extract_lets +onlyGivenNames s9 s10
  have hs10 : s₀.keeps s10 := hs8.setPart _ _
  exact .some (((hs10.reserveSave _).clearCounters _).advanceMigs)

theorem Kept.execPartStatus (h : s₀.keeps s) (r : Req) : Kept s₀ (execPartStatus r s) :=
  .serve h _ _ _ _ _ (fun _ => h.pageAns _ _ _ _)

theorem State.keeps.killPart (h : s₀.keeps s) (p : Nat) : s₀.keeps (s.killPart p) := by
  unfold State.killPart
  refine .foldl (fun u a hu => ?_) _ h
  extract_lets +onlyGivenNames s1
  have hs1 : s₀.keeps s1 := by
    unfold s1
    split
    · exact hu.stopCmd _ _ _
    · exact hu
  extract_lets +onlyGivenNames ts s2
  have hs2 : s₀.keeps s2 := by
    unfold s2
    split
    · exact .ite (hs1.setCmd _ _) hs1
    · exact hs1
  extract_lets +onlyGivenNames s3
  have hs3 : s₀.keeps s3 := by
    unfold s3
    refine .foldl (fun u1 a1 hu1 => ?_) _ hs2
    extract_lets +onlyGivenNames s4
    have hs4 : s₀.keeps s4 := .foldl (fun _ _ hu2 => hu2.killBlock _ _) _ hu1
    split
    · exact hs4.setTask _ _
    · exact hs4
  exact hs3.settleStep _

theorem State.keeps.recallWhere (h : s₀.keeps s) (b : Bool) (p : Nat → Bool) : s₀.keeps (if b then s.recall p else (true, s)).2 := by
  split
  · exact h.recall _
  · exact h

theorem Kept.execSecPartEvict (h : s₀.keeps s) (r : Req) : Kept s₀ (execSecPartEvict r s) := by
  refine .serve h _ _ _ _ _ fun fs => ?_
  extract_lets +onlyGivenNames p
  refine .bind fun _ => .bind fun _ => ?_
  extract_lets +onlyGivenNames s1 s2 s3
  have hs3 : s₀.keeps s3 := ((State.keeps.foldl (fun _ _ hu => hu.drainQueue _) _ (h.leaveMask _)).killPart _).endRebind _
  clear_value s3
  split
  next t e =>
    have ht : s₀.keeps t := (hs3.recallWhere _ _).of_eq (congrArg Prod.snd e)
    exact .ok ht
  next t e =>
    have ht : s₀.keeps t := (hs3.recallWhere _ _).of_eq (congrArg Prod.snd e)
    exact .ite (.ok ht) (.ok (State.keeps.setPart (.ite ((ht.scrubPart _).nextGeneration _) ht) _ _))

end Sys2Proof.Machine
end

section
/-! What every command keeps: twins, functions and clocks. -/

namespace Sys2Proof.Machine

variable {s₀ s t : State}

theorem State.keeps.dropWaiters (h : s₀.keeps s) (d : Nat) : s₀.keeps (s.dropWaiters d) := by
  unfold State.dropWaiters
  extract_lets +onlyGivenNames gone ids s1
  have hs1 : s₀.keeps s1 := h.still rfl
  exact .wakeAfter (.foldl (fun _ _ hu => hu.endReq _ _) _ hs1) _

theorem State.keeps.dropAgent (h : s₀.keeps s) (agent : Nat) : s₀.keeps (s.dropAgent agent) := by
  unfold State.dropAgent
  extract_lets +onlyGivenNames bit lines s1
  have hs1 : s₀.keeps s1 := h.still rfl
  extract_lets +onlyGivenNames s2
  have hs2 : s₀.keeps s2 := by
    unfold s2
    refine .foldl (fun u a hu => ?_) _ hs1
    split
    · exact .ite hu (hu.dirPut _ _)
    · exact hu
  exact .foldl (fun _ _ hu => hu.closeTxn _) _ hs2

theorem State.keeps.dropSessions (h : s₀.keeps s) (d : Nat) : s₀.keeps (s.dropSessions d) :=
  h.still rfl

theorem State.keeps.dropRequests (h : s₀.keeps s) (d : Nat) : s₀.keeps (s.dropRequests d) := by
  unfold State.dropRequests
  refine .foldl (fun u a hu => ?_) _ h
  split
  · exact .ite (hu.reqFail _ _ _) hu
  · exact hu

theorem State.keeps.loseDevice (h : s₀.keeps s) (d : Nat) : s₀.keeps (s.loseDevice d) := by
  unfold State.loseDevice
  extract_lets +onlyGivenNames s1 s2
  have hs2 : s₀.keeps s2 := h.still rfl
  exact (((hs2.dropRequests _).dropWaiters _).dropAgent _).dropSessions _

theorem Kept.execPeerLost (h : s₀.keeps s) (dest : Fin 8) : Kept s₀ (execPeerLost dest s) := by
  unfold Machine.execPeerLost
  extract_lets +onlyGivenNames d
  exact .ite (.next h) (.next ((h.loseDevice _).event _ _))

theorem Kept.keeps_nextOf (s : State) {o : Out} (ho : Kept s₀ o) : s₀.keeps (nextOf s o) := by
  obtain ⟨t, rfl, ht⟩ := ho
  exact ht

theorem State.keeps.settleMirror (h : s₀.keeps s) (held : Bool) (id : Nat) (q : MemReq) : s₀.keeps (s.settleMirror held id q) := by
  unfold State.settleMirror
  split
  · exact h
  · exact h
  · exact h
  · exact h
  · exact .ite (Kept.keeps_nextOf _ (.execCmp h _)) h
  · exact h
  · exact .ite ((h.stageReq _ _ _).advance _) h
  · split
    · split
      · extract_lets +onlyGivenNames d s1 n lines s2
        have hs1 : s₀.keeps s1 := h.endReq _ _
        have hs2 : s₀.keeps s2 := (hs1.fullWrite _ _ _).getD hs1
        exact .foldl (fun _ _ hu => (hu.wakeLine _).getD hu) _ hs2
      · exact h.endReq _ _
      · exact (h.stageReq _ _ _).advance _
    · exact h
  · exact h

theorem State.keeps.releaseStale (h : s₀.keeps s) : s₀.keeps s.releaseStale := by
  unfold State.releaseStale
  refine .foldl (fun u a hu => ?_) _ h
  split
  · extract_lets +onlyGivenNames line
    split
    · exact .ite (hu.releaseTile _ _) hu
    · exact hu
  · exact hu

theorem State.keeps.failover (h : s₀.keeps s) (mirrors : BitVec 64) : s₀.keeps (s.failover mirrors) := by
  unfold State.failover
  extract_lets +onlyGivenNames d mine s1
  have hs1 : s₀.keeps s1 := h.event _ _
  extract_lets +onlyGivenNames s2 s3 s4
  have hs4 : s₀.keeps s4 := hs1.still rfl
  extract_lets +onlyGivenNames s5
  have hs5 : s₀.keeps s5 := by
    unfold s5
    refine .foldl (fun u a hu => ?_) _ hs4
    split
    · exact hu.settleMirror _ _ _
    · exact hu
  extract_lets +onlyGivenNames s6
  have hs6 : s₀.keeps s6 := (hs5.loseDevice _).releaseStale
  exact hs6.scanLedgers _

theorem Kept.execTwinAliveInLow (h : s₀.keeps s) : Kept s₀ (execTwinAliveInLow s) :=
  .next (h.still (by rfl))

theorem Kept.execTwinAliveInHigh (h : s₀.keeps s) : Kept s₀ (execTwinAliveInHigh s) :=
  .next (h.still (by rfl))

theorem Kept.execTwinAliveTimeout (h : s₀.keeps s) (reserved : BitVec 64) : Kept s₀ (execTwinAliveTimeout reserved s) :=
  .ite (.next h) (.next (h.failover _))

theorem Kept.execTrunkSevered (h : s₀.keeps s) : Kept s₀ (execTrunkSevered s) :=
  .ite (.next h) (.next ((h.still (by rfl)).event _ _))

theorem Kept.execTwinForceSolo (h : s₀.keeps s) (r : Req) (reserved : BitVec 64) : Kept s₀ (execTwinForceSolo r reserved s) :=
  .serve h _ _ _ _ _ (fun _ => .bind fun _ => .done (h.failover _))

theorem Kept.servePairs (h : s₀.keeps s) (r : Req) (code : Nat) (after : List Nat) (perm : State → List (Nat × Nat) → Bool)
    (body : List (Nat × Nat) × Bool → List Nat → State → Serve) (hb : ∀ ps fs, s₀.keepsAns (body ps fs s)) :
    Kept s₀ (servePairs r code after perm body s) := by
  unfold Machine.servePairs
  extract_lets +onlyGivenNames n
  exact .serve h _ _ _ _ _ fun _ => hb _ _

theorem State.keeps.withPairs (h : s₀.keeps s) (l : List (Nat × Nat)) : s₀.keeps (s.withPairs l) :=
  h.still rfl

theorem State.keeps.twinBack (h : s₀.keeps s) : s₀.keeps s.twinBack :=
  h.still rfl

theorem Kept.execTwinPair (h : s₀.keeps s) (r : Req) : Kept s₀ (execTwinPair r s) := by
  unfold Machine.execTwinPair
  refine .servePairs h _ _ _ _ _ ?_
  intro ps fs
  exact .bind fun _ => .done ((((h.withPairs ps.1).twinBack).toPeer s.twinNum 0 LbxKind.pairing _ []).still (by rfl))

theorem Kept.execTwinStatus (h : s₀.keeps s) (r : Req) : Kept s₀ (execTwinStatus r s) :=
  .serve h _ _ _ _ _ (fun _ => h.pageAns _ _ _ _)

theorem State.keeps.beginDetach (h : s₀.keeps s) : s₀.keeps s.beginDetach := by
  unfold State.beginDetach
  extract_lets +onlyGivenNames s1
  have hs1 : s₀.keeps s1 := .foldl (fun _ _ hu => .ite (hu.quiesce _) hu) _ h
  exact .foldl (fun _ _ hu => .ite hu (hu.still (by rfl))) _ hs1

theorem State.keeps.setNamed (h : s₀.keeps s) (from_ to_ : PartState) : s₀.keeps (s.setNamed from_ to_) :=
  .foldl (fun _ _ hu => .ite (hu.setPart _ _) hu) _ h

theorem Kept.execTwinDetach (h : s₀.keeps s) (r : Req) (lacks : Bool) : Kept s₀ (execTwinDetach r lacks s) := by
  unfold Machine.execTwinDetach
  refine .serveList h _ _ _ _ _ _ ?_
  intro fs xs
  extract_lets +onlyGivenNames ps
  refine .bind fun _ => ?_
  extract_lets +onlyGivenNames s1 s2
  have hs2 : s₀.keeps s2 := .ite (h.still (by rfl)).beginDetach h
  exact .ite (.ok hs2) (.done ((hs2.setNamed PartState.quiesced PartState.detached).still (by rfl)))

theorem State.keeps.takeBack (h : s₀.keeps s) : s₀.keeps s.takeBack :=
  (h.setNamed _ _).scanWith _ _

theorem Kept.execTwinAttach (h : s₀.keeps s) (r : Req) : Kept s₀ (execTwinAttach r s) := by
  unfold Machine.execTwinAttach
  refine .servePairs h _ _ _ _ _ ?_
  intro ps fs
  extract_lets +onlyGivenNames clamped
  refine .ite (.bind fun _ => .ite (.ok h) (.ite (.done (((h.withPairs ps.1).twinBack).still (by rfl)))
      (.ok (((h.withPairs ps.1).twinBack).still (by rfl))))) ?_
  exact .ite (.ok h) (.ite (.ok h) (.done (.still (.ite h.takeBack h) (by rfl))))

theorem Kept.execAttachChunk (h : s₀.keeps s) : Kept s₀ (execAttachChunk s) := by
  unfold Machine.execAttachChunk
  split
  · extract_lets +onlyGivenNames chunks back before now stale busy
    refine .ite (.next h) ?_
    extract_lets +onlyGivenNames s1
    have hs1 : s₀.keeps s1 := .ite (.foldl (fun _ _ hu => (hu.dropTile _).tileStale _) _ h) h
    exact .ite (.next (hs1.still (by rfl))) (.ite (.next (hs1.still (by rfl)))
        (.next (.ite (hs1.still (by rfl)).beginDetach (hs1.still (by rfl)))))
  · exact .next h

theorem Kept.execVfBind (h : s₀.keeps s) (r : Req) : Kept s₀ (execVfBind r s) :=
  .serve h _ _ _ _ _ (fun _ => .bind fun _ => .bind fun _ => .done (h.setFn _ _))

theorem Kept.execVfUnbind (h : s₀.keeps s) (r : Req) : Kept s₀ (execVfUnbind r s) := by
  refine .serve h _ _ _ _ _ fun fs => ?_
  extract_lets +onlyGivenNames f
  refine .ite (.error _) ?_
  split
  · exact .error _
  · extract_lets +onlyGivenNames secret
    refine .bind fun _ => .bind fun _ => ?_
    split
    next t e =>
      have ht : s₀.keeps t := (h.recallWhere _ _).of_eq (congrArg Prod.snd e)
      exact .ok ht
    next t e =>
      have ht : s₀.keeps t := (h.recallWhere _ _).of_eq (congrArg Prod.snd e)
      exact .done (State.keeps.setFn (.ite ((ht.scrubPart _).nextGeneration _) ht) _ _)

theorem Kept.execVfStatus (h : s₀.keeps s) (r : Req) : Kept s₀ (execVfStatus r s) :=
  .serve h _ _ _ _ _ (fun _ => h.pageAns _ _ _ _)

theorem Kept.execTumblerAllow (h : s₀.keeps s) (r : Req) : Kept s₀ (execTumblerAllow r s) :=
  .serve h _ _ _ _ _ (fun _ => .done (h.setFn _ _))

theorem Kept.execTumblerRevoke (h : s₀.keeps s) (r : Req) : Kept s₀ (execTumblerRevoke r s) :=
  .serve h _ _ _ _ _ (fun _ => .done (h.setFn _ _))

theorem Kept.execTumblerReadReject (h : s₀.keeps s) (fn : Fin 64) (rid : BitVec 16) : Kept s₀ (execTumblerReadReject fn rid s) :=
  .ite (.next h) (.next ((h.tumblerDrop _ _ _).event _ _))

theorem Kept.execHdmDecoderCommit (h : s₀.keeps s) (base size : Nat) : Kept s₀ (execHdmDecoderCommit base size s) := by
  unfold Machine.execHdmDecoderCommit
  extract_lets +onlyGivenNames ok
  exact .ite (.next h) (.next (h.still (by rfl)))

theorem Kept.execHostWindowMap (h : s₀.keeps s) (r : Req) : Kept s₀ (execHostWindowMap r s) :=
  .serve h _ _ _ _ _ (fun _ => .bind fun _ => .bind fun _ => .done (h.still (by rfl)))

theorem State.keeps.recallHost (h : s₀.keeps s) (p : Nat → Bool) : s₀.keeps (s.recallHost p).2 := by
  unfold State.recallHost
  dsimp only
  exact .foldl (fun _ _ hu => .ite hu (hu.openTxn _ _ _ _)) _ h

theorem Kept.execHostWindowUnmap (h : s₀.keeps s) (r : Req) : Kept s₀ (execHostWindowUnmap r s) := by
  unfold Machine.execHostWindowUnmap
  refine .serve h _ _ _ _ _ ?_
  intro fs
  extract_lets +onlyGivenNames w mine frames
  split
  next t e =>
    have ht : s₀.keeps t := (h.recallHost _).of_eq (congrArg Prod.snd e)
    exact .ok ht
  next t e =>
    have ht : s₀.keeps t := (h.recallHost _).of_eq (congrArg Prod.snd e)
    exact .done (ht.still (by rfl))

theorem Kept.execDirtyLogStart (h : s₀.keeps s) (r : Req) : Kept s₀ (execDirtyLogStart r s) :=
  .serve h _ _ _ _ _ (fun _ => .bind fun _ => .bind fun _ => .done (h.setFn _ _))

theorem Kept.logChange (h : s₀.keeps s) (r : Req) (code : Nat) (f : DirtyLog → Option DirtyLog) : Kept s₀ (logChange r code f s) := by
  unfold Machine.logChange
  refine .serve h _ _ _ _ _ ?_
  intro fs
  extract_lets +onlyGivenNames v
  refine .ite (.error _) ?_
  split
  · exact .error _
  · exact .done (h.setFn _ _)

theorem Kept.execDirtyLogSwap (h : s₀.keeps s) (r : Req) : Kept s₀ (execDirtyLogSwap r s) :=
  .logChange h _ _ _

theorem Kept.execDirtyLogStop (h : s₀.keeps s) (r : Req) : Kept s₀ (execDirtyLogStop r s) :=
  .logChange h _ _ _

theorem Kept.execVfEnableWrite (h : s₀.keeps s) (on : Bool) : Kept s₀ (execVfEnableWrite on s) :=
  .ite (.next h) (.next (h.still (by rfl)))

theorem State.keeps.flrContext (h : s₀.keeps s) (p ctx : Nat) : s₀.keeps (s.flrContext p ctx) := by
  unfold State.flrContext
  extract_lets +onlyGivenNames s1
  have hs1 : s₀.keeps s1 := .foldl (fun _ _ hu => .ite hu (hu.setQueue _ _)) _ h
  extract_lets +onlyGivenNames s2
  have hs2 : s₀.keeps s2 := hs1.still rfl
  exact .foldl (fun _ _ hu => hu.stopCmd _ _ _) _ hs2

theorem Kept.execFlr (h : s₀.keeps s) (fn : Fin 64) : Kept s₀ (execFlr fn s) := by
  unfold Machine.execFlr
  extract_lets +onlyGivenNames v
  refine .ite (.next h) ?_
  extract_lets +onlyGivenNames s1 s2
  have hs2 : s₀.keeps s2 := h.setFn _ _
  refine .next ?_
  split
  · exact hs2.flrContext _ _
  · exact hs2

theorem State.keeps.flrAll (h : s₀.keeps s) : s₀.keeps s.flrAll := by
  unfold State.flrAll
  extract_lets +onlyGivenNames s1 s2
  have hs2 : s₀.keeps s2 := h.still rfl
  extract_lets +onlyGivenNames s3 s4
  have hs4 : s₀.keeps s4 := hs2.setFn _ _
  exact .foldl (fun _ _ hu => hu.flrContext _ _) _ hs4

theorem Kept.execPfFlr (h : s₀.keeps s) : Kept s₀ (execPfFlr s) :=
  .ite (.next h) (.next h.flrAll)

theorem Kept.execFlrComplete (h : s₀.keeps s) (fn : Fin 64) : Kept s₀ (execFlrComplete fn s) := by
  unfold Machine.execFlrComplete
  extract_lets +onlyGivenNames v here
  refine .ite (.next h) ?_
  extract_lets +onlyGivenNames s1
  have hs1 : s₀.keeps s1 := h.setFn _ _
  extract_lets +onlyGivenNames s2
  have hs2 : s₀.keeps s2 := hs1.still rfl
  exact .next (.foldl (fun _ _ hu => hu.settleQuiesce _) _ hs2)

theorem State.keeps.dropHostRequests (h : s₀.keeps s) : s₀.keeps s.dropHostRequests := by
  unfold State.dropHostRequests
  extract_lets +onlyGivenNames hosted s1
  have hs1 : s₀.keeps s1 := h.still rfl
  refine .foldl (fun u a hu => ?_) _ hs1
  split
  · exact hu
  · split
    · split
      · exact hu.endReq _ _
      · exact hu
    · refine .ite ?_ hu
      split
      · exact hu
      · exact hu.reqFail _ _ _

theorem State.keeps.linkDown (h : s₀.keeps s) : s₀.keeps s.linkDown := by
  unfold State.linkDown
  extract_lets +onlyGivenNames s1
  have hs1 : s₀.keeps s1 := .ite h h.flrAll
  extract_lets +onlyGivenNames s2
  have hs2 : s₀.keeps s2 := hs1.dropHostRequests.dropHostLines.dropAgent _
  exact (hs2.still (by rfl)).event _ _

theorem Kept.execHostLinkDown (h : s₀.keeps s) : Kept s₀ (execHostLinkDown s) :=
  .ite (.next h) (.next h.linkDown)

theorem Kept.execHostLinkUp (h : s₀.keeps s) : Kept s₀ (execHostLinkUp s) :=
  .ite (.next h) (.next (h.still (by rfl)))

theorem Kept.execIdeInsecure (h : s₀.keeps s) (stream : Fin 2) : Kept s₀ (execIdeInsecure stream s) := by
  unfold Machine.execIdeInsecure
  extract_lets +onlyGivenNames was
  exact .ite (.next h) (.next h.linkDown)

theorem Kept.execIdeSecure (h : s₀.keeps s) : Kept s₀ (execIdeSecure s) :=
  .ite (.next h) (.next (h.still (by rfl)))

theorem State.keeps.setPll (h : s₀.keeps s) (site : Nat) (p : Pll) : s₀.keeps (s.setPll site p) :=
  h.still rfl

theorem State.keeps.clockDown (h : s₀.keeps s) : s₀.keeps s.clockDown := by
  unfold State.clockDown
  extract_lets +onlyGivenNames s1
  have hs1 : s₀.keeps s1 := h.event _ _
  exact .ite hs1.linkDown hs1

theorem Kept.execReferenceLost (h : s₀.keeps s) (host : Bool) : Kept s₀ (execReferenceLost host s) := by
  unfold Machine.execReferenceLost
  extract_lets +onlyGivenNames had
  refine .ite (.next h) ?_
  extract_lets +onlyGivenNames s1 s2
  have hs2 : s₀.keeps s2 := h.still rfl
  refine .ite (.next (.fatalError (.event (.foldl (fun _ _ hu => hu.setPll _ _) _ hs2) _ _) _ _)) ?_
  exact .ite (.next ((hs2.setPll _ _).failStart _)) (.next ((hs2.setPll _ _).clockDown))

theorem Kept.execForwardedPairLost (h : s₀.keeps s) (pair : Fin 2) : Kept s₀ (execForwardedPairLost pair s) :=
  .ite (.next h) (.next ((h.still (by rfl)).event _ _))

theorem Kept.execPllLockLost (h : s₀.keeps s) (site : Fin 32) : Kept s₀ (execPllLockLost site s) :=
  .ite (.next h) (.next (h.setPll _ _))

theorem State.keeps.retrainSite (h : s₀.keeps s) (site : Nat) : s₀.keeps (s.retrainSite site) :=
  .ite (.foldl (fun _ _ hu => .ite (hu.setPort _ _) hu) _ h) (.ite (h.stepLeaf _ _) h)

theorem State.keeps.relockFailed (h : s₀.keeps s) (site : Nat) : s₀.keeps (s.relockFailed site) := by
  unfold State.relockFailed
  refine .ite h.clockDown ?_
  refine .ite (.foldl (fun _ _ hu => hu.setPort _ _) _ (h.event _ _)) ?_
  exact .ite ((h.event _ _).fatalError _ _) (.ite ((h.event _ _).stepLeaf _ _) h)

theorem Kept.execPllRelockEnd (h : s₀.keeps s) (site : Fin 32) (ok : Bool) : Kept s₀ (execPllRelockEnd site ok s) :=
  .ite (.next h) (.ite (.next (((h.setPll _ _).event _ _).retrainSite _)) (.next ((h.setPll _ _).relockFailed _)))

end Sys2Proof.Machine
end

section
/-! What every command keeps: the copy engines, divergence, moves of tiles and registers. -/

namespace Sys2Proof.Machine

variable {s₀ s t : State}

theorem Kept.startCopy (h : s₀.keeps s) (id op : Nat) : Kept s₀ (startCopy id op s) :=
  .starts h _ _ _ (fun _ => .ite (h.cmdDone _ _ _) (h.setCmd _ _))

theorem Kept.execCopy (h : s₀.keeps s) (id : Nat) : Kept s₀ (execCopy id s) :=
  .startCopy h _ _

theorem Kept.execFill (h : s₀.keeps s) (id : Nat) : Kept s₀ (execFill id s) :=
  .startCopy h _ _

theorem State.keeps.pieceNow (h : s₀.keeps s) (id va : Nat) : s₀.keeps (s.pieceNow id va).state := by
  unfold State.pieceNow
  split
  · exact h
  · split
    · exact h
    · split
      · exact h
      · exact h
    · exact h

theorem State.keeps.pieceDev (h : s₀.keeps s) (id : Nat) (c : Cmd) (va n0 : Nat) : s₀.keeps (s.pieceDev id c va n0) := by
  unfold State.pieceDev
  extract_lets +onlyGivenNames r
  have hr : s₀.keeps r.1 := (h.still (by rfl)).tileRead _ _ _
  split
  · exact hr.copyMeets _ _ _
  · exact hr

theorem State.keeps.pieceHost (h : s₀.keeps s) (id : Nat) (c : Cmd) (va n : Nat) : s₀.keeps (s.pieceHost id c va n).state := by
  unfold State.pieceHost
  split
  · exact h
  · dsimp only
    split
    · exact .setCmd (.foldl (fun _ _ hu => (hu.addReq _).advance _) _ h) _ _
    · exact .setCmd (.foldl (fun _ _ hu => (hu.addReq _).advance _) _ h) _ _

theorem State.keeps.piece (h : s₀.keeps s) (id : Nat) (c : Cmd) (va : Nat) : s₀.keeps (s.piece id c va).state := by
  unfold State.piece
  split
  next t e =>
    have ht : s₀.keeps t := (h.pieceNow _ _).of_eq (congrArg Piece.state e)
    split
    · exact ht
    · split
      · exact ht
      · split
        · exact ht
        · exact (ht.pieceDev _ _ _ _).pieceNow _ _
        · exact ht.pieceHost _ _ _ _
        · split
          · exact ht
          · split
            · exact ht
            · split
              · exact ht
              next t1 _ e1 =>
                have ht1 : s₀.keeps t1 := (ht.cross _) _ (congrArg (Option.map Prod.fst) e1)
                dsimp only
                exact (ht1.addReq _).toPeer _ _ _ _ _
  · exact h.pieceNow _ _

theorem State.keeps.gather (h : s₀.keeps s) (id : Nat) (c : Cmd) (ps : List (Nat × Nat × Nat)) (acc : List Byte) :
    s₀.keeps (s.gather id c ps acc).state := by
  induction ps generalizing s c acc with
  | nil => exact h
  | cons p ps ih =>
    unfold State.gather
    split
    next t b e => exact ih ((h.piece _ _ _).of_eq (congrArg Piece.state e)) _ _
    next t e => exact (h.piece _ _ _).of_eq (congrArg Piece.state e)
    next t st e =>
      have ht : s₀.keeps t := (h.piece _ _ _).of_eq (congrArg Piece.state e)
      split
      · exact ht
      · exact ht

theorem State.keeps.writePart (h : s₀.keeps s) (n off : Nat) (b : List Byte) (w : WritePath) : s₀.keepsSome (s.writePart n off b w) := by
  unfold State.writePart
  extract_lets +onlyGivenNames lines whole data mask
  clear_value lines
  split
  · exact h.lineWrite _ _ _ _
  · refine .bind (h.beginWrite _) fun u hu => ?_
    exact .bind (.foldlM (fun _ _ hu1 => .ite (hu1.openLine _ _ _) (hu1.lineWrite _ _ _ _)) _ hu) fun _ hu1 => .some (hu1.endWrite _)

theorem State.keeps.sendLines (h : s₀.keeps s) (id : Nat) (c : Cmd) (dst : Nat) (b : List Byte) : s₀.keeps (s.sendLines id c dst b) := by
  unfold State.sendLines
  refine .foldl (fun u a hu => ?_) _ h
  extract_lets +onlyGivenNames l from_ n
  split
  · exact hu.addReq _
  · exact hu

theorem State.keeps.writeChunk (h : s₀.keeps s) (id : Nat) (c : Cmd) (dst : Nat) (a : Home) (b : List Byte) :
    s₀.keepsSome (Option.map Prod.snd (s.writeChunk id c dst a b)) := by
  unfold State.writeChunk
  split
  · dsimp only
    split
    · exact .none
    · split
      · exact .none
      · split
        · exact .none
        next t e =>
          have ht : s₀.keeps t := ((h.tssMeet _).accessAll _ _ _ _) _ (congrArg (Option.map Prod.snd) e)
          exact .some ht
        next t e =>
          have ht : s₀.keeps t := ((h.tssMeet _).accessAll _ _ _ _) _ (congrArg (Option.map Prod.snd) e)
          split
          · split
            · exact .none
            · exact .some ((ht.addReq _).toPeer _ _ _ _ _)
          · refine .mapMap (.mapBind (.bind ?_ fun u hu => .map (.foldlM (fun _ _ hv => hv.wakeLine _) _ hu) fun _ hv => hv.retryTxns))
            exact .bind (.foldlM (fun _ _ hv => hv.cross _) _ (.foldl (fun _ _ hv => hv.countLookup _ _ _ _) _ ht))
              fun _ hv => hv.writePart _ _ _ _
  · exact .some (h.sendLines _ _ _ _)
  · split
    · exact .none
    · dsimp only
      split
      · rw [Option.map_map]
        exact .mapFst (h.cross _) fun r hr => (hr.addReq _).toPeer _ _ _ _ _
      · exact .some (h.sendLines _ _ _ _)

theorem State.keeps.chunkDone (h : s₀.keeps s) (id : Nat) (c : Cmd) (n : Nat) : s₀.keeps (s.chunkDone id c n) := by
  unfold State.chunkDone
  extract_lets +onlyGivenNames moved last s1 s2
  have hs2 : s₀.keeps s2 := .ite (.foldl (fun _ _ hu => hu.addReq _) _ h) h
  extract_lets +onlyGivenNames c1 s3
  have hs3 : s₀.keeps s3 := hs2.setCmd _ _
  exact .ite (hs3.cmdDone _ _ _) hs3

/-- The bytes of a piece come of the pattern of a FILL, or are gathered. -/
theorem State.keeps.copySource (h : s₀.keeps s) (id : Nat) (c : Cmd) (ps : List (Nat × Nat × Nat)) (p : Prop) [Decidable p] (b : List Byte) :
    s₀.keeps (if p then Piece.got s b else s.gather id c ps []).state := by
  split
  · exact h
  · exact h.gather _ _ _ _

theorem State.keeps.copyStep (h : s₀.keeps s) (id : Nat) (c : Cmd) : s₀.keeps (s.copyStep id c) := by
  unfold State.copyStep
  extract_lets +onlyGivenNames dst n fail
  have hfail : ∀ u st, s₀.keeps u → s₀.keeps (fail u st) := fun u st hu => hu.cmdDone _ _ _
  split
  · extract_lets +onlyGivenNames lost
    refine .ite (hfail _ _ h) (.ite (hfail _ _ h) ?_)
    extract_lets +onlyGivenNames p src
    have hsrc : s₀.keeps src.state := h.copySource _ _ _ _ _
    clear_value src
    cases src with
    | held t => exact hsrc
    | failed t st => exact hfail _ _ hsrc
    | got t b =>
      have ht : s₀.keeps t := hsrc
      dsimp only
      split
      · exact ht
      next u e => exact (ht.writeChunk _ _ _ _ _) u (congrArg (Option.map Prod.snd) e)
      next u e =>
        have hu : s₀.keeps u := (ht.writeChunk _ _ _ _ _) u (congrArg (Option.map Prod.snd) e)
        exact .chunkDone (.ite hu (hu.cmdRaise _ _)) _ _ _
  · exact hfail _ _ h

theorem Kept.execCopyEngineTile (h : s₀.keeps s) (half : Fin 2) : Kept s₀ (execCopyEngineTile half s) := by
  unfold Machine.execCopyEngineTile
  refine .ite (.next h) ?_
  split
  · exact .next h
  · exact .next ((h.still (by rfl)).copyStep _ _)

theorem State.keeps.endMig (h : s₀.keeps s) (m : Migration) : s₀.keeps (s.endMig m) :=
  (h.setMig _ _).advanceMigs

theorem State.keeps.afterMove (s : State) (h : s₀.keeps t) : s₀.keeps (s.afterMove t) :=
  .ite h.advanceMigs h

theorem State.keeps.sendTile (h : s₀.keeps s) (m : Migration) (p : Nat) (held moved : List Nat) (t : Nat) :
    s₀.keeps (s.sendTile m p held moved t) := by
  unfold State.sendTile
  refine .ite h ?_
  split
  · split
    next t1 e =>
      have ht1 : s₀.keeps t1 := (h.lift _).of_eq (congrArg eitherState e)
      exact ht1
    next t1 _ e =>
      have ht1 : s₀.keeps t1 := (h.lift _).of_eq (congrArg eitherState e)
      exact (ht1.toPeer _ _ _ _ _).setMig _ _
  · exact h

theorem Kept.execTileMove (h : s₀.keeps s) (tile : Nat) (data : List (BitVec 1024)) : Kept s₀ (execTileMove tile data s) := by
  unfold Machine.execTileMove
  split
  · exact .next h
  · split
    · split
      · exact .next (h.endMig _)
      · split
        · exact .next (h.endMig _)
        · exact .next (h.moveInSet _ _ _ _)
    · exact .next (h.moveInPage _ _ _ _ _ _ _ _ _)
    · exact .next ((h.moveBack _ _ _ _ _ _ _ _).afterMove _)
    · exact .next (h.sendTile _ _ _ _ _)
    · exact .next h
    · exact .next h
    · exact .next h

theorem Kept.execTileMoveCommit (h : s₀.keeps s) (tile : Nat) : Kept s₀ (execTileMoveCommit tile s) := by
  unfold Machine.execTileMoveCommit
  split
  · exact .next h
  · split
    · split
      · exact .next (h.endMig _)
      · split
        · exact .next (h.endMig _)
        · exact .next ((h.commitInSet _ _ _ _).afterMove _)
    · exact .next ((h.commitInPage _ _ _ _ _ _ _ _ _).afterMove _)
    · exact .next h
    · split
      next t e =>
        have ht : s₀.keeps t := (h.flush _).of_eq (congrArg Prod.snd e)
        exact .next ht
      next t e =>
        have ht : s₀.keeps t := (h.flush _).of_eq (congrArg Prod.snd e)
        extract_lets +onlyGivenNames rest rest1
        have hrest1 : s₀.keeps rest1 := ht.still rfl
        exact .next ((hrest1.rekey _).getD ht)
    · exact .ite (.next h) (.ite (.next (h.endMig _)) (.next (h.setMig _ _)))
    · exact .next h
    · exact .next (h.leaveNow _)

theorem State.keeps.writeWord (h : s₀.keeps s) (fn off v : Nat) : s₀.keeps (s.writeWord fn off v) :=
  .ite (h.setFn _ _) (.ite (h.setFn _ _) h)

theorem Kept.execRegisterWrite (h : s₀.keeps s) (fn : Fin 64) (rid : Option Nat) (off : BitVec 26) (data : List Byte) :
    Kept s₀ (execRegisterWrite fn rid off data s) := by
  unfold Machine.execRegisterWrite
  refine .inbound h _ _ _ ?_
  split
  · exact .ite h (h.setFn _ _)
  · exact .ite ((h.writeWord _ _ _).writeWord _ _ _) (.ite (h.writeWord _ _ _) h)

end Sys2Proof.Machine
end

section
/-! Every command keeps the machine sound (R540, R542): instructions, POUR, the stages of a start, and the dispatch over every command. -/

namespace Sys2Proof.Machine

/-- Every state that an instruction's body ends well in keeps. -/
def State.keepsRun (s : State) (e : Except Stop State) : Prop := ∀ t, e = .ok t → s.keeps t

section
variable {s₀ s t : State} {r : GroupRef} {i : Ins}

/-! ## Instructions -/

namespace State.keepsRun

theorem ok (h : s₀.keeps t) : s₀.keepsRun (.ok t) := by
  intro u e
  cases e
  exact h

theorem error (f : Stop) : s₀.keepsRun (.error f) := fun _ e => nomatch e

theorem ite {c : Prop} [Decidable c] {a b : Except Stop State} (ha : s₀.keepsRun a) (hb : s₀.keepsRun b) :
    s₀.keepsRun (if c then a else b) := by
  split
  · exact ha
  · exact hb

theorem bind {α : Type} {e : Except Stop α} {f : α → Except Stop State} (h : ∀ a, e = .ok a → s₀.keepsRun (f a)) :
    s₀.keepsRun (e >>= f) := by
  cases e with
  | error st => exact error st
  | ok a => exact h a rfl

end State.keepsRun

theorem Kept.issue (h : s₀.keeps s) {body : Ctx → Except Stop State} (hb : ∀ x, s.ctx? r i = some x → s₀.keepsRun (body x)) :
    Kept s₀ (issue r i body s) := by
  unfold Machine.issue
  split
  · exact .next h
  next x hx =>
    split
    · exact .next (h.endTask _ _ _)
    · split
      next t ht => exact .next (hb x hx t ht)
      · exact .next h
      · exact .next (h.endTask _ _ _)

theorem OnlyTask.keeps {k : Nat} (h : OnlyTask k s t) : s.keeps t :=
  (State.keeps.refl s).still ((congrArg State.kept h.frame).trans rfl)

/-- An instruction that changes only its task's work keeps the rest. -/
theorem Kept.instruction {c : GroupRef → Ins → Instr} (hc : Confines c) (r : GroupRef) (i : Ins) (s : State) :
    Kept s (exec (c r i) s) := by
  obtain ⟨body, he, hb⟩ := hc s r i
  rw [he]
  refine .issue (.refl s) fun x hx t ht => ?_
  obtain ⟨hs, -⟩ := ctx?_state hx
  exact hs ▸ (hb x hx t ht).only.keeps

theorem Kept.execReservedOpcode (h : s₀.keeps s) (g : GroupRef) : Kept s₀ (execReservedOpcode g s) :=
  .issue h fun _ _ => .error _

theorem Kept.execInstructionFetchFault (h : s₀.keeps s) (g : GroupRef) : Kept s₀ (execInstructionFetchFault g s) :=
  .issue h fun _ _ => .ite (.error _) (.error _)

/-! ## POUR -/

theorem ok_of_bind {α β : Type} {e : Except Stop α} {f : α → Except Stop β} {b : β} (h : (e >>= f) = .ok b) : ∃ a, f a = .ok b := by
  cases e with
  | error st => cases h
  | ok a => exact ⟨a, h⟩

theorem pourParams_state {x : Ctx} {n : Nat} {f : FrontRead} (h : s₀.keeps x.s) (hf : x.pourParams n = .ok f) : s₀.keeps f.state := by
  unfold Ctx.pourParams at hf
  split at hf
  · cases hf
    exact h
  · obtain ⟨a, hf⟩ := ok_of_bind hf
    obtain ⟨-, hf⟩ := ok_of_bind hf
    cases hf
    exact h.frontRead _ _ _ _ _ _

theorem Kept.execPour (h : s₀.keeps s) (r : GroupRef) (i : Ins) : Kept s₀ (execPour r i s) := by
  refine .issue h fun x hx => ?_
  obtain ⟨rfl, -⟩ := ctx?_state hx
  refine .ite (.ok (h.putGroup _ _)) (.bind fun g3 _ => .bind fun w _ => ?_)
  dsimp only
  split
  next c n _ _ =>
    refine .bind fun _ _ => .bind fun _ _ => .bind fun _ _ => .bind fun _ _ => .ite (.error _) (.bind fun f hf => ?_)
    have hs := pourParams_state h hf
    cases f with
    | wait s => exact .ok hs
    | stop s st d => exact .error _
    | got s params f => exact .ok (((((hs.raise _ _).still (by rfl)).setTask _ _).readyTask _ _).putGroup _ _)
  · exact .error _

/-! ## The stages of a start -/

/-- What the last stage of a start keeps: all that the other commands keep, but for the anti-rollback counter, which may rise. -/
def KeptAtStart (s : State) (o : Out) : Prop :=
  ∃ t, o = .next t ∧ t.pending = s.pending ∧ s.flash.nextSeq ≤ t.flash.nextSeq ∧ (s.sound → t.sound)
    ∧ ∃ n, s.fuses.rollback ≤ n ∧ t.fuses = { s.fuses with rollback := n }

theorem Kept.atStart {o : Out} (h : Kept s o) : KeptAtStart s o := by
  obtain ⟨t, ht, hp, hf, hn, hs⟩ := h
  exact ⟨t, ht, hp, hn, hs, s.fuses.rollback, Nat.le_refl _, hf⟩

theorem keptAtStart_stage13 (s : State) (fuse : Bool) : KeptAtStart s (.next (s.stage13 fuse)) := by
  by_cases hlt : s.fuses.rollback < s.fw.svn ∧ fuse = true
  · obtain ⟨hlt, rfl⟩ := hlt
    unfold State.stage13
    rw [if_pos hlt, if_pos rfl]
    exact ⟨_, rfl, rfl, Nat.le_refl _, id, s.fw.svn, Nat.le_of_lt hlt, rfl⟩
  · have hs : s.keeps (s.stage13 fuse) := by
      unfold State.stage13
      split
      next h =>
        rw [if_neg fun hf => hlt ⟨h, hf⟩]
        exact ((State.keeps.refl s).event _ _).still rfl
      · exact (State.keeps.refl s).still rfl
    exact (Kept.next hs).atStart

theorem keptAtStart_execStartStageAdvance (rep : StageReport) (s : State) : KeptAtStart s (execStartStageAdvance rep s) := by
  have h := State.keeps.refl s
  unfold execStartStageAdvance
  split
  · exact (Kept.next h).atStart
  · split
    · exact (Kept.next (.ite (h.stageTo _) (h.failStart _))).atStart
    · exact (Kept.next (.ite h.enterMinimal (h.stageTo _))).atStart
    · exact (Kept.next (.ite ((h.lockPlls _).stageTo _) (h.failStart _))).atStart
    · exact (Kept.next (.ite ((h.still (by rfl)).stageTo _) h)).atStart
    · exact (Kept.next (.ite ((h.still (by rfl)).stageTo _) ((h.still (by rfl)).failStart _))).atStart
    · exact (Kept.next (.ite (h.failStart _) (h.stage6 _))).atStart
    · exact (Kept.next h.stage7).atStart
    · exact (Kept.next (h.stage8 _)).atStart
    · exact (Kept.next h.stage9).atStart
    · exact (Kept.next (h.stage10 _)).atStart
    · exact (Kept.next (h.stage11 _)).atStart
    · exact (Kept.next ((h.still (by rfl)).stageTo _)).atStart
    · exact keptAtStart_stage13 s _
    · exact (Kept.next h).atStart

end

/-! ## Every command -/

theorem kept_exec (c : Instr) (s : State) (hc : ∀ rep, c ≠ .startStageAdvance rep) : Kept s (exec c s) := by
  cases c with
  | iadd g i | isub g i | imul g i | imulhiS g i | imulhiU g i | iminS g i | iminU g i | imaxS g i | imaxU g i | fadd g i | fsub g i
  | fmul g i | fmin g i | fmax g i | hadd2 g i | hsub2 g i | hmul2 g i | hmin2 g i | hmax2 g i | and g i | or g i | xor g i | shl g i
  | shrU g i | shrS g i | bfeU g i | bfeS g i =>
    exact .instruction (confines_valu2 fun _ _ _ => rfl) g i s
  | atomAddU32 g i | atomAddU64 g i | atomMinS32 g i | atomMinU32 g i | atomMaxS32 g i | atomMaxU32 g i | atomMinS64 g i
  | atomMinU64 g i | atomMaxS64 g i | atomMaxU64 g i | atomAndB32 g i | atomOrB32 g i | atomXorB32 g i | atomAndB64 g i | atomOrB64 g i
  | atomXorB64 g i | atomExchB32 g i | atomExchB64 g i | atomCasB32 g i | atomCasB64 g i | atomCasB128 g i | atomAddF32 g i
  | fxadd128 g i =>
    exact .instruction (confines_atomic fun _ _ _ => rfl) g i s
  | iabs g i | fabs g i | fneg g i | frint g i | ftrunc g i | ffloor g i | fceil g i | not g i | popc g i | clz g i | brev g i | mov g i
  | rcp g i | rsq g i | sqrt g i | ex2 g i | lg2 g i | sin g i | cos g i =>
    exact .instruction (confines_valu1 fun _ _ _ => rfl) g i s
  | uadd g i | usub g i | umul g i | uminS g i | uminU g i | umaxS g i | umaxU g i | uand g i | uor g i | uxor g i | ushl g i
  | ushrU g i | ushrS g i =>
    exact .instruction (confines_salu2 fun _ _ _ => rfl) g i s
  | atomsAdd g i | atomsMin g i | atomsMax g i | atomsExch g i | atomsCas g i =>
    exact .instruction (confines_localAtomic fun _ _ _ => rfl) g i s
  | imad g i | ffma g i | hfma2 g i | bfi g i =>
    exact .instruction (confines_valu3 fun _ _ _ => rfl) g i s
  | shflIdx g i | shflUp g i | shflDown g i | shflXor g i =>
    exact .instruction (confines_shuffle fun _ _ _ => rfl) g i s
  | mxfMma g i | mxfMmaR g i | mxfMmaMasked g i | mxfMmaRMasked g i =>
    exact .instruction (confines_mxfMma fun _ _ _ => rfl) g i s
  | iadd64 g i | isub64 g i =>
    exact .instruction (confines_valuPair fun _ _ _ => rfl) g i s
  | imadwU g i | imadwS g i =>
    exact .instruction (confines_valuWide fun _ _ _ => rfl) g i s
  | tld g i | tst g i =>
    exact .instruction (confines_tile fun _ _ _ => rfl) g i s
  | mxiMma g i | mxiMmaR g i =>
    exact .instruction (confines_mxiMma fun _ _ _ => rfl) g i s
  | barSync g i | barArrive g i =>
    exact .instruction (confines_barrier fun _ _ _ => rfl) g i s
  | isetp g i => exact .instruction confines_isetp g i s
  | isetp64 g i => exact .instruction confines_isetp64 g i s
  | fsetp g i => exact .instruction confines_fsetp g i s
  | sel g i => exact .instruction confines_sel g i s
  | plop g i => exact .instruction confines_plop g i s
  | p2v g i => exact .instruction confines_p2v g i s
  | v2p g i => exact .instruction confines_v2p g i s
  | mov64 g i => exact .instruction confines_mov64 g i s
  | s2v g i => exact .instruction confines_s2v g i s
  | cvt g i => exact .instruction confines_cvt g i s
  | cvt2 g i => exact .instruction confines_cvt2 g i s
  | voteAll g i => exact .instruction confines_voteAll g i s
  | voteAny g i => exact .instruction confines_voteAny g i s
  | voteBallot g i => exact .instruction confines_voteBallot g i s
  | umov g i => exact .instruction confines_umov g i s
  | uadd64 g i => exact .instruction confines_uadd64 g i s
  | umov64 g i => exact .instruction confines_umov64 g i s
  | usetp g i => exact .instruction confines_usetp g i s
  | usel g i => exact .instruction confines_usel g i s
  | s2u g i => exact .instruction confines_s2u g i s
  | laneToUniform g i => exact .instruction confines_laneToUniform g i s
  | ldp g i => exact .instruction confines_ldp g i s
  | ld g i => exact .instruction confines_ld g i s
  | st g i => exact .instruction confines_st g i s
  | prefetch g i => exact .instruction confines_prefetch g i s
  | lds g i => exact .instruction confines_lds g i s
  | sts g i => exact .instruction confines_sts g i s
  | mxiAclr g i => exact .instruction confines_mxiAclr g i s
  | mxiArd g i => exact .instruction confines_mxiArd g i s
  | mxiArd128 g i => exact .instruction confines_mxiArd128 g i s
  | mxiAld g i => exact .instruction confines_mxiAld g i s
  | mxfArd g i => exact .instruction confines_mxfArd g i s
  | semAcq g i => exact .instruction confines_semAcq g i s
  | semRel g i => exact .instruction confines_semRel g i s
  | fenceAcq g i => exact .instruction confines_fenceAcq g i s
  | fenceRel g i => exact .instruction confines_fenceRel g i s
  | fenceAr g i => exact .instruction confines_fenceAr g i s
  | lbxFence g i => exact .instruction confines_lbxFence g i s
  | nop g i => exact .instruction confines_nop g i s
  | bra g i => exact .instruction confines_bra g i s
  | brx g i => exact .instruction confines_brx g i s
  | call g i => exact .instruction confines_call g i s
  | ret g i => exact .instruction confines_ret g i s
  | joinPush g i => exact .instruction confines_joinPush g i s
  | join g i => exact .instruction confines_join g i s
  | exit g i => exact .instruction confines_exit g i s
  | wait g i => exact .instruction confines_wait g i s
  | tldTokenComplete op => exact .execTldTokenComplete (.refl s) op
  | tstTokenComplete op => exact .execTstTokenComplete (.refl s) op
  | mxuInstructionStart mxu entry => exact .execMxuInstructionStart (.refl s) mxu entry
  | mxuStep mxu check => exact .execMxuStep (.refl s) mxu check
  | mxiTokenComplete mxu entry => exact .execMxiTokenComplete (.refl s) mxu entry
  | accFootprintAcquire g => exact .execAccFootprintAcquire (.refl s) g
  | accFootprintEvict g => exact .execAccFootprintEvict (.refl s) g
  | pour g ins => exact .execPour (.refl s) g ins
  | semWake id => exact .execSemWake (.refl s) id
  | blockEnd b => exact .execBlockEnd (.refl s) b
  | blockStuck b => exact .execBlockStuck (.refl s) b
  | drain cmd core => exact .execDrain (.refl s) cmd core
  | taskKill task => exact .execTaskKill (.refl s) task
  | cmdNop id => exact .execCmdNop (.refl s) id
  | launch id => exact .execLaunch (.refl s) id
  | copy id => exact .execCopy (.refl s) id
  | fill id => exact .execFill (.refl s) id
  | semWait id => exact .execSemWait (.refl s) id
  | graphLoad id => exact .execGraphLoad (.refl s) id
  | graphPatch id => exact .execGraphPatch (.refl s) id
  | graphFree id => exact .execGraphFree (.refl s) id
  | commandFetch q host => exact .execCommandFetch (.refl s) q host
  | taskReady task => exact .execTaskReady (.refl s) task
  | blockPlace fe part save => exact .execBlockPlace (.refl s) fe part save
  | copyEngineTile half => exact .execCopyEngineTile (.refl s) half
  | completionWrite id rejected => exact .execCompletionWrite (.refl s) id rejected
  | signalSend id rejected => exact .execSignalSend (.refl s) id rejected
  | commandTimeout cmd => exact .execCommandTimeout (.refl s) cmd
  | drainBoundExpiry cmd => exact .execDrainBoundExpiry (.refl s) cmd
  | quantumExpiry part => exact .execQuantumExpiry (.refl s) part
  | switchOut b bad => exact .execSwitchOut (.refl s) b bad
  | saved b => exact .execSaved (.refl s) b
  | queueEnable fn rid q => exact .execQueueEnable (.refl s) fn rid q
  | queueDisable fn rid q => exact .execQueueDisable (.refl s) fn rid q
  | abort fn rid q => exact .execAbort (.refl s) fn rid q
  | doorbell fn rid q tail => exact .execDoorbell (.refl s) fn rid q tail
  | cqHeadWrite fn rid q head => exact .execCqHeadWrite (.refl s) fn rid q head
  | mbSubmit fn rid slots => exact .execMbSubmit (.refl s) fn rid slots
  | mbAck fn rid slots => exact .execMbAck (.refl s) fn rid slots
  | registerWrite fn rid off data => exact .execRegisterWrite (.refl s) fn rid off data
  | tumblerReadReject fn rid => exact .execTumblerReadReject (.refl s) fn rid
  | mailboxDispatch => exact .execMailboxDispatch (.refl s)
  | devStatus r => exact .execDevStatus (.refl s) r
  | fwStatus r => exact .execFwStatus (.refl s) r
  | logRead r => exact .execLogRead (.refl s) r
  | fwUpdate r image => exact .execFwUpdate (.refl s) r image
  | fwLoad r image => exact .execFwLoad (.refl s) r image
  | devRestart r => exact .execDevRestart (.refl s) r
  | mbSetLimit r => exact .execMbSetLimit (.refl s) r
  | pageMap r => exact .execPageMap (.refl s) r
  | pageUnmap r => exact .execPageUnmap (.refl s) r
  | pageQuery r => exact .execPageQuery (.refl s) r
  | sharedCreate r => exact .execSharedCreate (.refl s) r
  | sharedDestroy r => exact .execSharedDestroy (.refl s) r
  | quadSetL1 r => exact .execQuadSetL1 (.refl s) r
  | sliceDefine r => exact .execSliceDefine (.refl s) r
  | partCreate r => exact .execPartCreate (.refl s) r
  | partAddSlice r => exact .execPartAddSlice (.refl s) r
  | partRemoveSlice r => exact .execPartRemoveSlice (.refl s) r
  | partActivate r => exact .execPartActivate (.refl s) r
  | partQuiesce r => exact .execPartQuiesce (.refl s) r
  | partResume r => exact .execPartResume (.refl s) r
  | partDestroy r => exact .execPartDestroy (.refl s) r
  | partReconfigure r => exact .execPartReconfigure (.refl s) r
  | partRebindQuads r => exact .execPartRebindQuads (.refl s) r
  | partRebindChannels r => exact .execPartRebindChannels (.refl s) r
  | partStatus r => exact .execPartStatus (.refl s) r
  | devSetMigRate r => exact .execDevSetMigRate (.refl s) r
  | qCreate r => exact .execQCreate (.refl s) r
  | qDestroy r => exact .execQDestroy (.refl s) r
  | qShadowRead r => exact .execQShadowRead (.refl s) r
  | qStallAck r rejected sigRejected => exact .execQStallAck (.refl s) r rejected sigRejected
  | schedSet r => exact .execSchedSet (.refl s) r
  | schedStatus r => exact .execSchedStatus (.refl s) r
  | llcSetKeepQuota r => exact .execLlcSetKeepQuota (.refl s) r
  | llcKeepRelease r => exact .execLlcKeepRelease (.refl s) r
  | llcFlush r => exact .execLlcFlush (.refl s) r
  | memSetSpentPolicy r => exact .execMemSetSpentPolicy (.refl s) r
  | memTileState r => exact .execMemTileState (.refl s) r
  | memChannelStatus r => exact .execMemChannelStatus (.refl s) r
  | memChannelMapOut r => exact .execMemChannelMapOut (.refl s) r
  | memChannelAdmit r => exact .execMemChannelAdmit (.refl s) r
  | sharedLoad r host => exact .execSharedLoad (.refl s) r host
  | memSetMode r => exact .execMemSetMode (.refl s) r
  | hbmPprSoft r => exact .execHbmPprSoft (.refl s) r
  | hbmPprHard r => exact .execHbmPprHard (.refl s) r
  | hbmLaneMapRead r => exact .execHbmLaneMapRead (.refl s) r
  | hbmLaneMapWrite r => exact .execHbmLaneMapWrite (.refl s) r
  | hbmRowTest r => exact .execHbmRowTest (.refl s) r
  | hingeStatus r => exact .execHingeStatus (.refl s) r
  | hingeRetrain r => exact .execHingeRetrain (.refl s) r
  | poolCreate r => exact .execPoolCreate (.refl s) r
  | poolMap r twinFree => exact .execPoolMap (.refl s) r twinFree
  | poolUnmap r => exact .execPoolUnmap (.refl s) r
  | poolRecall r => exact .execPoolRecall (.refl s) r
  | poolLedger r => exact .execPoolLedger (.refl s) r
  | poolStatus r => exact .execPoolStatus (.refl s) r
  | ledgerScan r => exact .execLedgerScan (.refl s) r
  | twinPair r => exact .execTwinPair (.refl s) r
  | twinDetach r lacks => exact .execTwinDetach (.refl s) r lacks
  | twinAttach r => exact .execTwinAttach (.refl s) r
  | attachChunk => exact .execAttachChunk (.refl s)
  | twinForceSolo r reserved => exact .execTwinForceSolo (.refl s) r reserved
  | twinStatus r => exact .execTwinStatus (.refl s) r
  | vfBind r => exact .execVfBind (.refl s) r
  | vfUnbind r => exact .execVfUnbind (.refl s) r
  | vfStatus r => exact .execVfStatus (.refl s) r
  | tumblerAllow r => exact .execTumblerAllow (.refl s) r
  | tumblerRevoke r => exact .execTumblerRevoke (.refl s) r
  | hostWindowMap r => exact .execHostWindowMap (.refl s) r
  | hostWindowUnmap r => exact .execHostWindowUnmap (.refl s) r
  | dirtyLogStart r => exact .execDirtyLogStart (.refl s) r
  | dirtyLogSwap r => exact .execDirtyLogSwap (.refl s) r
  | dirtyLogStop r => exact .execDirtyLogStop (.refl s) r
  | lbxSetId r => exact .execLbxSetId (.refl s) r
  | lbxStatus r => exact .execLbxStatus (.refl s) r
  | lbxRetrain r => exact .execLbxRetrain (.refl s) r
  | lbxExport r => exact .execLbxExport (.refl s) r
  | lbxUnexport r => exact .execLbxUnexport (.refl s) r
  | lbxImport r => exact .execLbxImport (.refl s) r
  | secStatus r => exact .execSecStatus (.refl s) r
  | secPartEvict r => exact .execSecPartEvict (.refl s) r
  | secPartReport r => exact .execSecPartReport (.refl s) r
  | secPageQuery r => exact .execSecPageQuery (.refl s) r
  | dbgAuthorize r => exact .execDbgAuthorize (.refl s) r
  | dbgRevoke r => exact .execDbgRevoke (.refl s) r
  | dbgTraceStart r => exact .execDbgTraceStart (.refl s) r
  | dbgTraceStop r => exact .execDbgTraceStop (.refl s) r
  | pwrSetCap r => exact .execPwrSetCap (.refl s) r
  | pwrStatus r => exact .execPwrStatus (.refl s) r
  | pwrSetState r => exact .execPwrSetState (.refl s) r
  | errCounts r => exact .execErrCounts (.refl s) r
  | errInject r => exact .execErrInject (.refl s) r
  | mbLimitAdjust => exact .execMbLimitAdjust (.refl s)
  | fwHeartbeatTick => exact .execFwHeartbeatTick (.refl s)
  | fwWatchdogExpiry => exact .execFwWatchdogExpiry (.refl s)
  | rds q => exact .execRds (.refl s) q
  | rdo q => exact .execRdo (.refl s) q
  | rdna q => exact .execRdna (.refl s) q
  | rd q => exact .execRd (.refl s) q
  | wr q => exact .execWr (.refl s) q
  | wrp q => exact .execWrp (.refl s) q
  | atom q => exact .execAtom (.refl s) q
  | spent q => exact .execSpent (.refl s) q
  | semAcqRequest q => exact .execSemAcqRequest (.refl s) q
  | semRelRequest q => exact .execSemRelRequest (.refl s) q
  | snpInv peer line => exact .execSnpInv (.refl s) peer line
  | snpData peer line => exact .execSnpData (.refl s) peer line
  | h2dSnoop line inv => exact .execH2dSnoop (.refl s) line inv
  | rspI agent line => exact .execRspI (.refl s) agent line
  | rspS agent line => exact .execRspS (.refl s) agent line
  | rspNp agent line crossing => exact .execRspNp (.refl s) agent line crossing
  | rspFwd agent line data => exact .execRspFwd (.refl s) agent line data
  | wbData agent line data => exact .execWbData (.refl s) agent line data
  | birsp line shared => exact .execBirsp (.refl s) line shared
  | cmp m => exact .execCmp (.refl s) m
  | data id rep => exact .execData (.refl s) id rep
  | rdTile q => exact .execRdTile (.refl s) q
  | dataTile id state crcOk data => exact .execDataTile (.refl s) id state crcOk data
  | wrTile m data => exact .execWrTile (.refl s) m data
  | atomRsp id data => exact .execAtomRsp (.refl s) id data
  | semGrant id => exact .execSemGrant (.refl s) id
  | sig m value add => exact .execSig (.refl s) m value add
  | rspErr id => exact .execRspErr (.refl s) id
  | mcIssue pc => exact .execMcIssue (.refl s) pc
  | memReadComplete pc entry corrected bad also => exact .execMemReadComplete (.refl s) pc entry corrected bad also
  | halfReplicaRepair line => exact .execHalfReplicaRepair (.refl s) line
  | mirrorResync line twin => exact .execMirrorResync (.refl s) line twin
  | scrubPass => exact .execScrubPass (.refl s)
  | stackTempRead stack temp => exact .execStackTempRead (.refl s) stack temp
  | channelTrigger ch trigger => exact .execChannelTrigger (.refl s) ch trigger
  | tileMove tile data => exact .execTileMove (.refl s) tile data
  | tileMoveCommit tile => exact .execTileMoveCommit (.refl s) tile
  | bondedWord die chan parityOk => exact .execBondedWord (.refl s) die chan parityOk
  | bridgeFlit leaf toEnd1 seq ack rest => exact .execBridgeFlit (.refl s) leaf toEnd1 seq ack rest
  | bridgeNak leaf toEnd1 seq => exact .execBridgeNak (.refl s) leaf toEnd1 seq
  | widthOffer leaf end1 mask => exact .execWidthOffer (.refl s) leaf end1 mask
  | widthConfirm leaf end1 width groups => exact .execWidthConfirm (.refl s) leaf end1 width groups
  | leafTestDone leaf clean => exact .execLeafTestDone (.refl s) leaf clean
  | resetSeen leaf end1 => exact .execResetSeen (.refl s) leaf end1
  | sidebandSilence leaf => exact .execSidebandSilence (.refl s) leaf
  | leafReplayStorm leaf => exact .execLeafReplayStorm (.refl s) leaf
  | halfReset half1 => exact .execHalfReset (.refl s) half1
  | bucketResteer => exact .execBucketResteer (.refl s)
  | capabilityWord die word => exact .execCapabilityWord (.refl s) die word
  | referenceLost host => exact .execReferenceLost (.refl s) host
  | forwardedPairLost pair => exact .execForwardedPairLost (.refl s) pair
  | pllLockLost site => exact .execPllLockLost (.refl s) site
  | pllRelockEnd site ok => exact .execPllRelockEnd (.refl s) site ok
  | droopCrossing quad level => exact .execDroopCrossing (.refl s) quad level
  | droopLevelExit quad => exact .execDroopLevelExit (.refl s) quad
  | droopAllowanceExpiry die => exact .execDroopAllowanceExpiry (.refl s) die
  | powerEstimate die watts => exact .execPowerEstimate (.refl s) die watts
  | capPeriod => exact .execCapPeriod (.refl s)
  | voltagePeriod => exact .execVoltagePeriod (.refl s)
  | dieTempRead die temp => exact .execDieTempRead (.refl s) die temp
  | thermtrip => exact .execThermtrip (.refl s)
  | supplyFault => exact .execSupplyFault (.refl s)
  | sensorUpdate => exact .execSensorUpdate (.refl s)
  | idleEntry => exact .execIdleEntry (.refl s)
  | retainEntry => exact .execRetainEntry (.refl s)
  | selfRefreshReentry => exact .execSelfRefreshReentry (.refl s)
  | pfD3hot => exact .execPfD3hot (.refl s)
  | pfD0 => exact .execPfD0 (.refl s)
  | twinAliveInLow => exact .execTwinAliveInLow (.refl s)
  | twinAliveTimeout reserved => exact .execTwinAliveTimeout (.refl s) reserved
  | trunkSevered => exact .execTrunkSevered (.refl s)
  | lbxFlit port seq ack rest => exact .execLbxFlit (.refl s) port seq ack rest
  | lbxNak port seq => exact .execLbxNak (.refl s) port seq
  | lbxCtrlFlit port d peerPort twin versionOk lastSeq => exact .execLbxCtrlFlit (.refl s) port d peerPort twin versionOk lastSeq
  | lbxCodeword port corrected discarded => exact .execLbxCodeword (.refl s) port corrected discarded
  | lbxIdleTimer port => exact .execLbxIdleTimer (.refl s) port
  | lbxTrainingDone port half => exact .execLbxTrainingDone (.refl s) port half
  | lbxTrainingTimeout port => exact .execLbxTrainingTimeout (.refl s) port
  | lbxPortSilence port => exact .execLbxPortSilence (.refl s) port
  | lbxReplayStorm port => exact .execLbxReplayStorm (.refl s) port
  | peerLost dest => exact .execPeerLost (.refl s) dest
  | cxlMemRead hpa tag meta_ => exact .execCxlMemRead (.refl s) hpa tag meta_
  | cxlMemWrite hpa tag data mask => exact .execCxlMemWrite (.refl s) hpa tag data mask
  | hostCacheResponse line own data => exact .execHostCacheResponse (.refl s) line own data
  | hdmDecoderCommit base size => exact .execHdmDecoderCommit (.refl s) base size
  | vfEnableWrite on => exact .execVfEnableWrite (.refl s) on
  | flr fn => exact .execFlr (.refl s) fn
  | flrComplete fn => exact .execFlrComplete (.refl s) fn
  | pfFlr => exact .execPfFlr (.refl s)
  | hostLinkDown => exact .execHostLinkDown (.refl s)
  | ideInsecure stream => exact .execIdeInsecure (.refl s) stream
  | ideSecure => exact .execIdeSecure (.refl s)
  | pwrgdRise => exact .execPwrgdRise (.refl s)
  | pwrgdFall => exact .execPwrgdFall (.refl s)
  | perstAssert => exact .execPerstAssert (.refl s)
  | perstRelease => exact .execPerstRelease (.refl s)
  | coldRstAssert => exact .execColdRstAssert (.refl s)
  | coldRstRelease => exact .execColdRstRelease (.refl s)
  | start => exact .execStart (.refl s)
  | startStageAdvance rep => exact absurd rfl (hc rep)
  | startWatchdog => exact .execStartWatchdog (.refl s)
  | flashWriteComplete => exact .execFlashWriteComplete (.refl s)
  | bypass => exact .execBypass (.refl s)
  | idcode => exact .execIdcode (.refl s)
  | samplePreload => exact .execSamplePreload (.refl s)
  | extest => exact .execExtest (.refl s)
  | unlock token => exact .execUnlock (.refl s) token
  | debugHalt core halt => exact .execDebugHalt (.refl s) core halt
  | debugStateAccess g target write => exact .execDebugStateAccess (.refl s) g target write
  | debugMemoryAccess part va write => exact .execDebugMemoryAccess (.refl s) part va write
  | debugWindowExpiry => exact .execDebugWindowExpiry (.refl s)
  | getMeasurements index => exact .execGetMeasurements (.refl s) index
  | challenge nonce => exact .execChallenge (.refl s) nonce
  | getCertificate slot => exact .execGetCertificate (.refl s) slot
  | keyExchange => exact .execKeyExchange (.refl s)
  | ideKm session stream => exact .execIdeKm (.refl s) session stream
  | entdaa addr => exact .execEntdaa (.refl s) addr
  | mctpControl => exact .execMctpControl (.refl s)
  | pldmSensorRead sensor => exact .execPldmSensorRead (.refl s) sensor
  | queryDeviceIdentifiers => exact .execQueryDeviceIdentifiers (.refl s)
  | getFirmwareParameters => exact .execGetFirmwareParameters (.refl s)
  | pldmUnsupported => exact .execPldmUnsupported (.refl s)
  | hostLinkUp => exact .execHostLinkUp (.refl s)
  | twinAliveInHigh => exact .execTwinAliveInHigh (.refl s)
  | powerRemoved => exact .execPowerRemoved (.refl s)
  | clockUnitFault => exact .execClockUnitFault (.refl s)
  | reservedOpcode g => exact .execReservedOpcode (.refl s) g
  | instructionFetchFault g => exact .execInstructionFetchFault (.refl s) g

theorem keptAtStart_exec (c : Instr) (s : State) : KeptAtStart s (exec c s) := by
  by_cases hc : ∃ rep, c = .startStageAdvance rep
  · obtain ⟨rep, rfl⟩ := hc
    exact keptAtStart_execStartStageAdvance rep s
  · exact (kept_exec c s fun rep h => hc ⟨rep, h⟩).atStart

/-- A step runs the front command on a state that is as sound as before, and the grade's quads do not depend on the counter. -/
theorem step_sound {s t : State} (hs : s.sound) (h : step s = .next t) :
    t.sound ∧ t.pending = s.pending.tail ∧ t.fuses.wf = s.fuses.wf := by
  unfold step at h
  split at h
  next hnil =>
    cases h
    exact ⟨hs, by rw [hnil]; rfl, rfl⟩
  next c rest hcons =>
    obtain ⟨u, hu, hp, -, hsound, n, -, hf⟩ := keptAtStart_exec c { s with pending := rest }
    cases hu.symm.trans h
    exact ⟨hsound hs, by rw [hp, hcons]; rfl, by rw [hf]; rfl⟩

/-- Settles O60: every operation keeps, so every command does; only the last stage of a start raises a fuse. -/
theorem everyCommandKeepsTheMachineSound : Obligations.EveryCommandKeepsTheMachineSound :=
  ⟨kept_exec, keptAtStart_execStartStageAdvance, fun _ _ => step_sound⟩

end Sys2Proof.Machine
end
